-- ==== Sys2Proof/Word.lean ====
section
/-!
DEFINITION. The word types of the PB25 and their plainest arithmetic.
-/

namespace Sys2Proof

/-- A control-space register, an address register, a virtual or global address (R579, R65). -/
abbrev Word := BitVec 64

/-- A lane of a v register, a scalar register (R65). -/
abbrev Lane := BitVec 32

/-- The smallest addressable unit of every memory of the device (R4). -/
abbrev Byte := BitVec 8

/-- The field [lo + w - 1 : lo] of a number (R4). -/
def bitsOf (x lo w : Nat) : Nat := x / 2 ^ lo % 2 ^ w

/-- Bit b of a number. -/
def bitOf (x b : Nat) : Bool := x / 2 ^ b % 2 == 1

/-- The number 1 for true and 0 for false. -/
def b2n (b : Bool) : Nat := if b then 1 else 0

/-- A number with its field [lo + w - 1 : lo] replaced. -/
def putBits (x lo w v : Nat) : Nat := x - bitsOf x lo w * 2 ^ lo + v % 2 ^ w * 2 ^ lo

/-- A w-bit number read as two's complement. -/
def sgn (w x : Nat) : Int := if bitOf x (w - 1) then (x % 2 ^ w : Nat) - (2 ^ w : Nat) else (x % 2 ^ w : Nat)

/-- The low w bits of an integer in two's complement. -/
def unsgn (w : Nat) (x : Int) : Nat := (x % (2 ^ w : Nat)).toNat

/-- The number whose little-endian bytes a list holds (R4). -/
def leBytes : List Byte → Nat
  | [] => 0
  | b :: bs => b.toNat + 256 * leBytes bs

/-- The n little-endian bytes of a number (R4). -/
def toLe : Nat → Nat → List Byte
  | 0, _ => []
  | n + 1, x => BitVec.ofNat 8 x :: toLe n (x / 256)

/-- The index of the lowest set bit among the low n bits of a number, or n. -/
def lowestBit (n x : Nat) : Nat := ((List.range n).find? (fun b => bitOf x b)).getD n

/-- The number of set bits among the low n bits of a number. -/
def popcount (n x : Nat) : Nat := ((List.range n).filter (fun b => bitOf x b)).length

end Sys2Proof
end

