-- ==== Sys2Proof/Syntax.lean ====
section
/-!
DEFINITION. The commands of the PB25: one constructor for each row of spec/opcode_table.json, in the table's order, with
the operands the command carries.
-/

namespace Sys2Proof

/-- A unit that issues Oahan instructions (R128): CE c of physical troupe t, courier context k (context k mod 16 of courier
k div 16), or control core n. -/
inductive Agent where
  | ce (t : Fin 6400) (c : Fin 48)
  | ctx (k : Fin 4096)
  | core (n : Fin 16)
  deriving DecidableEq, Repr

/-- R449: the array in which a codeword with wrong bits is met: the store at an offset, a line's directory entry, an on-device agent's copy of a line, troupe SRAM at
393,216 t + address, a live Prompt Book frame, a courier context's staging slots, a switch buffer cell, the instruction store of a CE of a troupe. -/
inductive Arr where
  | store (off : BitVec 53)
  | dir (line : BitVec 54)
  | cache (a : Fin 25) (line : BitVec 54)
  | sram (addr : BitVec 32)
  | book (f : Fin 128)
  | slot (k : Fin 4096)
  | cell (n : Fin 262144)
  | code (t : Fin 6400)
  deriving DecidableEq, Repr

/-- R350, R359: what an on-device agent's answer or EVICT names: its line and, with ERR = 1, what the agent met (message code, state). -/
structure Ack where
  line : BitVec 54
  err : Option (Byte × Byte)
  deriving DecidableEq, Repr

/-- R254 to R257: what a LOAN message says: a loan offered by a lender entry with its size exponent, the answer with the borrower's
window (none: refused), a notice of the end cue, a release. -/
inductive LoanMsg where
  | offer (i : Fin 16) (log2 : BitVec 6)
  | reply (i : Fin 16) (w : Option (Fin 16))
  | notice (w : Fin 16) (endCue : BitVec 48)
  | release (i : Fin 16)
  deriving DecidableEq, Repr

/-- R259, R260: what a mirror write carries: one line of the unit with its dead-letter marks, or the initial copy of the unit with
those of its 8,192 codewords. -/
inductive MirrorMsg where
  | line (i : Fin 1024) (x : BitVec 512) (marks : Byte)
  | whole (bs : List (BitVec 8)) (marks : BitVec 8192)
  deriving DecidableEq, Repr

/-- R482: a configuration request of port H: a read of a base address register (0 BAR0, 1 BAR2, 2 BAR4), of the enables (memory space,
D3hot, MSI-X enable and function mask, in bits 0 to 3) or of another dword; a write of one of them. -/
inductive CfgReq where
  | readBar (k : Fin 3)
  | readEnables
  | readOther (dword : Fin 1024)
  | writeBar (k : Fin 3) (base : BitVec 64)
  | writeCommand (memorySpace : Bool)
  | writePower (d3hot : Bool)
  | writeMsix (enable functionMask : Bool)
  | writeOther (dword : Fin 1024)
  deriving DecidableEq, Repr

/-- R490: what a DOE request carries: discovery, an SPDM message (whose command is its own row), or IDE key management of a stream: a
query, keys programmed, a stream started, a stream stopped. -/
inductive DoeMsg where
  | discovery (index : BitVec 8)
  | spdm
  | ideQuery (stream : Fin 16)
  | keyProg (stream : Fin 16)
  | keyGo (stream : Fin 16)
  | keyStop (stream : Fin 16)
  deriving DecidableEq, Repr

/-- The commands of spec/opcode_table.json. -/
inductive Instr where
  /-- CUE_START (R40). -/
  | cueStart
  /-- LEDGER_ROUTE_RESET (R460). -/
  | ledgerRouteReset (p : Fin 16)
  /-- WORK_START (R40). -/
  | workStart
  /-- GUARD_START (R39). -/
  | guardStart
  /-- STAGED_WRITE (R51). -/
  | stagedWrite (h : Fin 18) (off : Fin 0x2000000) (x : Word)
  /-- CS_CHECK_GO (R51). -/
  | csCheckGo (h : Fin 18)
  /-- CHECK_DONE (R55). -/
  | checkDone
  /-- CS_TAKE_CUE_WRITE (R53). -/
  | csTakeCueWrite (h : Fin 18) (step : Bool) (cue : BitVec 48)
  /-- CS_ABANDON_GO (R51). -/
  | csAbandonGo (h : Fin 18)
  /-- CUE_SYNC (R37). -/
  | cueSync (sender : Fin 64) (count : BitVec 48) (ofs : BitVec 21) (step : Lane) (roundTrip : BitVec 16) (skewNs : BitVec 16)
  /-- UNIT_START (R148). -/
  | unitStart (t : Fin 6400) (unit : BitVec 16)
  /-- DELIVERY_MISS (R43). -/
  | deliveryMiss (t : Fin 6400) (unit : BitVec 16)
  /-- COMPLETION_MISS (R43). -/
  | completionMiss (t : Fin 6400) (unit : BitVec 16)
  /-- UNDERSTUDY_LEAD_MISS (R278). -/
  | understudyLeadMiss (t : Fin 6400) (unit : BitVec 16)
  /-- MESH_PARCEL_ARRIVAL (R78). -/
  | meshParcelArrival (t : Fin 6400) (dir : Fin 5) (head : BitVec 128) (body : BitVec 512)
  /-- HOP_CREDIT_RETURN (R81). -/
  | hopCreditReturn (t : Fin 6400) (dir : Fin 6) (vl : Fin 4)
  /-- CRED_PARCEL (R83). -/
  | credParcel (t : Fin 6400) (pairs : List (Fin 64 × BitVec 13))
  /-- CANCEL (R87). -/
  | cancelParcel (t : Fin 6400) (route : Fin 64) (unit : BitVec 16) (cue : Byte) (delivery : Bool)
  /-- STATUS_RECORD_ARRIVAL (R276). -/
  | statusRecordArrival (t : Fin 6400) (unit : BitVec 16) (status : Byte)
  /-- CE_LOGIC_FAULT (R88). -/
  | ceLogicFault (t : Fin 6400)
  /-- TRP_RETIRE_GO (R89). -/
  | trpRetireGo (h : Fin 18) (t : Fin 6400)
  /-- CLOCK_GATE (R541). -/
  | clockGate (r : Fin 160)
  /-- NOP (R150). -/
  | nop (u : Agent) (f : BitVec 52)
  /-- END (R150). -/
  | endUnit (u : Agent) (f : BitVec 52)
  /-- BR (R150). -/
  | br (u : Agent) (f : BitVec 52)
  /-- BRZ (R150). -/
  | brz (u : Agent) (f : BitVec 52)
  /-- BRNZ (R150). -/
  | brnz (u : Agent) (f : BitVec 52)
  /-- CALL (R150). -/
  | call (u : Agent) (f : BitVec 52)
  /-- RET (R150). -/
  | retn (u : Agent) (f : BitVec 52)
  /-- LOOP (R150). -/
  | loop (u : Agent) (f : BitVec 52)
  /-- WAITCUE (R152). -/
  | waitcue (u : Agent) (f : BitVec 52)
  /-- WAITCUE_RESUME (R152). -/
  | waitcueResume (u : Agent)
  /-- DLBR (R153). -/
  | dlbr (u : Agent) (f : BitVec 52)
  /-- MFS (R130). -/
  | mfs (u : Agent) (f : BitVec 52)
  /-- MTS (R130). -/
  | mts (u : Agent) (f : BitVec 52)
  /-- SEND (R155). -/
  | send (u : Agent) (f : BitVec 52)
  /-- RECV (R156). -/
  | recv (u : Agent) (f : BitVec 52)
  /-- CREDQ (R82). -/
  | credq (u : Agent) (f : BitVec 52)
  /-- RXQ (R156). -/
  | rxq (u : Agent) (f : BitVec 52)
  /-- PAND (R174). -/
  | pand (u : Agent) (f : BitVec 52)
  /-- POR (R174). -/
  | por (u : Agent) (f : BitVec 52)
  /-- PXOR (R174). -/
  | pxor (u : Agent) (f : BitVec 52)
  /-- PANDN (R174). -/
  | pandn (u : Agent) (f : BitVec 52)
  /-- PNOT (R174). -/
  | pnot (u : Agent) (f : BitVec 52)
  /-- PANY (R174). -/
  | pany (u : Agent) (f : BitVec 52)
  /-- PCNT (R174). -/
  | pcnt (u : Agent) (f : BitVec 52)
  /-- PFIRST (R174). -/
  | pfirst (u : Agent) (f : BitVec 52)
  /-- ADD (R175). -/
  | add (u : Agent) (f : BitVec 52)
  /-- SUB (R175). -/
  | sub (u : Agent) (f : BitVec 52)
  /-- MUL (R175). -/
  | mul (u : Agent) (f : BitVec 52)
  /-- MULH (R175). -/
  | mulh (u : Agent) (f : BitVec 52)
  /-- AND (R175). -/
  | andS (u : Agent) (f : BitVec 52)
  /-- OR (R175). -/
  | orS (u : Agent) (f : BitVec 52)
  /-- XOR (R175). -/
  | xorS (u : Agent) (f : BitVec 52)
  /-- SHL (R175). -/
  | shl (u : Agent) (f : BitVec 52)
  /-- SHR (R175). -/
  | shr (u : Agent) (f : BitVec 52)
  /-- SRA (R175). -/
  | sra (u : Agent) (f : BitVec 52)
  /-- MIN (R175). -/
  | min (u : Agent) (f : BitVec 52)
  /-- MAX (R175). -/
  | max (u : Agent) (f : BitVec 52)
  /-- SLT (R175). -/
  | slt (u : Agent) (f : BitVec 52)
  /-- SEQ (R175). -/
  | seq (u : Agent) (f : BitVec 52)
  /-- CLZ (R175). -/
  | clz (u : Agent) (f : BitVec 52)
  /-- POPC (R175). -/
  | popc (u : Agent) (f : BitVec 52)
  /-- ADDI (R176). -/
  | addi (u : Agent) (f : BitVec 52)
  /-- MULI (R176). -/
  | muli (u : Agent) (f : BitVec 52)
  /-- ANDI (R176). -/
  | andi (u : Agent) (f : BitVec 52)
  /-- ORI (R176). -/
  | ori (u : Agent) (f : BitVec 52)
  /-- XORI (R176). -/
  | xori (u : Agent) (f : BitVec 52)
  /-- SHLI (R176). -/
  | shli (u : Agent) (f : BitVec 52)
  /-- SHRI (R176). -/
  | shri (u : Agent) (f : BitVec 52)
  /-- SRAI (R176). -/
  | srai (u : Agent) (f : BitVec 52)
  /-- SLTI (R176). -/
  | slti (u : Agent) (f : BitVec 52)
  /-- SLTIU (R176). -/
  | sltiu (u : Agent) (f : BitVec 52)
  /-- SEQI (R176). -/
  | seqi (u : Agent) (f : BitVec 52)
  /-- LI (R176). -/
  | li (u : Agent) (f : BitVec 52)
  /-- AADD (R177). -/
  | aadd (u : Agent) (f : BitVec 52)
  /-- ASUB (R177). -/
  | asub (u : Agent) (f : BitVec 52)
  /-- AADDS (R177). -/
  | aadds (u : Agent) (f : BitVec 52)
  /-- ASHL (R177). -/
  | ashl (u : Agent) (f : BitVec 52)
  /-- ASHR (R177). -/
  | ashr (u : Agent) (f : BitVec 52)
  /-- AAND (R177). -/
  | aand (u : Agent) (f : BitVec 52)
  /-- AOR (R177). -/
  | aor (u : Agent) (f : BitVec 52)
  /-- AXOR (R177). -/
  | axor (u : Agent) (f : BitVec 52)
  /-- ALTU (R177). -/
  | altu (u : Agent) (f : BitVec 52)
  /-- AEQ (R177). -/
  | aeq (u : Agent) (f : BitVec 52)
  /-- AADDI (R177). -/
  | aaddi (u : Agent) (f : BitVec 52)
  /-- ALO (R177). -/
  | alo (u : Agent) (f : BitVec 52)
  /-- AHI (R177). -/
  | ahi (u : Agent) (f : BitVec 52)
  /-- S2A (R178). -/
  | s2a (u : Agent) (f : BitVec 52)
  /-- A2S (R178). -/
  | a2s (u : Agent) (f : BitVec 52)
  /-- V2S (R178). -/
  | v2s (u : Agent) (f : BitVec 52)
  /-- S2V (R178). -/
  | s2v (u : Agent) (f : BitVec 52)
  /-- VMOV (R178). -/
  | vmov (u : Agent) (f : BitVec 52)
  /-- S2P (R178). -/
  | s2p (u : Agent) (f : BitVec 52)
  /-- P2S (R178). -/
  | p2s (u : Agent) (f : BitVec 52)
  /-- SMOV (R178). -/
  | smov (u : Agent) (f : BitVec 52)
  /-- AMOV (R178). -/
  | amov (u : Agent) (f : BitVec 52)
  /-- VADD (R179). -/
  | vadd (u : Agent) (f : BitVec 52)
  /-- VSUB (R179). -/
  | vsub (u : Agent) (f : BitVec 52)
  /-- VMUL (R179). -/
  | vmul (u : Agent) (f : BitVec 52)
  /-- VMULH (R179). -/
  | vmulh (u : Agent) (f : BitVec 52)
  /-- VMIN (R179). -/
  | vmin (u : Agent) (f : BitVec 52)
  /-- VMAX (R179). -/
  | vmax (u : Agent) (f : BitVec 52)
  /-- VAND (R179). -/
  | vand (u : Agent) (f : BitVec 52)
  /-- VOR (R179). -/
  | vor (u : Agent) (f : BitVec 52)
  /-- VXOR (R179). -/
  | vxor (u : Agent) (f : BitVec 52)
  /-- VSHL (R179). -/
  | vshl (u : Agent) (f : BitVec 52)
  /-- VSHR (R179). -/
  | vshr (u : Agent) (f : BitVec 52)
  /-- VSRA (R179). -/
  | vsra (u : Agent) (f : BitVec 52)
  /-- VCMP (R179). -/
  | vcmp (u : Agent) (f : BitVec 52)
  /-- VADDS (R179). -/
  | vadds (u : Agent) (f : BitVec 52)
  /-- VPOPC (R179). -/
  | vpopc (u : Agent) (f : BitVec 52)
  /-- VFADD (R180). -/
  | vfadd (u : Agent) (f : BitVec 52)
  /-- VFSUB (R180). -/
  | vfsub (u : Agent) (f : BitVec 52)
  /-- VFMUL (R180). -/
  | vfmul (u : Agent) (f : BitVec 52)
  /-- VFMA (R180). -/
  | vfma (u : Agent) (f : BitVec 52)
  /-- VFMIN (R181). -/
  | vfmin (u : Agent) (f : BitVec 52)
  /-- VFMAX (R181). -/
  | vfmax (u : Agent) (f : BitVec 52)
  /-- VFABS (R180). -/
  | vfabs (u : Agent) (f : BitVec 52)
  /-- VFNEG (R180). -/
  | vfneg (u : Agent) (f : BitVec 52)
  /-- VFCMP (R180). -/
  | vfcmp (u : Agent) (f : BitVec 52)
  /-- VFEXP2 (R181). -/
  | vfexp2 (u : Agent) (f : BitVec 52)
  /-- VFLOG2 (R181). -/
  | vflog2 (u : Agent) (f : BitVec 52)
  /-- VFRCP (R181). -/
  | vfrcp (u : Agent) (f : BitVec 52)
  /-- VFRSQ (R181). -/
  | vfrsq (u : Agent) (f : BitVec 52)
  /-- VFSQRT (R181). -/
  | vfsqrt (u : Agent) (f : BitVec 52)
  /-- VFSCL (R180). -/
  | vfscl (u : Agent) (f : BitVec 52)
  /-- CVT (R182). -/
  | cvt (u : Agent) (f : BitVec 52)
  /-- DEC (R183). -/
  | dec (u : Agent) (f : BitVec 52)
  /-- QMX (R184). -/
  | qmx (u : Agent) (f : BitVec 52)
  /-- QPS4 (R184). -/
  | qps4 (u : Agent) (f : BitVec 52)
  /-- VBCAST (R185). -/
  | vbcast (u : Agent) (f : BitVec 52)
  /-- VSPLAT (R185). -/
  | vsplat (u : Agent) (f : BitVec 52)
  /-- VPERM (R185). -/
  | vperm (u : Agent) (f : BitVec 52)
  /-- VROT (R185). -/
  | vrot (u : Agent) (f : BitVec 52)
  /-- VMINL (R185). -/
  | vminl (u : Agent) (f : BitVec 52)
  /-- VSUML (R185). -/
  | vsuml (u : Agent) (f : BitVec 52)
  /-- TDOT (R186). -/
  | tdot (u : Agent) (f : BitVec 52)
  /-- TDOTB (R186). -/
  | tdotb (u : Agent) (f : BitVec 52)
  /-- TDOTS (R186). -/
  | tdots (u : Agent) (f : BitVec 52)
  /-- TADD (R186). -/
  | tadd (u : Agent) (f : BitVec 52)
  /-- TBASE (R190). -/
  | tbase (u : Agent) (f : BitVec 52)
  /-- TMERGE (R191). -/
  | tmerge (u : Agent) (f : BitVec 52)
  /-- TPACK (R190). -/
  | tpack (u : Agent) (f : BitVec 52)
  /-- TCVT (R121). -/
  | tcvt (u : Agent) (f : BitVec 52)
  /-- TSTORE (R190). -/
  | tstore (u : Agent) (f : BitVec 52)
  /-- XPOPL (R192). -/
  | xpopl (u : Agent) (f : BitVec 52)
  /-- HDIST (R192). -/
  | hdist (u : Agent) (f : BitVec 52)
  /-- LDV (R193). -/
  | ldv (u : Agent) (f : BitVec 52)
  /-- LDVI (R193). -/
  | ldvi (u : Agent) (f : BitVec 52)
  /-- LDW (R193). -/
  | ldw (u : Agent) (f : BitVec 52)
  /-- LDA (R193). -/
  | lda (u : Agent) (f : BitVec 52)
  /-- LDG (R193). -/
  | ldg (u : Agent) (f : BitVec 52)
  /-- LDP (R193). -/
  | ldp (u : Agent) (f : BitVec 52)
  /-- STV (R194). -/
  | stv (u : Agent) (f : BitVec 52)
  /-- STVI (R194). -/
  | stvi (u : Agent) (f : BitVec 52)
  /-- STW (R194). -/
  | stw (u : Agent) (f : BitVec 52)
  /-- STA (R194). -/
  | sta (u : Agent) (f : BitVec 52)
  /-- STSC (R194). -/
  | stsc (u : Agent) (f : BitVec 52)
  /-- TBAR (R196). -/
  | tbar (u : Agent) (f : BitVec 52)
  /-- PBV (R197). -/
  | pbv (u : Agent) (f : BitVec 52)
  /-- PBVI (R197). -/
  | pbvi (u : Agent) (f : BitVec 52)
  /-- PBW (R197). -/
  | pbw (u : Agent) (f : BitVec 52)
  /-- PBG (R197). -/
  | pbg (u : Agent) (f : BitVec 52)
  /-- GLD (R199). -/
  | gld (u : Agent) (f : BitVec 52)
  /-- GST (R199). -/
  | gst (u : Agent) (f : BitVec 52)
  /-- GQ (R198). -/
  | gq (u : Agent) (f : BitVec 52)
  /-- GMEM_COMPLETE (R199). -/
  | gmemComplete (t : Fin 6400) (c : Fin 48) (n : Fin 8)
  /-- ATOM_AADD (R203). -/
  | atomAadd (u : Agent) (f : BitVec 52)
  /-- AMIN (R203). -/
  | amin (u : Agent) (f : BitVec 52)
  /-- AMAX (R203). -/
  | amax (u : Agent) (f : BitVec 52)
  /-- ATOM_AAND (R203). -/
  | atomAand (u : Agent) (f : BitVec 52)
  /-- ATOM_AOR (R203). -/
  | atomAor (u : Agent) (f : BitVec 52)
  /-- ATOM_AXOR (R203). -/
  | atomAxor (u : Agent) (f : BitVec 52)
  /-- ASWAP (R203). -/
  | aswap (u : Agent) (f : BitVec 52)
  /-- ACAS (R203). -/
  | acas (u : Agent) (f : BitVec 52)
  /-- ACAS128 (R203). -/
  | acas128 (u : Agent) (f : BitVec 52)
  /-- ATOM_COMPLETE (R204). -/
  | atomComplete (u : Agent) (n : Fin 32)
  /-- SLOAD (R205). -/
  | sload (u : Agent) (f : BitVec 52)
  /-- SSTORE (R205). -/
  | sstore (u : Agent) (f : BitVec 52)
  /-- SDLV (R205). -/
  | sdlv (u : Agent) (f : BitVec 52)
  /-- SLDV (R205). -/
  | sldv (u : Agent) (f : BitVec 52)
  /-- SSTV (R205). -/
  | sstv (u : Agent) (f : BitVec 52)
  /-- SUNIT (R205). -/
  | sunit (u : Agent) (f : BitVec 52)
  /-- DCMP (R207). -/
  | dcmp (u : Agent) (f : BitVec 52)
  /-- ENC (R287). -/
  | enc (u : Agent) (f : BitVec 52)
  /-- PTRX (R322). -/
  | ptrx (u : Agent) (f : BitVec 52)
  /-- CRC64 (R207). -/
  | crc64 (u : Agent) (f : BitVec 52)
  /-- EVCLAIM (R519). -/
  | evclaim (u : Agent) (f : BitVec 52)
  /-- EVCLAIM_COMMIT (R519). -/
  | evclaimCommit (c : Fin 16)
  /-- EVDONE (R520). -/
  | evdone (u : Agent) (f : BitVec 52)
  /-- WFE (R208). -/
  | wfe (u : Agent) (f : BitVec 52)
  /-- WFE_WAKE (R524). -/
  | wfeWake (c : Fin 16) (timeout : Bool)
  /-- RAISE (R526). -/
  | raise (u : Agent) (f : BitVec 52)
  /-- FENCE (R208). -/
  | fence (u : Agent) (f : BitVec 52)
  /-- LD64 (R209). -/
  | ld64 (u : Agent) (f : BitVec 52)
  /-- ST64 (R209). -/
  | st64 (u : Agent) (f : BitVec 52)
  /-- LD32 (R209). -/
  | ld32 (u : Agent) (f : BitVec 52)
  /-- ST32 (R209). -/
  | st32 (u : Agent) (f : BitVec 52)
  /-- LDL (R209). -/
  | ldl (u : Agent) (f : BitVec 52)
  /-- STL (R209). -/
  | stl (u : Agent) (f : BitVec 52)
  /-- DELIVER (R274). -/
  | deliver (k : Fin 4096)
  /-- FRAME_ENTRY (R277). -/
  | frameEntry (k : Fin 4096)
  /-- COURIER_D_DEL (R278). -/
  | courierDDel (k : Fin 4096) (entry : BitVec 10)
  /-- COURIER_READ_COMPLETE (R288). -/
  | courierReadComplete (k : Fin 4096)
  /-- IN_TRANSIT_RETRY (R288). -/
  | inTransitRetry (k : Fin 4096)
  /-- CRR_RESUME (R289). -/
  | crrResume (h : Fin 18) (k : Fin 4096)
  /-- CRR_ABANDON (R289). -/
  | crrAbandon (h : Fin 18) (k : Fin 4096)
  /-- CRR_RESTART (R289). -/
  | crrRestart (h : Fin 18) (k : Fin 4096)
  /-- POOL_FAULT_TIMEOUT (R313). -/
  | poolFaultTimeout (k : Fin 4096)
  /-- TABLE_READ_COMPLETE (R304). -/
  | tableReadComplete (n : Fin 64)
  /-- TLBI_ALL (R314). -/
  | tlbiAll (h : Fin 18)
  /-- TLBI_PART (R314). -/
  | tlbiPart (h : Fin 18) (p : Fin 16)
  /-- TLBI_VA (R314). -/
  | tlbiVa (h : Fin 18) (p : Fin 16) (count : Lane)
  /-- TLBI_IPA (R314). -/
  | tlbiIpa (h : Fin 18) (p : Fin 16) (count : Lane)
  /-- TLBI_COMPLETE (R315). -/
  | tlbiComplete
  /-- STM_HINT_GO (R245). -/
  | stmHintGo (h : Fin 18) (first count : BitVec 29) (hint : Fin 8) (mirror : Bool)
  /-- MIGRATION_COMPLETE (R243). -/
  | migrationComplete (u : BitVec 29)
  /-- STAGE_ONLY_ZEROED (R239). -/
  | stageOnlyZeroed
  /-- LEND (R254). -/
  | lend (h : Fin 18) (entry : Fin 16)
  /-- NOTICE (R256). -/
  | notice (h : Fin 18) (entry : Fin 16) (endCue : BitVec 48)
  /-- RELEASE (R257). -/
  | release (h : Fin 18) (w : Fin 16)
  /-- LOAN (R254). -/
  | loanMsg (src : Fin 64) (m : LoanMsg)
  /-- LOAN_END (R256). -/
  | loanEnd (lender : Bool) (entry : Fin 16)
  /-- LOAN_ZEROING_DONE (R257). -/
  | loanZeroingDone (entry : Fin 16)
  /-- CHANNEL_FAILED (R249). -/
  | channelFailed (ch : Fin 32) (half : Fin 3) (done : Lane)
  /-- REBUILD_COMPLETE (R250). -/
  | rebuildComplete (ch : Fin 32)
  /-- COPYBACK_COMPLETE (R253). -/
  | copybackComplete (ch : Fin 32)
  /-- MIRROR_WR (R259). -/
  | mirrorWr (src : Fin 64) (id : BitVec 16) (unit : BitVec 29) (step : Lane) (m : MirrorMsg)
  /-- SCRUB (R450). -/
  | scrub (arr : Arr) (cw : Fin 8) (bits : Fin 4)
  /-- ERROR_WINDOW_START (R451). -/
  | errorWindowStart
  /-- RD_S (R357). -/
  | rdS (a : Fin 25) (line : BitVec 54) (part : Fin 17)
  /-- RD_X (R357). -/
  | rdX (a : Fin 25) (line : BitVec 54) (part : Fin 17)
  /-- UPG (R357). -/
  | upg (a : Fin 25) (line : BitVec 54) (part : Fin 17)
  /-- RD_ONCE (R357). -/
  | rdOnce (r : Fin 5) (line : BitVec 54) (part : Fin 17)
  /-- WR_LINE (R357). -/
  | wrLine (r : Fin 5) (line : BitVec 54) (part : Fin 17) (x : BitVec 512) (marks : Byte)
  /-- WR_PART (R357). -/
  | wrPart (r : Fin 5) (line : BitVec 54) (part : Fin 17) (mask : Word) (x : BitVec 512)
  /-- ATOMIC (R343). -/
  | cohAtomic (r : Fin 38) (line : BitVec 54) (part : Fin 17) (off : Fin 64) (minor : Fin 9) (wide8 : Bool) (ta rm : Fin 4) (srw : Lane) (opnd cmp : BitVec 128)
  /-- TIER_DATA_RETURN (R357). -/
  | tierDataReturn (line : BitVec 54)
  /-- SNP_SHR (R352). -/
  | snpShr (a : Fin 25) (line : BitVec 54) (r : Fin 34)
  /-- SNP_INV (R352). -/
  | snpInv (a : Fin 25) (line : BitVec 54) (r : Fin 34) (nodata : Bool)
  /-- SNP_INV_HOME (R352). -/
  | snpInvHome (a : Fin 25) (line : BitVec 54) (r : Fin 34)
  /-- SNP_ONCE (R352). -/
  | snpOnce (a : Fin 25) (line : BitVec 54) (r : Fin 34)
  /-- SNP_SHR_HOME (R352). -/
  | snpShrHome (a : Fin 25) (line : BitVec 54) (r : Fin 34)
  /-- ACK_I (R359). -/
  | ackI (a : Fin 25) (line : BitVec 54) (err : Option (Byte × Byte))
  /-- ACK_I_D (R359). -/
  | ackID (a : Fin 25) (m : Ack)
  /-- ACK_S_D (R359). -/
  | ackSD (a : Fin 25) (m : Ack)
  /-- ACK_KEEP (R359). -/
  | ackKeep (a : Fin 25) (m : Ack)
  /-- EVICT (R359). -/
  | evict (a : Fin 25) (m : Ack)
  /-- WB_DATA (R359). -/
  | wbData (a : Fin 25) (line : BitVec 54) (x : BitVec 512) (marks : Byte)
  /-- DATA_HOME (R359). -/
  | dataHome (a : Fin 25) (line : BitVec 54) (x : BitVec 512) (marks : Byte)
  /-- GNT (R352). -/
  | gnt (a : Fin 25) (line : BitVec 54)
  /-- DATA_S (R352). -/
  | dataS (a : Fin 25) (line : BitVec 54) (x : BitVec 512) (marks : Byte)
  /-- DATA_F (R352). -/
  | dataF (a : Fin 25) (line : BitVec 54) (x : BitVec 512) (marks : Byte)
  /-- DATA_E (R352). -/
  | dataE (a : Fin 25) (line : BitVec 54) (x : BitVec 512) (marks : Byte)
  /-- DATA_M (R352). -/
  | dataM (a : Fin 25) (line : BitVec 54) (x : BitVec 512) (marks : Byte)
  /-- DATA_ONCE (R332). -/
  | dataOnce (r : Fin 38) (line : BitVec 54) (x : BitVec 512) (marks : Byte)
  /-- DATA_ATOM (R343). -/
  | dataAtom (r : Fin 38) (line : BitVec 54) (old : BitVec 128) (status : Byte)
  /-- AGENT_LOAD (R352). -/
  | agentLoad (a : Fin 25) (line : BitVec 54)
  /-- AGENT_STORE (R352). -/
  | agentStore (a : Fin 25) (line : BitVec 54) (mask : Word) (x : BitVec 512)
  /-- AGENT_REPLACEMENT (R352). -/
  | agentReplacement (a : Fin 25) (line : BitVec 54)
  /-- HOLD_END (R335). -/
  | holdEnd (a : Fin 25) (line : BitVec 54)
  /-- MEMRD (R361). -/
  | memrd (g : Fin 8) (hpa : Word) (mv : Fin 3)
  /-- MEMINV (R336). -/
  | meminv (g : Fin 8) (hpa : Word) (mv : Fin 3)
  /-- MEMWR (R361). -/
  | memwr (g : Fin 8) (hpa : Word) (mv : Fin 3) (x : BitVec 512) (poison : Bool)
  /-- MEMWRPTL (R361). -/
  | memwrptl (g : Fin 8) (hpa : Word) (mv : Fin 3) (mask : Word) (x : BitVec 512) (poison : Bool)
  /-- BIRSP (R362). -/
  | birsp (g : Fin 8) (line : BitVec 54) (kind : Fin 3)
  /-- BICONFLICT (R338). -/
  | biconflict (g : Fin 8) (line : BitVec 54)
  /-- OTHER_M2S_OPCODE (R487). -/
  | otherM2sOpcode (g : Fin 8) (hpa : Word) (write : Bool)
  /-- BI_TIMEOUT (R339). -/
  | biTimeout (g : Fin 8)
  /-- EDGE_AGENT_LOST (R340). -/
  | edgeAgentLost (g : Fin 8)
  /-- AGENT_SWEEP_COMPLETE (R340). -/
  | agentSweepComplete (g : Fin 8)
  /-- COH_AGENT_REARM (R341). -/
  | cohAgentRearm (h : Fin 18) (n : Fin 33)
  /-- HDM_DECODER_COMMIT (R318). -/
  | hdmDecoderCommit (g : Fin 8) (k : Fin 4) (base size : BitVec 36) (ways : Fin 16)
  /-- EFH_PORT_EN (R368). -/
  | efhPortEn (h : Fin 18) (n : Fin 18) (en : Bool)
  /-- TRAIN_COMPLETE (R368). -/
  | trainComplete (n : Fin 18)
  /-- TRAIN_TIMEOUT (R368). -/
  | trainTimeout (n : Fin 18)
  /-- ALIGN_LOCK (R368). -/
  | alignLock (n : Fin 18)
  /-- ALIGN_TIMEOUT (R368). -/
  | alignTimeout (n : Fin 18)
  /-- NEGOTIATE (R368). -/
  | negotiate (n : Fin 18) (level : Fin 16) (dev : Fin 64)
  /-- FEC_LOCK_LOSS (R368). -/
  | fecLockLoss (n : Fin 18)
  /-- FLIT_RECEIVE (R366). -/
  | flitReceive (n : Fin 18) (f : BitVec 2048) (fec : BitVec 16)
  /-- NAK (R367). -/
  | nak (n : Fin 18) (ack : BitVec 16)
  /-- RD (R376). -/
  | fabricRd (src : Fin 64) (part : Fin 16) (id : BitVec 16) (line : BitVec 54) (fwd : Bool)
  /-- WR (R376). -/
  | fabricWr (src : Fin 64) (part : Fin 16) (id : BitVec 16) (line : BitVec 54) (x : BitVec 512) (marks : Byte) (fwd : Bool)
  /-- FABRIC_WR_PART (R376). -/
  | fabricWrPart (src : Fin 64) (part : Fin 16) (id : BitVec 16) (line : BitVec 54) (mask : Word) (x : BitVec 512) (fwd : Bool)
  /-- ATOM (R376). -/
  | fabricAtom (src : Fin 64) (part : Fin 16) (id : BitVec 16) (line : BitVec 54) (off : Fin 64) (minor : Fin 9) (wide8 : Bool) (ta : Fin 4) (opnd cmp : Word) (fwd : Bool)
  /-- RSP (R373). -/
  | fabricRsp (src : Fin 64) (id : BitVec 16) (status marks : Byte) (data : BitVec 512) (fwd : Bool)
  /-- PARCEL (R215). -/
  | fabricParcel (p : BitVec 640)
  /-- CRED (R392). -/
  | fabricCred (src : Fin 64) (entries : List (BitVec 13 × Fin 64 × BitVec 13))
  /-- CTRL_RD (R372). -/
  | ctrlRd (src : Fin 64) (id : BitVec 16) (off : Fin 0x4000000) (wide8 : Bool)
  /-- CTRL_WR (R372). -/
  | ctrlWr (src : Fin 64) (id : BitVec 16) (off : Fin 0x4000000) (wide8 : Bool) (x : Word)
  /-- REQUEST_RESEND_TIMEOUT (R453). -/
  | requestResendTimeout (id : BitVec 16)
  /-- OFFER (R378). -/
  | offer (n : Fin 4096)
  /-- OFFER_MSG (R378). -/
  | offerMsg (src : Fin 64) (part : Fin 16) (id : BitVec 16) (region : Word) (epoch : Lane) (rdev : Fin 64) (rpart : Fin 16) (fwd : Bool)
  /-- OFFER_FWD (R378). -/
  | offerFwd (src : Fin 64) (region : Word) (epoch : Lane) (fromDev : Fin 64) (fromPart toPart : Fin 16)
  /-- ACCEPT (R379). -/
  | accept (n : Fin 4096)
  /-- ACCEPT_MSG (R379). -/
  | acceptMsg (src : Fin 64) (part : Fin 16) (id : BitVec 16) (region : Word) (epoch : Lane)
  /-- GRANT (R379). -/
  | grant (src : Fin 64) (kind : Fin 4) (part : Fin 16) (id : BitVec 16) (region : Word) (status : Byte) (epoch : Lane)
  /-- OFFER_QUERY (R380). -/
  | offerQuery (entry : Fin 4096)
  /-- QUERY (R380). -/
  | query (src : Fin 64) (region : Word) (epoch : Lane)
  /-- QUERY_REPLY (R380). -/
  | queryReply (src : Fin 64) (region : Word) (epoch : Lane) (logged : Bool)
  /-- PUBLISH (R382). -/
  | publish (n : Fin 4096)
  /-- PUBLISH_MSG (R382). -/
  | publishMsg (src : Fin 64) (part : Fin 16) (id : BitVec 16) (region : Word) (epoch : Lane) (mode : Byte) (fwd : Bool)
  /-- REGION_INVAL (R377). -/
  | regionInval (src : Fin 64) (region : Word) (log2 : BitVec 6)
  /-- INVAL_ACK (R377). -/
  | invalAck (src : Fin 64) (region : Word)
  /-- REGION_SET (R387). -/
  | regionSet (h : Fin 18) (entry : Fin 4096) (pga : BitVec 39) (log2 : BitVec 6) (dev : Fin 64) (part : Fin 16)
  /-- REGION_CLEAR (R387). -/
  | regionClear (h : Fin 18) (entry : Fin 4096)
  /-- REGION_FORWARD (R387). -/
  | regionForward (h : Fin 18) (entry : Fin 4096) (target : BitVec 39)
  /-- FORWARD_DRAINED (R383). -/
  | forwardDrained (entry : Fin 4096)
  /-- SWITCH_INPUT_ARRIVAL (R393). -/
  | switchInputArrival (inp : Fin 20) (p : BitVec 640)
  /-- TOKEN_REFILL (R401). -/
  | tokenRefill
  /-- MULTICAST_COPY (R403). -/
  | multicastCopy (inp : Fin 20)
  /-- TALLY_MERGE (R405). -/
  | tallyMerge
  /-- SWEEP_END (R409). -/
  | sweepEnd
  /-- GATHER (R414). -/
  | gather (n k : Fin 4096)
  /-- SCATTER_ADD (R418). -/
  | scatterAdd (n k : Fin 4096)
  /-- ROW_PUT (R420). -/
  | rowPut (n k : Fin 4096)
  /-- ROW_LOOKUP (R421). -/
  | rowLookup (src : Fin 64) (part : Fin 16) (id : BitVec 16) (n : Lane) (table : Fin 64) (row : BitVec 40)
  /-- HOT_ROW_LANDED (R426). -/
  | hotRowLanded (table : Fin 64) (row : BitVec 40) (data : List Byte) (marks : BitVec 512)
  /-- EMB_FORWARD_DRAINED (R426). -/
  | embForwardDrained (k : Fin 1024)
  /-- SEARCH (R435). -/
  | searchOrder (n k : Fin 4096)
  /-- SEARCH_TASK (R442). -/
  | searchTask (src : Fin 64) (part : Fin 16) (id : BitVec 16) (q : Lane) (index shard : Fin 64) (clsR : Bool) (k : BitVec 11) (w : BitVec 13) (probes : BitVec 17) (require exclude : Word) (code : BitVec 2048)
  /-- SEARCH_SPILL (R444). -/
  | searchSpill (t : Fin 6400)
  /-- SHARD_RESULT (R437). -/
  | shardResult (id : BitVec 16) (q : Lane) (shard : Fin 64) (dead : Bool) (visited skipped : Lane) (list : List (BitVec 16 × BitVec 48 × Lane))
  /-- POSTCARD (R463). -/
  | postcard (src : Fin 64) (cue : BitVec 48) (ofs : BitVec 21) (flags : Byte) (coord : Fin 64) (heard suspect verdict rhSuspect rhVerdict : Word) (skewPs : BitVec 32)
  /-- SUSPECT (R463). -/
  | suspect (j : Fin 64)
  /-- QUORUM_LOSS (R467). -/
  | quorumLoss
  /-- RESTORE_GO (R473). -/
  | restoreGo (h : Fin 18) (slots : List (Option (List (BitVec 512 × Byte))))
  /-- RESTORE_DONE (R473). -/
  | restoreDone
  /-- RSL_ADMIT_GO (R474). -/
  | rslAdmitGo (h : Fin 18)
  /-- SELFTEST_DONE (R474). -/
  | selftestDone (pass : Bool)
  /-- ADMIT (R503). -/
  | admitOrder (n : Fin 4096) (failed : Bool)
  /-- REHEARSAL_INJECTION (R478). -/
  | rehearsalInjection
  /-- MEMORY_READ (R484). -/
  | memoryRead (addr : Word) (n : BitVec 12)
  /-- MEMORY_WRITE (R484). -/
  | memoryWrite (addr : Word) (bs : List (Byte × Bool)) (poison : Bool)
  /-- UNSUPPORTED_REQUEST (R482). -/
  | unsupportedRequest
  /-- CONFIGURATION_REQUEST (R482). -/
  | configurationRequest (c : CfgReq)
  /-- DOE (R490). -/
  | doeRequest (port : Fin 9) (m : DoeMsg)
  /-- FLR (R486). -/
  | flr
  /-- HOT_RESET (R486). -/
  | hotReset
  /-- DL_DOWN (R486). -/
  | dlDown
  /-- PERST (R551). -/
  | perst (assert : Bool)
  /-- HOST_LINK_UP (R483). -/
  | hostLinkUp (rate width : Fin 4)
  /-- IDE_FAILURE (R490). -/
  | ideFailure (port : Fin 9) (stream : Fin 16)
  /-- IDENTIFY_MEMORY_DEVICE (R487). -/
  | identifyMemoryDevice (g : Fin 8)
  /-- GET_PARTITION_INFO (R487). -/
  | getPartitionInfo (g : Fin 8)
  /-- GET_HEALTH_INFO (R487). -/
  | getHealthInfo (g : Fin 8)
  /-- GET_SUPPORTED_LOGS (R487). -/
  | getSupportedLogs (g : Fin 8)
  /-- GET_LOG (R487). -/
  | getLog (g : Fin 8) (uuid : BitVec 128) (offset length : Lane)
  /-- GET_EVENT_RECORDS (R487). -/
  | getEventRecords (g : Fin 8) (log : Fin 5)
  /-- CLEAR_EVENT_RECORDS (R487). -/
  | clearEventRecords (g : Fin 8) (log : Fin 5) (all : Bool) (n : Byte)
  /-- MAILBOX_UNSUPPORTED (R487). -/
  | mailboxUnsupported (g : Fin 8) (opcode : BitVec 16)
  /-- OUTBOX_NOTICE (R493). -/
  | outboxNotice (p : Fin 16) (box : Fin 64)
  /-- WORK_ORDER_FETCH (R495). -/
  | workOrderFetch (p : Fin 16) (box : Fin 64)
  /-- INBOX_HEAD_WRITE (R508). -/
  | inboxHeadWrite (p : Fin 16) (j : Fin 64)
  /-- RUN_PLAN (R505). -/
  | runPlan (n : Fin 4096)
  /-- COPY (R499). -/
  | copyOrder (n k : Fin 4096)
  /-- FILL (R499). -/
  | fillOrder (n k : Fin 4096)
  /-- CALL_SHEET (R501). -/
  | callSheet (n k : Fin 4096)
  /-- RESUME (R502). -/
  | resumeOrder (n : Fin 4096)
  /-- EVENT_EDGE (R516). -/
  | eventEdge (id : BitVec 11)
  /-- EVENT_RETRACT (R517). -/
  | eventRetract (id : BitVec 11)
  /-- EVC_PENDING_CLEAR (R516). -/
  | evcPendingClear (h : Fin 18) (w : Fin 32) (mask : Word)
  /-- EVC_RAISE_WRITE (R526). -/
  | evcRaiseWrite (h : Fin 18) (id : BitVec 11)
  /-- TARGET_SIGNAL (R522). -/
  | targetSignal (t : Fin 528) (gap old : Bool)
  /-- CORE_HANDLER_ENTRY (R523). -/
  | coreHandlerEntry (c : Fin 16)
  /-- SM_CORE_RESTART (R514). -/
  | smCoreRestart (h : Fin 18) (c : Fin 16)
  /-- STAGE_DOOR_CORE_RESTART (R514). -/
  | stageDoorCoreRestart
  /-- SMX_XQ_RD_WRITE (R515). -/
  | smxXqRdWrite (h : Fin 18) (rd : BitVec 16)
  /-- REFCLK_LOSS (R531). -/
  | refclkLoss
  /-- REFCLK_RETURN (R531). -/
  | refclkReturn (volts : BitVec 16)
  /-- PLL_LOCK_LOSS (R532). -/
  | pllLockLoss (die : Fin 25)
  /-- PLL_RELOCK (R532). -/
  | pllRelock
  /-- CLK_MUX_CMD_GO (R538). -/
  | clkMuxCmdGo (h : Fin 18) (region : Fin 224) (inp : Fin 5) (window : Option (BitVec 10)) (hang : Bool)
  /-- MUX_HUNG (R539). -/
  | muxHung (r : Fin 224)
  /-- DOMAIN_CYCLE_COMPLETE (R539). -/
  | domainCycleComplete (r : Fin 224)
  /-- CLK_FCNT_GO (R549). -/
  | clkFcntGo (h : Fin 18) (window : BitVec 16) (region : Fin 224) (inp : Fin 6)
  /-- CLK_FCNT_DONE (R549). -/
  | clkFcntDone (count : BitVec 24)
  /-- PWR_ACTIVE (R543). -/
  | pwrActive (h : Fin 18)
  /-- PWR_IDLE (R543). -/
  | pwrIdle (h : Fin 18)
  /-- PWR_DOZE (R543). -/
  | pwrDoze (h : Fin 18)
  /-- PWR_REST (R543). -/
  | pwrRest (h : Fin 18)
  /-- STAGE_DOOR_ROUND (R544). -/
  | stageDoorRound (temps volts : List Byte) (input amps : BitVec 16)
  /-- TRIP_RECOVERY (R547). -/
  | tripRecovery
  /-- INPUT_OVERVOLTAGE_DISCONNECT (R593). -/
  | inputOvervoltageDisconnect
  /-- UNDERVOLTAGE_LOCKOUT (R591). -/
  | undervoltageLockout
  /-- COLD_RESET (R550). -/
  | coldReset
  /-- WARM_RESET (R550). -/
  | warmReset (cause : Fin 8)
  /-- SEC_RESET_COLD (R550). -/
  | secResetCold (h : Fin 18)
  /-- SEC_RESET_WARM (R550). -/
  | secResetWarm (h : Fin 18)
  /-- BOOT_DONE (R553). -/
  | bootDone (fails : BitVec 6)
  /-- STORE_READY (R553). -/
  | storeReady
  /-- IMG_WRITE (R563). -/
  | imgWrite (h : Fin 18) (kind : Fin 4)
  /-- IMG_ARM (R563). -/
  | imgArm (h : Fin 18) (kind : Fin 4) (cue : BitVec 48)
  /-- IMG_COMMIT (R563). -/
  | imgCommit (h : Fin 18) (kind : Fin 4)
  /-- IMG_SVN (R558). -/
  | imgSvn (h : Fin 18) (kind : Fin 4)
  /-- SEC_CAL_GO (R567). -/
  | secCalGo (h : Fin 18) (port : Fin 18) (lanes : BitVec 4)
  /-- CAL_DONE (R567). -/
  | calDone
  /-- WC_DRAIN (R568). -/
  | wcDrain (h : Fin 18) (ch : Fin 32) (done : Lane)
  /-- WC_POWER_OFF (R568). -/
  | wcPowerOff (h : Fin 18) (ch : Fin 32)
  /-- WC_RETRAIN (R568). -/
  | wcRetrain (h : Fin 18) (ch : Fin 32) (ok : Bool)
  /-- GET_VERSION (R562). -/
  | getVersion (via : Fin 10)
  /-- GET_CAPABILITIES (R562). -/
  | getCapabilities (via : Fin 10)
  /-- NEGOTIATE_ALGORITHMS (R562). -/
  | negotiateAlgorithms (via : Fin 10) (offered : Bool)
  /-- GET_DIGESTS (R562). -/
  | getDigests (via : Fin 10)
  /-- GET_CERTIFICATE (R562). -/
  | getCertificate (via : Fin 10) (slot : Fin 8) (offset length : BitVec 16)
  /-- CHALLENGE (R562). -/
  | challenge (via : Fin 10) (slot : Fin 8) (nonce : BitVec 256)
  /-- GET_MEASUREMENTS (R562). -/
  | getMeasurements (via : Fin 10) (index : Byte) (sign : Bool)
  /-- KEY_EXCHANGE (R562). -/
  | keyExchange (via : Fin 10) (share : BitVec 768)
  /-- FINISH (R562). -/
  | finish (via : Fin 10) (id : Lane) (good : Bool)
  /-- HEARTBEAT (R562). -/
  | heartbeat (via : Fin 10) (id : Lane)
  /-- KEY_UPDATE (R562). -/
  | keyUpdate (via : Fin 10) (id : Lane)
  /-- END_SESSION (R562). -/
  | endSession (via : Fin 10) (id : Lane)
  /-- MCTP_CONTROL_ACCESS (R583). -/
  | mctpControlAccess (word : Fin 0x800000) (x : Option Word)
  /-- HPT_CFG_BAR2_WRITE (R485). -/
  | hptCfgBar2Write (h : Fin 18) (v : BitVec 6)
  /-- PB_STAGED_DATA_WRITE (R228). -/
  | pbStagedDataWrite (h : Fin 18) (f : Fin 128) (word : Fin 128) (x : Word)
  /-- PBK_FRAME_STAGE_WRITE (R228). -/
  | pbkFrameStageWrite (h : Fin 18) (f : Fin 128) (owner : Fin 16) (cond done : Bool) (tag : Lane)
  /-- REGISTER_WRITE (R7). -/
  | registerWrite (h : Fin 18) (off : Fin 0x2000000) (x : Word)
  /-- BYPASS (R598). -/
  | bypass
  /-- IDCODE (R598). -/
  | idcode
  /-- SAMPLE_PRELOAD (R598). -/
  | samplePreload (cells : List Byte)
  /-- EXTEST (R599). -/
  | extest
  /-- CLAMP (R599). -/
  | clamp
  /-- HIGHZ (R599). -/
  | highz
  /-- EXTEST_PULSE (R598). -/
  | extestPulse
  /-- EXTEST_TRAIN (R598). -/
  | extestTrain
  /-- TEST_LOGIC_RESET (R599). -/
  | testLogicReset
  /-- EDGE_LINK_UP (R487). -/
  | edgeLinkUp (g : Fin 8) (rate : Fin 3) (width : Fin 4)
  /-- EDGE_PORT_EN (R511). -/
  | edgePortEn (h : Fin 18) (k : Fin 4) (en : Bool)
  /-- CELL_TIME_MATCH (R400). -/
  | cellTimeMatch
  /-- ROW_RESULT (R417). -/
  | rowResult (id : BitVec 16) (n : Lane) (status : Byte) (data : List Byte)
  /-- ROW_UPDATE (R418). -/
  | rowUpdate (src : Fin 64) (part : Fin 16) (id : BitVec 16) (n : Lane) (table : Fin 64) (row : BitVec 40) (kind : Fin 3) (base : BitVec 10) (f32 : Bool) (data : List Byte) (dead : Bool)
  deriving DecidableEq, Repr

end Sys2Proof
end

