-- ==== Sys2Proof/Config.lean ====
section
/-!
DEFINITION. What the spec leaves free: constants with no body, of which nothing can be proved but what holds of every
value. Each is named in a log entry under notes/assumptions.
-/

namespace Sys2Proof.Config

/-- The value of the n-th open choice, read at the width its use needs (log entry 2). -/
opaque freeValue : Nat → Nat

/-- Whether a signature (29,792 B of SLH-DSA-SHAKE-256s) over a message verifies with a public key, all as numbers (R555; log entry 50). -/
opaque sigValid : Nat → Nat → Nat → Bool

/-- The SHAKE256 digest of the public key fused for a key slot (R557; log entry 50). -/
opaque keyDigest : Nat → Nat

/-- The key slots that the payload of a kind 1 image names for revocation, as a mask, by the image's DIGEST: the spec does not give how a payload
names a slot (R557; log entry 50). -/
opaque revokes : Nat → Nat

/-- Whether an event is forwarded to the Stage Door's MCTP endpoint, which the spec does not say (R588; log entry 90). -/
opaque alerts : Nat → Bool

/-- The certificate chain of slot 0 that was written at manufacture, a byte each (R560; log entry 50). -/
opaque certChain : List Nat

end Sys2Proof.Config
end

