-- ==== Sys2Proof/Machine/Flags.lean ====
section
/-!
DEFINITION. The five sticky arithmetic flags and DL (R106, R130), as the bits of FLAGS, and the carry-limited integer
results that set SAT.
-/

namespace Sys2Proof.Machine

/-- R106, R130: bits of the special register FLAGS, named from high to low as bits run (R14; log entry 51, DEDUCED). -/
def flNV : Nat := 16
/-- R106: overflow. -/
def flOF : Nat := 8
/-- R106: underflow. -/
def flUF : Nat := 4
/-- R106: inexact. -/
def flNX : Nat := 2
/-- R106: limited to max finite or to an integer limit. -/
def flSAT : Nat := 1
/-- R131: dead-letter data has been read. -/
def flDL : Nat := 32

/-- The OR of a list of flag words. -/
def orAll (l : List Nat) : Nat := l.foldl (· ||| ·) 0

/-- R175, R179: an exact integer limited to the range of INT32 (signed) or UINT32, with SAT when limited. -/
def limit32 (signed : Bool) (x : Int) : Nat × Nat :=
  let lo : Int := if signed then -(2 ^ 31 : Nat) else 0
  let hi : Int := if signed then (2 ^ 31 : Nat) - 1 else (2 ^ 32 : Nat) - 1
  if x < lo then (unsgn 32 lo, flSAT) else if hi < x then (unsgn 32 hi, flSAT) else (unsgn 32 x, 0)

/-- A 32-bit value read by TA: 0 signed, 1 unsigned (R175). -/
def byTA (ta : Nat) (x : Nat) : Int := if ta = 0 then sgn 32 x else ((x % 2 ^ 32 : Nat) : Int)

end Sys2Proof.Machine
end

