-- ==== Sys2Proof/Machine/Float.lean ====
section
/-!
DEFINITION. The element formats of R94 to R101, the one rounding of R103 to R105, stochastic rounding (R123, R124), the
conversions, and the exactly rounded functions of R181. Every operation computes the exact result first; a result that is
not a dyadic number is given by the floor of its magnitude at any scale.
-/

namespace Sys2Proof.Machine

/-- R94: a floating-point element format. special 0: Inf and NaN; 1: E4M3's NaN; 2: no special value. -/
structure Fmt where
  ebits : Nat
  mbits : Nat
  bias : Nat
  special : Nat
  deriving DecidableEq, Repr

/-- A decoded value: m times 2^e with a sign, an infinity, or NaN (R97 treats every NaN alike). -/
inductive FV where
  | nan
  | inf (neg : Bool)
  | fin (neg : Bool) (m : Nat) (e : Int)
  deriving DecidableEq, Repr

/-- R94: the format of a type code of R134 (for block types, of its elements). -/
def fmtOf (ty : Nat) : Fmt :=
  if ty = 2 then ⟨8, 23, 127, 0⟩
  else if ty = 3 then ⟨5, 10, 15, 0⟩
  else if ty = 4 then ⟨8, 7, 127, 0⟩
  else if ty = 5 ∨ ty = 11 then ⟨5, 2, 15, 0⟩
  else if ty = 6 ∨ ty = 10 then ⟨4, 3, 7, 1⟩
  else if ty = 12 then ⟨3, 2, 3, 2⟩
  else if ty = 13 then ⟨2, 3, 1, 2⟩
  else ⟨2, 1, 1, 2⟩

/-- The width in bits of one element of a type code of R134. -/
def tyBits (ty : Nat) : Nat :=
  if ty ≤ 2 ∨ ty = 17 then 32
  else if ty = 3 ∨ ty = 4 then 16
  else if ty = 12 ∨ ty = 13 then 6
  else if ty = 8 ∨ ty = 9 ∨ ty = 14 ∨ ty = 16 then 4
  else 8

/-- R94: the value of a code. -/
def decodeF (F : Fmt) (x : Nat) : FV :=
  let f := x % 2 ^ F.mbits
  let e := x / 2 ^ F.mbits % 2 ^ F.ebits
  let neg := bitOf x (F.mbits + F.ebits)
  let top := 2 ^ F.ebits - 1
  if e = top ∧ F.special = 0 then (if f = 0 then .inf neg else .nan)
  else if e = top ∧ F.special = 1 ∧ f = 2 ^ F.mbits - 1 then .nan
  else if e = 0 then .fin neg f (1 - (F.bias : Int) - F.mbits)
  else .fin neg (2 ^ F.mbits + f) ((e : Int) - F.bias - F.mbits)

/-- An exact integer as a value. -/
def FV.ofInt (x : Int) : FV := .fin (x < 0) x.natAbs 0

/-- R94, R95: the value of an element of a type code of R134, without block scale (MXINT8 with its weight 2^-6, R99). -/
def elemVal (ty x : Nat) : FV :=
  if ty = 0 then .ofInt (sgn 32 x)
  else if ty = 1 then .fin false (x % 2 ^ 32) 0
  else if ty = 7 then .ofInt (sgn 8 x)
  else if ty = 8 ∨ ty = 16 then .ofInt (sgn 4 x)
  else if ty = 15 then (match FV.ofInt (sgn 8 x) with | .fin n m e => .fin n m (e - 6) | v => v)
  else decodeF (fmtOf ty) x

/-- R95: the code of the largest finite magnitude. -/
def Fmt.maxCode (F : Fmt) : Nat :=
  if F.special = 0 then (2 ^ F.ebits - 1) * 2 ^ F.mbits - 1
  else if F.special = 1 then 2 ^ (F.ebits + F.mbits) - 2
  else 2 ^ (F.ebits + F.mbits) - 1

/-- The sign bit of a code. -/
def Fmt.signBit (F : Fmt) (neg : Bool) : Nat := if neg then 2 ^ (F.ebits + F.mbits) else 0

/-- R95, R97: the canonical NaN, and R105: what NaN becomes in a format with none. -/
def Fmt.nanCode (F : Fmt) : Nat :=
  if F.special = 0 then
    (if F.mbits = 2 then 127 else (2 ^ F.ebits - 1) * 2 ^ F.mbits + 2 ^ (F.mbits - 1))
  else if F.special = 1 then 127
  else 0

/-- The code of an infinity, or of the largest finite value where the format has none (R105). -/
def Fmt.infCode (F : Fmt) (neg : Bool) : Nat :=
  F.signBit neg + (if F.special = 0 then (2 ^ F.ebits - 1) * 2 ^ F.mbits else F.maxCode)

/-- The floor of m times 2^e times 2^k, and whether it is exact. -/
def floorAt (m : Nat) (e k : Int) : Nat × Bool :=
  if 0 ≤ e + k then (m * 2 ^ (e + k).toNat, true)
  else (m / 2 ^ (-(e + k)).toNat, m % 2 ^ (-(e + k)).toNat == 0)

/-- Whether a magnitude with integer part n (in units of the last place), 32 fraction bits f and a flag saying whether
anything lies below them rounds up, by the modes of R102 and R124. -/
def roundsUp (rm : Nat) (neg : Bool) (n f : Nat) (exact : Bool) (r : Nat) : Bool :=
  if rm = 0 then decide (2 ^ 31 < f) || (f == 2 ^ 31 && (!exact || n % 2 == 1))
  else if rm = 2 then neg && (f != 0 || !exact)
  else if rm = 3 then !neg && (f != 0 || !exact)
  else if rm = 4 then decide (r < f)
  else false

/-- R103, R104, R124: round a non-zero exact magnitude once to a floating-point format: the code and the flags. `fl`
gives the floor of the magnitude times a power of two, `lg` the floor of its base-2 logarithm, `noInf` that the
destination has no infinity. -/
def roundF (F : Fmt) (noInf : Bool) (rm : Nat) (sat : Bool) (r : Nat) (neg : Bool) (fl : Int → Nat × Bool)
    (lg : Int) : Nat × Nat :=
  let emin : Int := 1 - (F.bias : Int)
  let e0 := max lg emin
  let q := e0 - F.mbits
  let (m, ex) := fl (32 - q)
  let n := m / 2 ^ 32
  let n' := if roundsUp rm neg n (m % 2 ^ 32) ex r then n + 1 else n
  let inexact := m % 2 ^ 32 != 0 || !ex
  let code := (e0 - emin).toNat * 2 ^ F.mbits + n'
  if F.maxCode < code then
    let lim := noInf || F.special != 0 || sat || rm == 1 || rm == 4 || (rm == 2 && !neg) || (rm == 3 && neg)
    if lim then (F.signBit neg + F.maxCode, flOF ||| flNX ||| flSAT)
    else (F.infCode neg, flOF ||| flNX)
  else
    let tiny :=
      if emin ≤ lg then false
      else
        let (m2, ex2) := fl (32 - (lg - F.mbits))
        let n2 := m2 / 2 ^ 32
        let up2 := roundsUp rm neg n2 (m2 % 2 ^ 32) ex2 r
        !(up2 && n2 + 1 == 2 ^ (F.mbits + 1) && lg + 1 == emin)
    (F.signBit neg + code, (if inexact then flNX else 0) ||| (if tiny && inexact then flUF else 0))

/-- R104: round an exact magnitude to an integer range: the integer and the flags. -/
def roundI (lo hi : Int) (rm r : Nat) (neg : Bool) (fl : Int → Nat × Bool) : Int × Nat :=
  let (m, ex) := fl 32
  let n := m / 2 ^ 32
  let n' := if roundsUp rm neg n (m % 2 ^ 32) ex r then n + 1 else n
  let v : Int := if neg then -(n' : Int) else n'
  let nx := if m % 2 ^ 32 != 0 || !ex then flNX else 0
  if v < lo then (lo, flOF ||| flSAT ||| flNX) else if hi < v then (hi, flOF ||| flSAT ||| flNX) else (v, nx)

/-- A dyadic exponent clamped where every format has overflowed or underflowed for good, so that the rounding is the
same and the numbers stay small. -/
def clampExp (m : Nat) (e : Int) : Int := max (-2000 - (Nat.log2 m : Int)) (min e 2000)

/-- Round a value to a floating-point format under R103 to R105. -/
def FV.toF (F : Fmt) (noInf : Bool) (rm : Nat) (sat : Bool) (r : Nat) : FV → Nat × Nat
  | .nan => (F.nanCode, if F.special = 2 then flNV else 0)
  | .inf n => if noInf || F.special != 0 then (F.signBit n + F.maxCode, flSAT) else (F.infCode n, 0)
  | .fin n m e =>
    if m = 0 then (F.signBit n, 0)
    else
      let e := clampExp m e
      roundF F noInf rm sat r n (floorAt m e) ((Nat.log2 m : Int) + e)

/-- R104, R105: round a value to an integer range. -/
def FV.toI (lo hi : Int) (rm r : Nat) : FV → Int × Nat
  | .nan => (0, flNV)
  | .inf n => (if n then lo else hi, flSAT ||| flNV)
  | .fin n m e => if m = 0 then (0, 0) else roundI lo hi rm r n (floorAt m (clampExp m e))

/-- R104: the range of the integer type codes. -/
def intRange (ty : Nat) : Int × Int :=
  if ty = 0 then (-(2 ^ 31 : Nat), (2 ^ 31 : Nat) - 1)
  else if ty = 1 then (0, (2 ^ 32 : Nat) - 1)
  else if ty = 8 ∨ ty = 16 then (-8, 7)
  else (-128, 127)

/-- Whether a type code of R134 is an integer type. -/
def isIntTy (ty : Nat) : Bool := ty == 0 || ty == 1 || ty == 7 || ty == 8

/-- R182: convert a value to an element of a type code of 0 to 9: the code and the flags. -/
def cvtTo (ty rm : Nat) (sat : Bool) (r : Nat) (v : FV) : Nat × Nat :=
  if isIntTy ty then
    let (x, f) := v.toI (intRange ty).1 (intRange ty).2 rm r
    (unsgn (tyBits ty) x, f)
  else v.toF (fmtOf ty) false rm sat r

/-- R123: the random word of stochastic rounding. -/
def srWord (tid step idx : Nat) : Nat :=
  let w (x : Nat) := x % 2 ^ 64
  let x0 := (tid % 2 ^ 32 * 2 ^ 32) ^^^ (step % 2 ^ 32)
  let x1 := x0 ^^^ w (w idx * 0x9E3779B97F4A7C15)
  let x2 := w ((x1 ^^^ (x1 / 2 ^ 30)) * 0xBF58476D1CE4E5B9)
  let x3 := w ((x2 ^^^ (x2 / 2 ^ 27)) * 0x94D049BB133111EB)
  let x4 := x3 ^^^ (x3 / 2 ^ 31)
  x4 / 2 ^ 32

/-- The exact product of two values, and whether it is Inf times 0. -/
def FV.mul : FV → FV → FV × Bool
  | .nan, _ => (.nan, false)
  | _, .nan => (.nan, false)
  | .inf a, .inf b => (.inf (a != b), false)
  | .inf a, .fin b m _ => if m = 0 then (.nan, true) else (.inf (a != b), false)
  | .fin a m _, .inf b => if m = 0 then (.nan, true) else (.inf (a != b), false)
  | .fin a m e, .fin b n f => (.fin (a != b) (m * n) (e + f), false)

/-- The exact sum of two values under a rounding mode (which fixes the sign of an exact zero), and whether it is
Inf - Inf. -/
def FV.add (rm : Nat) : FV → FV → FV × Bool
  | .nan, _ => (.nan, false)
  | _, .nan => (.nan, false)
  | .inf a, .inf b => if a = b then (.inf a, false) else (.nan, true)
  | .inf a, .fin .. => (.inf a, false)
  | .fin .., .inf b => (.inf b, false)
  | .fin a m e, .fin b n f =>
    if m = 0 ∧ n = 0 then (.fin (if a = b then a else rm == 2) 0 0, false)
    else if m = 0 then (.fin b n f, false)
    else if n = 0 then (.fin a m e, false)
    else
      let g := min e f
      let x : Int := (if a then -1 else 1) * (m * 2 ^ (e - g).toNat : Nat)
      let y : Int := (if b then -1 else 1) * (n * 2 ^ (f - g).toNat : Nat)
      let z := x + y
      if z = 0 then (.fin (rm == 2) 0 0, false) else (.fin (z < 0) z.natAbs g, false)

/-- The negation of a value. -/
def FV.neg : FV → FV
  | .nan => .nan
  | .inf a => .inf (!a)
  | .fin a m e => .fin (!a) m e

/-- Whether the first value is below the second (neither NaN; the zeros compare equal). -/
def FV.lt : FV → FV → Bool
  | .nan, _ => false
  | _, .nan => false
  | .inf a, .inf b => a && !b
  | .inf a, .fin .. => a
  | .fin .., .inf b => !b
  | .fin a m e, .fin b n f =>
    let g := min e f
    let x : Int := (if a then -1 else 1) * (m * 2 ^ (e - g).toNat : Nat)
    let y : Int := (if b then -1 else 1) * (n * 2 ^ (f - g).toNat : Nat)
    decide (x < y)

/-- Whether a value is NaN. -/
def FV.isNan : FV → Bool
  | .nan => true
  | _ => false

/-- Whether two values compare equal. -/
def FV.eqv (x y : FV) : Bool := !x.isNan && !y.isNan && !x.lt y && !y.lt x

/-- The sign of a value. -/
def FV.sign : FV → Bool
  | .nan => false
  | .inf a => a
  | .fin a _ _ => a

/-- R181: the order of VFMIN and VFMAX, in which -0 is less than +0. -/
def FV.ltz (x y : FV) : Bool := x.lt y || (x.eqv y && x.sign && !y.sign)

/-- Round the result of an operation whose invalid event is known (R103, R106). -/
def finish (F : Fmt) (rm : Nat) (sat : Bool) (r : Nat) (v : FV × Bool) : Nat × Nat :=
  if v.2 then (F.nanCode, flNV) else v.1.toF F false rm sat r

/-! ### The exactly rounded functions of R181 -/

/-- The integer square root, bit by bit from bit b - 1 down. -/
def isqrtGo : Nat → Nat → Nat → Nat
  | 0, _, r => r
  | b + 1, n, r => if (r + 2 ^ b) * (r + 2 ^ b) ≤ n then isqrtGo b n (r + 2 ^ b) else isqrtGo b n r

/-- The integer square root. -/
def isqrt (n : Nat) : Nat := isqrtGo (Nat.log2 n / 2 + 1) n 0

/-- The floor of sqrt(m 2^e) 2^k and whether it is exact. -/
def sqrtAt (m : Nat) (e k : Int) : Nat × Bool :=
  let (x, ex) := floorAt m e (2 * k)
  (isqrt x, ex && isqrt x * isqrt x == x)

/-- The floor of 2^k / (m 2^e) and whether it is exact. -/
def rcpAt (m : Nat) (e k : Int) : Nat × Bool :=
  let num := 2 ^ (k - e).toNat
  let den := m * 2 ^ (e - k).toNat
  (num / den, num % den == 0)

/-- The floor of 2^k / sqrt(m 2^e) and whether it is exact. -/
def rsqrtAt (m : Nat) (e k : Int) : Nat × Bool :=
  let (x, ex) := rcpAt m e (2 * k)
  (isqrt x, ex && isqrt x * isqrt x == x)

/-- The product of 2^(2^-i) over the set bits of a w-bit fraction, at 320 fraction bits, i rising from the first bit. -/
def exp2Go : Nat → Nat → Nat → Nat → Nat
  | 0, _, _, acc => acc
  | w + 1, fr, rt, acc =>
    let rt' := isqrt (rt * 2 ^ 320)
    exp2Go w fr rt' (if bitOf fr w then acc * rt' / 2 ^ 320 else acc)

/-- The floor of 2^x 2^k for x = i + fr / 2^w, and whether it is exact. -/
def exp2At (i : Int) (fr w : Nat) (k : Int) : Nat × Bool :=
  let acc := exp2Go w fr (2 * 2 ^ 320) (2 ^ 320)
  let x := floorAt acc (i - 320) k
  (x.1, x.2 && fr == 0)

/-- The next n bits of the base-2 logarithm of y / 2^512 in [1, 2), appended to an accumulator. -/
def log2Go : Nat → Nat → Nat → Nat
  | 0, _, acc => acc
  | n + 1, y, acc =>
    let y2 := y * y / 2 ^ 512
    if 2 ^ 513 ≤ y2 then log2Go n (y2 / 2) (2 * acc + 1) else log2Go n y2 (2 * acc)

/-- The base-2 logarithm of m 2^e with 192 fraction bits, rounded down. -/
def log2Fix (m : Nat) (e : Int) : Int :=
  let l := Nat.log2 m
  ((l : Int) + e) * (2 ^ 192 : Nat) + (log2Go 192 (m * 2 ^ 512 / 2 ^ l) 0 : Nat)

/-- The floor of |log2(m 2^e)| 2^k and whether it is exact, for k up to 192. -/
def log2At (m : Nat) (e k : Int) : Nat × Bool :=
  let x := log2Fix m e
  let exact := m == 2 ^ Nat.log2 m
  let mag := if 0 ≤ x then x.toNat else if exact then (-x).toNat else (-x - 1).toNat
  let y := floorAt mag (-192) k
  (y.1, y.2 && exact)

/-- The floor of the base-2 logarithm of a magnitude given by its floors, read at scale k. -/
def lgOf (fl : Int → Nat × Bool) (k : Int) : Int := (Nat.log2 (fl k).1 : Int) - k

/-- The binary32 format. -/
def fmt32 : Fmt := ⟨8, 23, 127, 0⟩

/-- R181: VFRCP. -/
def vfRcp (rm : Nat) (sat : Bool) (r : Nat) : FV → Nat × Nat
  | .nan => (fmt32.nanCode, 0)
  | .inf n => (fmt32.signBit n, 0)
  | .fin n m e =>
    if m = 0 then (fmt32.infCode n, 0)
    else roundF fmt32 false rm sat r n (rcpAt m e) (lgOf (rcpAt m e) 400)

/-- R181: VFRSQ. -/
def vfRsq (rm : Nat) (sat : Bool) (r : Nat) : FV → Nat × Nat
  | .nan => (fmt32.nanCode, 0)
  | .inf n => if n then (fmt32.nanCode, flNV) else (0, 0)
  | .fin n m e =>
    if m = 0 then (fmt32.infCode n, 0)
    else if n then (fmt32.nanCode, flNV)
    else roundF fmt32 false rm sat r false (rsqrtAt m e) (lgOf (rsqrtAt m e) 400)

/-- R181: VFSQRT. -/
def vfSqrt (rm : Nat) (sat : Bool) (r : Nat) : FV → Nat × Nat
  | .nan => (fmt32.nanCode, 0)
  | .inf n => if n then (fmt32.nanCode, flNV) else (fmt32.infCode false, 0)
  | .fin n m e =>
    if m = 0 then (fmt32.signBit n, 0)
    else if n then (fmt32.nanCode, flNV)
    else roundF fmt32 false rm sat r false (sqrtAt m e) (lgOf (sqrtAt m e) 400)

/-- R181: VFEXP2. -/
def vfExp2 (rm : Nat) (sat : Bool) (r : Nat) : FV → Nat × Nat
  | .nan => (fmt32.nanCode, 0)
  | .inf n => if n then (0, 0) else (fmt32.infCode false, 0)
  | .fin n m e =>
    if m = 0 then (0x3F800000, 0)
    else
      let big := decide (9 < (Nat.log2 m : Int) + e)
      if big then
        let i : Int := if n then -1000 else 1000
        roundF fmt32 false rm sat r false (fun k => ((floorAt 1 i k).1, false)) i
      else
        let w := (-e).toNat
        let x : Int := (if n then -1 else 1) * (m * 2 ^ e.toNat : Nat)
        let i := x / (2 ^ w : Nat)
        let fr := (x % (2 ^ w : Nat)).toNat
        roundF fmt32 false rm sat r false (exp2At i fr w) i

/-- R181: VFLOG2. -/
def vfLog2 (rm : Nat) (sat : Bool) (r : Nat) : FV → Nat × Nat
  | .nan => (fmt32.nanCode, 0)
  | .inf n => if n then (fmt32.nanCode, flNV) else (fmt32.infCode false, 0)
  | .fin n m e =>
    if m = 0 then (fmt32.infCode true, 0)
    else if n then (fmt32.nanCode, flNV)
    else if log2Fix m e = 0 ∧ m = 2 ^ Nat.log2 m then (0, 0)
    else roundF fmt32 false rm sat r (decide (log2Fix m e < 0)) (log2At m e) (lgOf (log2At m e) 160)

/-! ### Quantising to block formats (R108, R109) -/

/-- The floor of the base-2 logarithm of the largest magnitude of a list of values, none where every value is zero. -/
def maxLog (vs : List FV) : Option Int :=
  vs.foldl (fun acc v =>
    match v with
    | .fin _ m e => if m = 0 then acc else
        let l := (Nat.log2 m : Int) + e
        (match acc with | none => some l | some x => some (max x l))
    | _ => acc) none

/-- Whether a list of values holds a NaN or an infinity. -/
def anySpecial (vs : List FV) : Bool := vs.any (fun v => match v with | .fin .. => false | _ => true)

/-- A value divided by 2^x. -/
def FV.scale (x : Int) : FV → FV
  | .fin n m e => .fin n m (e + x)
  | v => v

/-- R99: emax_elem. -/
def emaxElem (ty : Nat) : Int :=
  if ty = 10 then 8 else if ty = 11 then 15 else if ty = 12 then 4 else if ty = 13 then 2 else if ty = 14 then 2 else 0

/-- R108, R109: the scale byte from the exponent of amax. -/
def scaleByte (x : Int) : Nat := (max 0 (min (x + 127) 254)).toNat

/-- R108: quantise 32 values to an MX block: element codes, scale byte and flags. `rs i` is the random word of
element i. -/
def quantMX (ty rm : Nat) (rs : Nat → Nat) (vs : List FV) : List Nat × Nat × Nat :=
  if anySpecial vs then (vs.map (fun _ => 0), 255, flNV)
  else match maxLog vs with
    | none => (vs.map (fun _ => 0), 0, 0)
    | some l =>
      let sb := scaleByte (l - emaxElem ty)
      let x : Int := (sb : Int) - 127
      let el := vs.zipIdx.map (fun (v, i) =>
        if ty = 15 then
          let (y, f) := (v.scale (6 - x)).toI (-128) 127 rm (rs i)
          (unsgn 8 y, f)
        else (v.scale (-x)).toF (fmtOf ty) true rm false (rs i))
      (el.map (·.1), sb, orAll (el.map (·.2)))

/-- Whether |v| is at most n times 2^x, for a finite v. -/
def FV.absLe (n : Nat) (x : Int) : FV → Bool
  | .fin _ m e => let g := min e x; decide (m * 2 ^ (e - g).toNat ≤ n * 2 ^ (x - g).toNat)
  | _ => false

/-- R109: quantise 64 values to a PS4 block: element codes, scale byte, step byte and flags. -/
def quantPS4 (rm : Nat) (rs : Nat → Nat) (vs : List FV) : List Nat × Nat × Nat × Nat :=
  if anySpecial vs then (vs.map (fun _ => 0), 255, 0, flNV)
  else match maxLog vs with
    | none => (vs.map (fun _ => 0), 0, 0, 0)
    | some l =>
      let sb := scaleByte (l - 4)
      let x : Int := (sb : Int) - 127
      let code (j : Nat) : Nat :=
        let sub := (vs.drop (16 * j)).take 16
        if sub.all (FV.absLe 7 x) then 0
        else if sub.all (FV.absLe 14 x) then 1
        else if sub.all (FV.absLe 28 x) then 2
        else 3
      let el := vs.zipIdx.map (fun (v, i) =>
        let (y, f) := (v.scale (-x - (code (i / 16) : Int))).toI (-8) 7 rm (rs i)
        (unsgn 4 y, f))
      (el.map (·.1), sb, code 0 + 4 * code 1 + 16 * code 2 + 64 * code 3, orAll (el.map (·.2)))

/-- R98, R100: a value times an E8M0 scale and a power-of-two step; scale 0xFF gives NaN. -/
def FV.withScale (sb : Nat) (step : Nat) (v : FV) : FV :=
  if sb = 255 then .nan else v.scale ((sb : Int) - 127 + step)

/-! ### Tally lanes (R110 to R121) -/

/-- One lane of a tally register: T and the flag byte (R110, R117). -/
structure TLane where
  t : BitVec 160 := 0
  f : BitVec 8 := 0
  deriving DecidableEq, Repr

/-- R117: bits of the flag byte. -/
def tfOVER : Nat := 1
/-- R117. -/
def tfFULL : Nat := 2
/-- R117. -/
def tfNAN : Nat := 4
/-- R117. -/
def tfPINF : Nat := 8
/-- R117. -/
def tfNINF : Nat := 16
/-- R117. -/
def tfBASE : Nat := 32
/-- R117. -/
def tfPOISON : Nat := 64

/-- R115: add an integer to T, saturating at the 160-bit range and setting FULL. -/
def TLane.addInt (x : TLane) (y : Int) (fl : Nat) : TLane :=
  let z := x.t.toInt + y
  let lim : Int := (2 ^ 159 : Nat)
  let fl := BitVec.ofNat 8 fl
  if lim ≤ z then ⟨BitVec.ofInt 160 (lim - 1), x.f ||| fl ||| BitVec.ofNat 8 tfFULL⟩
  else if z < -lim then ⟨BitVec.ofInt 160 (-lim), x.f ||| fl ||| BitVec.ofNat 8 tfFULL⟩
  else ⟨BitVec.ofInt 160 z, x.f ||| fl⟩

/-- R112, R114, R116: the term of an exact product under base b: the integer and the flags it sets. -/
def termOf (b : Int) : FV × Bool → Int × Nat
  | (.nan, _) => (0, tfNAN)
  | (.inf n, _) => (0, if n then tfNINF else tfPINF)
  | (.fin n m e, _) =>
    let q := (floorAt m e (-b)).1
    let tooBig := decide (2 ^ 128 ≤ q)
    let q := if tooBig then 2 ^ 128 - 1 else q
    (if n then -(q : Int) else q, if tooBig then tfOVER else 0)

/-- R112 to R116: a list of products enters a tally lane as terms, in order. -/
def TLane.addTerms (b : Int) (x : TLane) (ps : List (FV × Bool)) : TLane :=
  ps.foldl (fun x p => let (y, f) := termOf b p; x.addInt y f) x

/-- R118: merge a lane image (T, base, flags) into a lane with base b; `mism` says that the payload as a whole carries
different bases. -/
def TLane.merge (b : Int) (x : TLane) (t : BitVec 160) (b' : Int) (f : Nat) (mism : Bool) : TLane :=
  if mism || b != b' then ⟨x.t, x.f ||| BitVec.ofNat 8 f ||| BitVec.ofNat 8 tfBASE⟩
  else x.addInt t.toInt f

/-- R121: a tally lane converted to a float format: the code and the bits of FLAGS it sets. -/
def TLane.toFloat (b : Int) (ty rm : Nat) (sat : Bool) (r : Nat) (x : TLane) : Nat × Nat :=
  let F := fmtOf ty
  let has (k : Nat) : Bool := x.f.toNat &&& k != 0
  let (c, f) :=
    if has tfNAN || has tfBASE || (has tfPINF && has tfNINF) then (F.nanCode, flNV)
    else if has tfPINF || has tfNINF then
      (F.infCode (has tfNINF), if F.special = 0 then 0 else flSAT)
    else
      let v := x.t.toInt
      let (c, f) := FV.toF F false rm sat r (.fin (v < 0) v.natAbs b)
      (c, f ||| (if has tfOVER || has tfFULL then flOF else 0))
  (c, f ||| (if has tfPOISON then flDL else 0))

/-- R119: the 24-byte lane image as a number. -/
def TLane.image (b : Int) (x : TLane) : Nat := x.t.toNat + unsgn 10 b * 2 ^ 160 + x.f.toNat * 2 ^ 176

/-- R119: the T, base and flag byte of a lane image. -/
def laneOfImage (x : Nat) : BitVec 160 × Int × Nat := (BitVec.ofNat 160 x, sgn 10 (bitsOf x 160 10), bitsOf x 176 8)

end Sys2Proof.Machine
end

