-- ==== Sys2Proof/SMap.lean ====
section
/-!
DEFINITION. Sparse maps: lists of key and value pairs with strictly rising keys, the form in which State holds every
memory, register file and table.
-/

namespace Sys2Proof

/-- A sparse map from natural-number keys, its keys strictly rising. -/
abbrev SMap (α : Type) := List (Nat × α)

namespace SMap

variable {α : Type}

/-- The entry at a key. -/
def find? : SMap α → Nat → Option α
  | [], _ => none
  | (k, v) :: m, a => if a = k then some v else find? m a

/-- The entry at a key, or what an unlisted key reads as. -/
def getD (m : SMap α) (k : Nat) (d : α) : α := (m.find? k).getD d

/-- Put an entry, keeping the keys in order. -/
def insert : SMap α → Nat → α → SMap α
  | [], a, x => [(a, x)]
  | (k, v) :: m, a, x =>
    if a < k then (a, x) :: (k, v) :: m
    else if a = k then (a, x) :: m
    else (k, v) :: insert m a x

/-- Take every entry at a key out. -/
def erase : SMap α → Nat → SMap α
  | [], _ => []
  | (k, v) :: m, a => if a = k then erase m a else (k, v) :: erase m a

/-- Write a value where an unlisted key reads as `d`: writing `d` removes the entry. -/
def setD [DecidableEq α] (m : SMap α) (k : Nat) (d x : α) : SMap α :=
  if x = d then m.erase k else m.insert k x

/-- Every key of the map is above a bound. -/
def above (b : Nat) : SMap α → Bool
  | [] => true
  | (k, _) :: m => decide (b < k) && above b m

/-- The canonical form: keys strictly rising. -/
def sorted : SMap α → Bool
  | [] => true
  | (k, _) :: m => above k m && sorted m

/-- The canonical form of a map whose unlisted keys read as `d`: keys strictly rising, no entry equal to `d`. -/
def wf [DecidableEq α] (d : α) (m : SMap α) : Bool :=
  sorted m && m.all (fun e => decide (e.2 ≠ d))

/-- Keep the entries whose key and value satisfy a test. -/
def filter (p : Nat → α → Bool) (m : SMap α) : SMap α := List.filter (fun e => p e.1 e.2) m

/-- Change every entry in place. -/
def mapVals {β : Type} (f : Nat → α → β) (m : SMap α) : SMap β := List.map (fun e => (e.1, f e.1 e.2)) m

/-- The keys listed. -/
def keys (m : SMap α) : List Nat := List.map (·.1) m

/-- The values listed, in key order. -/
def vals (m : SMap α) : List α := List.map (·.2) m

end SMap

end Sys2Proof
end

