-- ==== Sys2Proof/Machine/Parts.lean ====
section
/-!
DEFINITION. The parts of State that are not registers: the records of processor contexts, troupes and the mesh, courier
contexts, translations, store units, events, ledgers and membership.
-/

namespace Sys2Proof.Machine

/-! ### Processor contexts (R128 to R132, R265, R514) -/

/-- What a CE, courier context or core is doing (TRP_CE_STATE.WAIT of R92, R265, R514). `cue` waits in WAITCUE for an
offset, `bar` at a troupe barrier, `wfe` in WFE, `hold` at issue for a free operation or a pending register. -/
inductive CxSt where
  | idle | run | recv | credit
  | cue (ofs : Nat)
  | bar (id : Nat)
  | wfe
  | fence
  | hold
  | halt | off
  | stopped (cause : Nat)
  | fault (status : Nat)
  | halted
  | pool
  deriving DecidableEq, Repr

/-- A register an outstanding operation will still write (R138, R200): file 0 is s, 1 is a; and its number. -/
structure PendReg where
  file : Nat
  num : Nat
  deriving DecidableEq, Repr

/-- One processor context: the registers of R129 and R130 and what its unit binds, the v registers that hold a parcel with POISON as RECV
read it (R455), and the cue and offset at which an exception of another CE stopped it (R166). Unlisted registers read as zero (R132). -/
structure Cx where
  v : SMap Lane := []
  s : SMap Lane := []
  a : SMap Word := []
  p : SMap (BitVec 16) := []
  tl : SMap TLane := []
  tb : SMap Int := []
  link : List Nat := []
  pc : Nat := 0
  len : Nat := 0
  flags : Nat := 0
  rxinfo : Lane := 0
  st : CxSt := .idle
  pend : List PendReg := []
  unit : Nat := 0
  dline : Nat := 0
  ddel : Nat := 0
  level : Nat := 0x0101
  part : Nat := 0
  handler : List Nat := []
  vp : List Nat := []
  cut : Option (Nat × Nat) := none
  deriving DecidableEq, Repr

/-! ### Images and troupes (R142 to R148, R210 to R217) -/

/-- R146: a unit descriptor. policy 0 CARRY, 1 UNDERSTUDY, 2 SKIP. -/
structure UnitDesc where
  id : Nat := 0
  policy : Nat := 0
  optional : Bool := false
  d : Nat := 0
  c : Nat := 0
  ddel : Nat := 0
  ulead : Nat := 0
  start : Nat := 0
  entry : Nat := 0
  cemask : Nat := 0
  deriving DecidableEq, Repr

/-- R214: an inbound route entry. -/
structure InDesc where
  ring : Nat := 0
  slots : Nat := 0
  tflags : Nat := 0
  tpp : Nat := 0
  runit : Nat := 0
  deriving DecidableEq, Repr

/-- R213: an outbound route entry. -/
structure OutDesc where
  dst : Nat := 0
  rel : Bool := false
  dstRoute : Nat := 0
  kind : Nat := 0
  credits : Nat := 0
  tflags : Nat := 0
  tpp : Nat := 0
  rdev : Nat := 0
  swclass : Nat := 0
  rtroupe : Nat := 0
  rroute : Nat := 0
  sunit : Nat := 0
  deriving DecidableEq, Repr

/-- R216: a window entry. -/
structure WinDesc where
  line : Nat := 0
  lines : Nat := 0
  use : Nat := 0
  deriving DecidableEq, Repr

/-- R217: a frame list entry. -/
structure FrameDesc where
  frame : Nat := 0
  rot : Nat := 0
  unit : Nat := 0
  tag : Nat := 0
  deriving DecidableEq, Repr

/-- R142: a program image as its header and tables give it. -/
structure Img where
  pga : Nat := 0
  level : Nat := 0
  isa : Nat := 0
  profile : Nat := 0
  secs : List (List Word) := []
  units : List UnitDesc := []
  ins : List InDesc := []
  outs : List OutDesc := []
  wins : List WinDesc := []
  frames : List FrameDesc := []
  cemap : List Nat := []
  deriving DecidableEq, Repr

/-- Where a unit of a troupe stands in the cue (R44, R148, R162). -/
inductive UnitSt where
  | waiting | running | done | missed | cancelled
  deriving DecidableEq, Repr

/-- A unit placed on a troupe and its state in the running cue: the CEs that have ended (a 48-bit mask), the CEs arrived at
each barrier id (R196), the status records expected and arrived (R276), whether one of them said ST_UNDERSTUDY, whether its late delivery has been cancelled for its understudy
copy, the number of consecutive cues it has been carried (R47), whether it is carried, the cue in which it was first carried (R281), whether dead-letter data
reached it (R457), and the model tokens whose last parcel it has read and released (TCLASS, whether the route is RESID; R221). -/
structure UnitRt where
  desc : UnitDesc := {}
  st : UnitSt := .waiting
  ended : Nat := 0
  bars : SMap Nat := []
  nd : Nat := 0
  recs : Nat := 0
  undRec : Bool := false
  understudy : Bool := false
  carries : Nat := 0
  carried : Bool := false
  since : Nat := 0
  alerted : Bool := false
  dead : Bool := false
  toks : List (Nat × Bool) := []
  deriving DecidableEq, Repr

/-- A parcel in a receive ring slot (R82, R156): its line, header bits, the outbound route of the sender whose credit it
stands for, the unit whose RECV has read it, and the TCLASS of the model token it is the last parcel of (R220, R221). -/
structure RingSlot where
  line : Nat := 0
  last : Bool := false
  poison : Bool := false
  seq : Nat := 0
  unit : Nat := 0
  cue : Nat := 0
  src : Nat := 0
  srcRoute : Nat := 0
  reader : Option Nat := none
  tok : Option Nat := none
  deriving DecidableEq, Repr

/-- An inbound route of a troupe: its entry, its queue (held slots first), the next ring index to be written, the
cancelled (UNIT, CUE) pairs it keeps (R87), and the parcels of this cue from each unit of another device (R220). -/
structure InRt where
  desc : InDesc := {}
  q : List RingSlot := []
  wr : Nat := 0
  cancelled : List (Nat × Nat) := []
  got : SMap Nat := []
  deriving DecidableEq, Repr

/-- An outbound route of a troupe: its entry, the resolved physical destination (R63), the credits the sender holds, the
next sequence number, the parcels sent on an OUT route whose credit has not come back (R85), the parcels each unit has sent on it this cue
(R220, R407). -/
structure OutRt where
  desc : OutDesc := {}
  dstPhys : Option Nat := none
  cr : Nat := 0
  seq : Nat := 0
  away : Nat := 0
  sentBy : SMap Nat := []
  deriving DecidableEq, Repr

/-- A physical troupe's loaded program and its units and routes; `first` is the first logical troupe of its placement,
`dlv` the cancelled (stream, UNIT, CUE) triples of deliveries (R87, R278). -/
structure Troupe where
  img : Option Img := none
  first : Nat := 0
  units : List UnitRt := []
  ins : List InRt := []
  outs : List OutRt := []
  dlv : List (Nat × Nat × Nat) := []
  deriving DecidableEq, Repr

/-! ### The mesh (R72 to R87) -/

/-- R79, R213: where an OUT parcel goes beyond the gate. -/
structure OutHdr where
  dev : Nat := 0
  swclass : Nat := 0
  troupe : Nat := 0
  route : Nat := 0
  deriving DecidableEq, Repr

/-- What a mesh parcel carries: 64 bytes, route credits (R83), or a cancellation (R87). -/
inductive Payload where
  | data (x : BitVec 512)
  | cred (pairs : List (Nat × Nat)) (toCtx : Option Nat)
  | cancel (route unit cue : Nat)
  deriving DecidableEq, Repr

/-- R79: a mesh parcel, the router whose input slot holds it, the input it came by (0 N, 1 S, 2 E, 3 W, 4 local, 5 gate),
how often it has been sent on its next hop (R78), and the TCLASS of the model token it is the last parcel of (R220). -/
structure MParcel where
  poison : Bool := false
  last : Bool := false
  cue : Nat := 0
  line : Nat := 0
  unit : Nat := 0
  seq : Nat := 0
  route : Nat := 0
  kind : Nat := 0
  vl : Nat := 0
  src : Nat := 0
  srcRoute : Nat := 0
  dst : Nat := 0
  pl : Payload := .data 0
  out : Option OutHdr := none
  at_ : Nat := 0
  inDir : Nat := 4
  tries : Nat := 0
  part : Nat := 0
  tok : Option Nat := none
  deriving DecidableEq, Repr

/-! ### Store access by CEs (R198 to R204) -/

/-- An outstanding GMEM or ATOM operation (R200): its serial number and agent, kind 0 GLD, 1 GST, 2 and above an atomic of
minor kind - 2, its addresses and length, its destination registers, its width, types and operands; the lines served so
far, whether one of them was a dead letter, and the POOL context that serves it (R202). -/
structure GOp where
  id : Nat := 0
  agent : Nat := 0
  kind : Nat := 0
  addr : Nat := 0
  sram : Nat := 0
  len : Nat := 0
  sd : Nat := 0
  ad : Nat := 0
  wide : Nat := 4
  ta : Nat := 0
  rm : Nat := 0
  opnd : Nat := 0
  cmp : Nat := 0
  srw : Nat := 0
  part : Nat := 0
  troupe : Nat := 0
  done : Nat := 0
  dead : Bool := false
  ctx : Option Nat := none
  deriving DecidableEq, Repr

/-! ### Couriers (R263 to R290) -/

/-- R270: a stream plan entry. -/
structure PlanEntry where
  op : Nat := 0
  comp : Bool := false
  skip : Bool := false
  unit : Nat := 0
  start : Nat := 0
  ddel : Nat := 0
  length : Nat := 0
  src : Nat := 0
  troupe : Nat := 0
  line : Nat := 0
  statline : Nat := 0
  stream : Nat := 0
  ustream : Nat := 0
  usrc : Nat := 0
  ulen : Nat := 0
  uline : Nat := 0
  credits : Nat := 0
  tag : Nat := 0
  deriving DecidableEq, Repr

/-- A DLV parcel a context has yet to inject (R275): the plan entry it serves (4,096 above for a carried one), its stream, logical troupe, line, unit, data,
poison, LAST, the credits of its stream, its partition, and whether it is the status record that ends its entry. -/
structure DlvItem where
  ent : Nat := 0
  stream : Nat := 0
  troupe : Nat := 0
  line : Nat := 0
  unit : Nat := 0
  data : BitVec 512 := 0
  poison : Bool := false
  last : Bool := false
  credits : Nat := 0
  part : Nat := 0
  closes : Bool := false
  deriving DecidableEq, Repr

/-- The entry a context is running (R273, R274, R281): its index and entry, its partition, the tables of the plan it came
from, the chunk it reads and that chunk's index entry once read, how far the chunk has come (0 index, 1 data,
2 table), whether all its data is queued, whether it has met dead letters, is carried, and waits for a retry. -/
structure Job where
  idx : Nat := 0
  ent : PlanEntry := {}
  part : Nat := 0
  tables : Nat := 0
  chunk : Nat := 0
  index : Nat := 0
  phase : Nat := 0
  sent : Bool := false
  dead : Bool := false
  carried : Bool := false
  transit : Bool := false
  deriving DecidableEq, Repr

/-- A courier context beyond its processor registers: the entry running, the first plan entry not yet started this cue, the entries whose
status record has been injected or which have been stopped, carried entries that have not started (R281), parcels waiting
for injection, credits in use and sequence numbers per stream (64 times the physical troupe plus STREAM, R271), data bytes delivered this cue and the DCMP output of the
context, the TAKEs a fault has waited through, the destination register of a faulting instruction, whether an access of its work
order has been abandoned, a RESTART taken for the next TAKE, the frequency tables of its work order, the lines a waiting read has served and whether one of them was a dead
letter, the frequency table read last, the entries whose D_DEL has passed in this cue, and the offsets in this cue at which a RESUME or ABANDON acted last and at which a
D_DEL passed a fault (R290). -/
structure Ctx where
  job : Option Job := none
  next : Nat := 0
  closed : List Nat := []
  carry : List Job := []
  q : List DlvItem := []
  used : SMap Nat := []
  seqs : SMap Nat := []
  bytes : Nat := 0
  outBytes : Nat := 0
  waited : Nat := 0
  faultD : Option Nat := none
  abandoned : Bool := false
  restart : Bool := false
  tables : Nat := 0
  prog : Nat := 0
  progDead : Bool := false
  tbuf : SMap Byte := []
  late : List Nat := []
  acted : Option Nat := none
  passed : Option Nat := none
  deriving DecidableEq, Repr

/-! ### Translation (R302 to R316) -/

/-- R306: one combined translation: partition, first VA, size in bytes, first PGA, first IPA, the permissions of the two
leaves and their levels, and the stage-2 leaf it came from (IPA and size). -/
structure Tlb where
  part : Nat
  va : Nat
  size : Nat
  pga : Nat
  ipa : Nat
  r1 : Bool
  w1 : Bool
  r2 : Bool
  w2 : Bool
  lvl1 : Nat
  lvl2 : Nat
  leaf : Nat
  leafSize : Nat
  deriving DecidableEq, Repr

/-- R309: an access that waits for a table walk, by its ticket: its source (a troupe index, or 65,536 plus a context number), its partition and VA, whether it
writes, and the status of a walk that has failed. -/
structure XWait where
  src : Nat
  part : Nat
  va : Nat
  write : Bool
  res : Option Nat := none
  deriving DecidableEq, Repr

/-- R309: a table walk in flight: the ticket of the access it began for, the translation it looks up, the page it is of (first VA, size), and the table entries it
has read (address, entry). -/
structure Walk where
  own : Nat
  part : Nat
  va : Nat
  lo : Nat
  size : Nat
  seen : List (Nat × Nat) := []
  deriving DecidableEq, Repr

/-- R318: one committed or uncommitted HDM decoder of an edge agent. -/
structure Hdm where
  base : Nat := 0
  size : Nat := 0
  committed : Bool := false
  error : Bool := false
  deriving DecidableEq, Repr

/-! ### The store (R236 to R261) -/

/-- R237, R241, R243: one own-store unit: hint code, MIRROR flag, the Stage frame that holds it (none: in its Wings slot),
whether the frame differs from the Wings slot, whether a HOT or PIN_STAGE unit waits for a frame, and a migration in
progress (the frame it goes to, or none for a demotion). -/
structure SUnit where
  hint : Nat := 0
  mirror : Bool := false
  frame : Option Nat := none
  dirty : Bool := false
  waits : Bool := false
  moving : Option (Option Nat) := none
  deriving DecidableEq, Repr

/-- R245: a hint command in progress: its first unit, the next unit to write, the unit it stops before, the hint and flag, its
result once that is known, the units whose migrations it has caused, and whether it has set the next unit's MIRROR ahead of the hint. -/
structure HintJob where
  next : Nat
  stop : Nat
  hint : Nat
  mirror : Bool
  result : Option Nat := none
  caused : List Nat := []
  set : Bool := false
  deriving DecidableEq, Repr

/-- R252: a loss of Wings data: the parity group, the positions of the failed channels and the rows that failed (as masks), the ranges of
stripes that had been rebuilt (first, end), the units resident in a frame then, whose frames still hold their data, and the ranges of own-store
offsets (start, length) that have been written whole since. -/
structure Loss where
  group : Nat
  chans : Nat
  rows : Nat
  done : List (Nat × Nat) := []
  held : List Nat := []
  spared : List (Nat × Nat) := []
  deriving DecidableEq, Repr

/-- R250, R253: how far the rebuild of a channel has come: the ranges of stripes done (first, end), the running one at the head; the stripes done
out of order; and, in a copyback, the first stripe not yet copied back. -/
structure Rebuild where
  did : List (Nat × Nat) := []
  odd : List Nat := []
  back : Nat := 0
  deriving DecidableEq, Repr

/-- R259: a mirror slot of the partner copy: the stamp of the step that wrote it last, its bytes and its marks. -/
structure MirrorSlot where
  stamp : Nat := 0
  valid : Bool := false
  bytes : SMap Byte := []
  dead : SMap Bool := []
  deriving DecidableEq, Repr

/-- A parcel that leaves for another device or for port H, an edge agent, or another outside party: its name and its
fields, in the order the rule that sends it gives. -/
structure Sent where
  name : String
  dest : Nat := 0
  args : List Nat := []
  bytes : List Byte := []
  deriving DecidableEq, Repr

/-! ### Coherence (R325 to R364) -/

/-- A request at the home: kind 1 to 7 as R332 codes them, 0x41 to 0x43 a CXL MemRd with MetaValue I, S or A, 0x45 a MemWr,
0x46 a MemWrPtl, 0x80 the home's own recall of the line (R346) (MetaValue in `meta`: 0 I, 1 S, 2 A); the requester (0 to 32 a tracked agent, 33 and above a requester
that does not cache: 33 the home, 34 port H, 35 the table walker, 36 a courier read that does not allocate, 37 another
device) and its partition; write data, marks and byte mask; an atomic's operation, width, type, rounding mode, offset in the
line and operands; the ticket of a source that waits for it; whether its write is not forwarded to the mirror partner (R473). -/
structure CReq where
  kind : Nat := 0
  r : Nat := 0
  part : Nat := 16
  data : BitVec 512 := 0
  marks : Nat := 0
  mask : Nat := 0
  mv : Nat := 0
  op : Nat := 0
  wide : Nat := 4
  ta : Nat := 0
  rm : Nat := 0
  srw : Nat := 0
  off : Nat := 0
  opnd : Nat := 0
  cmp : Nat := 0
  tk : Nat := 0
  quiet : Bool := false
  deriving DecidableEq, Repr

/-- R329, R355: a directory entry: its state code, the sharers as a mask over the tracked agents, the F holder, the owner of
E/M (none: the home atomic buffer), the buffered line; for a transient state the request being served, the acks awaited,
whether the tier read is awaited, data recorded, whether the snooped holder has answered and whether its eviction has
arrived; the edge agents with a BISnp outstanding, those of them sent BISnpData, and whether a protocol error invalidates every
edge copy (R347); the waiting requests; and the stamps of its allocation and of the buffer's last use. -/
structure DirEnt where
  st : Nat := 0
  sharers : Nat := 0
  fh : Option Nat := none
  owner : Option Nat := none
  buf : BitVec 512 := 0
  bufMarks : Nat := 0
  req : Option CReq := none
  acks : Nat := 0
  tier : Bool := false
  rcd : Option (BitVec 512 × Nat) := none
  acked : Bool := false
  gone : Bool := false
  bis : Nat := 0
  bisData : Nat := 0
  purge : Bool := false
  queue : List CReq := []
  alloc : Nat := 0
  use : Nat := 0
  deriving DecidableEq, Repr

/-- R352: a store to one line: its byte mask, data and the marks the data carries, whether a codeword it writes whole takes the data's
mark (R455, R456), and the ticket of its source (0: none). -/
structure AStore where
  mask : Nat := 0
  data : BitVec 512 := 0
  marks : Nat := 0
  take : Bool := false
  tk : Nat := 0
  deriving DecidableEq, Repr

/-- R351: an on-device agent's copy of a line: its state code, data and marks, whether SM_G was entered from F, whether its
minimum hold runs, the FWD it has parked (message code, 0x91 for SNP_INV with NODATA; R_ID), the store that its request is for, the
loads (none) and stores that wait for the line to become stable, each with its source's ticket (R353), the stamp of its last use (R292), and the
partition of its request. -/
structure ACopy where
  st : Nat := 0
  data : BitVec 512 := 0
  marks : Nat := 0
  fromF : Bool := false
  hold : Bool := false
  parked : Option (Nat × Nat) := none
  store : Option AStore := none
  later : List (Nat × Option AStore) := []
  use : Nat := 0
  part : Nat := 16
  deriving DecidableEq, Repr

/-- R332: a message between the home slices (nodes 40 to 47), the on-device agents (0 to 24) and the requesters that do not cache (33 to 37): its code
(0x91: SNP_INV with NODATA), source, destination, line, R_ID, what an agent reports as impossible (message code and state, R354), and for data the line with
its marks (for DATA_ATOM the old value and status); the partition of a REQ. -/
structure CMsg where
  code : Nat
  src : Nat
  dst : Nat
  line : Nat
  r : Nat := 33
  note : Option (Nat × Nat) := none
  data : BitVec 512 := 0
  marks : Nat := 0
  part : Nat := 16
  deriving DecidableEq, Repr

/-- What came of a requester's access to a line: the line, the kind of access (a kind of CReq; 0x50 a load of an agent, 0x51 a store), its status, and the data with its
marks (for an atomic the old value). -/
structure CAns where
  line : Nat
  kind : Nat
  status : Nat := 0
  data : BitVec 512 := 0
  marks : Nat := 0
  deriving DecidableEq, Repr

/-- Where an access to a line ends: it waits, it ends with a status, its bytes lie at a store offset of this device, or it
crosses the fabric to a device under a PGA, passed on by a region entry or not. -/
inductive Reach where
  | wait
  | stat (code : Nat)
  | loc (off : Nat)
  | rem (dest pga : Nat) (via : Option Nat)
  deriving DecidableEq, Repr

/-- An access to one line that has passed its checks and waits for its line: its partition, the address it names (by VA where it was translated), the
way it goes, the PGA, and whether an invalidation waits for it because it used a removed translation (R315). -/
structure Access where
  part : Nat
  addr : Nat
  kind : Nat
  pga : Nat
  way : Reach
  drain : Bool := false
  deriving DecidableEq, Repr

/-! ### The Efhal fabric (R365 to R387) -/

/-- The answer to a fabric request: status, data or old value, dead-letter marks of the line's codewords, FWD. -/
structure FAns where
  status : Nat := 0
  data : BitVec 512 := 0
  marks : Nat := 0
  fwd : Bool := false
  deriving DecidableEq, Repr

/-- R373: an outstanding fabric request: REQID, destination, operation code of R372, partition, PGA, write data, marks and
byte mask, an atomic's minor, width, type and operands, the requester inside this device, the region entry that passed the request on
(R383), and the answer once it has come. -/
structure FReq where
  id : Nat := 0
  dest : Nat := 0
  kind : Nat := 0
  part : Nat := 0
  pga : Nat := 0
  data : BitVec 512 := 0
  marks : Nat := 0
  mask : Nat := 0
  op : List Nat := []
  own : Nat := 0
  via : Option Nat := none
  ans : Option FAns := none
  deriving DecidableEq, Repr

/-- R378 to R380: a hand-over at the home: the cue in which it was set, the REQID of the OFFER, the REQIDs of the ACCEPTs taken, the
LOGGED bit the receiver has replied. -/
structure HandOver where
  cue : Nat := 0
  offer : Nat := 0
  accepts : List Nat := []
  reply : Option Bool := none
  deriving DecidableEq, Repr

/-- R377, R382: a withdrawal that waits for INVAL_ACKs: the members still to answer, and the PUBLISH orders it completes (device,
partition, REQID). -/
structure Withdraw where
  left : Nat := 0
  orders : List (Nat × Nat × Nat) := []
  deriving DecidableEq, Repr

/-! ### Work orders (R492 to R510) -/

/-- A work order fetched and not completed: its serial number, partition, Outbox and Inbox, FENCE, opcode, TAG, its 64 bytes as a number,
whether it has started, the first cue that may feed its stream (R506), the context that serves it, the lines or steps done,
a line read and not yet written, whether a dead letter or a lost target was met, what its opcode keeps, the control core that serves it (R513), and
whether that core has stopped and started again (R514). -/
structure Order where
  id : Nat := 0
  part : Nat := 0
  box : Nat := 0
  inbox : Nat := 0
  fence : Bool := false
  op : Nat := 0
  tag : Nat := 0
  words : Nat := 0
  started : Bool := false
  feed : Nat := 0
  ctx : Option Nat := none
  done : Nat := 0
  held : Option (BitVec 512 × Nat) := none
  dead : Bool := false
  lost : Bool := false
  ext : List Nat := []
  core : Option Nat := none
  broken : Bool := false
  deriving DecidableEq, Repr

/-- R504 to R506: a running stream: its work order, its position, the next input, whether a model token is in flight, since which cue, and
the conditions of R457 met since. -/
structure RunStream where
  order : Nat := 0
  part : Nat := 0
  pos : Nat := 0
  input : Nat := 0
  flying : Bool := false
  since : Nat := 0
  conds : Nat := 0
  deriving DecidableEq, Repr

/-! ### Embedding tables (R411 to R427) -/

/-- A row request at a home: its front (device, partition, REQID, the index's number in its order), table and row, kind (0 lookup, 1 an
addition, 2 an addition under DET, 3 a put), the tally base of a DET one, whether its elements are binary32, its bytes, whether
they are dead-letter data, and the store offset of its version slot once it has been issued (R421). Kinds 4 and 5 are the home's own at a TAKE (R422): the DET
application of a row (id its TYPE), and its freeze (id its new home); n is the bytes of the row. -/
structure EmbReq where
  src : Nat := 0
  part : Nat := 0
  id : Nat := 0
  n : Nat := 0
  table : Nat := 0
  row : Nat := 0
  kind : Nat := 0
  base : Int := 0
  f32 : Bool := false
  data : List Byte := []
  dead : Bool := false
  slot : Option Nat := none
  deriving DecidableEq, Repr

/-- R419: a DET accumulator of a row: its base, one lane per element, the reserved lines it takes, the contributions it holds. -/
structure DetAcc where
  table : Nat := 0
  row : Nat := 0
  base : Int := 0
  lanes : List TLane := []
  lines : Nat := 0
  from_ : List EmbReq := []
  deriving DecidableEq, Repr

/-- R426: a forwarding record of an old home: the EMB_MOVE entry, the row, the new home, the first whole cue in which nothing has been
forwarded. -/
structure EmbFwd where
  k : Nat := 0
  table : Nat := 0
  row : Nat := 0
  dest : Nat := 0
  idle : Nat := 0
  deriving DecidableEq, Repr

/-- R414 to R417: an embedding order at its front: its serial number and REQID, the table's TYPE and ROW16, the tally base, the next index
to read, the indices outstanding with their homes, the rows that have come (index, bytes, dead), pooled values in binary32 and
tally lanes by output, contributions by output, outputs with a dead-letter contribution, outputs written, what was met:
a range error, a dead letter, a lost home, a stale record. -/
structure EmbJob where
  order : Nat := 0
  id : Nat := 0
  ty : Nat := 2
  row16 : Nat := 0
  base : Int := 0
  next : Nat := 0
  out : SMap Nat := []
  rows : SMap (List Byte × Bool) := []
  acc : SMap (List Nat) := []
  tacc : SMap (List TLane) := []
  got : SMap Nat := []
  deadOut : SMap Bool := []
  written : Nat := 0
  range : Bool := false
  dead : Bool := false
  lost : Bool := false
  stale : Bool := false
  deriving DecidableEq, Repr

/-! ### Hamming search (R429 to R446) -/

/-- R432, R447: an index as a task or an order has taken it: KIND, the code's bytes, the arrays' offsets, COUNT, NLIST, ENTRY, MAXDEG,
VISIT_MAX. -/
structure SrchCfg where
  kind : Nat := 0
  bytes : Nat := 32
  codes : Nat := 0
  metas : Nat := 0
  count : Nat := 0
  cent : Nat := 0
  lists : Nat := 0
  nlist : Nat := 0
  entry : Nat := 0
  maxdeg : Nat := 0
  visitMax : Nat := 0
  deriving DecidableEq, Repr

/-- R439: a beam entry: its slot, generation, distance and ID, whether it has been expanded, whether R437 returns it, its edges (slot,
generation; none: an edge with a reserved bit). -/
structure BeamEnt where
  slot : Nat := 0
  gen : Nat := 0
  dist : Nat := 0
  id : Nat := 0
  expanded : Bool := false
  returned : Bool := false
  edges : List (Option (Nat × Nat)) := []
  deriving DecidableEq, Repr

/-- R439, R441: a context that expands a task's beam: the edges still to follow, and the read it waits for (what is read, and the
generation the edge names). -/
structure SrchLane where
  edges : List (Option (Nat × Nat)) := []
  wait : Option (Nat × Option Nat) := none
  deriving DecidableEq, Repr

/-- R442 to R444: a search task at its home: its front, REQID, query and shard, class R, K, W, the lists to probe, the filter, the code;
the index; the CE (48 t + c) and contexts that run it; the phase (0 centroids, 1 list entries, 2 records, 3 graph), the position, the centroids met
(distance, list), the record ranges to scan, the results (distance, ID, slot) and the beam; its lanes; the counts; whether a dead
letter was met, whether VISIT_MAX has stopped it; its serial number at this home. -/
structure STask where
  src : Nat := 0
  part : Nat := 0
  id : Nat := 0
  q : Nat := 0
  index : Nat := 0
  shard : Nat := 0
  clsR : Bool := false
  k : Nat := 0
  w : Nat := 0
  probes : Nat := 0
  require : Nat := 0
  exclude : Nat := 0
  code : Nat := 0
  cfg : SrchCfg := {}
  ce : Nat := 0
  ctxs : Nat := 1
  ph : Nat := 0
  pos : Nat := 0
  cents : List (Nat × Nat) := []
  ranges : List (Nat × Nat) := []
  res : List (Nat × Nat × Nat) := []
  beam : List BeamEnt := []
  lanes : List SrchLane := []
  visited : Nat := 0
  skipped : Nat := 0
  dead : Bool := false
  stopped : Bool := false
  no : Nat := 0
  deriving DecidableEq, Repr

/-- R435 to R437, R441: a query at its front: its code, W and probes, the shards still out (a mask), the merged results (distance, ID,
shard, slot), the counts summed, a dead letter met, the widening rounds used, whether its record may be written. -/
structure SQuery where
  code : Nat := 0
  w : Nat := 0
  probes : Nat := 0
  left : Nat := 0
  res : List (Nat × Nat × Nat × Nat) := []
  visited : Nat := 0
  skipped : Nat := 0
  dead : Bool := false
  rounds : Nat := 0
  ready : Bool := false
  deriving DecidableEq, Repr

/-- A SEARCH order at its front: its serial number and REQID, the index's shape (KIND, code bytes, SHARDS, FIRST_DEV, WIDEN_MAX, NLIST), the next query
to read, the queries, the records written, whether a home was lost, a query was ST_FEWER, or ST_DEAD_LETTER. -/
structure SJob where
  order : Nat := 0
  id : Nat := 0
  kind : Nat := 0
  bytes : Nat := 32
  shards : Nat := 1
  first : Nat := 0
  widenMax : Nat := 0
  nlist : Nat := 0
  next : Nat := 0
  qs : SMap SQuery := []
  written : Nat := 0
  lost : Bool := false
  fewer : Bool := false
  dead : Bool := false
  deriving DecidableEq, Repr

/-- R373: a write or atomic the home has performed, with the answer it gave. -/
structure FDone where
  src : Nat := 0
  id : Nat := 0
  ans : FAns := {}
  deriving DecidableEq, Repr

/-! ### The link layer and the switch (R366 to R409) -/

/-- R366: what a flit carries: a parcel in SLOT0 (zero: none), and the credits returned of a class. -/
structure Flit where
  p : Nat := 0
  cls : Nat := 0
  count : Nat := 0
  deriving DecidableEq, Repr

/-- R366, R367: an Efhal port's link: the last SEQ received in order, the next SEQ to send, the flits not acknowledged (with their SEQ,
oldest first), those that wait until fewer than 512 are, and how many replays of the oldest have failed in a row. -/
structure Link where
  rx : Nat := 0xFFFF
  tx : Nat := 0
  unacked : List (Nat × Flit) := []
  wait : List Flit := []
  fails : Nat := 0
  deriving DecidableEq, Repr

/-- R396, R398: a QUEUED cell: its parcel, the input it came by, its class, whether it is a reserve cell of that input, and
whether a credit returns when it becomes FREE. -/
structure Cell where
  p : Nat := 0
  input : Nat := 0
  cls : Nat := 0
  reserve : Bool := false
  back : Bool := false
  deriving DecidableEq, Repr

/-- R405, R407: an accumulator: its cell, definition, REDUCE and ELEM, its COUNT, its two lanes and their base, the first
contribution, whether it is VOID. -/
structure Accum where
  cell : Nat := 0
  red : Nat := 0
  reduce : Nat := 0
  elem : Nat := 0
  count : Nat := 0
  a : TLane := {}
  b : TLane := {}
  base : Int := 0
  first : Nat := 0
  void : Bool := false
  deriving DecidableEq, Repr

/-- R401, R403: the further copies of a multicast parcel: its input, the parcel, the ports still without a copy, and its colour. -/
structure CopyJob where
  input : Nat := 0
  p : Nat := 0
  ports : List Nat := []
  colour : Nat := 0
  deriving DecidableEq, Repr

/-! ### Events (R516 to R525) -/

/-- R485, R509: an entry of port H's MSI-X table. -/
structure MsixEnt where
  addr : Word := 0
  data : Lane := 0
  mask : Bool := true
  deriving DecidableEq, Repr

/-- A claim between its select and its commit (R519). -/
structure Claim where
  core : Nat
  id : Nat
  reg : Nat
  deriving DecidableEq, Repr

/-- R165: an exception record. -/
structure XRec where
  profile : Nat := 0
  lost : Bool := false
  cause : Nat := 0
  pc : Nat := 0
  source : Nat := 0
  sub : Nat := 0
  cue : Nat := 0
  unit : Nat := 0
  detail : Nat := 0
  deriving DecidableEq, Repr

/-! ### The Stage Door (R531 to R569, R598) -/

/-- R563 to R566: an armed live update: the kind of image, the cue, for courier microcode the MI die whose turn it is and the TAKEs it
has waited. -/
structure UpdArm where
  kind : Nat := 0
  cue : Nat := 0
  die : Nat := 0
  takes : Nat := 0
  deriving DecidableEq, Repr

/-- R562: an SPDM session: the transport it runs on (0 port H, 1 to 8 an edge agent, 9 MCTP), its id, whether FINISH has
established it, how often its keys have been updated. -/
structure Session where
  via : Nat := 0
  id : Nat := 0
  up : Bool := false
  keys : Nat := 0
  deriving DecidableEq, Repr

/-- The Stage Door beyond its registers. Why the device stands still (0 it runs, 1 no refclk (R531), 2 REST (R543), 3 the input is
disconnected (R591), 4 a boundary-scan test (R599)), and whether a trip put it into REST (R547). The non-volatile store (R550): BAR2_LOG2, the
retirement record (troupe and spare, oldest first), the preferred slot of each kind (bit kind - 1), the version of the calibration tables. Flash
slots and banks, numbered 2 kind + slot (R555): DIGEST and SVN of the image held, and its bytes (keyed 2^32 slot + byte). The kinds with a
completed WRITE, the update armed, the kinds in trial, the first MI die a later ARM goes on from (R563 to R565). The last samples of each
region's temperature (TEMP units) and voltage (VOLT units), latest first, the input power of the last rounds, consecutive rounds below 44 V, at 110 °C and
above (R544, R545); the demands held: level (1 ×2, 2 ×4) and clear rounds (R546). Regions that run on refclk (R537), regions whose power cycle ended this cue (R540),
the region of a CLK_MUX_CMD switch in progress (R538), the power request: state and clk still to wait (R543). Wings channels whose module power is off
(R568). SPDM: the transports whose requester offered the signature algorithm, and the sessions (R562). The JTAG instruction and the boundary cells (R598). -/
structure Door where
  halt : Nat := 0
  trip : Bool := false
  bar2 : Nat := 40
  retired : List (Nat × Nat) := []
  prefer : Nat := 0
  cal : Nat := 0
  digests : SMap Nat := []
  svns : SMap Nat := []
  flash : SMap Byte := []
  wrote : List Nat := []
  arm : Option UpdArm := none
  trial : List Nat := []
  dieNext : Nat := 0
  temps : SMap (List Nat) := []
  volts : SMap (List Nat) := []
  powers : List Nat := []
  lowVolt : Nat := 0
  hot : SMap Nat := []
  demand : SMap (Nat × Nat) := []
  onRef : List Nat := []
  cycled : List Nat := []
  muxCmd : Option Nat := none
  req : Option (Nat × Nat) := none
  wcOff : List Nat := []
  algs : List Nat := []
  sessions : List Session := []
  jtag : Nat := 0xFE
  cells : List Byte := []
  deriving DecidableEq, Repr

/-! ### Ledgers and membership (R458 to R472) -/

/-- R46, R221, R458: the columns of one ledger; `partials` counts the partial model tokens of R220. -/
structure Ledger where
  opening : Int := 0
  injected : Int := 0
  delivered : Int := 0
  cancelled : Int := 0
  aborted : Int := 0
  lost : Int := 0
  residual : Int := 0
  partials : Int := 0
  deriving DecidableEq, Repr

/-- R462: a postcard as heard. -/
structure Card where
  cue : Nat := 0
  ofs : Nat := 0
  stepHold : Bool := false
  fenced : Bool := false
  joining : Bool := false
  ready : Bool := false
  rhAlive : Bool := true
  coord : Nat := 0
  heard : Nat := 0
  suspect : Nat := 0
  verdict : Nat := 0
  rhSuspect : Nat := 0
  rhVerdict : Nat := 0
  deriving DecidableEq, Repr

/-- One Postmark arm, real or rehearsal (R463 to R467, R477): missed counts, members heard for the running cue and for
the last, suspicions, verdicts heard, own verdicts, consecutive TAKEs without a quorum, live members. -/
structure Postmark where
  missed : SMap Nat := []
  heard : Nat := 0
  heardLast : Nat := 0
  suspect : Nat := 0
  toTake : Nat := 0
  verdict : Nat := 0
  noQuorum : Nat := 0
  live : Nat := 0
  fenced : Bool := false
  deriving DecidableEq, Repr

/-- R321, R484: one line of a BAR2 read of port H: where it starts in BAR2 and its bytes, the PGA and partition it was decoded to, or the count its decode earned (1 MISS, 2 PERM);
what has come of it: its bytes and whether they are poisoned. -/
structure HPart where
  lo : Nat := 0
  n : Nat := 0
  p : Nat := 0
  part : Nat := 0
  bad : Nat := 0
  got : Option (List Byte × Bool) := none
  deriving DecidableEq, Repr

/-- R321, R484: a BAR2 read of port H whose lines have not all come: its first byte, its bytes, its number among those outstanding, its lines. -/
structure HRead where
  o : Nat := 0
  n : Nat := 0
  no : Nat := 0
  parts : List HPart := []
  deriving DecidableEq, Repr

end Sys2Proof.Machine
end

