-- ==== Sys2Proof/Machine/Regs.lean ====
section
/-!
DEFINITION. The register tables of the spec: one named field for every field of every register table, and the list of
all registers, from which a control-space read or write finds the fields an offset holds.
-/

namespace Sys2Proof.Machine

/-- The access codes of R7. -/
inductive Acc where
  | RW | RO | WO | W1C | W1S | RWS
  deriving DecidableEq, Repr

/-- One field of one register: the live offset X of the register (R10), its lowest bit and width, its reset value, its
access code, whether it is Taken, whether it is step-only (R56), and the encodings the description allows as
(first, last, stride); none listed: every encoding. -/
structure Fld where
  reg : Nat
  lo : Nat
  width : Nat
  reset : Nat
  acc : Acc
  taken : Bool := false
  stepOnly : Bool := false
  legal : List (Nat × Nat × Nat) := []
  deriving DecidableEq, Repr

/-- The key of a field in the field maps of State. -/
def Fld.key (f : Fld) : Nat := f.reg * 64 + f.lo

/-- R13: whether a value is an encoding the field description allows. -/
def Fld.allows (f : Fld) (v : Nat) : Bool :=
  f.legal.isEmpty || f.legal.any (fun r => decide (r.1 ≤ v) && decide (v ≤ r.2.1) && ((v - r.1) % r.2.2 == 0))

/-- A register table: its first offset, two index ranges with their strides, and its fields at index 0. -/
structure RegDesc where
  name : String
  base : Nat
  n1 : Nat
  s1 : Nat
  n2 : Nat
  s2 : Nat
  fields : List Fld
  deriving DecidableEq, Repr

/-- R64: the switched power domain of the troupe window i = 80y + x. -/
def Reg.trpDomain (i : Nat) : Nat := (i / 80 % 20) / 2

/-- R73: the gate a troupe carries, 15 where it carries none. -/
def Reg.trpGate (i : Nat) : Nat :=
  let x := i % 80 % 20
  let y := i / 80 % 20
  let row := if y = 4 then 0 else if y = 15 then 4 else 15
  let col := if x = 2 then 0 else if x = 7 then 1 else if x = 12 then 2 else if x = 17 then 3 else 15
  if row = 15 ∨ col = 15 then 15 else row + col

/-- R22: the compute die of the troupe window i = 80y + x. -/
def Reg.trpDie (i : Nat) : Nat := 4 * (i / 80 / 20) + i % 80 / 20

/-- R533: the base division of region r (with the MRDIMM population of log entry 3). -/
def Reg.clkBase (r : Nat) : Nat :=
  if r < 160 then 16
  else if r < 184 then (if (r - 160) % 3 = 0 then 16 else 20)
  else if r < 208 then (if r = 205 ∨ r = 206 then 32 else 8)
  else 16

/-- R585: DEV_ID.ORDER [55:0]. -/
def Reg.DEV_ID_ORDER : Fld := { reg := 0x0, lo := 0, width := 56, reset := 13863936280642128, acc := .RO }
/-- R585: DEV_ID. -/
def Reg.tab_DEV_ID : RegDesc := ⟨"DEV_ID", 0x0, 1, 0x0, 1, 0x0,
  [Reg.DEV_ID_ORDER]⟩

/-- R585: ARCH_LEVEL.ISA [15:8]. -/
def Reg.ARCH_LEVEL_ISA : Fld := { reg := 0x8, lo := 8, width := 8, reset := 1, acc := .RO }
/-- R585: ARCH_LEVEL.LEVEL [7:0]. -/
def Reg.ARCH_LEVEL_LEVEL : Fld := { reg := 0x8, lo := 0, width := 8, reset := 1, acc := .RO }
/-- R585: ARCH_LEVEL. -/
def Reg.tab_ARCH_LEVEL : RegDesc := ⟨"ARCH_LEVEL", 0x8, 1, 0x0, 1, 0x0,
  [Reg.ARCH_LEVEL_ISA, Reg.ARCH_LEVEL_LEVEL]⟩

/-- R585: FIT_CLASS.CLASS [7:0]. -/
def Reg.FIT_CLASS_CLASS : Fld := { reg := 0x10, lo := 0, width := 8, reset := 1, acc := .RO }
/-- R585: FIT_CLASS. -/
def Reg.tab_FIT_CLASS : RegDesc := ⟨"FIT_CLASS", 0x10, 1, 0x0, 1, 0x0,
  [Reg.FIT_CLASS_CLASS]⟩

/-- R585: STEPPING.STEP [7:0]. -/
def Reg.STEPPING_STEP : Fld := { reg := 0x18, lo := 0, width := 8, reset := 161, acc := .RO }
/-- R585: STEPPING. -/
def Reg.tab_STEPPING : RegDesc := ⟨"STEPPING", 0x18, 1, 0x0, 1, 0x0,
  [Reg.STEPPING_STEP]⟩

/-- R586: CAPS0.PHYS_TROUPES [63:48]. -/
def Reg.CAPS0_PHYS_TROUPES : Fld := { reg := 0x40, lo := 48, width := 16, reset := 6400, acc := .RO }
/-- R586: CAPS0.ACTIVE_TROUPES [47:32]. -/
def Reg.CAPS0_ACTIVE_TROUPES : Fld := { reg := 0x40, lo := 32, width := 16, reset := 6250, acc := .RO }
/-- R586: CAPS0.CES [31:24]. -/
def Reg.CAPS0_CES : Fld := { reg := 0x40, lo := 24, width := 8, reset := 48, acc := .RO }
/-- R586: CAPS0.LANES [23:16]. -/
def Reg.CAPS0_LANES : Fld := { reg := 0x40, lo := 16, width := 8, reset := 16, acc := .RO }
/-- R586: CAPS0.TALLIES [15:8]. -/
def Reg.CAPS0_TALLIES : Fld := { reg := 0x40, lo := 8, width := 8, reset := 4, acc := .RO }
/-- R586: CAPS0. -/
def Reg.tab_CAPS0 : RegDesc := ⟨"CAPS0", 0x40, 1, 0x0, 1, 0x0,
  [Reg.CAPS0_PHYS_TROUPES, Reg.CAPS0_ACTIVE_TROUPES, Reg.CAPS0_CES, Reg.CAPS0_LANES, Reg.CAPS0_TALLIES]⟩

/-- R586: CAPS1.STAGE_GIB [63:48]. -/
def Reg.CAPS1_STAGE_GIB : Fld := { reg := 0x48, lo := 48, width := 16, reset := 768, acc := .RO }
/-- R586: CAPS1.WINGS_CH [47:40]. -/
def Reg.CAPS1_WINGS_CH : Fld := { reg := 0x48, lo := 40, width := 8, reset := 32, acc := .RO }
/-- R586: CAPS1.COURIERS [39:24]. -/
def Reg.CAPS1_COURIERS : Fld := { reg := 0x48, lo := 24, width := 16, reset := 256, acc := .RO }
/-- R586: CAPS1.CONTEXTS [23:16]. -/
def Reg.CAPS1_CONTEXTS : Fld := { reg := 0x48, lo := 16, width := 8, reset := 16, acc := .RO }
/-- R586: CAPS1.PARTITIONS [15:8]. -/
def Reg.CAPS1_PARTITIONS : Fld := { reg := 0x48, lo := 8, width := 8, reset := 16, acc := .RO }
/-- R586: CAPS1.MAX_DEVICES [7:0]. -/
def Reg.CAPS1_MAX_DEVICES : Fld := { reg := 0x48, lo := 0, width := 8, reset := 64, acc := .RO }
/-- R586: CAPS1. -/
def Reg.tab_CAPS1 : RegDesc := ⟨"CAPS1", 0x48, 1, 0x0, 1, 0x0,
  [Reg.CAPS1_STAGE_GIB, Reg.CAPS1_WINGS_CH, Reg.CAPS1_COURIERS, Reg.CAPS1_CONTEXTS, Reg.CAPS1_PARTITIONS, Reg.CAPS1_MAX_DEVICES]⟩

/-- R586: CAPS2.EFHAL_PORTS [63:56]. -/
def Reg.CAPS2_EFHAL_PORTS : Fld := { reg := 0x50, lo := 56, width := 8, reset := 18, acc := .RO }
/-- R586: CAPS2.EDGE_AGENTS [55:48]. -/
def Reg.CAPS2_EDGE_AGENTS : Fld := { reg := 0x50, lo := 48, width := 8, reset := 8, acc := .RO }
/-- R586: CAPS2.SLICES [47:40]. -/
def Reg.CAPS2_SLICES : Fld := { reg := 0x50, lo := 40, width := 8, reset := 8, acc := .RO }
/-- R586: CAPS2.REGIONS [39:24]. -/
def Reg.CAPS2_REGIONS : Fld := { reg := 0x50, lo := 24, width := 16, reset := 4096, acc := .RO }
/-- R586: CAPS2.RED_DEFS [23:8]. -/
def Reg.CAPS2_RED_DEFS : Fld := { reg := 0x50, lo := 8, width := 16, reset := 256, acc := .RO }
/-- R586: CAPS2. -/
def Reg.tab_CAPS2 : RegDesc := ⟨"CAPS2", 0x50, 1, 0x0, 1, 0x0,
  [Reg.CAPS2_EFHAL_PORTS, Reg.CAPS2_EDGE_AGENTS, Reg.CAPS2_SLICES, Reg.CAPS2_REGIONS, Reg.CAPS2_RED_DEFS]⟩

/-- R586: CAPS3.PERIOD_STEP [55:42]. -/
def Reg.CAPS3_PERIOD_STEP : Fld := { reg := 0x58, lo := 42, width := 14, reset := 10000, acc := .RO }
/-- R586: CAPS3.PERIOD_MAX [41:21]. -/
def Reg.CAPS3_PERIOD_MAX : Fld := { reg := 0x58, lo := 21, width := 21, reset := 1250000, acc := .RO }
/-- R586: CAPS3.PERIOD_MIN [20:0]. -/
def Reg.CAPS3_PERIOD_MIN : Fld := { reg := 0x58, lo := 0, width := 21, reset := 125000, acc := .RO }
/-- R586: CAPS3. -/
def Reg.tab_CAPS3 : RegDesc := ⟨"CAPS3", 0x58, 1, 0x0, 1, 0x0,
  [Reg.CAPS3_PERIOD_STEP, Reg.CAPS3_PERIOD_MAX, Reg.CAPS3_PERIOD_MIN]⟩

/-- R586: CAPS4.ROW_CACHE_MIB [63:48]. -/
def Reg.CAPS4_ROW_CACHE_MIB : Fld := { reg := 0x60, lo := 48, width := 16, reset := 96, acc := .RO }
/-- R586: CAPS4.PB_FRAMES [47:40]. -/
def Reg.CAPS4_PB_FRAMES : Fld := { reg := 0x60, lo := 40, width := 8, reset := 128, acc := .RO }
/-- R586: CAPS4.PB_SWAP [39:32]. -/
def Reg.CAPS4_PB_SWAP : Fld := { reg := 0x60, lo := 32, width := 8, reset := 16, acc := .RO }
/-- R586: CAPS4.PB_LAT [31:24]. -/
def Reg.CAPS4_PB_LAT : Fld := { reg := 0x60, lo := 24, width := 8, reset := 24, acc := .RO }
/-- R586: CAPS4. -/
def Reg.tab_CAPS4 : RegDesc := ⟨"CAPS4", 0x60, 1, 0x0, 1, 0x0,
  [Reg.CAPS4_ROW_CACHE_MIB, Reg.CAPS4_PB_FRAMES, Reg.CAPS4_PB_SWAP, Reg.CAPS4_PB_LAT]⟩

/-- R586: CAPS5.RMODES [28:24]. -/
def Reg.CAPS5_RMODES : Fld := { reg := 0x68, lo := 24, width := 5, reset := 31, acc := .RO }
/-- R586: CAPS5.TYPES [17:0]. -/
def Reg.CAPS5_TYPES : Fld := { reg := 0x68, lo := 0, width := 18, reset := 262143, acc := .RO }
/-- R586: CAPS5. -/
def Reg.tab_CAPS5 : RegDesc := ⟨"CAPS5", 0x68, 1, 0x0, 1, 0x0,
  [Reg.CAPS5_RMODES, Reg.CAPS5_TYPES]⟩

/-- R586: CAPS6.OUTBOXES [63:56]. -/
def Reg.CAPS6_OUTBOXES : Fld := { reg := 0x70, lo := 56, width := 8, reset := 64, acc := .RO }
/-- R586: CAPS6.WORK_ORDERS [55:40]. -/
def Reg.CAPS6_WORK_ORDERS : Fld := { reg := 0x70, lo := 40, width := 16, reset := 4096, acc := .RO }
/-- R586: CAPS6.MSIX [25:16]. -/
def Reg.CAPS6_MSIX : Fld := { reg := 0x70, lo := 16, width := 10, reset := 512, acc := .RO }
/-- R586: CAPS6.EVENT_IDS [10:0]. -/
def Reg.CAPS6_EVENT_IDS : Fld := { reg := 0x70, lo := 0, width := 11, reset := 2046, acc := .RO }
/-- R586: CAPS6. -/
def Reg.tab_CAPS6 : RegDesc := ⟨"CAPS6", 0x70, 1, 0x0, 1, 0x0,
  [Reg.CAPS6_OUTBOXES, Reg.CAPS6_WORK_ORDERS, Reg.CAPS6_MSIX, Reg.CAPS6_EVENT_IDS]⟩

/-- R59: CS_STATUS.FAIL_ITEM [63:40]. -/
def Reg.CS_STATUS_FAIL_ITEM : Fld := { reg := 0x10000, lo := 40, width := 24, reset := 0, acc := .RO }
/-- R59: CS_STATUS.FAIL_CHECK [39:32]. -/
def Reg.CS_STATUS_FAIL_CHECK : Fld := { reg := 0x10000, lo := 32, width := 8, reset := 0, acc := .RO }
/-- R59: CS_STATUS.FAIL_KIND [26:24]. -/
def Reg.CS_STATUS_FAIL_KIND : Fld := { reg := 0x10000, lo := 24, width := 3, reset := 0, acc := .RO }
/-- R59: CS_STATUS.HOLDER [23:19]. -/
def Reg.CS_STATUS_HOLDER : Fld := { reg := 0x10000, lo := 19, width := 5, reset := 31, acc := .RO }
/-- R59: CS_STATUS.ABANDON_CAUSE [18:16]. -/
def Reg.CS_STATUS_ABANDON_CAUSE : Fld := { reg := 0x10000, lo := 16, width := 3, reset := 0, acc := .RO }
/-- R59: CS_STATUS.ABANDON_LATE [15:15]. -/
def Reg.CS_STATUS_ABANDON_LATE : Fld := { reg := 0x10000, lo := 15, width := 1, reset := 0, acc := .W1C }
/-- R59: CS_STATUS.ARM_ERR [14:14]. -/
def Reg.CS_STATUS_ARM_ERR : Fld := { reg := 0x10000, lo := 14, width := 1, reset := 0, acc := .W1C }
/-- R59: CS_STATUS.REFUSED [13:13]. -/
def Reg.CS_STATUS_REFUSED : Fld := { reg := 0x10000, lo := 13, width := 1, reset := 0, acc := .W1C }
/-- R59: CS_STATUS.BUSY [12:12]. -/
def Reg.CS_STATUS_BUSY : Fld := { reg := 0x10000, lo := 12, width := 1, reset := 0, acc := .RO }
/-- R59: CS_STATUS.STEP_HELD [11:11]. -/
def Reg.CS_STATUS_STEP_HELD : Fld := { reg := 0x10000, lo := 11, width := 1, reset := 0, acc := .RO }
/-- R59: CS_STATUS.STATE [2:0]. -/
def Reg.CS_STATUS_STATE : Fld := { reg := 0x10000, lo := 0, width := 3, reset := 0, acc := .RO }
/-- R59: CS_STATUS. -/
def Reg.tab_CS_STATUS : RegDesc := ⟨"CS_STATUS", 0x10000, 1, 0x0, 1, 0x0,
  [Reg.CS_STATUS_FAIL_ITEM, Reg.CS_STATUS_FAIL_CHECK, Reg.CS_STATUS_FAIL_KIND, Reg.CS_STATUS_HOLDER, Reg.CS_STATUS_ABANDON_CAUSE, Reg.CS_STATUS_ABANDON_LATE, Reg.CS_STATUS_ARM_ERR, Reg.CS_STATUS_REFUSED, Reg.CS_STATUS_BUSY, Reg.CS_STATUS_STEP_HELD, Reg.CS_STATUS_STATE]⟩

/-- R59: CS_CHECK.GO [0:0]. -/
def Reg.CS_CHECK_GO : Fld := { reg := 0x10008, lo := 0, width := 1, reset := 0, acc := .WO }
/-- R59: CS_CHECK. -/
def Reg.tab_CS_CHECK : RegDesc := ⟨"CS_CHECK", 0x10008, 1, 0x0, 1, 0x0,
  [Reg.CS_CHECK_GO]⟩

/-- R59: CS_TAKE_CUE.STEP [63:63]. -/
def Reg.CS_TAKE_CUE_STEP : Fld := { reg := 0x10010, lo := 63, width := 1, reset := 0, acc := .RW }
/-- R59: CS_TAKE_CUE.CUE [47:0]. -/
def Reg.CS_TAKE_CUE_CUE : Fld := { reg := 0x10010, lo := 0, width := 48, reset := 0, acc := .RW }
/-- R59: CS_TAKE_CUE. -/
def Reg.tab_CS_TAKE_CUE : RegDesc := ⟨"CS_TAKE_CUE", 0x10010, 1, 0x0, 1, 0x0,
  [Reg.CS_TAKE_CUE_STEP, Reg.CS_TAKE_CUE_CUE]⟩

/-- R59: CS_ABANDON.GO [0:0]. -/
def Reg.CS_ABANDON_GO : Fld := { reg := 0x10018, lo := 0, width := 1, reset := 0, acc := .WO }
/-- R59: CS_ABANDON. -/
def Reg.tab_CS_ABANDON : RegDesc := ⟨"CS_ABANDON", 0x10018, 1, 0x0, 1, 0x0,
  [Reg.CS_ABANDON_GO]⟩

/-- R59: CS_COUNTS.TAKEN [63:32]. -/
def Reg.CS_COUNTS_TAKEN : Fld := { reg := 0x10020, lo := 32, width := 32, reset := 0, acc := .RO }
/-- R59: CS_COUNTS.REFUSED [31:0]. -/
def Reg.CS_COUNTS_REFUSED : Fld := { reg := 0x10020, lo := 0, width := 32, reset := 0, acc := .RO }
/-- R59: CS_COUNTS. -/
def Reg.tab_CS_COUNTS : RegDesc := ⟨"CS_COUNTS", 0x10020, 1, 0x0, 1, 0x0,
  [Reg.CS_COUNTS_TAKEN, Reg.CS_COUNTS_REFUSED]⟩

/-- R59: CS_FAIL_UNIT.UNIT [15:0]. -/
def Reg.CS_FAIL_UNIT_UNIT : Fld := { reg := 0x10028, lo := 0, width := 16, reset := 0, acc := .RO }
/-- R59: CS_FAIL_UNIT. -/
def Reg.tab_CS_FAIL_UNIT : RegDesc := ⟨"CS_FAIL_UNIT", 0x10028, 1, 0x0, 1, 0x0,
  [Reg.CS_FAIL_UNIT_UNIT]⟩

/-- R60: CUE_PERIOD.PERIOD [20:0]. -/
def Reg.CUE_PERIOD_PERIOD : Fld := { reg := 0x20000, lo := 0, width := 21, reset := 250000, acc := .RW, taken := true, legal := [(125000, 125000, 1), (130000, 1250000, 10000)] }
/-- R60: CUE_PERIOD. -/
def Reg.tab_CUE_PERIOD : RegDesc := ⟨"CUE_PERIOD", 0x20000, 1, 0x0, 1, 0x0,
  [Reg.CUE_PERIOD_PERIOD]⟩

/-- R60: CUE_COUNT.COUNT [47:0]. -/
def Reg.CUE_COUNT_COUNT : Fld := { reg := 0x20008, lo := 0, width := 48, reset := 0, acc := .RO }
/-- R60: CUE_COUNT. -/
def Reg.tab_CUE_COUNT : RegDesc := ⟨"CUE_COUNT", 0x20008, 1, 0x0, 1, 0x0,
  [Reg.CUE_COUNT_COUNT]⟩

/-- R60: CUE_PHASE.PHASE [31:30]. -/
def Reg.CUE_PHASE_PHASE : Fld := { reg := 0x20010, lo := 30, width := 2, reset := 3, acc := .RO }
/-- R60: CUE_PHASE.OFFSET [20:0]. -/
def Reg.CUE_PHASE_OFFSET : Fld := { reg := 0x20010, lo := 0, width := 21, reset := 0, acc := .RO }
/-- R60: CUE_PHASE. -/
def Reg.tab_CUE_PHASE : RegDesc := ⟨"CUE_PHASE", 0x20010, 1, 0x0, 1, 0x0,
  [Reg.CUE_PHASE_PHASE, Reg.CUE_PHASE_OFFSET]⟩

/-- R60: CUE_MISS_COUNT.FRAME [63:48]. -/
def Reg.CUE_MISS_COUNT_FRAME : Fld := { reg := 0x20018, lo := 48, width := 16, reset := 0, acc := .RW }
/-- R60: CUE_MISS_COUNT.SKIPPED [47:32]. -/
def Reg.CUE_MISS_COUNT_SKIPPED : Fld := { reg := 0x20018, lo := 32, width := 16, reset := 0, acc := .RW }
/-- R60: CUE_MISS_COUNT.CARRIED [31:16]. -/
def Reg.CUE_MISS_COUNT_CARRIED : Fld := { reg := 0x20018, lo := 16, width := 16, reset := 0, acc := .RW }
/-- R60: CUE_MISS_COUNT.UNDERSTUDY [15:0]. -/
def Reg.CUE_MISS_COUNT_UNDERSTUDY : Fld := { reg := 0x20018, lo := 0, width := 16, reset := 0, acc := .RW }
/-- R60: CUE_MISS_COUNT. -/
def Reg.tab_CUE_MISS_COUNT : RegDesc := ⟨"CUE_MISS_COUNT", 0x20018, 1, 0x0, 1, 0x0,
  [Reg.CUE_MISS_COUNT_FRAME, Reg.CUE_MISS_COUNT_SKIPPED, Reg.CUE_MISS_COUNT_CARRIED, Reg.CUE_MISS_COUNT_UNDERSTUDY]⟩

/-- R60: CUE_SYNC.LOCKED [31:31]. -/
def Reg.CUE_SYNC_LOCKED : Fld := { reg := 0x20020, lo := 31, width := 1, reset := 0, acc := .RO }
/-- R60: CUE_SYNC.LEADER [21:16]. -/
def Reg.CUE_SYNC_LEADER : Fld := { reg := 0x20020, lo := 16, width := 6, reset := 0, acc := .RO }
/-- R60: CUE_SYNC.SKEW_NS [15:0]. -/
def Reg.CUE_SYNC_SKEW_NS : Fld := { reg := 0x20020, lo := 0, width := 16, reset := 0, acc := .RO }
/-- R60: CUE_SYNC. -/
def Reg.tab_CUE_SYNC : RegDesc := ⟨"CUE_SYNC", 0x20020, 1, 0x0, 1, 0x0,
  [Reg.CUE_SYNC_LOCKED, Reg.CUE_SYNC_LEADER, Reg.CUE_SYNC_SKEW_NS]⟩

/-- R60: CUE_CARRY_ALERT.CUES [3:0]. -/
def Reg.CUE_CARRY_ALERT_CUES : Fld := { reg := 0x20028, lo := 0, width := 4, reset := 4, acc := .RW, taken := true }
/-- R60: CUE_CARRY_ALERT. -/
def Reg.tab_CUE_CARRY_ALERT : RegDesc := ⟨"CUE_CARRY_ALERT", 0x20028, 1, 0x0, 1, 0x0,
  [Reg.CUE_CARRY_ALERT_CUES]⟩

/-- R528: EVC_SRC.TARGET [63:48]. -/
def Reg.EVC_SRC_TARGET (i : Nat) : Fld := { reg := 0x40008 + 0x8 * i, lo := 48, width := 16, reset := 0, acc := .RW }
/-- R528: EVC_SRC.FWD_EN [47:47]. -/
def Reg.EVC_SRC_FWD_EN (i : Nat) : Fld := { reg := 0x40008 + 0x8 * i, lo := 47, width := 1, reset := 0, acc := .RW }
/-- R528: EVC_SRC.FWD_PART [43:40]. -/
def Reg.EVC_SRC_FWD_PART (i : Nat) : Fld := { reg := 0x40008 + 0x8 * i, lo := 40, width := 4, reset := 0, acc := .RW }
/-- R528: EVC_SRC.FWD_VEC [36:32]. -/
def Reg.EVC_SRC_FWD_VEC (i : Nat) : Fld := { reg := 0x40008 + 0x8 * i, lo := 32, width := 5, reset := 0, acc := .RW }
/-- R528: EVC_SRC.PRIO [11:8]. -/
def Reg.EVC_SRC_PRIO (i : Nat) : Fld := { reg := 0x40008 + 0x8 * i, lo := 8, width := 4, reset := 0, acc := .RW }
/-- R528: EVC_SRC.EN [0:0]. -/
def Reg.EVC_SRC_EN (i : Nat) : Fld := { reg := 0x40008 + 0x8 * i, lo := 0, width := 1, reset := 0, acc := .RW }
/-- R528: EVC_SRC. -/
def Reg.tab_EVC_SRC : RegDesc := ⟨"EVC_SRC", 0x40008, 2046, 0x8, 1, 0x0,
  [Reg.EVC_SRC_TARGET 0, Reg.EVC_SRC_FWD_EN 0, Reg.EVC_SRC_FWD_PART 0, Reg.EVC_SRC_FWD_VEC 0, Reg.EVC_SRC_PRIO 0, Reg.EVC_SRC_EN 0]⟩

/-- R528: EVC_PENDING.BITS [63:0]. -/
def Reg.EVC_PENDING_BITS (i : Nat) : Fld := { reg := 0x44000 + 0x8 * i, lo := 0, width := 64, reset := 0, acc := .W1C }
/-- R528: EVC_PENDING. -/
def Reg.tab_EVC_PENDING : RegDesc := ⟨"EVC_PENDING", 0x44000, 32, 0x8, 1, 0x0,
  [Reg.EVC_PENDING_BITS 0]⟩

/-- R528: EVC_ACTIVE.BITS [63:0]. -/
def Reg.EVC_ACTIVE_BITS (i : Nat) : Fld := { reg := 0x44100 + 0x8 * i, lo := 0, width := 64, reset := 0, acc := .RO }
/-- R528: EVC_ACTIVE. -/
def Reg.tab_EVC_ACTIVE : RegDesc := ⟨"EVC_ACTIVE", 0x44100, 32, 0x8, 1, 0x0,
  [Reg.EVC_ACTIVE_BITS 0]⟩

/-- R528: EVC_CORE.IN_HANDLER [21:21]. -/
def Reg.EVC_CORE_IN_HANDLER (i : Nat) : Fld := { reg := 0x44200 + 0x8 * i, lo := 21, width := 1, reset := 0, acc := .RO }
/-- R528: EVC_CORE.IE [20:20]. -/
def Reg.EVC_CORE_IE (i : Nat) : Fld := { reg := 0x44200 + 0x8 * i, lo := 20, width := 1, reset := 0, acc := .RW }
/-- R528: EVC_CORE.THRESHOLD [19:16]. -/
def Reg.EVC_CORE_THRESHOLD (i : Nat) : Fld := { reg := 0x44200 + 0x8 * i, lo := 16, width := 4, reset := 0, acc := .RW }
/-- R528: EVC_CORE.HANDLER [13:0]. -/
def Reg.EVC_CORE_HANDLER (i : Nat) : Fld := { reg := 0x44200 + 0x8 * i, lo := 0, width := 14, reset := 0, acc := .RW }
/-- R528: EVC_CORE. -/
def Reg.tab_EVC_CORE : RegDesc := ⟨"EVC_CORE", 0x44200, 16, 0x8, 1, 0x0,
  [Reg.EVC_CORE_IN_HANDLER 0, Reg.EVC_CORE_IE 0, Reg.EVC_CORE_THRESHOLD 0, Reg.EVC_CORE_HANDLER 0]⟩

/-- R528: EVC_STAT.SPURIOUS [63:32]. -/
def Reg.EVC_STAT_SPURIOUS : Fld := { reg := 0x44300, lo := 32, width := 32, reset := 0, acc := .RW }
/-- R528: EVC_STAT.DONE_ERR [31:16]. -/
def Reg.EVC_STAT_DONE_ERR : Fld := { reg := 0x44300, lo := 16, width := 16, reset := 0, acc := .RW }
/-- R528: EVC_STAT.BAD_RAISE [15:0]. -/
def Reg.EVC_STAT_BAD_RAISE : Fld := { reg := 0x44300, lo := 0, width := 16, reset := 0, acc := .RW }
/-- R528: EVC_STAT. -/
def Reg.tab_EVC_STAT : RegDesc := ⟨"EVC_STAT", 0x44300, 1, 0x0, 1, 0x0,
  [Reg.EVC_STAT_SPURIOUS, Reg.EVC_STAT_DONE_ERR, Reg.EVC_STAT_BAD_RAISE]⟩

/-- R528: EVC_RAISE.ID [10:0]. -/
def Reg.EVC_RAISE_ID : Fld := { reg := 0x44308, lo := 0, width := 11, reset := 0, acc := .WO }
/-- R528: EVC_RAISE. -/
def Reg.tab_EVC_RAISE : RegDesc := ⟨"EVC_RAISE", 0x44308, 1, 0x0, 1, 0x0,
  [Reg.EVC_RAISE_ID]⟩

/-- R528: EVC_MOD.COUNT [24:16]. -/
def Reg.EVC_MOD_COUNT (i : Nat) : Fld := { reg := 0x45000 + 0x8 * i, lo := 16, width := 9, reset := 1, acc := .RW, legal := [(1, 256, 1)] }
/-- R528: EVC_MOD.GAP [15:0]. -/
def Reg.EVC_MOD_GAP (i : Nat) : Fld := { reg := 0x45000 + 0x8 * i, lo := 0, width := 16, reset := 0, acc := .RW }
/-- R528: EVC_MOD. -/
def Reg.tab_EVC_MOD : RegDesc := ⟨"EVC_MOD", 0x45000, 528, 0x8, 1, 0x0,
  [Reg.EVC_MOD_COUNT 0, Reg.EVC_MOD_GAP 0]⟩

/-- R528: SMX_XQ.LOST [63:48]. -/
def Reg.SMX_XQ_LOST : Fld := { reg := 0x46100, lo := 48, width := 16, reset := 0, acc := .RW }
/-- R528: SMX_XQ.WR [31:16]. -/
def Reg.SMX_XQ_WR : Fld := { reg := 0x46100, lo := 16, width := 16, reset := 0, acc := .RO }
/-- R528: SMX_XQ.RD [15:0]. -/
def Reg.SMX_XQ_RD : Fld := { reg := 0x46100, lo := 0, width := 16, reset := 0, acc := .RW }
/-- R528: SMX_XQ. -/
def Reg.tab_SMX_XQ : RegDesc := ⟨"SMX_XQ", 0x46100, 1, 0x0, 1, 0x0,
  [Reg.SMX_XQ_LOST, Reg.SMX_XQ_WR, Reg.SMX_XQ_RD]⟩

/-- R528: SMX_CORE.CAUSE [31:24]. -/
def Reg.SMX_CORE_CAUSE (i : Nat) : Fld := { reg := 0x46200 + 0x8 * i, lo := 24, width := 8, reset := 0, acc := .RO }
/-- R528: SMX_CORE.PC [23:8]. -/
def Reg.SMX_CORE_PC (i : Nat) : Fld := { reg := 0x46200 + 0x8 * i, lo := 8, width := 16, reset := 0, acc := .RO }
/-- R528: SMX_CORE.RESTART [3:3]. -/
def Reg.SMX_CORE_RESTART (i : Nat) : Fld := { reg := 0x46200 + 0x8 * i, lo := 3, width := 1, reset := 0, acc := .WO }
/-- R528: SMX_CORE.STATE [2:0]. -/
def Reg.SMX_CORE_STATE (i : Nat) : Fld := { reg := 0x46200 + 0x8 * i, lo := 0, width := 3, reset := 0, acc := .RO }
/-- R528: SMX_CORE. -/
def Reg.tab_SMX_CORE : RegDesc := ⟨"SMX_CORE", 0x46200, 16, 0x8, 1, 0x0,
  [Reg.SMX_CORE_CAUSE 0, Reg.SMX_CORE_PC 0, Reg.SMX_CORE_RESTART 0, Reg.SMX_CORE_STATE 0]⟩

/-- R323: PRT_CTL.FAULT_CUES [15:8]. -/
def Reg.PRT_CTL_FAULT_CUES (i : Nat) : Fld := { reg := 0x80000 + 0x1000 * i, lo := 8, width := 8, reset := 0, acc := .RW }
/-- R323: PRT_CTL.PTR_AGENT [7:4]. -/
def Reg.PRT_CTL_PTR_AGENT (i : Nat) : Fld := { reg := 0x80000 + 0x1000 * i, lo := 4, width := 4, reset := 0, acc := .RW, legal := [(0, 8, 1)] }
/-- R323: PRT_CTL.S1_EN [1:1]. -/
def Reg.PRT_CTL_S1_EN (i : Nat) : Fld := { reg := 0x80000 + 0x1000 * i, lo := 1, width := 1, reset := 0, acc := .RW, taken := true }
/-- R323: PRT_CTL.EN [0:0]. -/
def Reg.PRT_CTL_EN (i : Nat) : Fld := { reg := 0x80000 + 0x1000 * i, lo := 0, width := 1, reset := 0, acc := .RW, taken := true }
/-- R323: PRT_CTL. -/
def Reg.tab_PRT_CTL : RegDesc := ⟨"PRT_CTL", 0x80000, 16, 0x1000, 1, 0x0,
  [Reg.PRT_CTL_FAULT_CUES 0, Reg.PRT_CTL_PTR_AGENT 0, Reg.PRT_CTL_S1_EN 0, Reg.PRT_CTL_EN 0]⟩

/-- R323: PRT_S1_ROOT.ROOT [52:12]. -/
def Reg.PRT_S1_ROOT_ROOT (i : Nat) : Fld := { reg := 0x80008 + 0x1000 * i, lo := 12, width := 41, reset := 0, acc := .RW, taken := true }
/-- R323: PRT_S1_ROOT. -/
def Reg.tab_PRT_S1_ROOT : RegDesc := ⟨"PRT_S1_ROOT", 0x80008, 16, 0x1000, 1, 0x0,
  [Reg.PRT_S1_ROOT_ROOT 0]⟩

/-- R323: PRT_S2_ROOT.ROOT [59:8]. -/
def Reg.PRT_S2_ROOT_ROOT (i : Nat) : Fld := { reg := 0x80010 + 0x1000 * i, lo := 8, width := 52, reset := 0, acc := .RW, taken := true }
/-- R323: PRT_S2_ROOT. -/
def Reg.tab_PRT_S2_ROOT : RegDesc := ⟨"PRT_S2_ROOT", 0x80010, 16, 0x1000, 1, 0x0,
  [Reg.PRT_S2_ROOT_ROOT 0]⟩

/-- R323: PRT_LAYOUT.BASE [59:4]. -/
def Reg.PRT_LAYOUT_BASE (i : Nat) : Fld := { reg := 0x80018 + 0x1000 * i, lo := 4, width := 56, reset := 0, acc := .RW, taken := true, stepOnly := true }
/-- R323: PRT_LAYOUT. -/
def Reg.tab_PRT_LAYOUT : RegDesc := ⟨"PRT_LAYOUT", 0x80018, 16, 0x1000, 1, 0x0,
  [Reg.PRT_LAYOUT_BASE 0]⟩

/-- R323: PRT_LAYOUT_COUNT.COUNT [12:0]. -/
def Reg.PRT_LAYOUT_COUNT_COUNT (i : Nat) : Fld := { reg := 0x80020 + 0x1000 * i, lo := 0, width := 13, reset := 0, acc := .RW, taken := true, stepOnly := true, legal := [(0, 6250, 1)] }
/-- R323: PRT_LAYOUT_COUNT. -/
def Reg.tab_PRT_LAYOUT_COUNT : RegDesc := ⟨"PRT_LAYOUT_COUNT", 0x80020, 16, 0x1000, 1, 0x0,
  [Reg.PRT_LAYOUT_COUNT_COUNT 0]⟩

/-- R323: PRT_FAULT_INFO.VALID [63:63]. -/
def Reg.PRT_FAULT_INFO_VALID (i : Nat) : Fld := { reg := 0x80028 + 0x1000 * i, lo := 63, width := 1, reset := 0, acc := .W1C }
/-- R323: PRT_FAULT_INFO.COUNT [47:32]. -/
def Reg.PRT_FAULT_INFO_COUNT (i : Nat) : Fld := { reg := 0x80028 + 0x1000 * i, lo := 32, width := 16, reset := 0, acc := .RW }
/-- R323: PRT_FAULT_INFO.SOURCE [31:16]. -/
def Reg.PRT_FAULT_INFO_SOURCE (i : Nat) : Fld := { reg := 0x80028 + 0x1000 * i, lo := 16, width := 16, reset := 0, acc := .RO }
/-- R323: PRT_FAULT_INFO.KIND [15:14]. -/
def Reg.PRT_FAULT_INFO_KIND (i : Nat) : Fld := { reg := 0x80028 + 0x1000 * i, lo := 14, width := 2, reset := 0, acc := .RO }
/-- R323: PRT_FAULT_INFO.WRITE [13:13]. -/
def Reg.PRT_FAULT_INFO_WRITE (i : Nat) : Fld := { reg := 0x80028 + 0x1000 * i, lo := 13, width := 1, reset := 0, acc := .RO }
/-- R323: PRT_FAULT_INFO.STAGE [12:11]. -/
def Reg.PRT_FAULT_INFO_STAGE (i : Nat) : Fld := { reg := 0x80028 + 0x1000 * i, lo := 11, width := 2, reset := 0, acc := .RO }
/-- R323: PRT_FAULT_INFO.LEVEL [10:8]. -/
def Reg.PRT_FAULT_INFO_LEVEL (i : Nat) : Fld := { reg := 0x80028 + 0x1000 * i, lo := 8, width := 3, reset := 0, acc := .RO }
/-- R323: PRT_FAULT_INFO.CAUSE [7:0]. -/
def Reg.PRT_FAULT_INFO_CAUSE (i : Nat) : Fld := { reg := 0x80028 + 0x1000 * i, lo := 0, width := 8, reset := 0, acc := .RO }
/-- R323: PRT_FAULT_INFO. -/
def Reg.tab_PRT_FAULT_INFO : RegDesc := ⟨"PRT_FAULT_INFO", 0x80028, 16, 0x1000, 1, 0x0,
  [Reg.PRT_FAULT_INFO_VALID 0, Reg.PRT_FAULT_INFO_COUNT 0, Reg.PRT_FAULT_INFO_SOURCE 0, Reg.PRT_FAULT_INFO_KIND 0, Reg.PRT_FAULT_INFO_WRITE 0, Reg.PRT_FAULT_INFO_STAGE 0, Reg.PRT_FAULT_INFO_LEVEL 0, Reg.PRT_FAULT_INFO_CAUSE 0]⟩

/-- R323: PRT_FAULT_VA.VA [56:0]. -/
def Reg.PRT_FAULT_VA_VA (i : Nat) : Fld := { reg := 0x80030 + 0x1000 * i, lo := 0, width := 57, reset := 0, acc := .RO }
/-- R323: PRT_FAULT_VA. -/
def Reg.tab_PRT_FAULT_VA : RegDesc := ⟨"PRT_FAULT_VA", 0x80030, 16, 0x1000, 1, 0x0,
  [Reg.PRT_FAULT_VA_VA 0]⟩

/-- R323: PRT_FAULT_IPA.IPA [52:0]. -/
def Reg.PRT_FAULT_IPA_IPA (i : Nat) : Fld := { reg := 0x80038 + 0x1000 * i, lo := 0, width := 53, reset := 0, acc := .RO }
/-- R323: PRT_FAULT_IPA. -/
def Reg.tab_PRT_FAULT_IPA : RegDesc := ⟨"PRT_FAULT_IPA", 0x80038, 16, 0x1000, 1, 0x0,
  [Reg.PRT_FAULT_IPA_IPA 0]⟩

/-- R323: PRT_TALLY_BASE.BASE [9:0]. -/
def Reg.PRT_TALLY_BASE_BASE (i j : Nat) : Fld := { reg := 0x80080 + 0x1000 * i + 0x8 * j, lo := 0, width := 10, reset := 0, acc := .RW, taken := true, stepOnly := true }
/-- R323: PRT_TALLY_BASE. -/
def Reg.tab_PRT_TALLY_BASE : RegDesc := ⟨"PRT_TALLY_BASE", 0x80080, 16, 0x1000, 16, 0x8,
  [Reg.PRT_TALLY_BASE_BASE 0 0]⟩

/-- R324: XLT_TLBI_CTL.COUNT [63:32]. -/
def Reg.XLT_TLBI_CTL_COUNT : Fld := { reg := 0x100000, lo := 32, width := 32, reset := 0, acc := .RW }
/-- R324: XLT_TLBI_CTL.RESULT [15:12]. -/
def Reg.XLT_TLBI_CTL_RESULT : Fld := { reg := 0x100000, lo := 12, width := 4, reset := 0, acc := .RO }
/-- R324: XLT_TLBI_CTL.BUSY [11:11]. -/
def Reg.XLT_TLBI_CTL_BUSY : Fld := { reg := 0x100000, lo := 11, width := 1, reset := 0, acc := .RO }
/-- R324: XLT_TLBI_CTL.PARTITION [7:4]. -/
def Reg.XLT_TLBI_CTL_PARTITION : Fld := { reg := 0x100000, lo := 4, width := 4, reset := 0, acc := .RW }
/-- R324: XLT_TLBI_CTL.OP [3:1]. -/
def Reg.XLT_TLBI_CTL_OP : Fld := { reg := 0x100000, lo := 1, width := 3, reset := 0, acc := .RW, legal := [(0, 3, 1)] }
/-- R324: XLT_TLBI_CTL.GO [0:0]. -/
def Reg.XLT_TLBI_CTL_GO : Fld := { reg := 0x100000, lo := 0, width := 1, reset := 0, acc := .WO }
/-- R324: XLT_TLBI_CTL. -/
def Reg.tab_XLT_TLBI_CTL : RegDesc := ⟨"XLT_TLBI_CTL", 0x100000, 1, 0x0, 1, 0x0,
  [Reg.XLT_TLBI_CTL_COUNT, Reg.XLT_TLBI_CTL_RESULT, Reg.XLT_TLBI_CTL_BUSY, Reg.XLT_TLBI_CTL_PARTITION, Reg.XLT_TLBI_CTL_OP, Reg.XLT_TLBI_CTL_GO]⟩

/-- R324: XLT_TLBI_ADDR.ADDR [56:16]. -/
def Reg.XLT_TLBI_ADDR_ADDR : Fld := { reg := 0x100008, lo := 16, width := 41, reset := 0, acc := .RW }
/-- R324: XLT_TLBI_ADDR. -/
def Reg.tab_XLT_TLBI_ADDR : RegDesc := ⟨"XLT_TLBI_ADDR", 0x100008, 1, 0x0, 1, 0x0,
  [Reg.XLT_TLBI_ADDR_ADDR]⟩

/-- R324: XLT_TLB_STAT.WALKS [63:32]. -/
def Reg.XLT_TLB_STAT_WALKS : Fld := { reg := 0x100010, lo := 32, width := 32, reset := 0, acc := .RO }
/-- R324: XLT_TLB_STAT.FAULTS [31:0]. -/
def Reg.XLT_TLB_STAT_FAULTS : Fld := { reg := 0x100010, lo := 0, width := 32, reset := 0, acc := .RW }
/-- R324: XLT_TLB_STAT. -/
def Reg.tab_XLT_TLB_STAT : RegDesc := ⟨"XLT_TLB_STAT", 0x100010, 1, 0x0, 1, 0x0,
  [Reg.XLT_TLB_STAT_WALKS, Reg.XLT_TLB_STAT_FAULTS]⟩

/-- R324: XLT_WIN_ERR.MISS [63:48]. -/
def Reg.XLT_WIN_ERR_MISS : Fld := { reg := 0x100018, lo := 48, width := 16, reset := 0, acc := .RW }
/-- R324: XLT_WIN_ERR.PERM [47:32]. -/
def Reg.XLT_WIN_ERR_PERM : Fld := { reg := 0x100018, lo := 32, width := 16, reset := 0, acc := .RW }
/-- R324: XLT_WIN_ERR.REMOTE [31:16]. -/
def Reg.XLT_WIN_ERR_REMOTE : Fld := { reg := 0x100018, lo := 16, width := 16, reset := 0, acc := .RW }
/-- R324: XLT_WIN_ERR. -/
def Reg.tab_XLT_WIN_ERR : RegDesc := ⟨"XLT_WIN_ERR", 0x100018, 1, 0x0, 1, 0x0,
  [Reg.XLT_WIN_ERR_MISS, Reg.XLT_WIN_ERR_PERM, Reg.XLT_WIN_ERR_REMOTE]⟩

/-- R324: XLT_WIN_MAP.PGA [59:16]. -/
def Reg.XLT_WIN_MAP_PGA (i : Nat) : Fld := { reg := 0x101000 + 0x20 * i, lo := 16, width := 44, reset := 0, acc := .RW, taken := true }
/-- R324: XLT_WIN_MAP.PARTITION [7:4]. -/
def Reg.XLT_WIN_MAP_PARTITION (i : Nat) : Fld := { reg := 0x101000 + 0x20 * i, lo := 4, width := 4, reset := 0, acc := .RW, taken := true }
/-- R324: XLT_WIN_MAP.W [2:2]. -/
def Reg.XLT_WIN_MAP_W (i : Nat) : Fld := { reg := 0x101000 + 0x20 * i, lo := 2, width := 1, reset := 0, acc := .RW, taken := true }
/-- R324: XLT_WIN_MAP.R [1:1]. -/
def Reg.XLT_WIN_MAP_R (i : Nat) : Fld := { reg := 0x101000 + 0x20 * i, lo := 1, width := 1, reset := 0, acc := .RW, taken := true }
/-- R324: XLT_WIN_MAP.EN [0:0]. -/
def Reg.XLT_WIN_MAP_EN (i : Nat) : Fld := { reg := 0x101000 + 0x20 * i, lo := 0, width := 1, reset := 0, acc := .RW, taken := true }
/-- R324: XLT_WIN_MAP. -/
def Reg.tab_XLT_WIN_MAP : RegDesc := ⟨"XLT_WIN_MAP", 0x101000, 36, 0x20, 1, 0x0,
  [Reg.XLT_WIN_MAP_PGA 0, Reg.XLT_WIN_MAP_PARTITION 0, Reg.XLT_WIN_MAP_W 0, Reg.XLT_WIN_MAP_R 0, Reg.XLT_WIN_MAP_EN 0]⟩

/-- R324: XLT_WIN_SIZE.UNITS [31:0]. -/
def Reg.XLT_WIN_SIZE_UNITS (i : Nat) : Fld := { reg := 0x101008 + 0x20 * i, lo := 0, width := 32, reset := 0, acc := .RW, taken := true }
/-- R324: XLT_WIN_SIZE. -/
def Reg.tab_XLT_WIN_SIZE : RegDesc := ⟨"XLT_WIN_SIZE", 0x101008, 36, 0x20, 1, 0x0,
  [Reg.XLT_WIN_SIZE_UNITS 0]⟩

/-- R324: XLT_WIN_HBASE.HBASE [63:16]. -/
def Reg.XLT_WIN_HBASE_HBASE (i : Nat) : Fld := { reg := 0x101410 + 0x20 * i, lo := 16, width := 48, reset := 0, acc := .RW, taken := true }
/-- R324: XLT_WIN_HBASE. -/
def Reg.tab_XLT_WIN_HBASE : RegDesc := ⟨"XLT_WIN_HBASE", 0x101410, 4, 0x20, 1, 0x0,
  [Reg.XLT_WIN_HBASE_HBASE 0]⟩

/-- R262: STM_SIZE.FRAMES [55:32]. -/
def Reg.STM_SIZE_FRAMES : Fld := { reg := 0x200000, lo := 32, width := 24, reset := 0, acc := .RO }
/-- R262: STM_SIZE.UNITS [28:0]. -/
def Reg.STM_SIZE_UNITS : Fld := { reg := 0x200000, lo := 0, width := 29, reset := 0, acc := .RO }
/-- R262: STM_SIZE. -/
def Reg.tab_STM_SIZE : RegDesc := ⟨"STM_SIZE", 0x200000, 1, 0x0, 1, 0x0,
  [Reg.STM_SIZE_FRAMES, Reg.STM_SIZE_UNITS]⟩

/-- R262: STM_STAGE_ONLY.ZEROING [16:16]. -/
def Reg.STM_STAGE_ONLY_ZEROING : Fld := { reg := 0x200008, lo := 16, width := 1, reset := 0, acc := .RO }
/-- R262: STM_STAGE_ONLY.GIB [9:0]. -/
def Reg.STM_STAGE_ONLY_GIB : Fld := { reg := 0x200008, lo := 0, width := 10, reset := 0, acc := .RWS, taken := true, stepOnly := true, legal := [(0, 512, 1)] }
/-- R262: STM_STAGE_ONLY. -/
def Reg.tab_STM_STAGE_ONLY : RegDesc := ⟨"STM_STAGE_ONLY", 0x200008, 1, 0x0, 1, 0x0,
  [Reg.STM_STAGE_ONLY_ZEROING, Reg.STM_STAGE_ONLY_GIB]⟩

/-- R262: STM_HINT_UNIT.FIRST [28:0]. -/
def Reg.STM_HINT_UNIT_FIRST : Fld := { reg := 0x200010, lo := 0, width := 29, reset := 0, acc := .RW }
/-- R262: STM_HINT_UNIT. -/
def Reg.tab_STM_HINT_UNIT : RegDesc := ⟨"STM_HINT_UNIT", 0x200010, 1, 0x0, 1, 0x0,
  [Reg.STM_HINT_UNIT_FIRST]⟩

/-- R262: STM_HINT_CMD.COUNT [60:32]. -/
def Reg.STM_HINT_CMD_COUNT : Fld := { reg := 0x200018, lo := 32, width := 29, reset := 0, acc := .RW }
/-- R262: STM_HINT_CMD.RESULT [15:12]. -/
def Reg.STM_HINT_CMD_RESULT : Fld := { reg := 0x200018, lo := 12, width := 4, reset := 0, acc := .RO }
/-- R262: STM_HINT_CMD.BUSY [11:11]. -/
def Reg.STM_HINT_CMD_BUSY : Fld := { reg := 0x200018, lo := 11, width := 1, reset := 0, acc := .RO }
/-- R262: STM_HINT_CMD.MIRROR [8:8]. -/
def Reg.STM_HINT_CMD_MIRROR : Fld := { reg := 0x200018, lo := 8, width := 1, reset := 0, acc := .RW }
/-- R262: STM_HINT_CMD.HINT [3:1]. -/
def Reg.STM_HINT_CMD_HINT : Fld := { reg := 0x200018, lo := 1, width := 3, reset := 0, acc := .RW }
/-- R262: STM_HINT_CMD.GO [0:0]. -/
def Reg.STM_HINT_CMD_GO : Fld := { reg := 0x200018, lo := 0, width := 1, reset := 0, acc := .WO }
/-- R262: STM_HINT_CMD. -/
def Reg.tab_STM_HINT_CMD : RegDesc := ⟨"STM_HINT_CMD", 0x200018, 1, 0x0, 1, 0x0,
  [Reg.STM_HINT_CMD_COUNT, Reg.STM_HINT_CMD_RESULT, Reg.STM_HINT_CMD_BUSY, Reg.STM_HINT_CMD_MIRROR, Reg.STM_HINT_CMD_HINT, Reg.STM_HINT_CMD_GO]⟩

/-- R262: STM_MIG.DEFERRED [63:48]. -/
def Reg.STM_MIG_DEFERRED : Fld := { reg := 0x200020, lo := 48, width := 16, reset := 0, acc := .RW }
/-- R262: STM_MIG.DEMOTED [47:28]. -/
def Reg.STM_MIG_DEMOTED : Fld := { reg := 0x200020, lo := 28, width := 20, reset := 0, acc := .RO }
/-- R262: STM_MIG.PROMOTED [27:8]. -/
def Reg.STM_MIG_PROMOTED : Fld := { reg := 0x200020, lo := 8, width := 20, reset := 0, acc := .RO }
/-- R262: STM_MIG.RATE [7:0]. -/
def Reg.STM_MIG_RATE : Fld := { reg := 0x200020, lo := 0, width := 8, reset := 16, acc := .RW, legal := [(0, 64, 1)] }
/-- R262: STM_MIG. -/
def Reg.tab_STM_MIG : RegDesc := ⟨"STM_MIG", 0x200020, 1, 0x0, 1, 0x0,
  [Reg.STM_MIG_DEFERRED, Reg.STM_MIG_DEMOTED, Reg.STM_MIG_PROMOTED, Reg.STM_MIG_RATE]⟩

/-- R262: STM_WINGS.LOST [17:16]. -/
def Reg.STM_WINGS_LOST : Fld := { reg := 0x200028, lo := 16, width := 2, reset := 0, acc := .W1C }
/-- R262: STM_WINGS.SHARE [15:12]. -/
def Reg.STM_WINGS_SHARE : Fld := { reg := 0x200028, lo := 12, width := 4, reset := 4, acc := .RW }
/-- R262: STM_WINGS.MODULE_GIB [11:2]. -/
def Reg.STM_WINGS_MODULE_GIB : Fld := { reg := 0x200028, lo := 2, width := 10, reset := 64, acc := .RO }
/-- R262: STM_WINGS.POP [1:0]. -/
def Reg.STM_WINGS_POP : Fld := { reg := 0x200028, lo := 0, width := 2, reset := 1, acc := .RO }
/-- R262: STM_WINGS. -/
def Reg.tab_STM_WINGS : RegDesc := ⟨"STM_WINGS", 0x200028, 1, 0x0, 1, 0x0,
  [Reg.STM_WINGS_LOST, Reg.STM_WINGS_SHARE, Reg.STM_WINGS_MODULE_GIB, Reg.STM_WINGS_POP]⟩

/-- R262: STM_WC_STATE0.CH0 [3:0]. -/
def Reg.STM_WC_STATE0_CH0 : Fld := { reg := 0x200030, lo := 0, width := 4, reset := 0, acc := .RO }
/-- R262: STM_WC_STATE0.CH1 [7:4]. -/
def Reg.STM_WC_STATE0_CH1 : Fld := { reg := 0x200030, lo := 4, width := 4, reset := 0, acc := .RO }
/-- R262: STM_WC_STATE0.CH2 [11:8]. -/
def Reg.STM_WC_STATE0_CH2 : Fld := { reg := 0x200030, lo := 8, width := 4, reset := 0, acc := .RO }
/-- R262: STM_WC_STATE0.CH3 [15:12]. -/
def Reg.STM_WC_STATE0_CH3 : Fld := { reg := 0x200030, lo := 12, width := 4, reset := 0, acc := .RO }
/-- R262: STM_WC_STATE0.CH4 [19:16]. -/
def Reg.STM_WC_STATE0_CH4 : Fld := { reg := 0x200030, lo := 16, width := 4, reset := 0, acc := .RO }
/-- R262: STM_WC_STATE0.CH5 [23:20]. -/
def Reg.STM_WC_STATE0_CH5 : Fld := { reg := 0x200030, lo := 20, width := 4, reset := 0, acc := .RO }
/-- R262: STM_WC_STATE0.CH6 [27:24]. -/
def Reg.STM_WC_STATE0_CH6 : Fld := { reg := 0x200030, lo := 24, width := 4, reset := 0, acc := .RO }
/-- R262: STM_WC_STATE0.CH7 [31:28]. -/
def Reg.STM_WC_STATE0_CH7 : Fld := { reg := 0x200030, lo := 28, width := 4, reset := 0, acc := .RO }
/-- R262: STM_WC_STATE0.CH8 [35:32]. -/
def Reg.STM_WC_STATE0_CH8 : Fld := { reg := 0x200030, lo := 32, width := 4, reset := 0, acc := .RO }
/-- R262: STM_WC_STATE0.CH9 [39:36]. -/
def Reg.STM_WC_STATE0_CH9 : Fld := { reg := 0x200030, lo := 36, width := 4, reset := 0, acc := .RO }
/-- R262: STM_WC_STATE0.CH10 [43:40]. -/
def Reg.STM_WC_STATE0_CH10 : Fld := { reg := 0x200030, lo := 40, width := 4, reset := 0, acc := .RO }
/-- R262: STM_WC_STATE0.CH11 [47:44]. -/
def Reg.STM_WC_STATE0_CH11 : Fld := { reg := 0x200030, lo := 44, width := 4, reset := 0, acc := .RO }
/-- R262: STM_WC_STATE0.CH12 [51:48]. -/
def Reg.STM_WC_STATE0_CH12 : Fld := { reg := 0x200030, lo := 48, width := 4, reset := 0, acc := .RO }
/-- R262: STM_WC_STATE0.CH13 [55:52]. -/
def Reg.STM_WC_STATE0_CH13 : Fld := { reg := 0x200030, lo := 52, width := 4, reset := 0, acc := .RO }
/-- R262: STM_WC_STATE0.CH14 [59:56]. -/
def Reg.STM_WC_STATE0_CH14 : Fld := { reg := 0x200030, lo := 56, width := 4, reset := 0, acc := .RO }
/-- R262: STM_WC_STATE0.CH15 [63:60]. -/
def Reg.STM_WC_STATE0_CH15 : Fld := { reg := 0x200030, lo := 60, width := 4, reset := 0, acc := .RO }
/-- R262: STM_WC_STATE0. -/
def Reg.tab_STM_WC_STATE0 : RegDesc := ⟨"STM_WC_STATE0", 0x200030, 1, 0x0, 1, 0x0,
  [Reg.STM_WC_STATE0_CH0, Reg.STM_WC_STATE0_CH1, Reg.STM_WC_STATE0_CH2, Reg.STM_WC_STATE0_CH3, Reg.STM_WC_STATE0_CH4, Reg.STM_WC_STATE0_CH5, Reg.STM_WC_STATE0_CH6, Reg.STM_WC_STATE0_CH7, Reg.STM_WC_STATE0_CH8, Reg.STM_WC_STATE0_CH9, Reg.STM_WC_STATE0_CH10, Reg.STM_WC_STATE0_CH11, Reg.STM_WC_STATE0_CH12, Reg.STM_WC_STATE0_CH13, Reg.STM_WC_STATE0_CH14, Reg.STM_WC_STATE0_CH15]⟩

/-- R262: STM_WC_STATE1.CH0 [3:0]. -/
def Reg.STM_WC_STATE1_CH0 : Fld := { reg := 0x200038, lo := 0, width := 4, reset := 0, acc := .RO }
/-- R262: STM_WC_STATE1.CH1 [7:4]. -/
def Reg.STM_WC_STATE1_CH1 : Fld := { reg := 0x200038, lo := 4, width := 4, reset := 0, acc := .RO }
/-- R262: STM_WC_STATE1.CH2 [11:8]. -/
def Reg.STM_WC_STATE1_CH2 : Fld := { reg := 0x200038, lo := 8, width := 4, reset := 0, acc := .RO }
/-- R262: STM_WC_STATE1.CH3 [15:12]. -/
def Reg.STM_WC_STATE1_CH3 : Fld := { reg := 0x200038, lo := 12, width := 4, reset := 0, acc := .RO }
/-- R262: STM_WC_STATE1.CH4 [19:16]. -/
def Reg.STM_WC_STATE1_CH4 : Fld := { reg := 0x200038, lo := 16, width := 4, reset := 0, acc := .RO }
/-- R262: STM_WC_STATE1.CH5 [23:20]. -/
def Reg.STM_WC_STATE1_CH5 : Fld := { reg := 0x200038, lo := 20, width := 4, reset := 0, acc := .RO }
/-- R262: STM_WC_STATE1.CH6 [27:24]. -/
def Reg.STM_WC_STATE1_CH6 : Fld := { reg := 0x200038, lo := 24, width := 4, reset := 0, acc := .RO }
/-- R262: STM_WC_STATE1.CH7 [31:28]. -/
def Reg.STM_WC_STATE1_CH7 : Fld := { reg := 0x200038, lo := 28, width := 4, reset := 0, acc := .RO }
/-- R262: STM_WC_STATE1.CH8 [35:32]. -/
def Reg.STM_WC_STATE1_CH8 : Fld := { reg := 0x200038, lo := 32, width := 4, reset := 0, acc := .RO }
/-- R262: STM_WC_STATE1.CH9 [39:36]. -/
def Reg.STM_WC_STATE1_CH9 : Fld := { reg := 0x200038, lo := 36, width := 4, reset := 0, acc := .RO }
/-- R262: STM_WC_STATE1.CH10 [43:40]. -/
def Reg.STM_WC_STATE1_CH10 : Fld := { reg := 0x200038, lo := 40, width := 4, reset := 0, acc := .RO }
/-- R262: STM_WC_STATE1.CH11 [47:44]. -/
def Reg.STM_WC_STATE1_CH11 : Fld := { reg := 0x200038, lo := 44, width := 4, reset := 0, acc := .RO }
/-- R262: STM_WC_STATE1.CH12 [51:48]. -/
def Reg.STM_WC_STATE1_CH12 : Fld := { reg := 0x200038, lo := 48, width := 4, reset := 0, acc := .RO }
/-- R262: STM_WC_STATE1.CH13 [55:52]. -/
def Reg.STM_WC_STATE1_CH13 : Fld := { reg := 0x200038, lo := 52, width := 4, reset := 0, acc := .RO }
/-- R262: STM_WC_STATE1.CH14 [59:56]. -/
def Reg.STM_WC_STATE1_CH14 : Fld := { reg := 0x200038, lo := 56, width := 4, reset := 0, acc := .RO }
/-- R262: STM_WC_STATE1.CH15 [63:60]. -/
def Reg.STM_WC_STATE1_CH15 : Fld := { reg := 0x200038, lo := 60, width := 4, reset := 0, acc := .RO }
/-- R262: STM_WC_STATE1. -/
def Reg.tab_STM_WC_STATE1 : RegDesc := ⟨"STM_WC_STATE1", 0x200038, 1, 0x0, 1, 0x0,
  [Reg.STM_WC_STATE1_CH0, Reg.STM_WC_STATE1_CH1, Reg.STM_WC_STATE1_CH2, Reg.STM_WC_STATE1_CH3, Reg.STM_WC_STATE1_CH4, Reg.STM_WC_STATE1_CH5, Reg.STM_WC_STATE1_CH6, Reg.STM_WC_STATE1_CH7, Reg.STM_WC_STATE1_CH8, Reg.STM_WC_STATE1_CH9, Reg.STM_WC_STATE1_CH10, Reg.STM_WC_STATE1_CH11, Reg.STM_WC_STATE1_CH12, Reg.STM_WC_STATE1_CH13, Reg.STM_WC_STATE1_CH14, Reg.STM_WC_STATE1_CH15]⟩

/-- R262: STM_REBUILD.ACTIVE [40:40]. -/
def Reg.STM_REBUILD_ACTIVE : Fld := { reg := 0x200040, lo := 40, width := 1, reset := 0, acc := .RO }
/-- R262: STM_REBUILD.CHANNEL [36:32]. -/
def Reg.STM_REBUILD_CHANNEL : Fld := { reg := 0x200040, lo := 32, width := 5, reset := 0, acc := .RO }
/-- R262: STM_REBUILD.REMAIN [31:0]. -/
def Reg.STM_REBUILD_REMAIN : Fld := { reg := 0x200040, lo := 0, width := 32, reset := 0, acc := .RO }
/-- R262: STM_REBUILD. -/
def Reg.tab_STM_REBUILD : RegDesc := ⟨"STM_REBUILD", 0x200040, 1, 0x0, 1, 0x0,
  [Reg.STM_REBUILD_ACTIVE, Reg.STM_REBUILD_CHANNEL, Reg.STM_REBUILD_REMAIN]⟩

/-- R262: STM_MIRROR.STEP [63:32]. -/
def Reg.STM_MIRROR_STEP : Fld := { reg := 0x200048, lo := 32, width := 32, reset := 0, acc := .RO }
/-- R262: STM_MIRROR.EN [8:8]. -/
def Reg.STM_MIRROR_EN : Fld := { reg := 0x200048, lo := 8, width := 1, reset := 0, acc := .RW, taken := true, stepOnly := true }
/-- R262: STM_MIRROR.PARTNER [5:0]. -/
def Reg.STM_MIRROR_PARTNER : Fld := { reg := 0x200048, lo := 0, width := 6, reset := 0, acc := .RW, taken := true, stepOnly := true }
/-- R262: STM_MIRROR. -/
def Reg.tab_STM_MIRROR : RegDesc := ⟨"STM_MIRROR", 0x200048, 1, 0x0, 1, 0x0,
  [Reg.STM_MIRROR_STEP, Reg.STM_MIRROR_EN, Reg.STM_MIRROR_PARTNER]⟩

/-- R262: STM_MIRROR_RESERVE.UNITS [60:32]. -/
def Reg.STM_MIRROR_RESERVE_UNITS : Fld := { reg := 0x200050, lo := 32, width := 29, reset := 0, acc := .RW, taken := true, stepOnly := true }
/-- R262: STM_MIRROR_RESERVE.BASE [28:0]. -/
def Reg.STM_MIRROR_RESERVE_BASE : Fld := { reg := 0x200050, lo := 0, width := 29, reset := 0, acc := .RW, taken := true, stepOnly := true }
/-- R262: STM_MIRROR_RESERVE. -/
def Reg.tab_STM_MIRROR_RESERVE : RegDesc := ⟨"STM_MIRROR_RESERVE", 0x200050, 1, 0x0, 1, 0x0,
  [Reg.STM_MIRROR_RESERVE_UNITS, Reg.STM_MIRROR_RESERVE_BASE]⟩

/-- R262: STM_LOFT_CMD.END_CUE [63:16]. -/
def Reg.STM_LOFT_CMD_END_CUE : Fld := { reg := 0x200058, lo := 16, width := 48, reset := 0, acc := .WO }
/-- R262: STM_LOFT_CMD.RESULT [11:8]. -/
def Reg.STM_LOFT_CMD_RESULT : Fld := { reg := 0x200058, lo := 8, width := 4, reset := 0, acc := .RO }
/-- R262: STM_LOFT_CMD.ENTRY [7:4]. -/
def Reg.STM_LOFT_CMD_ENTRY : Fld := { reg := 0x200058, lo := 4, width := 4, reset := 0, acc := .WO }
/-- R262: STM_LOFT_CMD.OP [2:0]. -/
def Reg.STM_LOFT_CMD_OP : Fld := { reg := 0x200058, lo := 0, width := 3, reset := 0, acc := .WO }
/-- R262: STM_LOFT_CMD. -/
def Reg.tab_STM_LOFT_CMD : RegDesc := ⟨"STM_LOFT_CMD", 0x200058, 1, 0x0, 1, 0x0,
  [Reg.STM_LOFT_CMD_END_CUE, Reg.STM_LOFT_CMD_RESULT, Reg.STM_LOFT_CMD_ENTRY, Reg.STM_LOFT_CMD_OP]⟩

/-- R262: STM_LEND.BASE [63:35]. -/
def Reg.STM_LEND_BASE (i : Nat) : Fld := { reg := 0x200100 + 0x10 * i, lo := 35, width := 29, reset := 0, acc := .RW }
/-- R262: STM_LEND.LOG2 [31:26]. -/
def Reg.STM_LEND_LOG2 (i : Nat) : Fld := { reg := 0x200100 + 0x10 * i, lo := 26, width := 6, reset := 0, acc := .RW }
/-- R262: STM_LEND.BORROWER [23:18]. -/
def Reg.STM_LEND_BORROWER (i : Nat) : Fld := { reg := 0x200100 + 0x10 * i, lo := 18, width := 6, reset := 0, acc := .RW }
/-- R262: STM_LEND.WINDOW [7:4]. -/
def Reg.STM_LEND_WINDOW (i : Nat) : Fld := { reg := 0x200100 + 0x10 * i, lo := 4, width := 4, reset := 0, acc := .RO }
/-- R262: STM_LEND.STATE [2:0]. -/
def Reg.STM_LEND_STATE (i : Nat) : Fld := { reg := 0x200100 + 0x10 * i, lo := 0, width := 3, reset := 0, acc := .RO }
/-- R262: STM_LEND. -/
def Reg.tab_STM_LEND : RegDesc := ⟨"STM_LEND", 0x200100, 16, 0x10, 1, 0x0,
  [Reg.STM_LEND_BASE 0, Reg.STM_LEND_LOG2 0, Reg.STM_LEND_BORROWER 0, Reg.STM_LEND_WINDOW 0, Reg.STM_LEND_STATE 0]⟩

/-- R262: STM_LEND1.END_CUE [47:0]. -/
def Reg.STM_LEND1_END_CUE (i : Nat) : Fld := { reg := 0x200108 + 0x10 * i, lo := 0, width := 48, reset := 0, acc := .RO }
/-- R262: STM_LEND1. -/
def Reg.tab_STM_LEND1 : RegDesc := ⟨"STM_LEND1", 0x200108, 16, 0x10, 1, 0x0,
  [Reg.STM_LEND1_END_CUE 0]⟩

/-- R262: STM_BORROW.LOG2 [15:10]. -/
def Reg.STM_BORROW_LOG2 (i : Nat) : Fld := { reg := 0x200200 + 0x10 * i, lo := 10, width := 6, reset := 0, acc := .RO }
/-- R262: STM_BORROW.LENDER [9:4]. -/
def Reg.STM_BORROW_LENDER (i : Nat) : Fld := { reg := 0x200200 + 0x10 * i, lo := 4, width := 6, reset := 0, acc := .RO }
/-- R262: STM_BORROW.STATE [2:0]. -/
def Reg.STM_BORROW_STATE (i : Nat) : Fld := { reg := 0x200200 + 0x10 * i, lo := 0, width := 3, reset := 0, acc := .RO }
/-- R262: STM_BORROW. -/
def Reg.tab_STM_BORROW : RegDesc := ⟨"STM_BORROW", 0x200200, 16, 0x10, 1, 0x0,
  [Reg.STM_BORROW_LOG2 0, Reg.STM_BORROW_LENDER 0, Reg.STM_BORROW_STATE 0]⟩

/-- R262: STM_BORROW1.END_CUE [47:0]. -/
def Reg.STM_BORROW1_END_CUE (i : Nat) : Fld := { reg := 0x200208 + 0x10 * i, lo := 0, width := 48, reset := 0, acc := .RO }
/-- R262: STM_BORROW1. -/
def Reg.tab_STM_BORROW1 : RegDesc := ⟨"STM_BORROW1", 0x200208, 16, 0x10, 1, 0x0,
  [Reg.STM_BORROW1_END_CUE 0]⟩

/-- R293: CRR_CTX_PLAN.PLAN [59:6]. -/
def Reg.CRR_CTX_PLAN_PLAN (i : Nat) : Fld := { reg := 0x400000 + 0x40 * i, lo := 6, width := 54, reset := 0, acc := .RW, taken := true }
/-- R293: CRR_CTX_PLAN.EN [5:5]. -/
def Reg.CRR_CTX_PLAN_EN (i : Nat) : Fld := { reg := 0x400000 + 0x40 * i, lo := 5, width := 1, reset := 0, acc := .RW, taken := true }
/-- R293: CRR_CTX_PLAN.PARTITION [3:0]. -/
def Reg.CRR_CTX_PLAN_PARTITION (i : Nat) : Fld := { reg := 0x400000 + 0x40 * i, lo := 0, width := 4, reset := 0, acc := .RW, taken := true, stepOnly := true }
/-- R293: CRR_CTX_PLAN. -/
def Reg.tab_CRR_CTX_PLAN : RegDesc := ⟨"CRR_CTX_PLAN", 0x400000, 4096, 0x40, 1, 0x0,
  [Reg.CRR_CTX_PLAN_PLAN 0, Reg.CRR_CTX_PLAN_EN 0, Reg.CRR_CTX_PLAN_PARTITION 0]⟩

/-- R293: CRR_CTX_STATE.UNIT [63:48]. -/
def Reg.CRR_CTX_STATE_UNIT (i : Nat) : Fld := { reg := 0x400008 + 0x40 * i, lo := 48, width := 16, reset := 0, acc := .RO }
/-- R293: CRR_CTX_STATE.ENTRY [47:32]. -/
def Reg.CRR_CTX_STATE_ENTRY (i : Nat) : Fld := { reg := 0x400008 + 0x40 * i, lo := 32, width := 16, reset := 0, acc := .RO }
/-- R293: CRR_CTX_STATE.PC [25:16]. -/
def Reg.CRR_CTX_STATE_PC (i : Nat) : Fld := { reg := 0x400008 + 0x40 * i, lo := 16, width := 10, reset := 0, acc := .RO }
/-- R293: CRR_CTX_STATE.CAUSE [15:8]. -/
def Reg.CRR_CTX_STATE_CAUSE (i : Nat) : Fld := { reg := 0x400008 + 0x40 * i, lo := 8, width := 8, reset := 0, acc := .RO }
/-- R293: CRR_CTX_STATE.STATE [3:0]. -/
def Reg.CRR_CTX_STATE_STATE (i : Nat) : Fld := { reg := 0x400008 + 0x40 * i, lo := 0, width := 4, reset := 0, acc := .RO }
/-- R293: CRR_CTX_STATE. -/
def Reg.tab_CRR_CTX_STATE : RegDesc := ⟨"CRR_CTX_STATE", 0x400008, 4096, 0x40, 1, 0x0,
  [Reg.CRR_CTX_STATE_UNIT 0, Reg.CRR_CTX_STATE_ENTRY 0, Reg.CRR_CTX_STATE_PC 0, Reg.CRR_CTX_STATE_CAUSE 0, Reg.CRR_CTX_STATE_STATE 0]⟩

/-- R293: CRR_CTX_FAULT.VALID [63:63]. -/
def Reg.CRR_CTX_FAULT_VALID (i : Nat) : Fld := { reg := 0x400010 + 0x40 * i, lo := 63, width := 1, reset := 0, acc := .W1C }
/-- R293: CRR_CTX_FAULT.ABANDONED [62:62]. -/
def Reg.CRR_CTX_FAULT_ABANDONED (i : Nat) : Fld := { reg := 0x400010 + 0x40 * i, lo := 62, width := 1, reset := 0, acc := .RO }
/-- R293: CRR_CTX_FAULT.WRITE [61:61]. -/
def Reg.CRR_CTX_FAULT_WRITE (i : Nat) : Fld := { reg := 0x400010 + 0x40 * i, lo := 61, width := 1, reset := 0, acc := .RO }
/-- R293: CRR_CTX_FAULT.VA [56:0]. -/
def Reg.CRR_CTX_FAULT_VA (i : Nat) : Fld := { reg := 0x400010 + 0x40 * i, lo := 0, width := 57, reset := 0, acc := .RO }
/-- R293: CRR_CTX_FAULT. -/
def Reg.tab_CRR_CTX_FAULT : RegDesc := ⟨"CRR_CTX_FAULT", 0x400010, 4096, 0x40, 1, 0x0,
  [Reg.CRR_CTX_FAULT_VALID 0, Reg.CRR_CTX_FAULT_ABANDONED 0, Reg.CRR_CTX_FAULT_WRITE 0, Reg.CRR_CTX_FAULT_VA 0]⟩

/-- R293: CRR_CTX_CTL.RESULT [7:4]. -/
def Reg.CRR_CTX_CTL_RESULT (i : Nat) : Fld := { reg := 0x400018 + 0x40 * i, lo := 4, width := 4, reset := 0, acc := .RO }
/-- R293: CRR_CTX_CTL.RESTART [2:2]. -/
def Reg.CRR_CTX_CTL_RESTART (i : Nat) : Fld := { reg := 0x400018 + 0x40 * i, lo := 2, width := 1, reset := 0, acc := .WO }
/-- R293: CRR_CTX_CTL.ABANDON [1:1]. -/
def Reg.CRR_CTX_CTL_ABANDON (i : Nat) : Fld := { reg := 0x400018 + 0x40 * i, lo := 1, width := 1, reset := 0, acc := .WO }
/-- R293: CRR_CTX_CTL.RESUME [0:0]. -/
def Reg.CRR_CTX_CTL_RESUME (i : Nat) : Fld := { reg := 0x400018 + 0x40 * i, lo := 0, width := 1, reset := 0, acc := .WO }
/-- R293: CRR_CTX_CTL. -/
def Reg.tab_CRR_CTX_CTL : RegDesc := ⟨"CRR_CTX_CTL", 0x400018, 4096, 0x40, 1, 0x0,
  [Reg.CRR_CTX_CTL_RESULT 0, Reg.CRR_CTX_CTL_RESTART 0, Reg.CRR_CTX_CTL_ABANDON 0, Reg.CRR_CTX_CTL_RESUME 0]⟩

/-- R293: CRR_CTX_COUNT.DELIVERED [63:32]. -/
def Reg.CRR_CTX_COUNT_DELIVERED (i : Nat) : Fld := { reg := 0x400020 + 0x40 * i, lo := 32, width := 32, reset := 0, acc := .RO }
/-- R293: CRR_CTX_COUNT.FAULTS [31:16]. -/
def Reg.CRR_CTX_COUNT_FAULTS (i : Nat) : Fld := { reg := 0x400020 + 0x40 * i, lo := 16, width := 16, reset := 0, acc := .RW }
/-- R293: CRR_CTX_COUNT.UNDERSTUDY [15:0]. -/
def Reg.CRR_CTX_COUNT_UNDERSTUDY (i : Nat) : Fld := { reg := 0x400020 + 0x40 * i, lo := 0, width := 16, reset := 0, acc := .RW }
/-- R293: CRR_CTX_COUNT. -/
def Reg.tab_CRR_CTX_COUNT : RegDesc := ⟨"CRR_CTX_COUNT", 0x400020, 4096, 0x40, 1, 0x0,
  [Reg.CRR_CTX_COUNT_DELIVERED 0, Reg.CRR_CTX_COUNT_FAULTS 0, Reg.CRR_CTX_COUNT_UNDERSTUDY 0]⟩

/-- R294: CRR_LOAD.UTLB_MISS [63:32]. -/
def Reg.CRR_LOAD_UTLB_MISS (i : Nat) : Fld := { reg := 0x440000 + 0x40 * i, lo := 32, width := 32, reset := 0, acc := .RW }
/-- R294: CRR_LOAD.BYTES [31:0]. -/
def Reg.CRR_LOAD_BYTES (i : Nat) : Fld := { reg := 0x440000 + 0x40 * i, lo := 0, width := 32, reset := 0, acc := .RO }
/-- R294: CRR_LOAD. -/
def Reg.tab_CRR_LOAD : RegDesc := ⟨"CRR_LOAD", 0x440000, 256, 0x40, 1, 0x0,
  [Reg.CRR_LOAD_UTLB_MISS 0, Reg.CRR_LOAD_BYTES 0]⟩

/-- R294: CRR_ERR.CRC [63:48]. -/
def Reg.CRR_ERR_CRC (i : Nat) : Fld := { reg := 0x440008 + 0x40 * i, lo := 48, width := 16, reset := 0, acc := .RW }
/-- R294: CRR_ERR.FORMAT [47:32]. -/
def Reg.CRR_ERR_FORMAT (i : Nat) : Fld := { reg := 0x440008 + 0x40 * i, lo := 32, width := 16, reset := 0, acc := .RW }
/-- R294: CRR_ERR.RETRY [31:16]. -/
def Reg.CRR_ERR_RETRY (i : Nat) : Fld := { reg := 0x440008 + 0x40 * i, lo := 16, width := 16, reset := 0, acc := .RW }
/-- R294: CRR_ERR. -/
def Reg.tab_CRR_ERR : RegDesc := ⟨"CRR_ERR", 0x440008, 256, 0x40, 1, 0x0,
  [Reg.CRR_ERR_CRC 0, Reg.CRR_ERR_FORMAT 0, Reg.CRR_ERR_RETRY 0]⟩

/-- R295: CRR_CACHE.MISS [63:32]. -/
def Reg.CRR_CACHE_MISS (i : Nat) : Fld := { reg := 0x450000 + 0x100 * i, lo := 32, width := 32, reset := 0, acc := .RW }
/-- R295: CRR_CACHE.HIT [31:0]. -/
def Reg.CRR_CACHE_HIT (i : Nat) : Fld := { reg := 0x450000 + 0x100 * i, lo := 0, width := 32, reset := 0, acc := .RW }
/-- R295: CRR_CACHE. -/
def Reg.tab_CRR_CACHE : RegDesc := ⟨"CRR_CACHE", 0x450000, 8, 0x100, 1, 0x0,
  [Reg.CRR_CACHE_MISS 0, Reg.CRR_CACHE_HIT 0]⟩

/-- R295: CRR_MISS.LATE [63:48]. -/
def Reg.CRR_MISS_LATE : Fld := { reg := 0x460000, lo := 48, width := 16, reset := 0, acc := .RW }
/-- R295: CRR_MISS.UNDERSTUDY [47:32]. -/
def Reg.CRR_MISS_UNDERSTUDY : Fld := { reg := 0x460000, lo := 32, width := 16, reset := 0, acc := .RW }
/-- R295: CRR_MISS.HALTED [31:16]. -/
def Reg.CRR_MISS_HALTED : Fld := { reg := 0x460000, lo := 16, width := 16, reset := 0, acc := .RW }
/-- R295: CRR_MISS. -/
def Reg.tab_CRR_MISS : RegDesc := ⟨"CRR_MISS", 0x460000, 1, 0x0, 1, 0x0,
  [Reg.CRR_MISS_LATE, Reg.CRR_MISS_UNDERSTUDY, Reg.CRR_MISS_HALTED]⟩

/-- R348: COH_CTL.BI_TIMEOUT [15:0]. -/
def Reg.COH_CTL_BI_TIMEOUT : Fld := { reg := 0x600000, lo := 0, width := 16, reset := 100, acc := .RW, legal := [(1, 65535, 1)] }
/-- R348: COH_CTL. -/
def Reg.tab_COH_CTL : RegDesc := ⟨"COH_CTL", 0x600000, 1, 0x0, 1, 0x0,
  [Reg.COH_CTL_BI_TIMEOUT]⟩

/-- R348: COH_PROTO.VALID [63:63]. -/
def Reg.COH_PROTO_VALID : Fld := { reg := 0x600008, lo := 63, width := 1, reset := 0, acc := .W1C }
/-- R348: COH_PROTO.COUNT [47:32]. -/
def Reg.COH_PROTO_COUNT : Fld := { reg := 0x600008, lo := 32, width := 16, reset := 0, acc := .RW }
/-- R348: COH_PROTO.MSG [31:24]. -/
def Reg.COH_PROTO_MSG : Fld := { reg := 0x600008, lo := 24, width := 8, reset := 0, acc := .RO }
/-- R348: COH_PROTO.STATE [23:16]. -/
def Reg.COH_PROTO_STATE : Fld := { reg := 0x600008, lo := 16, width := 8, reset := 0, acc := .RO }
/-- R348: COH_PROTO.AGENT [15:10]. -/
def Reg.COH_PROTO_AGENT : Fld := { reg := 0x600008, lo := 10, width := 6, reset := 0, acc := .RO }
/-- R348: COH_PROTO.SIDE [9:9]. -/
def Reg.COH_PROTO_SIDE : Fld := { reg := 0x600008, lo := 9, width := 1, reset := 0, acc := .RO }
/-- R348: COH_PROTO.SLICE [2:0]. -/
def Reg.COH_PROTO_SLICE : Fld := { reg := 0x600008, lo := 0, width := 3, reset := 0, acc := .RO }
/-- R348: COH_PROTO. -/
def Reg.tab_COH_PROTO : RegDesc := ⟨"COH_PROTO", 0x600008, 1, 0x0, 1, 0x0,
  [Reg.COH_PROTO_VALID, Reg.COH_PROTO_COUNT, Reg.COH_PROTO_MSG, Reg.COH_PROTO_STATE, Reg.COH_PROTO_AGENT, Reg.COH_PROTO_SIDE, Reg.COH_PROTO_SLICE]⟩

/-- R348: COH_PROTO_PGA.LINE [63:6]. -/
def Reg.COH_PROTO_PGA_LINE : Fld := { reg := 0x600010, lo := 6, width := 58, reset := 0, acc := .RO }
/-- R348: COH_PROTO_PGA. -/
def Reg.tab_COH_PROTO_PGA : RegDesc := ⟨"COH_PROTO_PGA", 0x600010, 1, 0x0, 1, 0x0,
  [Reg.COH_PROTO_PGA_LINE]⟩

/-- R348: COH_COUNTS.RECALLS [63:32]. -/
def Reg.COH_COUNTS_RECALLS : Fld := { reg := 0x600018, lo := 32, width := 32, reset := 0, acc := .RO }
/-- R348: COH_COUNTS.DL_MARKED [31:16]. -/
def Reg.COH_COUNTS_DL_MARKED : Fld := { reg := 0x600018, lo := 16, width := 16, reset := 0, acc := .RW }
/-- R348: COH_COUNTS.BI_TIMEOUTS [15:0]. -/
def Reg.COH_COUNTS_BI_TIMEOUTS : Fld := { reg := 0x600018, lo := 0, width := 16, reset := 0, acc := .RW }
/-- R348: COH_COUNTS. -/
def Reg.tab_COH_COUNTS : RegDesc := ⟨"COH_COUNTS", 0x600018, 1, 0x0, 1, 0x0,
  [Reg.COH_COUNTS_RECALLS, Reg.COH_COUNTS_DL_MARKED, Reg.COH_COUNTS_BI_TIMEOUTS]⟩

/-- R348: COH_ATOM.LOCAL [63:32]. -/
def Reg.COH_ATOM_LOCAL : Fld := { reg := 0x600020, lo := 32, width := 32, reset := 0, acc := .RO }
/-- R348: COH_ATOM.REMOTE [31:0]. -/
def Reg.COH_ATOM_REMOTE : Fld := { reg := 0x600020, lo := 0, width := 32, reset := 0, acc := .RO }
/-- R348: COH_ATOM. -/
def Reg.tab_COH_ATOM : RegDesc := ⟨"COH_ATOM", 0x600020, 1, 0x0, 1, 0x0,
  [Reg.COH_ATOM_LOCAL, Reg.COH_ATOM_REMOTE]⟩

/-- R348: COH_SLICE.ENTRIES [51:32]. -/
def Reg.COH_SLICE_ENTRIES (i : Nat) : Fld := { reg := 0x600040 + 0x8 * i, lo := 32, width := 20, reset := 0, acc := .RO }
/-- R348: COH_SLICE.BLK [31:16]. -/
def Reg.COH_SLICE_BLK (i : Nat) : Fld := { reg := 0x600040 + 0x8 * i, lo := 16, width := 16, reset := 0, acc := .RO }
/-- R348: COH_SLICE.ABUF [15:8]. -/
def Reg.COH_SLICE_ABUF (i : Nat) : Fld := { reg := 0x600040 + 0x8 * i, lo := 8, width := 8, reset := 0, acc := .RO }
/-- R348: COH_SLICE. -/
def Reg.tab_COH_SLICE : RegDesc := ⟨"COH_SLICE", 0x600040, 8, 0x8, 1, 0x0,
  [Reg.COH_SLICE_ENTRIES 0, Reg.COH_SLICE_BLK 0, Reg.COH_SLICE_ABUF 0]⟩

/-- R348: COH_AGENT.HELD [54:32]. -/
def Reg.COH_AGENT_HELD (i : Nat) : Fld := { reg := 0x600100 + 0x8 * i, lo := 32, width := 23, reset := 0, acc := .RO }
/-- R348: COH_AGENT.LOST [31:16]. -/
def Reg.COH_AGENT_LOST (i : Nat) : Fld := { reg := 0x600100 + 0x8 * i, lo := 16, width := 16, reset := 0, acc := .RW }
/-- R348: COH_AGENT.REARM [3:3]. -/
def Reg.COH_AGENT_REARM (i : Nat) : Fld := { reg := 0x600100 + 0x8 * i, lo := 3, width := 1, reset := 0, acc := .WO }
/-- R348: COH_AGENT.STATE [2:0]. -/
def Reg.COH_AGENT_STATE (i : Nat) : Fld := { reg := 0x600100 + 0x8 * i, lo := 0, width := 3, reset := 0, acc := .RO }
/-- R348: COH_AGENT. -/
def Reg.tab_COH_AGENT : RegDesc := ⟨"COH_AGENT", 0x600100, 33, 0x8, 1, 0x0,
  [Reg.COH_AGENT_HELD 0, Reg.COH_AGENT_LOST 0, Reg.COH_AGENT_REARM 0, Reg.COH_AGENT_STATE 0]⟩

/-- R388: EFH_CTL.FM_DEVICE [21:16]. -/
def Reg.EFH_CTL_FM_DEVICE : Fld := { reg := 0x800000, lo := 16, width := 6, reset := 0, acc := .RW, taken := true, stepOnly := true }
/-- R388: EFH_CTL.TOPO [9:8]. -/
def Reg.EFH_CTL_TOPO : Fld := { reg := 0x800000, lo := 8, width := 2, reset := 0, acc := .RW, taken := true, stepOnly := true, legal := [(0, 2, 1)] }
/-- R388: EFH_CTL.DEVICE [5:0]. -/
def Reg.EFH_CTL_DEVICE : Fld := { reg := 0x800000, lo := 0, width := 6, reset := 0, acc := .RW, taken := true, stepOnly := true }
/-- R388: EFH_CTL. -/
def Reg.tab_EFH_CTL : RegDesc := ⟨"EFH_CTL", 0x800000, 1, 0x0, 1, 0x0,
  [Reg.EFH_CTL_FM_DEVICE, Reg.EFH_CTL_TOPO, Reg.EFH_CTL_DEVICE]⟩

/-- R388: EFH_REGION_CMD.ENTRY [27:16]. -/
def Reg.EFH_REGION_CMD_ENTRY : Fld := { reg := 0x800008, lo := 16, width := 12, reset := 0, acc := .RW }
/-- R388: EFH_REGION_CMD.BUSY [8:8]. -/
def Reg.EFH_REGION_CMD_BUSY : Fld := { reg := 0x800008, lo := 8, width := 1, reset := 0, acc := .RO }
/-- R388: EFH_REGION_CMD.RESULT [7:4]. -/
def Reg.EFH_REGION_CMD_RESULT : Fld := { reg := 0x800008, lo := 4, width := 4, reset := 0, acc := .RO }
/-- R388: EFH_REGION_CMD.OP [3:1]. -/
def Reg.EFH_REGION_CMD_OP : Fld := { reg := 0x800008, lo := 1, width := 3, reset := 0, acc := .RW, legal := [(0, 3, 1)] }
/-- R388: EFH_REGION_CMD.GO [0:0]. -/
def Reg.EFH_REGION_CMD_GO : Fld := { reg := 0x800008, lo := 0, width := 1, reset := 0, acc := .WO }
/-- R388: EFH_REGION_CMD. -/
def Reg.tab_EFH_REGION_CMD : RegDesc := ⟨"EFH_REGION_CMD", 0x800008, 1, 0x0, 1, 0x0,
  [Reg.EFH_REGION_CMD_ENTRY, Reg.EFH_REGION_CMD_BUSY, Reg.EFH_REGION_CMD_RESULT, Reg.EFH_REGION_CMD_OP, Reg.EFH_REGION_CMD_GO]⟩

/-- R388: EFH_REGION_ARG0.PGA [59:21]. -/
def Reg.EFH_REGION_ARG0_PGA : Fld := { reg := 0x800010, lo := 21, width := 39, reset := 0, acc := .RW }
/-- R388: EFH_REGION_ARG0.LOG2 [5:0]. -/
def Reg.EFH_REGION_ARG0_LOG2 : Fld := { reg := 0x800010, lo := 0, width := 6, reset := 0, acc := .RW }
/-- R388: EFH_REGION_ARG0. -/
def Reg.tab_EFH_REGION_ARG0 : RegDesc := ⟨"EFH_REGION_ARG0", 0x800010, 1, 0x0, 1, 0x0,
  [Reg.EFH_REGION_ARG0_PGA, Reg.EFH_REGION_ARG0_LOG2]⟩

/-- R388: EFH_REGION_ARG1.OWNER_PART [11:8]. -/
def Reg.EFH_REGION_ARG1_OWNER_PART : Fld := { reg := 0x800018, lo := 8, width := 4, reset := 0, acc := .RW }
/-- R388: EFH_REGION_ARG1.OWNER_DEV [5:0]. -/
def Reg.EFH_REGION_ARG1_OWNER_DEV : Fld := { reg := 0x800018, lo := 0, width := 6, reset := 0, acc := .RW }
/-- R388: EFH_REGION_ARG1. -/
def Reg.tab_EFH_REGION_ARG1 : RegDesc := ⟨"EFH_REGION_ARG1", 0x800018, 1, 0x0, 1, 0x0,
  [Reg.EFH_REGION_ARG1_OWNER_PART, Reg.EFH_REGION_ARG1_OWNER_DEV]⟩

/-- R388: EFH_COUNTS.NOT_OWNER [63:48]. -/
def Reg.EFH_COUNTS_NOT_OWNER : Fld := { reg := 0x800020, lo := 48, width := 16, reset := 0, acc := .RW }
/-- R388: EFH_COUNTS.IN_TRANSIT [47:32]. -/
def Reg.EFH_COUNTS_IN_TRANSIT : Fld := { reg := 0x800020, lo := 32, width := 16, reset := 0, acc := .RW }
/-- R388: EFH_COUNTS.FORWARDED [31:16]. -/
def Reg.EFH_COUNTS_FORWARDED : Fld := { reg := 0x800020, lo := 16, width := 16, reset := 0, acc := .RW }
/-- R388: EFH_COUNTS.LOG_FULL [15:0]. -/
def Reg.EFH_COUNTS_LOG_FULL : Fld := { reg := 0x800020, lo := 0, width := 16, reset := 0, acc := .RW }
/-- R388: EFH_COUNTS. -/
def Reg.tab_EFH_COUNTS : RegDesc := ⟨"EFH_COUNTS", 0x800020, 1, 0x0, 1, 0x0,
  [Reg.EFH_COUNTS_NOT_OWNER, Reg.EFH_COUNTS_IN_TRANSIT, Reg.EFH_COUNTS_FORWARDED, Reg.EFH_COUNTS_LOG_FULL]⟩

/-- R388: EFH_PART_STATE.ABORT [31:16]. -/
def Reg.EFH_PART_STATE_ABORT : Fld := { reg := 0x800028, lo := 16, width := 16, reset := 0, acc := .W1C }
/-- R388: EFH_PART_STATE.TEARDOWN [15:0]. -/
def Reg.EFH_PART_STATE_TEARDOWN : Fld := { reg := 0x800028, lo := 0, width := 16, reset := 0, acc := .W1C }
/-- R388: EFH_PART_STATE. -/
def Reg.tab_EFH_PART_STATE : RegDesc := ⟨"EFH_PART_STATE", 0x800028, 1, 0x0, 1, 0x0,
  [Reg.EFH_PART_STATE_ABORT, Reg.EFH_PART_STATE_TEARDOWN]⟩

/-- R388: EFH_PORT_CTL.PEER_CHECK [8:8]. -/
def Reg.EFH_PORT_CTL_PEER_CHECK (i : Nat) : Fld := { reg := 0x800100 + 0x20 * i, lo := 8, width := 1, reset := 0, acc := .RW }
/-- R388: EFH_PORT_CTL.PEER [7:2]. -/
def Reg.EFH_PORT_CTL_PEER (i : Nat) : Fld := { reg := 0x800100 + 0x20 * i, lo := 2, width := 6, reset := 0, acc := .RW }
/-- R388: EFH_PORT_CTL.EN [0:0]. -/
def Reg.EFH_PORT_CTL_EN (i : Nat) : Fld := { reg := 0x800100 + 0x20 * i, lo := 0, width := 1, reset := 0, acc := .RW }
/-- R388: EFH_PORT_CTL. -/
def Reg.tab_EFH_PORT_CTL : RegDesc := ⟨"EFH_PORT_CTL", 0x800100, 18, 0x20, 1, 0x0,
  [Reg.EFH_PORT_CTL_PEER_CHECK 0, Reg.EFH_PORT_CTL_PEER 0, Reg.EFH_PORT_CTL_EN 0]⟩

/-- R388: EFH_PORT_STAT.LANES [19:16]. -/
def Reg.EFH_PORT_STAT_LANES (i : Nat) : Fld := { reg := 0x800108 + 0x20 * i, lo := 16, width := 4, reset := 0, acc := .RO }
/-- R388: EFH_PORT_STAT.PEER_SEEN [13:8]. -/
def Reg.EFH_PORT_STAT_PEER_SEEN (i : Nat) : Fld := { reg := 0x800108 + 0x20 * i, lo := 8, width := 6, reset := 0, acc := .RO }
/-- R388: EFH_PORT_STAT.LEVEL [7:4]. -/
def Reg.EFH_PORT_STAT_LEVEL (i : Nat) : Fld := { reg := 0x800108 + 0x20 * i, lo := 4, width := 4, reset := 0, acc := .RO }
/-- R388: EFH_PORT_STAT.STATE [2:0]. -/
def Reg.EFH_PORT_STAT_STATE (i : Nat) : Fld := { reg := 0x800108 + 0x20 * i, lo := 0, width := 3, reset := 0, acc := .RO }
/-- R388: EFH_PORT_STAT. -/
def Reg.tab_EFH_PORT_STAT : RegDesc := ⟨"EFH_PORT_STAT", 0x800108, 18, 0x20, 1, 0x0,
  [Reg.EFH_PORT_STAT_LANES 0, Reg.EFH_PORT_STAT_PEER_SEEN 0, Reg.EFH_PORT_STAT_LEVEL 0, Reg.EFH_PORT_STAT_STATE 0]⟩

/-- R388: EFH_PORT_ERR.FEC_CORR [63:32]. -/
def Reg.EFH_PORT_ERR_FEC_CORR (i : Nat) : Fld := { reg := 0x800110 + 0x20 * i, lo := 32, width := 32, reset := 0, acc := .RW }
/-- R388: EFH_PORT_ERR.REPLAY [31:16]. -/
def Reg.EFH_PORT_ERR_REPLAY (i : Nat) : Fld := { reg := 0x800110 + 0x20 * i, lo := 16, width := 16, reset := 0, acc := .RW }
/-- R388: EFH_PORT_ERR.LEVEL [15:8]. -/
def Reg.EFH_PORT_ERR_LEVEL (i : Nat) : Fld := { reg := 0x800110 + 0x20 * i, lo := 8, width := 8, reset := 0, acc := .RW }
/-- R388: EFH_PORT_ERR. -/
def Reg.tab_EFH_PORT_ERR : RegDesc := ⟨"EFH_PORT_ERR", 0x800110, 18, 0x20, 1, 0x0,
  [Reg.EFH_PORT_ERR_FEC_CORR 0, Reg.EFH_PORT_ERR_REPLAY 0, Reg.EFH_PORT_ERR_LEVEL 0]⟩

/-- R388: EFH_ROUTE.PORT [4:0]. -/
def Reg.EFH_ROUTE_PORT (i : Nat) : Fld := { reg := 0x800400 + 0x8 * i, lo := 0, width := 5, reset := 31, acc := .RW, taken := true, legal := [(0, 17, 1), (30, 31, 1)] }
/-- R388: EFH_ROUTE. -/
def Reg.tab_EFH_ROUTE : RegDesc := ⟨"EFH_ROUTE", 0x800400, 64, 0x8, 1, 0x0,
  [Reg.EFH_ROUTE_PORT 0]⟩

/-- R388: EFH_REGION0.BASE [59:21]. -/
def Reg.EFH_REGION0_BASE (i : Nat) : Fld := { reg := 0x810000 + 0x20 * i, lo := 21, width := 39, reset := 0, acc := .RO }
/-- R388: EFH_REGION0.LOG2 [13:8]. -/
def Reg.EFH_REGION0_LOG2 (i : Nat) : Fld := { reg := 0x810000 + 0x20 * i, lo := 8, width := 6, reset := 0, acc := .RO }
/-- R388: EFH_REGION0.PUB [6:6]. -/
def Reg.EFH_REGION0_PUB (i : Nat) : Fld := { reg := 0x810000 + 0x20 * i, lo := 6, width := 1, reset := 0, acc := .RO }
/-- R388: EFH_REGION0.STATE [2:0]. -/
def Reg.EFH_REGION0_STATE (i : Nat) : Fld := { reg := 0x810000 + 0x20 * i, lo := 0, width := 3, reset := 0, acc := .RO }
/-- R388: EFH_REGION0. -/
def Reg.tab_EFH_REGION0 : RegDesc := ⟨"EFH_REGION0", 0x810000, 4096, 0x20, 1, 0x0,
  [Reg.EFH_REGION0_BASE 0, Reg.EFH_REGION0_LOG2 0, Reg.EFH_REGION0_PUB 0, Reg.EFH_REGION0_STATE 0]⟩

/-- R388: EFH_REGION1.EPOCH [63:32]. -/
def Reg.EFH_REGION1_EPOCH (i : Nat) : Fld := { reg := 0x810008 + 0x20 * i, lo := 32, width := 32, reset := 0, acc := .RO }
/-- R388: EFH_REGION1.OWNER_DEV [29:24]. -/
def Reg.EFH_REGION1_OWNER_DEV (i : Nat) : Fld := { reg := 0x810008 + 0x20 * i, lo := 24, width := 6, reset := 0, acc := .RO }
/-- R388: EFH_REGION1.OWNER_PART [19:16]. -/
def Reg.EFH_REGION1_OWNER_PART (i : Nat) : Fld := { reg := 0x810008 + 0x20 * i, lo := 16, width := 4, reset := 0, acc := .RO }
/-- R388: EFH_REGION1.OFFER_DEV [13:8]. -/
def Reg.EFH_REGION1_OFFER_DEV (i : Nat) : Fld := { reg := 0x810008 + 0x20 * i, lo := 8, width := 6, reset := 0, acc := .RO }
/-- R388: EFH_REGION1.OFFER_PART [7:4]. -/
def Reg.EFH_REGION1_OFFER_PART (i : Nat) : Fld := { reg := 0x810008 + 0x20 * i, lo := 4, width := 4, reset := 0, acc := .RO }
/-- R388: EFH_REGION1.OFFER_AGE [3:0]. -/
def Reg.EFH_REGION1_OFFER_AGE (i : Nat) : Fld := { reg := 0x810008 + 0x20 * i, lo := 0, width := 4, reset := 0, acc := .RO }
/-- R388: EFH_REGION1. -/
def Reg.tab_EFH_REGION1 : RegDesc := ⟨"EFH_REGION1", 0x810008, 4096, 0x20, 1, 0x0,
  [Reg.EFH_REGION1_EPOCH 0, Reg.EFH_REGION1_OWNER_DEV 0, Reg.EFH_REGION1_OWNER_PART 0, Reg.EFH_REGION1_OFFER_DEV 0, Reg.EFH_REGION1_OFFER_PART 0, Reg.EFH_REGION1_OFFER_AGE 0]⟩

/-- R388: EFH_REGION2.TARGET [59:21]. -/
def Reg.EFH_REGION2_TARGET (i : Nat) : Fld := { reg := 0x810010 + 0x20 * i, lo := 21, width := 39, reset := 0, acc := .RO }
/-- R388: EFH_REGION2. -/
def Reg.tab_EFH_REGION2 : RegDesc := ⟨"EFH_REGION2", 0x810010, 4096, 0x20, 1, 0x0,
  [Reg.EFH_REGION2_TARGET 0]⟩

/-- R388: EFH_OFFER0.REGION [59:21]. -/
def Reg.EFH_OFFER0_REGION (i : Nat) : Fld := { reg := 0x830000 + 0x10 * i, lo := 21, width := 39, reset := 0, acc := .RO }
/-- R388: EFH_OFFER0.STATE [2:0]. -/
def Reg.EFH_OFFER0_STATE (i : Nat) : Fld := { reg := 0x830000 + 0x10 * i, lo := 0, width := 3, reset := 0, acc := .RO }
/-- R388: EFH_OFFER0. -/
def Reg.tab_EFH_OFFER0 : RegDesc := ⟨"EFH_OFFER0", 0x830000, 64, 0x10, 1, 0x0,
  [Reg.EFH_OFFER0_REGION 0, Reg.EFH_OFFER0_STATE 0]⟩

/-- R388: EFH_OFFER1.EPOCH [63:32]. -/
def Reg.EFH_OFFER1_EPOCH (i : Nat) : Fld := { reg := 0x830008 + 0x10 * i, lo := 32, width := 32, reset := 0, acc := .RO }
/-- R388: EFH_OFFER1.FROM_DEV [13:8]. -/
def Reg.EFH_OFFER1_FROM_DEV (i : Nat) : Fld := { reg := 0x830008 + 0x10 * i, lo := 8, width := 6, reset := 0, acc := .RO }
/-- R388: EFH_OFFER1.FROM_PART [7:4]. -/
def Reg.EFH_OFFER1_FROM_PART (i : Nat) : Fld := { reg := 0x830008 + 0x10 * i, lo := 4, width := 4, reset := 0, acc := .RO }
/-- R388: EFH_OFFER1.TO_PART [3:0]. -/
def Reg.EFH_OFFER1_TO_PART (i : Nat) : Fld := { reg := 0x830008 + 0x10 * i, lo := 0, width := 4, reset := 0, acc := .RO }
/-- R388: EFH_OFFER1. -/
def Reg.tab_EFH_OFFER1 : RegDesc := ⟨"EFH_OFFER1", 0x830008, 64, 0x10, 1, 0x0,
  [Reg.EFH_OFFER1_EPOCH 0, Reg.EFH_OFFER1_FROM_DEV 0, Reg.EFH_OFFER1_FROM_PART 0, Reg.EFH_OFFER1_TO_PART 0]⟩

/-- R410: SWX_BUF.ACC [59:40]. -/
def Reg.SWX_BUF_ACC : Fld := { reg := 0xa00000, lo := 40, width := 20, reset := 0, acc := .RO }
/-- R410: SWX_BUF.QUEUED [39:20]. -/
def Reg.SWX_BUF_QUEUED : Fld := { reg := 0xa00000, lo := 20, width := 20, reset := 0, acc := .RO }
/-- R410: SWX_BUF.FREE [19:0]. -/
def Reg.SWX_BUF_FREE : Fld := { reg := 0xa00000, lo := 0, width := 20, reset := 262144, acc := .RO }
/-- R410: SWX_BUF. -/
def Reg.tab_SWX_BUF : RegDesc := ⟨"SWX_BUF", 0xa00000, 1, 0x0, 1, 0x0,
  [Reg.SWX_BUF_ACC, Reg.SWX_BUF_QUEUED, Reg.SWX_BUF_FREE]⟩

/-- R410: SWX_AUDIT.LEAKED [63:48]. -/
def Reg.SWX_AUDIT_LEAKED : Fld := { reg := 0xa00008, lo := 48, width := 16, reset := 0, acc := .RW }
/-- R410: SWX_AUDIT.MISMATCH [1:1]. -/
def Reg.SWX_AUDIT_MISMATCH : Fld := { reg := 0xa00008, lo := 1, width := 1, reset := 0, acc := .W1C }
/-- R410: SWX_AUDIT.EN [0:0]. -/
def Reg.SWX_AUDIT_EN : Fld := { reg := 0xa00008, lo := 0, width := 1, reset := 1, acc := .RW }
/-- R410: SWX_AUDIT. -/
def Reg.tab_SWX_AUDIT : RegDesc := ⟨"SWX_AUDIT", 0xa00008, 1, 0x0, 1, 0x0,
  [Reg.SWX_AUDIT_LEAKED, Reg.SWX_AUDIT_MISMATCH, Reg.SWX_AUDIT_EN]⟩

/-- R410: SWX_ERR.SEAL [63:48]. -/
def Reg.SWX_ERR_SEAL : Fld := { reg := 0xa00010, lo := 48, width := 16, reset := 0, acc := .RW }
/-- R410: SWX_ERR.MALFORMED [47:32]. -/
def Reg.SWX_ERR_MALFORMED : Fld := { reg := 0xa00010, lo := 32, width := 16, reset := 0, acc := .RW }
/-- R410: SWX_ERR.MCAST_EMPTY [31:16]. -/
def Reg.SWX_ERR_MCAST_EMPTY : Fld := { reg := 0xa00010, lo := 16, width := 16, reset := 0, acc := .RW }
/-- R410: SWX_ERR.RED_VOID [15:0]. -/
def Reg.SWX_ERR_RED_VOID : Fld := { reg := 0xa00010, lo := 0, width := 16, reset := 0, acc := .RW }
/-- R410: SWX_ERR. -/
def Reg.tab_SWX_ERR : RegDesc := ⟨"SWX_ERR", 0xa00010, 1, 0x0, 1, 0x0,
  [Reg.SWX_ERR_SEAL, Reg.SWX_ERR_MALFORMED, Reg.SWX_ERR_MCAST_EMPTY, Reg.SWX_ERR_RED_VOID]⟩

/-- R410: SWX_CLASS.RES [51:40]. -/
def Reg.SWX_CLASS_RES (i : Nat) : Fld := { reg := 0xa00100 + 0x8 * i, lo := 40, width := 12, reset := 128, acc := .RW, taken := true }
/-- R410: SWX_CLASS.SHARE_MAX [37:19]. -/
def Reg.SWX_CLASS_SHARE_MAX (i : Nat) : Fld := { reg := 0xa00100 + 0x8 * i, lo := 19, width := 19, reset := 65536, acc := .RW, taken := true }
/-- R410: SWX_CLASS.WEIGHT [7:0]. -/
def Reg.SWX_CLASS_WEIGHT (i : Nat) : Fld := { reg := 0xa00100 + 0x8 * i, lo := 0, width := 8, reset := 4, acc := .RW, taken := true }
/-- R410: SWX_CLASS. -/
def Reg.tab_SWX_CLASS : RegDesc := ⟨"SWX_CLASS", 0xa00100, 8, 0x8, 1, 0x0,
  [Reg.SWX_CLASS_RES 0, Reg.SWX_CLASS_SHARE_MAX 0, Reg.SWX_CLASS_WEIGHT 0]⟩

/-- R410: SWX_METER.PBS [31:24]. -/
def Reg.SWX_METER_PBS (i : Nat) : Fld := { reg := 0xa00200 + 0x8 * i, lo := 24, width := 8, reset := 255, acc := .RW, taken := true }
/-- R410: SWX_METER.PIR [23:16]. -/
def Reg.SWX_METER_PIR (i : Nat) : Fld := { reg := 0xa00200 + 0x8 * i, lo := 16, width := 8, reset := 255, acc := .RW, taken := true }
/-- R410: SWX_METER.CBS [15:8]. -/
def Reg.SWX_METER_CBS (i : Nat) : Fld := { reg := 0xa00200 + 0x8 * i, lo := 8, width := 8, reset := 255, acc := .RW, taken := true }
/-- R410: SWX_METER.CIR [7:0]. -/
def Reg.SWX_METER_CIR (i : Nat) : Fld := { reg := 0xa00200 + 0x8 * i, lo := 0, width := 8, reset := 255, acc := .RW, taken := true }
/-- R410: SWX_METER. -/
def Reg.tab_SWX_METER : RegDesc := ⟨"SWX_METER", 0xa00200, 8, 0x8, 1, 0x0,
  [Reg.SWX_METER_PBS 0, Reg.SWX_METER_PIR 0, Reg.SWX_METER_CBS 0, Reg.SWX_METER_CIR 0]⟩

/-- R410: SWX_REDP.PMAX [63:56]. -/
def Reg.SWX_REDP_PMAX (i : Nat) : Fld := { reg := 0xa00300 + 0x8 * i, lo := 56, width := 8, reset := 0, acc := .RW, taken := true }
/-- R410: SWX_REDP.MAX [50:32]. -/
def Reg.SWX_REDP_MAX (i : Nat) : Fld := { reg := 0xa00300 + 0x8 * i, lo := 32, width := 19, reset := 0, acc := .RW, taken := true }
/-- R410: SWX_REDP.MIN [18:0]. -/
def Reg.SWX_REDP_MIN (i : Nat) : Fld := { reg := 0xa00300 + 0x8 * i, lo := 0, width := 19, reset := 0, acc := .RW, taken := true }
/-- R410: SWX_REDP. -/
def Reg.tab_SWX_REDP : RegDesc := ⟨"SWX_REDP", 0xa00300, 24, 0x8, 1, 0x0,
  [Reg.SWX_REDP_PMAX 0, Reg.SWX_REDP_MAX 0, Reg.SWX_REDP_MIN 0]⟩

/-- R410: SWX_PORT_MODE.CUT [7:0]. -/
def Reg.SWX_PORT_MODE_CUT (i : Nat) : Fld := { reg := 0xa00400 + 0x8 * i, lo := 0, width := 8, reset := 0, acc := .RW, taken := true }
/-- R410: SWX_PORT_MODE. -/
def Reg.tab_SWX_PORT_MODE : RegDesc := ⟨"SWX_PORT_MODE", 0xa00400, 20, 0x8, 1, 0x0,
  [Reg.SWX_PORT_MODE_CUT 0]⟩

/-- R410: SWX_MCAST.MASK [19:0]. -/
def Reg.SWX_MCAST_MASK (i : Nat) : Fld := { reg := 0xa00800 + 0x8 * i, lo := 0, width := 20, reset := 0, acc := .RW, taken := true }
/-- R410: SWX_MCAST. -/
def Reg.tab_SWX_MCAST : RegDesc := ⟨"SWX_MCAST", 0xa00800, 256, 0x8, 1, 0x0,
  [Reg.SWX_MCAST_MASK 0]⟩

/-- R410: SWX_CLASS_STAT.DROPPED [63:32]. -/
def Reg.SWX_CLASS_STAT_DROPPED (i : Nat) : Fld := { reg := 0xa01000 + 0x8 * i, lo := 32, width := 32, reset := 0, acc := .RW }
/-- R410: SWX_CLASS_STAT.MARKED [31:0]. -/
def Reg.SWX_CLASS_STAT_MARKED (i : Nat) : Fld := { reg := 0xa01000 + 0x8 * i, lo := 0, width := 32, reset := 0, acc := .RW }
/-- R410: SWX_CLASS_STAT. -/
def Reg.tab_SWX_CLASS_STAT : RegDesc := ⟨"SWX_CLASS_STAT", 0xa01000, 8, 0x8, 1, 0x0,
  [Reg.SWX_CLASS_STAT_DROPPED 0, Reg.SWX_CLASS_STAT_MARKED 0]⟩

/-- R410: SWX_RED_DEF0.ROUTE [31:26]. -/
def Reg.SWX_RED_DEF0_ROUTE (i : Nat) : Fld := { reg := 0xa02000 + 0x10 * i, lo := 26, width := 6, reset := 0, acc := .RW, taken := true }
/-- R410: SWX_RED_DEF0.TROUPE [25:13]. -/
def Reg.SWX_RED_DEF0_TROUPE (i : Nat) : Fld := { reg := 0xa02000 + 0x10 * i, lo := 13, width := 13, reset := 0, acc := .RW, taken := true, legal := [(0, 6249, 1)] }
/-- R410: SWX_RED_DEF0.DEV [12:7]. -/
def Reg.SWX_RED_DEF0_DEV (i : Nat) : Fld := { reg := 0xa02000 + 0x10 * i, lo := 7, width := 6, reset := 0, acc := .RW, taken := true }
/-- R410: SWX_RED_DEF0.EN [0:0]. -/
def Reg.SWX_RED_DEF0_EN (i : Nat) : Fld := { reg := 0xa02000 + 0x10 * i, lo := 0, width := 1, reset := 0, acc := .RW, taken := true }
/-- R410: SWX_RED_DEF0. -/
def Reg.tab_SWX_RED_DEF0 : RegDesc := ⟨"SWX_RED_DEF0", 0xa02000, 256, 0x10, 1, 0x0,
  [Reg.SWX_RED_DEF0_ROUTE 0, Reg.SWX_RED_DEF0_TROUPE 0, Reg.SWX_RED_DEF0_DEV 0, Reg.SWX_RED_DEF0_EN 0]⟩

/-- R410: SWX_RED_DEF1.MC [40:40]. -/
def Reg.SWX_RED_DEF1_MC (i : Nat) : Fld := { reg := 0xa02008 + 0x10 * i, lo := 40, width := 1, reset := 0, acc := .RW, taken := true }
/-- R410: SWX_RED_DEF1.GROUP [39:32]. -/
def Reg.SWX_RED_DEF1_GROUP (i : Nat) : Fld := { reg := 0xa02008 + 0x10 * i, lo := 32, width := 8, reset := 0, acc := .RW, taken := true }
/-- R410: SWX_RED_DEF1.ACC [31:16]. -/
def Reg.SWX_RED_DEF1_ACC (i : Nat) : Fld := { reg := 0xa02008 + 0x10 * i, lo := 16, width := 16, reset := 0, acc := .RW, taken := true }
/-- R410: SWX_RED_DEF1.NEED [15:0]. -/
def Reg.SWX_RED_DEF1_NEED (i : Nat) : Fld := { reg := 0xa02008 + 0x10 * i, lo := 0, width := 16, reset := 0, acc := .RW, taken := true }
/-- R410: SWX_RED_DEF1. -/
def Reg.tab_SWX_RED_DEF1 : RegDesc := ⟨"SWX_RED_DEF1", 0xa02008, 256, 0x10, 1, 0x0,
  [Reg.SWX_RED_DEF1_MC 0, Reg.SWX_RED_DEF1_GROUP 0, Reg.SWX_RED_DEF1_ACC 0, Reg.SWX_RED_DEF1_NEED 0]⟩

/-- R428: EMB_CACHE.DET_LINES [19:0]. -/
def Reg.EMB_CACHE_DET_LINES : Fld := { reg := 0xc00000, lo := 0, width := 20, reset := 0, acc := .RW, taken := true, stepOnly := true, legal := [(0, 524288, 1)] }
/-- R428: EMB_CACHE. -/
def Reg.tab_EMB_CACHE : RegDesc := ⟨"EMB_CACHE", 0xc00000, 1, 0x0, 1, 0x0,
  [Reg.EMB_CACHE_DET_LINES]⟩

/-- R428: EMB_CACHE_STAT.MISS [63:32]. -/
def Reg.EMB_CACHE_STAT_MISS : Fld := { reg := 0xc00008, lo := 32, width := 32, reset := 0, acc := .RW }
/-- R428: EMB_CACHE_STAT.HIT [31:0]. -/
def Reg.EMB_CACHE_STAT_HIT : Fld := { reg := 0xc00008, lo := 0, width := 32, reset := 0, acc := .RW }
/-- R428: EMB_CACHE_STAT. -/
def Reg.tab_EMB_CACHE_STAT : RegDesc := ⟨"EMB_CACHE_STAT", 0xc00008, 1, 0x0, 1, 0x0,
  [Reg.EMB_CACHE_STAT_MISS, Reg.EMB_CACHE_STAT_HIT]⟩

/-- R428: EMB_STAT.RANGE [63:48]. -/
def Reg.EMB_STAT_RANGE : Fld := { reg := 0xc00010, lo := 48, width := 16, reset := 0, acc := .RW }
/-- R428: EMB_STAT.FWD [47:32]. -/
def Reg.EMB_STAT_FWD : Fld := { reg := 0xc00010, lo := 32, width := 16, reset := 0, acc := .RW }
/-- R428: EMB_STAT.STALE [31:16]. -/
def Reg.EMB_STAT_STALE : Fld := { reg := 0xc00010, lo := 16, width := 16, reset := 0, acc := .RW }
/-- R428: EMB_STAT.DET_WAIT [15:0]. -/
def Reg.EMB_STAT_DET_WAIT : Fld := { reg := 0xc00010, lo := 0, width := 16, reset := 0, acc := .RW }
/-- R428: EMB_STAT. -/
def Reg.tab_EMB_STAT : RegDesc := ⟨"EMB_STAT", 0xc00010, 1, 0x0, 1, 0x0,
  [Reg.EMB_STAT_RANGE, Reg.EMB_STAT_FWD, Reg.EMB_STAT_STALE, Reg.EMB_STAT_DET_WAIT]⟩

/-- R428: EMB_HOT.BASE [52:13]. -/
def Reg.EMB_HOT_BASE : Fld := { reg := 0xc00018, lo := 13, width := 40, reset := 0, acc := .RW, taken := true, stepOnly := true }
/-- R428: EMB_HOT.SLOTS [12:0]. -/
def Reg.EMB_HOT_SLOTS : Fld := { reg := 0xc00018, lo := 0, width := 13, reset := 0, acc := .RW, taken := true, stepOnly := true, legal := [(0, 4096, 1)] }
/-- R428: EMB_HOT. -/
def Reg.tab_EMB_HOT : RegDesc := ⟨"EMB_HOT", 0xc00018, 1, 0x0, 1, 0x0,
  [Reg.EMB_HOT_BASE, Reg.EMB_HOT_SLOTS]⟩

/-- R428: EMB_TABLE0.EN [63:63]. -/
def Reg.EMB_TABLE0_EN (i : Nat) : Fld := { reg := 0xc00100 + 0x20 * i, lo := 63, width := 1, reset := 0, acc := .RW, taken := true, stepOnly := true }
/-- R428: EMB_TABLE0.PARTITION [55:52]. -/
def Reg.EMB_TABLE0_PARTITION (i : Nat) : Fld := { reg := 0xc00100 + 0x20 * i, lo := 52, width := 4, reset := 0, acc := .RW, taken := true, stepOnly := true }
/-- R428: EMB_TABLE0.TYPE [46:42]. -/
def Reg.EMB_TABLE0_TYPE (i : Nat) : Fld := { reg := 0xc00100 + 0x20 * i, lo := 42, width := 5, reset := 0, acc := .RW, taken := true, stepOnly := true, legal := [(2, 7, 1)] }
/-- R428: EMB_TABLE0.SHARDS [41:35]. -/
def Reg.EMB_TABLE0_SHARDS (i : Nat) : Fld := { reg := 0xc00100 + 0x20 * i, lo := 35, width := 7, reset := 0, acc := .RW, taken := true, stepOnly := true, legal := [(1, 64, 1)] }
/-- R428: EMB_TABLE0.FIRST_DEV [31:26]. -/
def Reg.EMB_TABLE0_FIRST_DEV (i : Nat) : Fld := { reg := 0xc00100 + 0x20 * i, lo := 26, width := 6, reset := 0, acc := .RW, taken := true, stepOnly := true }
/-- R428: EMB_TABLE0.ROW16 [8:0]. -/
def Reg.EMB_TABLE0_ROW16 (i : Nat) : Fld := { reg := 0xc00100 + 0x20 * i, lo := 0, width := 9, reset := 0, acc := .RW, taken := true, stepOnly := true, legal := [(1, 256, 1)] }
/-- R428: EMB_TABLE0. -/
def Reg.tab_EMB_TABLE0 : RegDesc := ⟨"EMB_TABLE0", 0xc00100, 64, 0x20, 1, 0x0,
  [Reg.EMB_TABLE0_EN 0, Reg.EMB_TABLE0_PARTITION 0, Reg.EMB_TABLE0_TYPE 0, Reg.EMB_TABLE0_SHARDS 0, Reg.EMB_TABLE0_FIRST_DEV 0, Reg.EMB_TABLE0_ROW16 0]⟩

/-- R428: EMB_TABLE1.DATA [52:6]. -/
def Reg.EMB_TABLE1_DATA (i : Nat) : Fld := { reg := 0xc00108 + 0x20 * i, lo := 6, width := 47, reset := 0, acc := .RW, taken := true, stepOnly := true }
/-- R428: EMB_TABLE1. -/
def Reg.tab_EMB_TABLE1 : RegDesc := ⟨"EMB_TABLE1", 0xc00108, 64, 0x20, 1, 0x0,
  [Reg.EMB_TABLE1_DATA 0]⟩

/-- R428: EMB_TABLE2.SEL [52:6]. -/
def Reg.EMB_TABLE2_SEL (i : Nat) : Fld := { reg := 0xc00110 + 0x20 * i, lo := 6, width := 47, reset := 0, acc := .RW, taken := true, stepOnly := true }
/-- R428: EMB_TABLE2. -/
def Reg.tab_EMB_TABLE2 : RegDesc := ⟨"EMB_TABLE2", 0xc00110, 64, 0x20, 1, 0x0,
  [Reg.EMB_TABLE2_SEL 0]⟩

/-- R428: EMB_TABLE3.ROWS [40:0]. -/
def Reg.EMB_TABLE3_ROWS (i : Nat) : Fld := { reg := 0xc00118 + 0x20 * i, lo := 0, width := 41, reset := 0, acc := .RW, taken := true, stepOnly := true, legal := [(0, 1099511627776, 1)] }
/-- R428: EMB_TABLE3. -/
def Reg.tab_EMB_TABLE3 : RegDesc := ⟨"EMB_TABLE3", 0xc00118, 64, 0x20, 1, 0x0,
  [Reg.EMB_TABLE3_ROWS 0]⟩

/-- R428: EMB_MOVE0.EN [63:63]. -/
def Reg.EMB_MOVE0_EN (i : Nat) : Fld := { reg := 0xc01000 + 0x10 * i, lo := 63, width := 1, reset := 0, acc := .RW, taken := true }
/-- R428: EMB_MOVE0.NEW_DEV [53:48]. -/
def Reg.EMB_MOVE0_NEW_DEV (i : Nat) : Fld := { reg := 0xc01000 + 0x10 * i, lo := 48, width := 6, reset := 0, acc := .RW, taken := true }
/-- R428: EMB_MOVE0.TABLE [45:40]. -/
def Reg.EMB_MOVE0_TABLE (i : Nat) : Fld := { reg := 0xc01000 + 0x10 * i, lo := 40, width := 6, reset := 0, acc := .RW, taken := true }
/-- R428: EMB_MOVE0.ROW [39:0]. -/
def Reg.EMB_MOVE0_ROW (i : Nat) : Fld := { reg := 0xc01000 + 0x10 * i, lo := 0, width := 40, reset := 0, acc := .RW, taken := true }
/-- R428: EMB_MOVE0. -/
def Reg.tab_EMB_MOVE0 : RegDesc := ⟨"EMB_MOVE0", 0xc01000, 1024, 0x10, 1, 0x0,
  [Reg.EMB_MOVE0_EN 0, Reg.EMB_MOVE0_NEW_DEV 0, Reg.EMB_MOVE0_TABLE 0, Reg.EMB_MOVE0_ROW 0]⟩

/-- R428: EMB_MOVE1.STATE [17:16]. -/
def Reg.EMB_MOVE1_STATE (i : Nat) : Fld := { reg := 0xc01008 + 0x10 * i, lo := 16, width := 2, reset := 0, acc := .RO }
/-- R428: EMB_MOVE1.HOT [12:0]. -/
def Reg.EMB_MOVE1_HOT (i : Nat) : Fld := { reg := 0xc01008 + 0x10 * i, lo := 0, width := 13, reset := 0, acc := .RW, taken := true }
/-- R428: EMB_MOVE1. -/
def Reg.tab_EMB_MOVE1 : RegDesc := ⟨"EMB_MOVE1", 0xc01008, 1024, 0x10, 1, 0x0,
  [Reg.EMB_MOVE1_STATE 0, Reg.EMB_MOVE1_HOT 0]⟩

/-- R447: SRC_POOL.COUNT [44:32]. -/
def Reg.SRC_POOL_COUNT : Fld := { reg := 0xd00000, lo := 32, width := 13, reset := 0, acc := .RW, taken := true, stepOnly := true, legal := [(0, 6250, 1)] }
/-- R447: SRC_POOL.FIRST [28:16]. -/
def Reg.SRC_POOL_FIRST : Fld := { reg := 0xd00000, lo := 16, width := 13, reset := 0, acc := .RW, taken := true, stepOnly := true }
/-- R447: SRC_POOL.PARTITION [3:0]. -/
def Reg.SRC_POOL_PARTITION : Fld := { reg := 0xd00000, lo := 0, width := 4, reset := 0, acc := .RW, taken := true, stepOnly := true }
/-- R447: SRC_POOL. -/
def Reg.tab_SRC_POOL : RegDesc := ⟨"SRC_POOL", 0xd00000, 1, 0x0, 1, 0x0,
  [Reg.SRC_POOL_COUNT, Reg.SRC_POOL_FIRST, Reg.SRC_POOL_PARTITION]⟩

/-- R447: SRC_SPILL.BASE [52:12]. -/
def Reg.SRC_SPILL_BASE : Fld := { reg := 0xd00008, lo := 12, width := 41, reset := 0, acc := .RW, taken := true, stepOnly := true }
/-- R447: SRC_SPILL. -/
def Reg.tab_SRC_SPILL : RegDesc := ⟨"SRC_SPILL", 0xd00008, 1, 0x0, 1, 0x0,
  [Reg.SRC_SPILL_BASE]⟩

/-- R447: SRC_STAT.SKIPPED [63:48]. -/
def Reg.SRC_STAT_SKIPPED : Fld := { reg := 0xd00010, lo := 48, width := 16, reset := 0, acc := .RW }
/-- R447: SRC_STAT.MALFORMED [47:32]. -/
def Reg.SRC_STAT_MALFORMED : Fld := { reg := 0xd00010, lo := 32, width := 16, reset := 0, acc := .RW }
/-- R447: SRC_STAT.DEAD [31:16]. -/
def Reg.SRC_STAT_DEAD : Fld := { reg := 0xd00010, lo := 16, width := 16, reset := 0, acc := .RW }
/-- R447: SRC_STAT.FEWER [15:0]. -/
def Reg.SRC_STAT_FEWER : Fld := { reg := 0xd00010, lo := 0, width := 16, reset := 0, acc := .RW }
/-- R447: SRC_STAT. -/
def Reg.tab_SRC_STAT : RegDesc := ⟨"SRC_STAT", 0xd00010, 1, 0x0, 1, 0x0,
  [Reg.SRC_STAT_SKIPPED, Reg.SRC_STAT_MALFORMED, Reg.SRC_STAT_DEAD, Reg.SRC_STAT_FEWER]⟩

/-- R447: SRC_COUNT.TASKS [63:32]. -/
def Reg.SRC_COUNT_TASKS : Fld := { reg := 0xd00018, lo := 32, width := 32, reset := 0, acc := .RO }
/-- R447: SRC_COUNT.RESTARTED [31:0]. -/
def Reg.SRC_COUNT_RESTARTED : Fld := { reg := 0xd00018, lo := 0, width := 32, reset := 0, acc := .RW }
/-- R447: SRC_COUNT. -/
def Reg.tab_SRC_COUNT : RegDesc := ⟨"SRC_COUNT", 0xd00018, 1, 0x0, 1, 0x0,
  [Reg.SRC_COUNT_TASKS, Reg.SRC_COUNT_RESTARTED]⟩

/-- R447: SRC_INDEX0.EN [63:63]. -/
def Reg.SRC_INDEX0_EN (i : Nat) : Fld := { reg := 0xd00100 + 0x40 * i, lo := 63, width := 1, reset := 0, acc := .RW, taken := true, stepOnly := true }
/-- R447: SRC_INDEX0.PARTITION [55:52]. -/
def Reg.SRC_INDEX0_PARTITION (i : Nat) : Fld := { reg := 0xd00100 + 0x40 * i, lo := 52, width := 4, reset := 0, acc := .RW, taken := true, stepOnly := true }
/-- R447: SRC_INDEX0.KIND [49:48]. -/
def Reg.SRC_INDEX0_KIND (i : Nat) : Fld := { reg := 0xd00100 + 0x40 * i, lo := 48, width := 2, reset := 0, acc := .RW, taken := true, stepOnly := true, legal := [(0, 2, 1)] }
/-- R447: SRC_INDEX0.LEN [45:44]. -/
def Reg.SRC_INDEX0_LEN (i : Nat) : Fld := { reg := 0xd00100 + 0x40 * i, lo := 44, width := 2, reset := 0, acc := .RW, taken := true, stepOnly := true }
/-- R447: SRC_INDEX0.SHARDS [41:35]. -/
def Reg.SRC_INDEX0_SHARDS (i : Nat) : Fld := { reg := 0xd00100 + 0x40 * i, lo := 35, width := 7, reset := 0, acc := .RW, taken := true, stepOnly := true, legal := [(1, 64, 1)] }
/-- R447: SRC_INDEX0.FIRST_DEV [31:26]. -/
def Reg.SRC_INDEX0_FIRST_DEV (i : Nat) : Fld := { reg := 0xd00100 + 0x40 * i, lo := 26, width := 6, reset := 0, acc := .RW, taken := true, stepOnly := true }
/-- R447: SRC_INDEX0.MAXDEG [22:16]. -/
def Reg.SRC_INDEX0_MAXDEG (i : Nat) : Fld := { reg := 0xd00100 + 0x40 * i, lo := 16, width := 7, reset := 0, acc := .RW, taken := true, stepOnly := true }
/-- R447: SRC_INDEX0.WIDEN_MAX [10:8]. -/
def Reg.SRC_INDEX0_WIDEN_MAX (i : Nat) : Fld := { reg := 0xd00100 + 0x40 * i, lo := 8, width := 3, reset := 0, acc := .RW, taken := true, stepOnly := true }
/-- R447: SRC_INDEX0. -/
def Reg.tab_SRC_INDEX0 : RegDesc := ⟨"SRC_INDEX0", 0xd00100, 64, 0x40, 1, 0x0,
  [Reg.SRC_INDEX0_EN 0, Reg.SRC_INDEX0_PARTITION 0, Reg.SRC_INDEX0_KIND 0, Reg.SRC_INDEX0_LEN 0, Reg.SRC_INDEX0_SHARDS 0, Reg.SRC_INDEX0_FIRST_DEV 0, Reg.SRC_INDEX0_MAXDEG 0, Reg.SRC_INDEX0_WIDEN_MAX 0]⟩

/-- R447: SRC_INDEX1.CODES [52:6]. -/
def Reg.SRC_INDEX1_CODES (i : Nat) : Fld := { reg := 0xd00108 + 0x40 * i, lo := 6, width := 47, reset := 0, acc := .RW, taken := true, stepOnly := true }
/-- R447: SRC_INDEX1. -/
def Reg.tab_SRC_INDEX1 : RegDesc := ⟨"SRC_INDEX1", 0xd00108, 64, 0x40, 1, 0x0,
  [Reg.SRC_INDEX1_CODES 0]⟩

/-- R447: SRC_INDEX2.META [52:6]. -/
def Reg.SRC_INDEX2_META (i : Nat) : Fld := { reg := 0xd00110 + 0x40 * i, lo := 6, width := 47, reset := 0, acc := .RW, taken := true, stepOnly := true }
/-- R447: SRC_INDEX2. -/
def Reg.tab_SRC_INDEX2 : RegDesc := ⟨"SRC_INDEX2", 0xd00110, 64, 0x40, 1, 0x0,
  [Reg.SRC_INDEX2_META 0]⟩

/-- R447: SRC_INDEX3.COUNT [31:0]. -/
def Reg.SRC_INDEX3_COUNT (i : Nat) : Fld := { reg := 0xd00118 + 0x40 * i, lo := 0, width := 32, reset := 0, acc := .RW, taken := true, stepOnly := true }
/-- R447: SRC_INDEX3. -/
def Reg.tab_SRC_INDEX3 : RegDesc := ⟨"SRC_INDEX3", 0xd00118, 64, 0x40, 1, 0x0,
  [Reg.SRC_INDEX3_COUNT 0]⟩

/-- R447: SRC_INDEX4.CENT [52:6]. -/
def Reg.SRC_INDEX4_CENT (i : Nat) : Fld := { reg := 0xd00120 + 0x40 * i, lo := 6, width := 47, reset := 0, acc := .RW, taken := true, stepOnly := true }
/-- R447: SRC_INDEX4. -/
def Reg.tab_SRC_INDEX4 : RegDesc := ⟨"SRC_INDEX4", 0xd00120, 64, 0x40, 1, 0x0,
  [Reg.SRC_INDEX4_CENT 0]⟩

/-- R447: SRC_INDEX5.LISTS [52:6]. -/
def Reg.SRC_INDEX5_LISTS (i : Nat) : Fld := { reg := 0xd00128 + 0x40 * i, lo := 6, width := 47, reset := 0, acc := .RW, taken := true, stepOnly := true }
/-- R447: SRC_INDEX5. -/
def Reg.tab_SRC_INDEX5 : RegDesc := ⟨"SRC_INDEX5", 0xd00128, 64, 0x40, 1, 0x0,
  [Reg.SRC_INDEX5_LISTS 0]⟩

/-- R447: SRC_INDEX6.NLIST [47:32]. -/
def Reg.SRC_INDEX6_NLIST (i : Nat) : Fld := { reg := 0xd00130 + 0x40 * i, lo := 32, width := 16, reset := 0, acc := .RW, taken := true, stepOnly := true }
/-- R447: SRC_INDEX6.ENTRY [31:0]. -/
def Reg.SRC_INDEX6_ENTRY (i : Nat) : Fld := { reg := 0xd00130 + 0x40 * i, lo := 0, width := 32, reset := 0, acc := .RW, taken := true, stepOnly := true }
/-- R447: SRC_INDEX6. -/
def Reg.tab_SRC_INDEX6 : RegDesc := ⟨"SRC_INDEX6", 0xd00130, 64, 0x40, 1, 0x0,
  [Reg.SRC_INDEX6_NLIST 0, Reg.SRC_INDEX6_ENTRY 0]⟩

/-- R447: SRC_INDEX7.VISIT_MAX [24:0]. -/
def Reg.SRC_INDEX7_VISIT_MAX (i : Nat) : Fld := { reg := 0xd00138 + 0x40 * i, lo := 0, width := 25, reset := 0, acc := .RW, taken := true, stepOnly := true }
/-- R447: SRC_INDEX7. -/
def Reg.tab_SRC_INDEX7 : RegDesc := ⟨"SRC_INDEX7", 0xd00138, 64, 0x40, 1, 0x0,
  [Reg.SRC_INDEX7_VISIT_MAX 0]⟩

/-- R481: RSL_CTL.PM_GROUP [23:16]. -/
def Reg.RSL_CTL_PM_GROUP : Fld := { reg := 0xe00000, lo := 16, width := 8, reset := 255, acc := .RW, taken := true, stepOnly := true }
/-- R481: RSL_CTL.RESEND [15:0]. -/
def Reg.RSL_CTL_RESEND : Fld := { reg := 0xe00000, lo := 0, width := 16, reset := 64, acc := .RW }
/-- R481: RSL_CTL. -/
def Reg.tab_RSL_CTL : RegDesc := ⟨"RSL_CTL", 0xe00000, 1, 0x0, 1, 0x0,
  [Reg.RSL_CTL_PM_GROUP, Reg.RSL_CTL_RESEND]⟩

/-- R481: RSL_CODE.CORR [63:32]. -/
def Reg.RSL_CODE_CORR : Fld := { reg := 0xe00008, lo := 32, width := 32, reset := 0, acc := .RW }
/-- R481: RSL_CODE.UE [31:16]. -/
def Reg.RSL_CODE_UE : Fld := { reg := 0xe00008, lo := 16, width := 16, reset := 0, acc := .RW }
/-- R481: RSL_CODE.MARKED [15:0]. -/
def Reg.RSL_CODE_MARKED : Fld := { reg := 0xe00008, lo := 0, width := 16, reset := 0, acc := .RW }
/-- R481: RSL_CODE. -/
def Reg.tab_RSL_CODE : RegDesc := ⟨"RSL_CODE", 0xe00008, 1, 0x0, 1, 0x0,
  [Reg.RSL_CODE_CORR, Reg.RSL_CODE_UE, Reg.RSL_CODE_MARKED]⟩

/-- R481: RSL_CODE_LIMIT.CH_UE [47:32]. -/
def Reg.RSL_CODE_LIMIT_CH_UE : Fld := { reg := 0xe00010, lo := 32, width := 16, reset := 16, acc := .RW }
/-- R481: RSL_CODE_LIMIT.CH_CE [31:0]. -/
def Reg.RSL_CODE_LIMIT_CH_CE : Fld := { reg := 0xe00010, lo := 0, width := 32, reset := 1048576, acc := .RW }
/-- R481: RSL_CODE_LIMIT. -/
def Reg.tab_RSL_CODE_LIMIT : RegDesc := ⟨"RSL_CODE_LIMIT", 0xe00010, 1, 0x0, 1, 0x0,
  [Reg.RSL_CODE_LIMIT_CH_UE, Reg.RSL_CODE_LIMIT_CH_CE]⟩

/-- R481: RSL_LEDGER.LOST [63:48]. -/
def Reg.RSL_LEDGER_LOST : Fld := { reg := 0xe00018, lo := 48, width := 16, reset := 0, acc := .RW }
/-- R481: RSL_LEDGER.ABORT_EN [47:32]. -/
def Reg.RSL_LEDGER_ABORT_EN : Fld := { reg := 0xe00018, lo := 32, width := 16, reset := 0, acc := .RW }
/-- R481: RSL_LEDGER.IMBAL [15:0]. -/
def Reg.RSL_LEDGER_IMBAL : Fld := { reg := 0xe00018, lo := 0, width := 16, reset := 0, acc := .W1C }
/-- R481: RSL_LEDGER. -/
def Reg.tab_RSL_LEDGER : RegDesc := ⟨"RSL_LEDGER", 0xe00018, 1, 0x0, 1, 0x0,
  [Reg.RSL_LEDGER_LOST, Reg.RSL_LEDGER_ABORT_EN, Reg.RSL_LEDGER_IMBAL]⟩

/-- R481: RSL_PM_MEMBERS.MEMBERS [63:0]. -/
def Reg.RSL_PM_MEMBERS_MEMBERS : Fld := { reg := 0xe00020, lo := 0, width := 64, reset := 0, acc := .RW, taken := true, stepOnly := true }
/-- R481: RSL_PM_MEMBERS. -/
def Reg.tab_RSL_PM_MEMBERS : RegDesc := ⟨"RSL_PM_MEMBERS", 0xe00020, 1, 0x0, 1, 0x0,
  [Reg.RSL_PM_MEMBERS_MEMBERS]⟩

/-- R481: RSL_PM_LIVE.LIVE [63:0]. -/
def Reg.RSL_PM_LIVE_LIVE : Fld := { reg := 0xe00028, lo := 0, width := 64, reset := 0, acc := .RO }
/-- R481: RSL_PM_LIVE. -/
def Reg.tab_RSL_PM_LIVE : RegDesc := ⟨"RSL_PM_LIVE", 0xe00028, 1, 0x0, 1, 0x0,
  [Reg.RSL_PM_LIVE_LIVE]⟩

/-- R481: RSL_PM_STATE.LATE [63:48]. -/
def Reg.RSL_PM_STATE_LATE : Fld := { reg := 0xe00030, lo := 48, width := 16, reset := 0, acc := .RW }
/-- R481: RSL_PM_STATE.VERDICTS [47:32]. -/
def Reg.RSL_PM_STATE_VERDICTS : Fld := { reg := 0xe00030, lo := 32, width := 16, reset := 0, acc := .RO }
/-- R481: RSL_PM_STATE.COORD [29:24]. -/
def Reg.RSL_PM_STATE_COORD : Fld := { reg := 0xe00030, lo := 24, width := 6, reset := 0, acc := .RO }
/-- R481: RSL_PM_STATE.READY [4:4]. -/
def Reg.RSL_PM_STATE_READY : Fld := { reg := 0xe00030, lo := 4, width := 1, reset := 0, acc := .RO }
/-- R481: RSL_PM_STATE.JOINING [3:3]. -/
def Reg.RSL_PM_STATE_JOINING : Fld := { reg := 0xe00030, lo := 3, width := 1, reset := 1, acc := .RO }
/-- R481: RSL_PM_STATE.FENCED [2:2]. -/
def Reg.RSL_PM_STATE_FENCED : Fld := { reg := 0xe00030, lo := 2, width := 1, reset := 0, acc := .RO }
/-- R481: RSL_PM_STATE.QUORUM [1:1]. -/
def Reg.RSL_PM_STATE_QUORUM : Fld := { reg := 0xe00030, lo := 1, width := 1, reset := 0, acc := .RO }
/-- R481: RSL_PM_STATE. -/
def Reg.tab_RSL_PM_STATE : RegDesc := ⟨"RSL_PM_STATE", 0xe00030, 1, 0x0, 1, 0x0,
  [Reg.RSL_PM_STATE_LATE, Reg.RSL_PM_STATE_VERDICTS, Reg.RSL_PM_STATE_COORD, Reg.RSL_PM_STATE_READY, Reg.RSL_PM_STATE_JOINING, Reg.RSL_PM_STATE_FENCED, Reg.RSL_PM_STATE_QUORUM]⟩

/-- R481: RSL_PM_SUSPECT.SUSPECT [63:0]. -/
def Reg.RSL_PM_SUSPECT_SUSPECT : Fld := { reg := 0xe00038, lo := 0, width := 64, reset := 0, acc := .RO }
/-- R481: RSL_PM_SUSPECT. -/
def Reg.tab_RSL_PM_SUSPECT : RegDesc := ⟨"RSL_PM_SUSPECT", 0xe00038, 1, 0x0, 1, 0x0,
  [Reg.RSL_PM_SUSPECT_SUSPECT]⟩

/-- R481: RSL_CURTAIN.COUNT [63:48]. -/
def Reg.RSL_CURTAIN_COUNT : Fld := { reg := 0xe00040, lo := 48, width := 16, reset := 0, acc := .RW }
/-- R481: RSL_CURTAIN.DOWN [15:0]. -/
def Reg.RSL_CURTAIN_DOWN : Fld := { reg := 0xe00040, lo := 0, width := 16, reset := 0, acc := .RO }
/-- R481: RSL_CURTAIN. -/
def Reg.tab_RSL_CURTAIN : RegDesc := ⟨"RSL_CURTAIN", 0xe00040, 1, 0x0, 1, 0x0,
  [Reg.RSL_CURTAIN_COUNT, Reg.RSL_CURTAIN_DOWN]⟩

/-- R481: RSL_RH_CTL.EN [63:63]. -/
def Reg.RSL_RH_CTL_EN : Fld := { reg := 0xe00048, lo := 63, width := 1, reset := 0, acc := .RW, taken := true }
/-- R481: RSL_RH_CTL.KINDS [51:48]. -/
def Reg.RSL_RH_CTL_KINDS : Fld := { reg := 0xe00048, lo := 48, width := 4, reset := 0, acc := .RW, taken := true }
/-- R481: RSL_RH_CTL.CUES [47:40]. -/
def Reg.RSL_RH_CTL_CUES : Fld := { reg := 0xe00048, lo := 40, width := 8, reset := 0, acc := .RW, taken := true }
/-- R481: RSL_RH_CTL.INTERVAL [31:16]. -/
def Reg.RSL_RH_CTL_INTERVAL : Fld := { reg := 0xe00048, lo := 16, width := 16, reset := 0, acc := .RW, taken := true }
/-- R481: RSL_RH_CTL.PARTS [15:0]. -/
def Reg.RSL_RH_CTL_PARTS : Fld := { reg := 0xe00048, lo := 0, width := 16, reset := 0, acc := .RW, taken := true, stepOnly := true }
/-- R481: RSL_RH_CTL. -/
def Reg.tab_RSL_RH_CTL : RegDesc := ⟨"RSL_RH_CTL", 0xe00048, 1, 0x0, 1, 0x0,
  [Reg.RSL_RH_CTL_EN, Reg.RSL_RH_CTL_KINDS, Reg.RSL_RH_CTL_CUES, Reg.RSL_RH_CTL_INTERVAL, Reg.RSL_RH_CTL_PARTS]⟩

/-- R481: RSL_RH_RANGE.UNITS [60:32]. -/
def Reg.RSL_RH_RANGE_UNITS : Fld := { reg := 0xe00050, lo := 32, width := 29, reset := 0, acc := .RW, taken := true, stepOnly := true }
/-- R481: RSL_RH_RANGE.FIRST [28:0]. -/
def Reg.RSL_RH_RANGE_FIRST : Fld := { reg := 0xe00050, lo := 0, width := 29, reset := 0, acc := .RW, taken := true, stepOnly := true }
/-- R481: RSL_RH_RANGE. -/
def Reg.tab_RSL_RH_RANGE : RegDesc := ⟨"RSL_RH_RANGE", 0xe00050, 1, 0x0, 1, 0x0,
  [Reg.RSL_RH_RANGE_UNITS, Reg.RSL_RH_RANGE_FIRST]⟩

/-- R481: RSL_RH_STAT.INJECTED [63:32]. -/
def Reg.RSL_RH_STAT_INJECTED : Fld := { reg := 0xe00058, lo := 32, width := 32, reset := 0, acc := .RO }
/-- R481: RSL_RH_STAT.LAST_KIND [17:16]. -/
def Reg.RSL_RH_STAT_LAST_KIND : Fld := { reg := 0xe00058, lo := 16, width := 2, reset := 0, acc := .RO }
/-- R481: RSL_RH_STAT.ACTIVE [7:7]. -/
def Reg.RSL_RH_STAT_ACTIVE : Fld := { reg := 0xe00058, lo := 7, width := 1, reset := 0, acc := .RO }
/-- R481: RSL_RH_STAT.PORT [5:0]. -/
def Reg.RSL_RH_STAT_PORT : Fld := { reg := 0xe00058, lo := 0, width := 6, reset := 0, acc := .RO }
/-- R481: RSL_RH_STAT. -/
def Reg.tab_RSL_RH_STAT : RegDesc := ⟨"RSL_RH_STAT", 0xe00058, 1, 0x0, 1, 0x0,
  [Reg.RSL_RH_STAT_INJECTED, Reg.RSL_RH_STAT_LAST_KIND, Reg.RSL_RH_STAT_ACTIVE, Reg.RSL_RH_STAT_PORT]⟩

/-- R481: RSL_ADMIT.TEST [9:8]. -/
def Reg.RSL_ADMIT_TEST : Fld := { reg := 0xe00060, lo := 8, width := 2, reset := 0, acc := .RO }
/-- R481: RSL_ADMIT.GO [0:0]. -/
def Reg.RSL_ADMIT_GO : Fld := { reg := 0xe00060, lo := 0, width := 1, reset := 0, acc := .WO }
/-- R481: RSL_ADMIT. -/
def Reg.tab_RSL_ADMIT : RegDesc := ⟨"RSL_ADMIT", 0xe00060, 1, 0x0, 1, 0x0,
  [Reg.RSL_ADMIT_TEST, Reg.RSL_ADMIT_GO]⟩

/-- R481: RSL_RESTORE_UNIT.COUNT [60:32]. -/
def Reg.RSL_RESTORE_UNIT_COUNT : Fld := { reg := 0xe00068, lo := 32, width := 29, reset := 0, acc := .RW }
/-- R481: RSL_RESTORE_UNIT.FIRST [28:0]. -/
def Reg.RSL_RESTORE_UNIT_FIRST : Fld := { reg := 0xe00068, lo := 0, width := 29, reset := 0, acc := .RW }
/-- R481: RSL_RESTORE_UNIT. -/
def Reg.tab_RSL_RESTORE_UNIT : RegDesc := ⟨"RSL_RESTORE_UNIT", 0xe00068, 1, 0x0, 1, 0x0,
  [Reg.RSL_RESTORE_UNIT_COUNT, Reg.RSL_RESTORE_UNIT_FIRST]⟩

/-- R481: RSL_RESTORE_CMD.STEP [63:32]. -/
def Reg.RSL_RESTORE_CMD_STEP : Fld := { reg := 0xe00070, lo := 32, width := 32, reset := 0, acc := .RW }
/-- R481: RSL_RESTORE_CMD.MISSING [31:24]. -/
def Reg.RSL_RESTORE_CMD_MISSING : Fld := { reg := 0xe00070, lo := 24, width := 8, reset := 0, acc := .RW }
/-- R481: RSL_RESTORE_CMD.SOURCE [21:16]. -/
def Reg.RSL_RESTORE_CMD_SOURCE : Fld := { reg := 0xe00070, lo := 16, width := 6, reset := 0, acc := .RW }
/-- R481: RSL_RESTORE_CMD.RESULT [15:12]. -/
def Reg.RSL_RESTORE_CMD_RESULT : Fld := { reg := 0xe00070, lo := 12, width := 4, reset := 0, acc := .RO }
/-- R481: RSL_RESTORE_CMD.BUSY [11:11]. -/
def Reg.RSL_RESTORE_CMD_BUSY : Fld := { reg := 0xe00070, lo := 11, width := 1, reset := 0, acc := .RO }
/-- R481: RSL_RESTORE_CMD.GO [0:0]. -/
def Reg.RSL_RESTORE_CMD_GO : Fld := { reg := 0xe00070, lo := 0, width := 1, reset := 0, acc := .WO }
/-- R481: RSL_RESTORE_CMD. -/
def Reg.tab_RSL_RESTORE_CMD : RegDesc := ⟨"RSL_RESTORE_CMD", 0xe00070, 1, 0x0, 1, 0x0,
  [Reg.RSL_RESTORE_CMD_STEP, Reg.RSL_RESTORE_CMD_MISSING, Reg.RSL_RESTORE_CMD_SOURCE, Reg.RSL_RESTORE_CMD_RESULT, Reg.RSL_RESTORE_CMD_BUSY, Reg.RSL_RESTORE_CMD_GO]⟩

/-- R481: RSL_CURTAIN_SET.SET [63:0]. -/
def Reg.RSL_CURTAIN_SET_SET (i : Nat) : Fld := { reg := 0xe00100 + 0x8 * i, lo := 0, width := 64, reset := 0, acc := .RW, taken := true, stepOnly := true }
/-- R481: RSL_CURTAIN_SET. -/
def Reg.tab_RSL_CURTAIN_SET : RegDesc := ⟨"RSL_CURTAIN_SET", 0xe00100, 16, 0x8, 1, 0x0,
  [Reg.RSL_CURTAIN_SET_SET 0]⟩

/-- R92: TRP_ID.DOMAIN [27:24]. -/
def Reg.TRP_ID_DOMAIN (i : Nat) : Fld := { reg := 0x1000000 + 0x400 * i, lo := 24, width := 4, reset := Reg.trpDomain i, acc := .RO }
/-- R92: TRP_ID.GATE [23:20]. -/
def Reg.TRP_ID_GATE (i : Nat) : Fld := { reg := 0x1000000 + 0x400 * i, lo := 20, width := 4, reset := Reg.trpGate i, acc := .RO }
/-- R92: TRP_ID.DIE [19:16]. -/
def Reg.TRP_ID_DIE (i : Nat) : Fld := { reg := 0x1000000 + 0x400 * i, lo := 16, width := 4, reset := Reg.trpDie i, acc := .RO }
/-- R92: TRP_ID.Y [14:8]. -/
def Reg.TRP_ID_Y (i : Nat) : Fld := { reg := 0x1000000 + 0x400 * i, lo := 8, width := 7, reset := i / 80, acc := .RO }
/-- R92: TRP_ID.X [6:0]. -/
def Reg.TRP_ID_X (i : Nat) : Fld := { reg := 0x1000000 + 0x400 * i, lo := 0, width := 7, reset := i % 80, acc := .RO }
/-- R92: TRP_ID. -/
def Reg.tab_TRP_ID : RegDesc := ⟨"TRP_ID", 0x1000000, 6400, 0x400, 1, 0x0,
  [Reg.TRP_ID_DOMAIN 0, Reg.TRP_ID_GATE 0, Reg.TRP_ID_DIE 0, Reg.TRP_ID_Y 0, Reg.TRP_ID_X 0]⟩

/-- R92: TRP_STATE.LOGICAL [44:32]. -/
def Reg.TRP_STATE_LOGICAL (i : Nat) : Fld := { reg := 0x1000008 + 0x400 * i, lo := 32, width := 13, reset := if i < 6250 then i else 8191, acc := .RW, taken := true, stepOnly := true, legal := [(0, 6249, 1), (8191, 8191, 1)] }
/-- R92: TRP_STATE.PARTITION [27:24]. -/
def Reg.TRP_STATE_PARTITION (i : Nat) : Fld := { reg := 0x1000008 + 0x400 * i, lo := 24, width := 4, reset := 0, acc := .RW, taken := true, stepOnly := true }
/-- R92: TRP_STATE.STATE [2:0]. -/
def Reg.TRP_STATE_STATE (i : Nat) : Fld := { reg := 0x1000008 + 0x400 * i, lo := 0, width := 3, reset := if i < 6250 then 0 else 3, acc := .RO }
/-- R92: TRP_STATE. -/
def Reg.tab_TRP_STATE : RegDesc := ⟨"TRP_STATE", 0x1000008, 6400, 0x400, 1, 0x0,
  [Reg.TRP_STATE_LOGICAL 0, Reg.TRP_STATE_PARTITION 0, Reg.TRP_STATE_STATE 0]⟩

/-- R92: TRP_ERR.UE [63:48]. -/
def Reg.TRP_ERR_UE (i : Nat) : Fld := { reg := 0x1000010 + 0x400 * i, lo := 48, width := 16, reset := 0, acc := .RO }
/-- R92: TRP_ERR.CORR [31:0]. -/
def Reg.TRP_ERR_CORR (i : Nat) : Fld := { reg := 0x1000010 + 0x400 * i, lo := 0, width := 32, reset := 0, acc := .RW }
/-- R92: TRP_ERR. -/
def Reg.tab_TRP_ERR : RegDesc := ⟨"TRP_ERR", 0x1000010, 6400, 0x400, 1, 0x0,
  [Reg.TRP_ERR_UE 0, Reg.TRP_ERR_CORR 0]⟩

/-- R92: TRP_ERR_LIMIT.LIMIT [31:0]. -/
def Reg.TRP_ERR_LIMIT_LIMIT (i : Nat) : Fld := { reg := 0x1000018 + 0x400 * i, lo := 0, width := 32, reset := 1024, acc := .RW }
/-- R92: TRP_ERR_LIMIT. -/
def Reg.tab_TRP_ERR_LIMIT : RegDesc := ⟨"TRP_ERR_LIMIT", 0x1000018, 6400, 0x400, 1, 0x0,
  [Reg.TRP_ERR_LIMIT_LIMIT 0]⟩

/-- R92: TRP_RETIRE.SPARE [47:32]. -/
def Reg.TRP_RETIRE_SPARE (i : Nat) : Fld := { reg := 0x1000020 + 0x400 * i, lo := 32, width := 16, reset := 65535, acc := .RO }
/-- R92: TRP_RETIRE.RESULT [19:16]. -/
def Reg.TRP_RETIRE_RESULT (i : Nat) : Fld := { reg := 0x1000020 + 0x400 * i, lo := 16, width := 4, reset := 0, acc := .RO }
/-- R92: TRP_RETIRE.GO [0:0]. -/
def Reg.TRP_RETIRE_GO (i : Nat) : Fld := { reg := 0x1000020 + 0x400 * i, lo := 0, width := 1, reset := 0, acc := .WO }
/-- R92: TRP_RETIRE. -/
def Reg.tab_TRP_RETIRE : RegDesc := ⟨"TRP_RETIRE", 0x1000020, 6400, 0x400, 1, 0x0,
  [Reg.TRP_RETIRE_SPARE 0, Reg.TRP_RETIRE_RESULT 0, Reg.TRP_RETIRE_GO 0]⟩

/-- R92: TRP_TRAFFIC.MALFORMED [63:48]. -/
def Reg.TRP_TRAFFIC_MALFORMED (i : Nat) : Fld := { reg := 0x1000030 + 0x400 * i, lo := 48, width := 16, reset := 0, acc := .RW }
/-- R92: TRP_TRAFFIC.RETRIED [47:32]. -/
def Reg.TRP_TRAFFIC_RETRIED (i : Nat) : Fld := { reg := 0x1000030 + 0x400 * i, lo := 32, width := 16, reset := 0, acc := .RW }
/-- R92: TRP_TRAFFIC.CANCELLED [31:16]. -/
def Reg.TRP_TRAFFIC_CANCELLED (i : Nat) : Fld := { reg := 0x1000030 + 0x400 * i, lo := 16, width := 16, reset := 0, acc := .RW }
/-- R92: TRP_TRAFFIC. -/
def Reg.tab_TRP_TRAFFIC : RegDesc := ⟨"TRP_TRAFFIC", 0x1000030, 6400, 0x400, 1, 0x0,
  [Reg.TRP_TRAFFIC_MALFORMED 0, Reg.TRP_TRAFFIC_RETRIED 0, Reg.TRP_TRAFFIC_CANCELLED 0]⟩

/-- R92: TRP_CE_STATE.UNIT [63:48]. -/
def Reg.TRP_CE_STATE_UNIT (i j : Nat) : Fld := { reg := 0x1000100 + 0x400 * i + 0x8 * j, lo := 48, width := 16, reset := 0, acc := .RO }
/-- R92: TRP_CE_STATE.PC [39:32]. -/
def Reg.TRP_CE_STATE_PC (i j : Nat) : Fld := { reg := 0x1000100 + 0x400 * i + 0x8 * j, lo := 32, width := 8, reset := 0, acc := .RO }
/-- R92: TRP_CE_STATE.WAIT [3:0]. -/
def Reg.TRP_CE_STATE_WAIT (i j : Nat) : Fld := { reg := 0x1000100 + 0x400 * i + 0x8 * j, lo := 0, width := 4, reset := 6, acc := .RO }
/-- R92: TRP_CE_STATE. -/
def Reg.tab_TRP_CE_STATE : RegDesc := ⟨"TRP_CE_STATE", 0x1000100, 6400, 0x400, 48, 0x8,
  [Reg.TRP_CE_STATE_UNIT 0 0, Reg.TRP_CE_STATE_PC 0 0, Reg.TRP_CE_STATE_WAIT 0 0]⟩

/-- R93: TRP_SUMMARY.ACTIVE [60:48]. -/
def Reg.TRP_SUMMARY_ACTIVE : Fld := { reg := 0x17f0000, lo := 48, width := 13, reset := 6250, acc := .RO }
/-- R93: TRP_SUMMARY.QUARANTINED [47:40]. -/
def Reg.TRP_SUMMARY_QUARANTINED : Fld := { reg := 0x17f0000, lo := 40, width := 8, reset := 0, acc := .RO }
/-- R93: TRP_SUMMARY.RESERVED [39:32]. -/
def Reg.TRP_SUMMARY_RESERVED : Fld := { reg := 0x17f0000, lo := 32, width := 8, reset := 0, acc := .RO }
/-- R93: TRP_SUMMARY.SPARE [31:24]. -/
def Reg.TRP_SUMMARY_SPARE : Fld := { reg := 0x17f0000, lo := 24, width := 8, reset := 150, acc := .RO }
/-- R93: TRP_SUMMARY.RETIRED [23:16]. -/
def Reg.TRP_SUMMARY_RETIRED : Fld := { reg := 0x17f0000, lo := 16, width := 8, reset := 0, acc := .RO }
/-- R93: TRP_SUMMARY.FUSED [15:8]. -/
def Reg.TRP_SUMMARY_FUSED : Fld := { reg := 0x17f0000, lo := 8, width := 8, reset := 0, acc := .RO }
/-- R93: TRP_SUMMARY. -/
def Reg.tab_TRP_SUMMARY : RegDesc := ⟨"TRP_SUMMARY", 0x17f0000, 1, 0x0, 1, 0x0,
  [Reg.TRP_SUMMARY_ACTIVE, Reg.TRP_SUMMARY_QUARANTINED, Reg.TRP_SUMMARY_RESERVED, Reg.TRP_SUMMARY_SPARE, Reg.TRP_SUMMARY_RETIRED, Reg.TRP_SUMMARY_FUSED]⟩

/-- R511: HPT_LINK.IDE_FAIL [63:48]. -/
def Reg.HPT_LINK_IDE_FAIL : Fld := { reg := 0x1800000, lo := 48, width := 16, reset := 0, acc := .RW }
/-- R511: HPT_LINK.POISON_RX [47:32]. -/
def Reg.HPT_LINK_POISON_RX : Fld := { reg := 0x1800000, lo := 32, width := 16, reset := 0, acc := .RW }
/-- R511: HPT_LINK.SLOW [20:20]. -/
def Reg.HPT_LINK_SLOW : Fld := { reg := 0x1800000, lo := 20, width := 1, reset := 0, acc := .RO }
/-- R511: HPT_LINK.WIDTH [19:18]. -/
def Reg.HPT_LINK_WIDTH : Fld := { reg := 0x1800000, lo := 18, width := 2, reset := 0, acc := .RO }
/-- R511: HPT_LINK.RATE [17:16]. -/
def Reg.HPT_LINK_RATE : Fld := { reg := 0x1800000, lo := 16, width := 2, reset := 0, acc := .RO }
/-- R511: HPT_LINK.UP [0:0]. -/
def Reg.HPT_LINK_UP : Fld := { reg := 0x1800000, lo := 0, width := 1, reset := 0, acc := .RO }
/-- R511: HPT_LINK. -/
def Reg.tab_HPT_LINK : RegDesc := ⟨"HPT_LINK", 0x1800000, 1, 0x0, 1, 0x0,
  [Reg.HPT_LINK_IDE_FAIL, Reg.HPT_LINK_POISON_RX, Reg.HPT_LINK_SLOW, Reg.HPT_LINK_WIDTH, Reg.HPT_LINK_RATE, Reg.HPT_LINK_UP]⟩

/-- R511: HPT_CFG.BAR2_LOG2 [5:0]. -/
def Reg.HPT_CFG_BAR2_LOG2 : Fld := { reg := 0x1800008, lo := 0, width := 6, reset := 40, acc := .RWS, legal := [(30, 46, 1)] }
/-- R511: HPT_CFG. -/
def Reg.tab_HPT_CFG : RegDesc := ⟨"HPT_CFG", 0x1800008, 1, 0x0, 1, 0x0,
  [Reg.HPT_CFG_BAR2_LOG2]⟩

/-- R511: EDG_PORT.HALF1 [29:24]. -/
def Reg.EDG_PORT_HALF1 (i : Nat) : Fld := { reg := 0x1800100 + 0x8 * i, lo := 24, width := 6, reset := 0, acc := .RO }
/-- R511: EDG_PORT.HALF0 [21:16]. -/
def Reg.EDG_PORT_HALF0 (i : Nat) : Fld := { reg := 0x1800100 + 0x8 * i, lo := 16, width := 6, reset := 0, acc := .RO }
/-- R511: EDG_PORT.SRIS [2:2]. -/
def Reg.EDG_PORT_SRIS (i : Nat) : Fld := { reg := 0x1800100 + 0x8 * i, lo := 2, width := 1, reset := 0, acc := .RWS }
/-- R511: EDG_PORT.BIF [1:1]. -/
def Reg.EDG_PORT_BIF (i : Nat) : Fld := { reg := 0x1800100 + 0x8 * i, lo := 1, width := 1, reset := 0, acc := .RWS }
/-- R511: EDG_PORT.EN [0:0]. -/
def Reg.EDG_PORT_EN (i : Nat) : Fld := { reg := 0x1800100 + 0x8 * i, lo := 0, width := 1, reset := 0, acc := .RW }
/-- R511: EDG_PORT. -/
def Reg.tab_EDG_PORT : RegDesc := ⟨"EDG_PORT", 0x1800100, 4, 0x8, 1, 0x0,
  [Reg.EDG_PORT_HALF1 0, Reg.EDG_PORT_HALF0 0, Reg.EDG_PORT_SRIS 0, Reg.EDG_PORT_BIF 0, Reg.EDG_PORT_EN 0]⟩

/-- R511: HST_STREAMS.BASE [59:16]. -/
def Reg.HST_STREAMS_BASE (i : Nat) : Fld := { reg := 0x1800200 + 0x8 * i, lo := 16, width := 44, reset := 0, acc := .RW, taken := true, stepOnly := true }
/-- R511: HST_STREAMS.EN [0:0]. -/
def Reg.HST_STREAMS_EN (i : Nat) : Fld := { reg := 0x1800200 + 0x8 * i, lo := 0, width := 1, reset := 0, acc := .RW, taken := true, stepOnly := true }
/-- R511: HST_STREAMS. -/
def Reg.tab_HST_STREAMS : RegDesc := ⟨"HST_STREAMS", 0x1800200, 16, 0x8, 1, 0x0,
  [Reg.HST_STREAMS_BASE 0, Reg.HST_STREAMS_EN 0]⟩

/-- R511: OBX_RING.BASE [59:12]. -/
def Reg.OBX_RING_BASE (i : Nat) : Fld := { reg := 0x1810000 + 0x20 * i, lo := 12, width := 48, reset := 0, acc := .RW, taken := true }
/-- R511: OBX_RING.INBOX [11:6]. -/
def Reg.OBX_RING_INBOX (i : Nat) : Fld := { reg := 0x1810000 + 0x20 * i, lo := 6, width := 6, reset := 0, acc := .RW, taken := true }
/-- R511: OBX_RING.PRIV [5:5]. -/
def Reg.OBX_RING_PRIV (i : Nat) : Fld := { reg := 0x1810000 + 0x20 * i, lo := 5, width := 1, reset := 0, acc := .RW, taken := true }
/-- R511: OBX_RING.LOG2 [4:0]. -/
def Reg.OBX_RING_LOG2 (i : Nat) : Fld := { reg := 0x1810000 + 0x20 * i, lo := 0, width := 5, reset := 4, acc := .RW, taken := true, legal := [(4, 16, 1)] }
/-- R511: OBX_RING. -/
def Reg.tab_OBX_RING : RegDesc := ⟨"OBX_RING", 0x1810000, 1024, 0x20, 1, 0x0,
  [Reg.OBX_RING_BASE 0, Reg.OBX_RING_INBOX 0, Reg.OBX_RING_PRIV 0, Reg.OBX_RING_LOG2 0]⟩

/-- R511: OBX_TAIL.LINE [59:6]. -/
def Reg.OBX_TAIL_LINE (i : Nat) : Fld := { reg := 0x1810008 + 0x20 * i, lo := 6, width := 54, reset := 0, acc := .RW, taken := true }
/-- R511: OBX_TAIL.EN [0:0]. -/
def Reg.OBX_TAIL_EN (i : Nat) : Fld := { reg := 0x1810008 + 0x20 * i, lo := 0, width := 1, reset := 0, acc := .RW, taken := true }
/-- R511: OBX_TAIL. -/
def Reg.tab_OBX_TAIL : RegDesc := ⟨"OBX_TAIL", 0x1810008, 1024, 0x20, 1, 0x0,
  [Reg.OBX_TAIL_LINE 0, Reg.OBX_TAIL_EN 0]⟩

/-- R511: OBX_STATE.HEAD [63:32]. -/
def Reg.OBX_STATE_HEAD (i : Nat) : Fld := { reg := 0x1810010 + 0x20 * i, lo := 32, width := 32, reset := 0, acc := .RO }
/-- R511: OBX_STATE.BAD_TAIL [31:16]. -/
def Reg.OBX_STATE_BAD_TAIL (i : Nat) : Fld := { reg := 0x1810010 + 0x20 * i, lo := 16, width := 16, reset := 0, acc := .RW }
/-- R511: OBX_STATE. -/
def Reg.tab_OBX_STATE : RegDesc := ⟨"OBX_STATE", 0x1810010, 1024, 0x20, 1, 0x0,
  [Reg.OBX_STATE_HEAD 0, Reg.OBX_STATE_BAD_TAIL 0]⟩

/-- R511: IBX_RING.BASE [59:8]. -/
def Reg.IBX_RING_BASE (i : Nat) : Fld := { reg := 0x1820000 + 0x20 * i, lo := 8, width := 52, reset := 0, acc := .RW, taken := true }
/-- R511: IBX_RING.EN [7:7]. -/
def Reg.IBX_RING_EN (i : Nat) : Fld := { reg := 0x1820000 + 0x20 * i, lo := 7, width := 1, reset := 0, acc := .RW, taken := true }
/-- R511: IBX_RING.VEN [6:6]. -/
def Reg.IBX_RING_VEN (i : Nat) : Fld := { reg := 0x1820000 + 0x20 * i, lo := 6, width := 1, reset := 0, acc := .RW, taken := true }
/-- R511: IBX_RING.LOG2 [4:0]. -/
def Reg.IBX_RING_LOG2 (i : Nat) : Fld := { reg := 0x1820000 + 0x20 * i, lo := 0, width := 5, reset := 4, acc := .RW, taken := true, legal := [(4, 16, 1)] }
/-- R511: IBX_RING. -/
def Reg.tab_IBX_RING : RegDesc := ⟨"IBX_RING", 0x1820000, 1024, 0x20, 1, 0x0,
  [Reg.IBX_RING_BASE 0, Reg.IBX_RING_EN 0, Reg.IBX_RING_VEN 0, Reg.IBX_RING_LOG2 0]⟩

/-- R511: IBX_HEAD.LINE [59:6]. -/
def Reg.IBX_HEAD_LINE (i : Nat) : Fld := { reg := 0x1820008 + 0x20 * i, lo := 6, width := 54, reset := 0, acc := .RW, taken := true }
/-- R511: IBX_HEAD.VECTOR [4:0]. -/
def Reg.IBX_HEAD_VECTOR (i : Nat) : Fld := { reg := 0x1820008 + 0x20 * i, lo := 0, width := 5, reset := 0, acc := .RW, taken := true }
/-- R511: IBX_HEAD. -/
def Reg.tab_IBX_HEAD : RegDesc := ⟨"IBX_HEAD", 0x1820008, 1024, 0x20, 1, 0x0,
  [Reg.IBX_HEAD_LINE 0, Reg.IBX_HEAD_VECTOR 0]⟩

/-- R511: IBX_STATE.WRITTEN [63:32]. -/
def Reg.IBX_STATE_WRITTEN (i : Nat) : Fld := { reg := 0x1820010 + 0x20 * i, lo := 32, width := 32, reset := 0, acc := .RO }
/-- R511: IBX_STATE.STALLED [31:16]. -/
def Reg.IBX_STATE_STALLED (i : Nat) : Fld := { reg := 0x1820010 + 0x20 * i, lo := 16, width := 16, reset := 0, acc := .RW }
/-- R511: IBX_STATE.RESERVED [15:0]. -/
def Reg.IBX_STATE_RESERVED (i : Nat) : Fld := { reg := 0x1820010 + 0x20 * i, lo := 0, width := 16, reset := 0, acc := .RO }
/-- R511: IBX_STATE. -/
def Reg.tab_IBX_STATE : RegDesc := ⟨"IBX_STATE", 0x1820010, 1024, 0x20, 1, 0x0,
  [Reg.IBX_STATE_WRITTEN 0, Reg.IBX_STATE_STALLED 0, Reg.IBX_STATE_RESERVED 0]⟩

/-- R549: CLK_ROOT.LOSS [63:48]. -/
def Reg.CLK_ROOT_LOSS : Fld := { reg := 0x1c00000, lo := 48, width := 16, reset := 0, acc := .RWS }
/-- R549: CLK_ROOT.REF_OK [31:31]. -/
def Reg.CLK_ROOT_REF_OK : Fld := { reg := 0x1c00000, lo := 31, width := 1, reset := 0, acc := .RO }
/-- R549: CLK_ROOT.LOCK [24:0]. -/
def Reg.CLK_ROOT_LOCK : Fld := { reg := 0x1c00000, lo := 0, width := 25, reset := 0, acc := .RO }
/-- R549: CLK_ROOT. -/
def Reg.tab_CLK_ROOT : RegDesc := ⟨"CLK_ROOT", 0x1c00000, 1, 0x0, 1, 0x0,
  [Reg.CLK_ROOT_LOSS, Reg.CLK_ROOT_REF_OK, Reg.CLK_ROOT_LOCK]⟩

/-- R549: CLK_FCNT.COUNT [63:40]. -/
def Reg.CLK_FCNT_COUNT : Fld := { reg := 0x1c00008, lo := 40, width := 24, reset := 0, acc := .RO }
/-- R549: CLK_FCNT.WINDOW [39:24]. -/
def Reg.CLK_FCNT_WINDOW : Fld := { reg := 0x1c00008, lo := 24, width := 16, reset := 32, acc := .RW }
/-- R549: CLK_FCNT.REGION [23:16]. -/
def Reg.CLK_FCNT_REGION : Fld := { reg := 0x1c00008, lo := 16, width := 8, reset := 0, acc := .RW, legal := [(0, 223, 1)] }
/-- R549: CLK_FCNT.INPUT [15:13]. -/
def Reg.CLK_FCNT_INPUT : Fld := { reg := 0x1c00008, lo := 13, width := 3, reset := 5, acc := .RW, legal := [(0, 5, 1)] }
/-- R549: CLK_FCNT.BUSY [2:2]. -/
def Reg.CLK_FCNT_BUSY : Fld := { reg := 0x1c00008, lo := 2, width := 1, reset := 0, acc := .RO }
/-- R549: CLK_FCNT.GO [0:0]. -/
def Reg.CLK_FCNT_GO : Fld := { reg := 0x1c00008, lo := 0, width := 1, reset := 0, acc := .WO }
/-- R549: CLK_FCNT. -/
def Reg.tab_CLK_FCNT : RegDesc := ⟨"CLK_FCNT", 0x1c00008, 1, 0x0, 1, 0x0,
  [Reg.CLK_FCNT_COUNT, Reg.CLK_FCNT_WINDOW, Reg.CLK_FCNT_REGION, Reg.CLK_FCNT_INPUT, Reg.CLK_FCNT_BUSY, Reg.CLK_FCNT_GO]⟩

/-- R549: CLK_MUX_CMD.REGION [23:16]. -/
def Reg.CLK_MUX_CMD_REGION : Fld := { reg := 0x1c00010, lo := 16, width := 8, reset := 0, acc := .RW, legal := [(0, 223, 1)] }
/-- R549: CLK_MUX_CMD.INPUT [15:13]. -/
def Reg.CLK_MUX_CMD_INPUT : Fld := { reg := 0x1c00010, lo := 13, width := 3, reset := 0, acc := .RW, legal := [(0, 4, 1)] }
/-- R549: CLK_MUX_CMD.RESULT [7:4]. -/
def Reg.CLK_MUX_CMD_RESULT : Fld := { reg := 0x1c00010, lo := 4, width := 4, reset := 0, acc := .RO }
/-- R549: CLK_MUX_CMD.GO [0:0]. -/
def Reg.CLK_MUX_CMD_GO : Fld := { reg := 0x1c00010, lo := 0, width := 1, reset := 0, acc := .WO }
/-- R549: CLK_MUX_CMD. -/
def Reg.tab_CLK_MUX_CMD : RegDesc := ⟨"CLK_MUX_CMD", 0x1c00010, 1, 0x0, 1, 0x0,
  [Reg.CLK_MUX_CMD_REGION, Reg.CLK_MUX_CMD_INPUT, Reg.CLK_MUX_CMD_RESULT, Reg.CLK_MUX_CMD_GO]⟩

/-- R549: PWR_CTL.STATE [10:8]. -/
def Reg.PWR_CTL_STATE : Fld := { reg := 0x1c00018, lo := 8, width := 3, reset := 0, acc := .RO }
/-- R549: PWR_CTL.RESULT [7:4]. -/
def Reg.PWR_CTL_RESULT : Fld := { reg := 0x1c00018, lo := 4, width := 4, reset := 0, acc := .RO }
/-- R549: PWR_CTL.REQ [2:1]. -/
def Reg.PWR_CTL_REQ : Fld := { reg := 0x1c00018, lo := 1, width := 2, reset := 0, acc := .WO }
/-- R549: PWR_CTL.GO [0:0]. -/
def Reg.PWR_CTL_GO : Fld := { reg := 0x1c00018, lo := 0, width := 1, reset := 0, acc := .WO }
/-- R549: PWR_CTL. -/
def Reg.tab_PWR_CTL : RegDesc := ⟨"PWR_CTL", 0x1c00018, 1, 0x0, 1, 0x0,
  [Reg.PWR_CTL_STATE, Reg.PWR_CTL_RESULT, Reg.PWR_CTL_REQ, Reg.PWR_CTL_GO]⟩

/-- R549: SDR_INPUT.POWER [47:32]. -/
def Reg.SDR_INPUT_POWER : Fld := { reg := 0x1c00020, lo := 32, width := 16, reset := 0, acc := .RO }
/-- R549: SDR_INPUT.VOLT [15:0]. -/
def Reg.SDR_INPUT_VOLT : Fld := { reg := 0x1c00020, lo := 0, width := 16, reset := 0, acc := .RO }
/-- R549: SDR_INPUT. -/
def Reg.tab_SDR_INPUT : RegDesc := ⟨"SDR_INPUT", 0x1c00020, 1, 0x0, 1, 0x0,
  [Reg.SDR_INPUT_POWER, Reg.SDR_INPUT_VOLT]⟩

/-- R549: SDR_STAT.THROTTLES [63:48]. -/
def Reg.SDR_STAT_THROTTLES : Fld := { reg := 0x1c00028, lo := 48, width := 16, reset := 0, acc := .RW }
/-- R549: SDR_STAT.CYCLES [47:32]. -/
def Reg.SDR_STAT_CYCLES : Fld := { reg := 0x1c00028, lo := 32, width := 16, reset := 0, acc := .RW }
/-- R549: SDR_STAT.TRIPS [31:16]. -/
def Reg.SDR_STAT_TRIPS : Fld := { reg := 0x1c00028, lo := 16, width := 16, reset := 0, acc := .RWS }
/-- R549: SDR_STAT.CAUSE [7:0]. -/
def Reg.SDR_STAT_CAUSE : Fld := { reg := 0x1c00028, lo := 0, width := 8, reset := 0, acc := .RWS, legal := [(0, 4, 1)] }
/-- R549: SDR_STAT. -/
def Reg.tab_SDR_STAT : RegDesc := ⟨"SDR_STAT", 0x1c00028, 1, 0x0, 1, 0x0,
  [Reg.SDR_STAT_THROTTLES, Reg.SDR_STAT_CYCLES, Reg.SDR_STAT_TRIPS, Reg.SDR_STAT_CAUSE]⟩

/-- R549: CLK_REG.TEMP [63:56]. -/
def Reg.CLK_REG_TEMP (i : Nat) : Fld := { reg := 0x1c01000 + 0x8 * i, lo := 56, width := 8, reset := 0, acc := .RO }
/-- R549: CLK_REG.VOLT [55:48]. -/
def Reg.CLK_REG_VOLT (i : Nat) : Fld := { reg := 0x1c01000 + 0x8 * i, lo := 48, width := 8, reset := 0, acc := .RO }
/-- R549: CLK_REG.POWER [47:45]. -/
def Reg.CLK_REG_POWER (i : Nat) : Fld := { reg := 0x1c01000 + 0x8 * i, lo := 45, width := 3, reset := 0, acc := .RO }
/-- R549: CLK_REG.MUX [44:43]. -/
def Reg.CLK_REG_MUX (i : Nat) : Fld := { reg := 0x1c01000 + 0x8 * i, lo := 43, width := 2, reset := 0, acc := .RO }
/-- R549: CLK_REG.LIVE [42:42]. -/
def Reg.CLK_REG_LIVE (i : Nat) : Fld := { reg := 0x1c01000 + 0x8 * i, lo := 42, width := 1, reset := 0, acc := .RO }
/-- R549: CLK_REG.COUNT [37:28]. -/
def Reg.CLK_REG_COUNT (i : Nat) : Fld := { reg := 0x1c01000 + 0x8 * i, lo := 28, width := 10, reset := 0, acc := .RO }
/-- R549: CLK_REG.BASE [23:16]. -/
def Reg.CLK_REG_BASE (i : Nat) : Fld := { reg := 0x1c01000 + 0x8 * i, lo := 16, width := 8, reset := Reg.clkBase i, acc := .RO }
/-- R549: CLK_REG.E [11:10]. -/
def Reg.CLK_REG_E (i : Nat) : Fld := { reg := 0x1c01000 + 0x8 * i, lo := 10, width := 2, reset := 0, acc := .RO }
/-- R549: CLK_REG.T [9:8]. -/
def Reg.CLK_REG_T (i : Nat) : Fld := { reg := 0x1c01000 + 0x8 * i, lo := 8, width := 2, reset := 0, acc := .RO }
/-- R549: CLK_REG.DIV [1:0]. -/
def Reg.CLK_REG_DIV (i : Nat) : Fld := { reg := 0x1c01000 + 0x8 * i, lo := 0, width := 2, reset := 0, acc := .RW, taken := true }
/-- R549: CLK_REG. -/
def Reg.tab_CLK_REG : RegDesc := ⟨"CLK_REG", 0x1c01000, 224, 0x8, 1, 0x0,
  [Reg.CLK_REG_TEMP 0, Reg.CLK_REG_VOLT 0, Reg.CLK_REG_POWER 0, Reg.CLK_REG_MUX 0, Reg.CLK_REG_LIVE 0, Reg.CLK_REG_COUNT 0, Reg.CLK_REG_BASE 0, Reg.CLK_REG_E 0, Reg.CLK_REG_T 0, Reg.CLK_REG_DIV 0]⟩

/-- R574: SEC_BOOT.WARM [63:48]. -/
def Reg.SEC_BOOT_WARM : Fld := { reg := 0x1e00000, lo := 48, width := 16, reset := 0, acc := .RWS }
/-- R574: SEC_BOOT.CAUSE [34:32]. -/
def Reg.SEC_BOOT_CAUSE : Fld := { reg := 0x1e00000, lo := 32, width := 3, reset := 0, acc := .RWS, legal := [(0, 6, 1)] }
/-- R574: SEC_BOOT.TRIAL [7:7]. -/
def Reg.SEC_BOOT_TRIAL : Fld := { reg := 0x1e00000, lo := 7, width := 1, reset := 0, acc := .RO }
/-- R574: SEC_BOOT.SLOT [6:4]. -/
def Reg.SEC_BOOT_SLOT : Fld := { reg := 0x1e00000, lo := 4, width := 3, reset := 0, acc := .RO }
/-- R574: SEC_BOOT.FALLBACK [3:3]. -/
def Reg.SEC_BOOT_FALLBACK : Fld := { reg := 0x1e00000, lo := 3, width := 1, reset := 0, acc := .RO }
/-- R574: SEC_BOOT.RECOVERY [2:2]. -/
def Reg.SEC_BOOT_RECOVERY : Fld := { reg := 0x1e00000, lo := 2, width := 1, reset := 0, acc := .RO }
/-- R574: SEC_BOOT.STORE_READY [1:1]. -/
def Reg.SEC_BOOT_STORE_READY : Fld := { reg := 0x1e00000, lo := 1, width := 1, reset := 0, acc := .RO }
/-- R574: SEC_BOOT.DONE [0:0]. -/
def Reg.SEC_BOOT_DONE : Fld := { reg := 0x1e00000, lo := 0, width := 1, reset := 0, acc := .RO }
/-- R574: SEC_BOOT. -/
def Reg.tab_SEC_BOOT : RegDesc := ⟨"SEC_BOOT", 0x1e00000, 1, 0x0, 1, 0x0,
  [Reg.SEC_BOOT_WARM, Reg.SEC_BOOT_CAUSE, Reg.SEC_BOOT_TRIAL, Reg.SEC_BOOT_SLOT, Reg.SEC_BOOT_FALLBACK, Reg.SEC_BOOT_RECOVERY, Reg.SEC_BOOT_STORE_READY, Reg.SEC_BOOT_DONE]⟩

/-- R574: SEC_RESET.KIND [1:1]. -/
def Reg.SEC_RESET_KIND : Fld := { reg := 0x1e00008, lo := 1, width := 1, reset := 0, acc := .WO }
/-- R574: SEC_RESET.GO [0:0]. -/
def Reg.SEC_RESET_GO : Fld := { reg := 0x1e00008, lo := 0, width := 1, reset := 0, acc := .WO }
/-- R574: SEC_RESET. -/
def Reg.tab_SEC_RESET : RegDesc := ⟨"SEC_RESET", 0x1e00008, 1, 0x0, 1, 0x0,
  [Reg.SEC_RESET_KIND, Reg.SEC_RESET_GO]⟩

/-- R574: SEC_FUSE.REVOKED [27:24]. -/
def Reg.SEC_FUSE_REVOKED : Fld := { reg := 0x1e00010, lo := 24, width := 4, reset := 0, acc := .RO }
/-- R574: SEC_FUSE.SVN3 [22:16]. -/
def Reg.SEC_FUSE_SVN3 : Fld := { reg := 0x1e00010, lo := 16, width := 7, reset := 0, acc := .RO }
/-- R574: SEC_FUSE.SVN2 [14:8]. -/
def Reg.SEC_FUSE_SVN2 : Fld := { reg := 0x1e00010, lo := 8, width := 7, reset := 0, acc := .RO }
/-- R574: SEC_FUSE.SVN1 [6:0]. -/
def Reg.SEC_FUSE_SVN1 : Fld := { reg := 0x1e00010, lo := 0, width := 7, reset := 0, acc := .RO }
/-- R574: SEC_FUSE. -/
def Reg.tab_SEC_FUSE : RegDesc := ⟨"SEC_FUSE", 0x1e00010, 1, 0x0, 1, 0x0,
  [Reg.SEC_FUSE_REVOKED, Reg.SEC_FUSE_SVN3, Reg.SEC_FUSE_SVN2, Reg.SEC_FUSE_SVN1]⟩

/-- R574: SEC_IMG_SRC.PGA [59:6]. -/
def Reg.SEC_IMG_SRC_PGA : Fld := { reg := 0x1e00018, lo := 6, width := 54, reset := 0, acc := .RW }
/-- R574: SEC_IMG_SRC. -/
def Reg.tab_SEC_IMG_SRC : RegDesc := ⟨"SEC_IMG_SRC", 0x1e00018, 1, 0x0, 1, 0x0,
  [Reg.SEC_IMG_SRC_PGA]⟩

/-- R574: SEC_IMG_CMD.CUE [63:16]. -/
def Reg.SEC_IMG_CMD_CUE : Fld := { reg := 0x1e00020, lo := 16, width := 48, reset := 0, acc := .RW }
/-- R574: SEC_IMG_CMD.RESULT [15:12]. -/
def Reg.SEC_IMG_CMD_RESULT : Fld := { reg := 0x1e00020, lo := 12, width := 4, reset := 0, acc := .RO }
/-- R574: SEC_IMG_CMD.BUSY [11:11]. -/
def Reg.SEC_IMG_CMD_BUSY : Fld := { reg := 0x1e00020, lo := 11, width := 1, reset := 0, acc := .RO }
/-- R574: SEC_IMG_CMD.KIND [9:8]. -/
def Reg.SEC_IMG_CMD_KIND : Fld := { reg := 0x1e00020, lo := 8, width := 2, reset := 0, acc := .RW }
/-- R574: SEC_IMG_CMD.OP [3:1]. -/
def Reg.SEC_IMG_CMD_OP : Fld := { reg := 0x1e00020, lo := 1, width := 3, reset := 0, acc := .RW, legal := [(0, 4, 1)] }
/-- R574: SEC_IMG_CMD.GO [0:0]. -/
def Reg.SEC_IMG_CMD_GO : Fld := { reg := 0x1e00020, lo := 0, width := 1, reset := 0, acc := .WO }
/-- R574: SEC_IMG_CMD. -/
def Reg.tab_SEC_IMG_CMD : RegDesc := ⟨"SEC_IMG_CMD", 0x1e00020, 1, 0x0, 1, 0x0,
  [Reg.SEC_IMG_CMD_CUE, Reg.SEC_IMG_CMD_RESULT, Reg.SEC_IMG_CMD_BUSY, Reg.SEC_IMG_CMD_KIND, Reg.SEC_IMG_CMD_OP, Reg.SEC_IMG_CMD_GO]⟩

/-- R574: SEC_CAL_CMD.LANES [19:16]. -/
def Reg.SEC_CAL_CMD_LANES : Fld := { reg := 0x1e00028, lo := 16, width := 4, reset := 0, acc := .RW }
/-- R574: SEC_CAL_CMD.PORT [12:8]. -/
def Reg.SEC_CAL_CMD_PORT : Fld := { reg := 0x1e00028, lo := 8, width := 5, reset := 0, acc := .RW, legal := [(0, 17, 1)] }
/-- R574: SEC_CAL_CMD.RESULT [7:4]. -/
def Reg.SEC_CAL_CMD_RESULT : Fld := { reg := 0x1e00028, lo := 4, width := 4, reset := 0, acc := .RO }
/-- R574: SEC_CAL_CMD.BUSY [3:3]. -/
def Reg.SEC_CAL_CMD_BUSY : Fld := { reg := 0x1e00028, lo := 3, width := 1, reset := 0, acc := .RO }
/-- R574: SEC_CAL_CMD.GO [0:0]. -/
def Reg.SEC_CAL_CMD_GO : Fld := { reg := 0x1e00028, lo := 0, width := 1, reset := 0, acc := .WO }
/-- R574: SEC_CAL_CMD. -/
def Reg.tab_SEC_CAL_CMD : RegDesc := ⟨"SEC_CAL_CMD", 0x1e00028, 1, 0x0, 1, 0x0,
  [Reg.SEC_CAL_CMD_LANES, Reg.SEC_CAL_CMD_PORT, Reg.SEC_CAL_CMD_RESULT, Reg.SEC_CAL_CMD_BUSY, Reg.SEC_CAL_CMD_GO]⟩

/-- R574: SEC_WC_CMD.CHANNEL [12:8]. -/
def Reg.SEC_WC_CMD_CHANNEL : Fld := { reg := 0x1e00030, lo := 8, width := 5, reset := 0, acc := .RW }
/-- R574: SEC_WC_CMD.RESULT [7:4]. -/
def Reg.SEC_WC_CMD_RESULT : Fld := { reg := 0x1e00030, lo := 4, width := 4, reset := 0, acc := .RO }
/-- R574: SEC_WC_CMD.OP [3:1]. -/
def Reg.SEC_WC_CMD_OP : Fld := { reg := 0x1e00030, lo := 1, width := 3, reset := 0, acc := .RW, legal := [(0, 3, 1)] }
/-- R574: SEC_WC_CMD.GO [0:0]. -/
def Reg.SEC_WC_CMD_GO : Fld := { reg := 0x1e00030, lo := 0, width := 1, reset := 0, acc := .WO }
/-- R574: SEC_WC_CMD. -/
def Reg.tab_SEC_WC_CMD : RegDesc := ⟨"SEC_WC_CMD", 0x1e00030, 1, 0x0, 1, 0x0,
  [Reg.SEC_WC_CMD_CHANNEL, Reg.SEC_WC_CMD_RESULT, Reg.SEC_WC_CMD_OP, Reg.SEC_WC_CMD_GO]⟩

/-- R574: SEC_MEAS.VALUE [63:0]. -/
def Reg.SEC_MEAS_VALUE (i : Nat) : Fld := { reg := 0x1e00100 + 0x8 * i, lo := 0, width := 64, reset := 0, acc := .RO }
/-- R574: SEC_MEAS. -/
def Reg.tab_SEC_MEAS : RegDesc := ⟨"SEC_MEAS", 0x1e00100, 56, 0x8, 1, 0x0,
  [Reg.SEC_MEAS_VALUE 0]⟩

/-- R232: PBK_FRAME_LIVE.TAG [31:0]. -/
def Reg.PBK_FRAME_LIVE_TAG (i : Nat) : Fld := { reg := 0x1f20000 + 0x8 * i, lo := 0, width := 32, reset := 0, acc := .RO }
/-- R232: PBK_FRAME_LIVE. -/
def Reg.tab_PBK_FRAME_LIVE : RegDesc := ⟨"PBK_FRAME_LIVE", 0x1f20000, 128, 0x8, 1, 0x0,
  [Reg.PBK_FRAME_LIVE_TAG 0]⟩

/-- R232: PBK_FRAME_STAGE.OWNER [43:40]. -/
def Reg.PBK_FRAME_STAGE_OWNER (i : Nat) : Fld := { reg := 0x1f20400 + 0x8 * i, lo := 40, width := 4, reset := 0, acc := .RW }
/-- R232: PBK_FRAME_STAGE.STATE [35:34]. -/
def Reg.PBK_FRAME_STAGE_STATE (i : Nat) : Fld := { reg := 0x1f20400 + 0x8 * i, lo := 34, width := 2, reset := 0, acc := .RO }
/-- R232: PBK_FRAME_STAGE.COND [33:33]. -/
def Reg.PBK_FRAME_STAGE_COND (i : Nat) : Fld := { reg := 0x1f20400 + 0x8 * i, lo := 33, width := 1, reset := 0, acc := .RW }
/-- R232: PBK_FRAME_STAGE.DONE [32:32]. -/
def Reg.PBK_FRAME_STAGE_DONE (i : Nat) : Fld := { reg := 0x1f20400 + 0x8 * i, lo := 32, width := 1, reset := 0, acc := .WO }
/-- R232: PBK_FRAME_STAGE.TAG [31:0]. -/
def Reg.PBK_FRAME_STAGE_TAG (i : Nat) : Fld := { reg := 0x1f20400 + 0x8 * i, lo := 0, width := 32, reset := 0, acc := .RW }
/-- R232: PBK_FRAME_STAGE. -/
def Reg.tab_PBK_FRAME_STAGE : RegDesc := ⟨"PBK_FRAME_STAGE", 0x1f20400, 128, 0x8, 1, 0x0,
  [Reg.PBK_FRAME_STAGE_OWNER 0, Reg.PBK_FRAME_STAGE_STATE 0, Reg.PBK_FRAME_STAGE_COND 0, Reg.PBK_FRAME_STAGE_DONE 0, Reg.PBK_FRAME_STAGE_TAG 0]⟩

/-- R232: PBK_STATUS.SWAPPED [63:32]. -/
def Reg.PBK_STATUS_SWAPPED : Fld := { reg := 0x1f20800, lo := 32, width := 32, reset := 0, acc := .RO }
/-- R232: PBK_STATUS.DEFERRED [31:16]. -/
def Reg.PBK_STATUS_DEFERRED : Fld := { reg := 0x1f20800, lo := 16, width := 16, reset := 0, acc := .RW }
/-- R232: PBK_STATUS.LAST [4:0]. -/
def Reg.PBK_STATUS_LAST : Fld := { reg := 0x1f20800, lo := 0, width := 5, reset := 0, acc := .RO }
/-- R232: PBK_STATUS. -/
def Reg.tab_PBK_STATUS : RegDesc := ⟨"PBK_STATUS", 0x1f20800, 1, 0x0, 1, 0x0,
  [Reg.PBK_STATUS_SWAPPED, Reg.PBK_STATUS_DEFERRED, Reg.PBK_STATUS_LAST]⟩

/-- Register tables 0 to 19 in order of offset. -/
def Reg.part0 : List RegDesc :=
  [Reg.tab_DEV_ID, Reg.tab_ARCH_LEVEL, Reg.tab_FIT_CLASS, Reg.tab_STEPPING, Reg.tab_CAPS0, Reg.tab_CAPS1, Reg.tab_CAPS2, Reg.tab_CAPS3, Reg.tab_CAPS4, Reg.tab_CAPS5, Reg.tab_CAPS6, Reg.tab_CS_STATUS, Reg.tab_CS_CHECK, Reg.tab_CS_TAKE_CUE, Reg.tab_CS_ABANDON, Reg.tab_CS_COUNTS, Reg.tab_CS_FAIL_UNIT, Reg.tab_CUE_PERIOD, Reg.tab_CUE_COUNT, Reg.tab_CUE_PHASE]

/-- Register tables 20 to 39 in order of offset. -/
def Reg.part1 : List RegDesc :=
  [Reg.tab_CUE_MISS_COUNT, Reg.tab_CUE_SYNC, Reg.tab_CUE_CARRY_ALERT, Reg.tab_EVC_SRC, Reg.tab_EVC_PENDING, Reg.tab_EVC_ACTIVE, Reg.tab_EVC_CORE, Reg.tab_EVC_STAT, Reg.tab_EVC_RAISE, Reg.tab_EVC_MOD, Reg.tab_SMX_XQ, Reg.tab_SMX_CORE, Reg.tab_PRT_CTL, Reg.tab_PRT_S1_ROOT, Reg.tab_PRT_S2_ROOT, Reg.tab_PRT_LAYOUT, Reg.tab_PRT_LAYOUT_COUNT, Reg.tab_PRT_FAULT_INFO, Reg.tab_PRT_FAULT_VA, Reg.tab_PRT_FAULT_IPA]

/-- Register tables 40 to 59 in order of offset. -/
def Reg.part2 : List RegDesc :=
  [Reg.tab_PRT_TALLY_BASE, Reg.tab_XLT_TLBI_CTL, Reg.tab_XLT_TLBI_ADDR, Reg.tab_XLT_TLB_STAT, Reg.tab_XLT_WIN_ERR, Reg.tab_XLT_WIN_MAP, Reg.tab_XLT_WIN_SIZE, Reg.tab_XLT_WIN_HBASE, Reg.tab_STM_SIZE, Reg.tab_STM_STAGE_ONLY, Reg.tab_STM_HINT_UNIT, Reg.tab_STM_HINT_CMD, Reg.tab_STM_MIG, Reg.tab_STM_WINGS, Reg.tab_STM_WC_STATE0, Reg.tab_STM_WC_STATE1, Reg.tab_STM_REBUILD, Reg.tab_STM_MIRROR, Reg.tab_STM_MIRROR_RESERVE, Reg.tab_STM_LOFT_CMD]

/-- Register tables 60 to 79 in order of offset. -/
def Reg.part3 : List RegDesc :=
  [Reg.tab_STM_LEND, Reg.tab_STM_LEND1, Reg.tab_STM_BORROW, Reg.tab_STM_BORROW1, Reg.tab_CRR_CTX_PLAN, Reg.tab_CRR_CTX_STATE, Reg.tab_CRR_CTX_FAULT, Reg.tab_CRR_CTX_CTL, Reg.tab_CRR_CTX_COUNT, Reg.tab_CRR_LOAD, Reg.tab_CRR_ERR, Reg.tab_CRR_CACHE, Reg.tab_CRR_MISS, Reg.tab_COH_CTL, Reg.tab_COH_PROTO, Reg.tab_COH_PROTO_PGA, Reg.tab_COH_COUNTS, Reg.tab_COH_ATOM, Reg.tab_COH_SLICE, Reg.tab_COH_AGENT]

/-- Register tables 80 to 99 in order of offset. -/
def Reg.part4 : List RegDesc :=
  [Reg.tab_EFH_CTL, Reg.tab_EFH_REGION_CMD, Reg.tab_EFH_REGION_ARG0, Reg.tab_EFH_REGION_ARG1, Reg.tab_EFH_COUNTS, Reg.tab_EFH_PART_STATE, Reg.tab_EFH_PORT_CTL, Reg.tab_EFH_PORT_STAT, Reg.tab_EFH_PORT_ERR, Reg.tab_EFH_ROUTE, Reg.tab_EFH_REGION0, Reg.tab_EFH_REGION1, Reg.tab_EFH_REGION2, Reg.tab_EFH_OFFER0, Reg.tab_EFH_OFFER1, Reg.tab_SWX_BUF, Reg.tab_SWX_AUDIT, Reg.tab_SWX_ERR, Reg.tab_SWX_CLASS, Reg.tab_SWX_METER]

/-- Register tables 100 to 119 in order of offset. -/
def Reg.part5 : List RegDesc :=
  [Reg.tab_SWX_REDP, Reg.tab_SWX_PORT_MODE, Reg.tab_SWX_MCAST, Reg.tab_SWX_CLASS_STAT, Reg.tab_SWX_RED_DEF0, Reg.tab_SWX_RED_DEF1, Reg.tab_EMB_CACHE, Reg.tab_EMB_CACHE_STAT, Reg.tab_EMB_STAT, Reg.tab_EMB_HOT, Reg.tab_EMB_TABLE0, Reg.tab_EMB_TABLE1, Reg.tab_EMB_TABLE2, Reg.tab_EMB_TABLE3, Reg.tab_EMB_MOVE0, Reg.tab_EMB_MOVE1, Reg.tab_SRC_POOL, Reg.tab_SRC_SPILL, Reg.tab_SRC_STAT, Reg.tab_SRC_COUNT]

/-- Register tables 120 to 139 in order of offset. -/
def Reg.part6 : List RegDesc :=
  [Reg.tab_SRC_INDEX0, Reg.tab_SRC_INDEX1, Reg.tab_SRC_INDEX2, Reg.tab_SRC_INDEX3, Reg.tab_SRC_INDEX4, Reg.tab_SRC_INDEX5, Reg.tab_SRC_INDEX6, Reg.tab_SRC_INDEX7, Reg.tab_RSL_CTL, Reg.tab_RSL_CODE, Reg.tab_RSL_CODE_LIMIT, Reg.tab_RSL_LEDGER, Reg.tab_RSL_PM_MEMBERS, Reg.tab_RSL_PM_LIVE, Reg.tab_RSL_PM_STATE, Reg.tab_RSL_PM_SUSPECT, Reg.tab_RSL_CURTAIN, Reg.tab_RSL_RH_CTL, Reg.tab_RSL_RH_RANGE, Reg.tab_RSL_RH_STAT]

/-- Register tables 140 to 159 in order of offset. -/
def Reg.part7 : List RegDesc :=
  [Reg.tab_RSL_ADMIT, Reg.tab_RSL_RESTORE_UNIT, Reg.tab_RSL_RESTORE_CMD, Reg.tab_RSL_CURTAIN_SET, Reg.tab_TRP_ID, Reg.tab_TRP_STATE, Reg.tab_TRP_ERR, Reg.tab_TRP_ERR_LIMIT, Reg.tab_TRP_RETIRE, Reg.tab_TRP_TRAFFIC, Reg.tab_TRP_CE_STATE, Reg.tab_TRP_SUMMARY, Reg.tab_HPT_LINK, Reg.tab_HPT_CFG, Reg.tab_EDG_PORT, Reg.tab_HST_STREAMS, Reg.tab_OBX_RING, Reg.tab_OBX_TAIL, Reg.tab_OBX_STATE, Reg.tab_IBX_RING]

/-- Register tables 160 to 179 in order of offset. -/
def Reg.part8 : List RegDesc :=
  [Reg.tab_IBX_HEAD, Reg.tab_IBX_STATE, Reg.tab_CLK_ROOT, Reg.tab_CLK_FCNT, Reg.tab_CLK_MUX_CMD, Reg.tab_PWR_CTL, Reg.tab_SDR_INPUT, Reg.tab_SDR_STAT, Reg.tab_CLK_REG, Reg.tab_SEC_BOOT, Reg.tab_SEC_RESET, Reg.tab_SEC_FUSE, Reg.tab_SEC_IMG_SRC, Reg.tab_SEC_IMG_CMD, Reg.tab_SEC_CAL_CMD, Reg.tab_SEC_WC_CMD, Reg.tab_SEC_MEAS, Reg.tab_PBK_FRAME_LIVE, Reg.tab_PBK_FRAME_STAGE, Reg.tab_PBK_STATUS]

/-- Every register table of the spec, in order of offset (R576). -/
def Reg.table : List RegDesc :=
  Reg.part0 ++ Reg.part1 ++ Reg.part2 ++ Reg.part3 ++ Reg.part4 ++ Reg.part5 ++ Reg.part6 ++ Reg.part7 ++ Reg.part8

/-- The indices an offset has in a register table, if it lies in it. -/
def RegDesc.index (d : RegDesc) (off : Nat) : Option (Nat × Nat) :=
  if off < d.base then none
  else
    let r := off - d.base
    let i := if d.n1 ≤ 1 then 0 else r / d.s1
    let q := r - i * d.s1
    let j := if d.n2 ≤ 1 then 0 else q / d.s2
    if i < max d.n1 1 ∧ j < max d.n2 1 ∧ i * d.s1 + j * d.s2 = r then some (i, j) else none

/-- The reset value of a field that depends on the register's index (TRP_ID, TRP_STATE, CLK_REG.BASE). -/
def Reg.resetAt (f : Fld) (name : String) (i : Nat) : Nat :=
  if name = "TRP_ID" then
    (if f.lo = 24 then Reg.trpDomain i else if f.lo = 20 then Reg.trpGate i else if f.lo = 16 then Reg.trpDie i
     else if f.lo = 8 then i / 80 else i % 80)
  else if name = "TRP_STATE" ∧ f.lo = 32 then (if i < 6250 then i else 8191)
  else if name = "TRP_STATE" ∧ f.lo = 0 then (if i < 6250 then 0 else 3)
  else if name = "CLK_REG" ∧ f.lo = 16 then Reg.clkBase i
  else f.reset

/-- The fields of the register at a live offset; none where no chapter assigns a register (R576). -/
def Reg.fieldsAt (off : Nat) : List Fld :=
  match Reg.table.find? (fun d => (d.index off).isSome) with
  | none => []
  | some d =>
    let i := ((d.index off).getD (0, 0)).1
    d.fields.map (fun f => { f with reg := off, reset := Reg.resetAt f d.name i })

/-- The name of the register at a live offset, empty where there is none. -/
def Reg.nameAt (off : Nat) : String :=
  match Reg.table.find? (fun d => (d.index off).isSome) with
  | none => ""
  | some d => d.name

/-- The first index of the register at a live offset. -/
def Reg.indexAt (off : Nat) : Nat :=
  match Reg.table.find? (fun d => (d.index off).isSome) with
  | none => 0
  | some d => ((d.index off).getD (0, 0)).1

end Sys2Proof.Machine
end

