-- ==== Sys2Proof/Machine/State.lean ====
section
/-!
DEFINITION. The state of the PB25 as plain data, its faults and refusals, and the state after a cold reset.
-/

namespace Sys2Proof.Machine

/-- Memory that a byte list holds: (address, byte) pairs with strictly rising addresses and no zero byte, since every
memory of the device reads as zero where nothing has been written (R71, R226, R239, R554). -/
abbrev Memory := List Host.Cell

/-- The canonical form of a memory. -/
def Memory.wf (m : Memory) : Bool := SMap.wf (0 : Byte) m

/-- The call sheet beyond its registers (R51, R55, R584): the requester that started a running CHECK, whether a staged
write voided it, the first refused pair's live offset since CHECK last completed, the spare of each retiring troupe. -/
structure Sheet where
  checker : Nat := 31
  voided : Bool := false
  refusedPair : Option Nat := none
  retiring : SMap Nat := []
  deriving DecidableEq, Repr

/-- Processor contexts, keyed by agent; LOCAL memory of the cores; the programs in the instruction stores of couriers 0 to 255 and of
cores (256 + core) where an update has loaded one (R128; unlisted: the program the part came with); the exception queue (R515). -/
structure Proc where
  cx : SMap Cx := []
  loc : Memory := []
  code : SMap (List Word) := []
  xq : SMap XRec := []
  xlost : Bool := false
  deriving DecidableEq, Repr

/-- Troupes, their SRAM (keyed 393,216 t + address), its dead-letter bits and the wrong bits its codewords have picked up (keyed
49,152 t + codeword), and the mesh: parcels in
router slots, hop credits used and returning (keyed by router, output and lane), the lane each output serves next among VL0 to VL2 (8 r + output)
and the input each lane of an output serves next (keyed as the hop credits; R77), failed links, and outstanding store operations. -/
structure Troupes where
  t : SMap Troupe := []
  sram : Memory := []
  dead : SMap Bool := []
  flips : SMap Nat := []
  mesh : List MParcel := []
  hopUsed : SMap Nat := []
  hopBack : SMap Nat := []
  nextVl : SMap Nat := []
  nextIn : SMap Nat := []
  linkFailed : SMap Bool := []
  gops : List GOp := []
  gopNext : Nat := 0
  deriving DecidableEq, Repr

/-- The Prompt Book: live and staged bytes (keyed 1,024 f + b), and whether a live frame reads as late (R449). -/
structure Book where
  live : Memory := []
  staged : Memory := []
  lateFrame : SMap Bool := []
  deriving DecidableEq, Repr

/-- Couriers: contexts, staging slots (keyed 4,096 (4k + slot) + byte) and their dead-letter bits (per codeword), the couriers that have raised EV_CRR_DATA in this
cue, and the context of each courier that issued last (R264). -/
structure Couriers where
  ctx : SMap Ctx := []
  slot : Memory := []
  slotDead : SMap Bool := []
  dataRaised : SMap Bool := []
  last : SMap Nat := []
  deriving DecidableEq, Repr

/-- Translation: the shared TLB, the micro-TLB of each courier, walks in flight, the accesses that wait for a walk and those
that wait for their line (by ticket), HDM decoders (keyed 4g + k), and whether EV_WIN_ERR has been raised this cue. -/
structure Xlate where
  tlb : List Tlb := []
  utlb : SMap (List Tlb) := []
  walks : List Walk := []
  waits : SMap XWait := []
  acc : SMap Access := []
  hdm : SMap Hdm := []
  winRaised : Bool := false
  deriving DecidableEq, Repr

/-- The store: bytes by store offset (R236), explicit dead-letter marks by codeword (an unlisted codeword is marked where a
loss covers it), wrong bits that a codeword has picked up and nothing has read yet (R448), units, the hint command in
progress; failed rows of each channel (1 the lower half, 2 the upper, 3 both), how far rebuilds have come, and losses
(R250, R252); error counts of each channel in the running window (R451); the slots this device keeps as a partner, keyed
2 u + slot for unit u of the mirrored device (R259); loans that take effect at the next TAKE: lender entries with their
window, borrower entries, LEND messages unanswered, the lender's entry behind each borrower entry, borrower and lender
entries that end, with the cue in which that was asked for; the modules that stand in a channel's sockets, as POP and GIB, where they are not those of
STM_WINGS (R246). -/
structure Store where
  mem : Memory := []
  dead : SMap Bool := []
  flips : SMap Nat := []
  units : SMap SUnit := []
  hintJob : Option HintJob := none
  fails : SMap Nat := []
  rebuilds : SMap Rebuild := []
  losses : List Loss := []
  chUE : SMap Nat := []
  chCE : SMap Nat := []
  memUeRaised : Bool := false
  mirrors : SMap MirrorSlot := []
  lendWait : List Nat := []
  lendNext : List Nat := []
  borrowNext : List Nat := []
  borrowEntry : SMap Nat := []
  borrowEnd : SMap Nat := []
  lendEnd : SMap Nat := []
  modules : SMap (Nat × Nat) := []
  deriving DecidableEq, Repr

/-- Coherence: the directory by line (PGA div 64), the agents' copies (keyed 64 line + agent), the messages on their way, oldest first (R332), the data buffers of requesters
(R333: line, data, status), what came of accesses, by ticket, the lines whose directory entry has an uncorrectable error (R347), the stamp the next allocation or
use takes, and the requests that wait for a directory entry or a place in an atomic buffer (line, request). -/
structure Coh where
  dir : SMap DirEnt := []
  ag : SMap ACopy := []
  wire : List CMsg := []
  buf : SMap (Nat × BitVec 512 × Nat) := []
  got : SMap CAns := []
  bad : List Nat := []
  stamp : Nat := 0
  wait : List (Nat × CReq) := []
  deriving DecidableEq, Repr

/-- The Efhal fabric: outstanding requests, the next REQID, and the writes and atomics performed for other devices, latest
first (R373); by region entry, hand-overs, withdrawals and the first whole cue in which a FORWARD entry has been unused; by offer log entry,
the cue at which its hand-over was resolved. -/
structure Efh where
  out : List FReq := []
  nextId : Nat := 0
  done : List FDone := []
  hand : SMap HandOver := []
  withdraw : SMap Withdraw := []
  idle : SMap Nat := []
  logCue : SMap Nat := []
  deriving DecidableEq, Repr

/-- The switch: QUEUED cells by number, pigeonholes (keyed 8 port + class, first to leave first), downstream credits (keyed 8 port +
class), accumulators, tokens (green, yellow; keyed 8 input + class), the inputs' LFSRs, the slot each bank granted last plus
one, the weighted turn of each output and the cells left of it, class 5 parcels that wait for the merge unit and parcels that
wait behind a multicast (input, parcel), multicast copies to make, the counts of R408 for the running cue, the links, and the marked requests
delivered to this device's homes and not answered (device, REQID; R402). -/
structure Switch where
  cells : SMap Cell := []
  pig : SMap (List Nat) := []
  credit : SMap Nat := []
  acc : List Accum := []
  tok : SMap (Nat × Nat) := []
  lfsr : SMap Nat := []
  rr : SMap Nat := []
  turn : SMap (Nat × Nat) := []
  mergeQ : List (Nat × Nat) := []
  held : List (Nat × Nat) := []
  copies : List CopyJob := []
  arrived : Nat := 0
  made : Nat := 0
  sent : Nat := 0
  dropped : Nat := 0
  absorbed : Nat := 0
  opening : Nat := 0
  links : SMap Link := []
  marked : List (Nat × Nat) := []
  deriving DecidableEq, Repr

/-- Work orders outstanding, oldest first, and the next serial number; the last accepted TAIL of each Outbox (64 p + i) and HEAD of each
Inbox (1,024 + 64 p + j); whether
EV_OUTBOX_BAD has been raised this cue; the Inboxes whose STALLED has counted this cue; running streams (4,096 p + n); the Outbox the fetch engine
has served last (R495). -/
structure Orders where
  list : List Order := []
  next : Nat := 0
  tail : SMap Nat := []
  badRaised : Bool := false
  stalled : List Nat := []
  streams : SMap RunStream := []
  last : Nat := 1023
  deriving DecidableEq, Repr

/-- Embedding tables: orders at this front by REQID; DET accumulators, those a TAKE has closed whose application has not been made, and the contributions that wait for one; rows (table, row) whose
selector flips at the next TAKE; forwarding records, rows whose copy has not landed (EMB_MOVE entry, table, row) and requests that wait at this home; the row cache:
by line, its counter (16 while it is being filled), the stamp of its last use and its bank. -/
structure Emb where
  jobs : SMap EmbJob := []
  acc : List DetAcc := []
  due : List DetAcc := []
  waiting : List EmbReq := []
  flips : List (Nat × Nat) := []
  fwd : List EmbFwd := []
  coming : List (Nat × Nat × Nat) := []
  held : List EmbReq := []
  rows : SMap (Nat × Nat × Nat) := []
  stamp : Nat := 0
  deriving DecidableEq, Repr

/-- Hamming search: orders at this front by REQID; tasks queued at this home, and tasks its pool's contexts run; the serial number of the next task to
start; the pool troupes whose search unit runs. -/
structure Search where
  jobs : SMap SJob := []
  queue : List STask := []
  run : List STask := []
  next : Nat := 0
  live : SMap Bool := []
  deriving DecidableEq, Repr

/-- Port H: the bases of its BARs as the host has set them (R482), memory space enabled, D3hot, the exponent of the BAR2 size in force
(R485), the MSI-X table, its Pending Bit Array, MSI-X enabled and masked as a whole (R509), PERST# asserted (R551), the other
configuration registers as last read (by dword), the IDE streams that are on and those that are Insecure (16 port + stream; port 0 is port H, 1 to 8
an edge agent; R490), the mailbox event records of each edge agent (R487), and the BAR2 reads whose lines have not all come (R321). -/
structure HostPort where
  bar0 : Nat := 0
  bar2 : Nat := 0
  bar4 : Nat := 0
  mem : Bool := false
  d3 : Bool := false
  bar2Log2 : Nat := 40
  msix : SMap MsixEnt := []
  pba : SMap Bool := []
  msixEn : Bool := false
  msixMask : Bool := false
  perst : Bool := false
  cfg : SMap Lane := []
  ide : List Nat := []
  insecure : List Nat := []
  records : SMap (List Nat) := []
  reads : List HRead := []
  deriving DecidableEq, Repr

/-- Events: the owner of each ACTIVE id, the latch count A(t) of each target, signals that wait for a core, claims in flight. -/
structure Events where
  owner : SMap Nat := []
  latch : SMap Nat := []
  signal : SMap Bool := []
  claims : List Claim := []
  deriving DecidableEq, Repr

/-- Ledgers, membership, rehearsal and restores (R458 to R479); `cond` holds, for each partition, the conditions of R457
met this cue (bit 0 Curtain, 1 target lost, 2 device fault, 3 bad format, 4 dead letter, 5 carried, 6 understudy, 7 skipped); whether a skew above
50 ns has taken LOCKED from the device (R38), and by how many ps the cue phase stands behind the leader's (R37). -/
structure Resil where
  parcel : Ledger := {}
  token : SMap Ledger := []
  pm : Postmark := {}
  rh : Postmark := {}
  cards : SMap Card := []
  lostDevices : Nat := 0
  rhLost : Nat := 0
  resume : Nat := 0
  curtainCue : SMap Nat := []
  rhKind : Option (Nat × Nat) := none
  rhBits : Nat := 0
  rhNext : Nat := 0
  rhCycle : Nat := 0
  restored : SMap Bool := []
  resetRoutes : SMap Bool := []
  cond : SMap Nat := []
  skewed : Bool := false
  skew : Int := 0
  deriving DecidableEq, Repr

/-- The state of the device: the commands that wait, the live fields of every register (keyed by Fld.key; an unlisted field
holds its reset value), the staged fields (an unlisted staged field equals its live field), and the parts above; the
parcels and messages the device has sent, oldest first, and the counter from which free values are drawn. -/
structure State where
  pending : List Instr := []
  regs : SMap Nat := []
  staged : SMap Nat := []
  sheet : Sheet := {}
  proc : Proc := {}
  trp : Troupes := {}
  book : Book := {}
  cour : Couriers := {}
  xlt : Xlate := {}
  store : Store := {}
  coh : Coh := {}
  efh : Efh := {}
  sw : Switch := {}
  ord : Orders := {}
  emb : Emb := {}
  srch : Search := {}
  ev : Events := {}
  res : Resil := {}
  hst : HostPort := {}
  door : Door := {}
  sent : List Sent := []
  free : Nat := 0
  deriving DecidableEq, Repr

/-- The reasons a command stops with a fault. -/
inductive Fault where
  /-- A place for a fault that no command of the table raises: the spec gives every command an effect. Safe. -/
  | none
  deriving DecidableEq, Repr

/-- The reasons the model gives a command no meaning. -/
inductive Refusal where
  /-- The command's arm has no meaning yet; raised by exec's refused arms alone. Safe: nothing is claimed of it. -/
  | notModelled (mnemonic : String)
  deriving DecidableEq, Repr

/-- The device right after a cold reset (R550, R9): every field at its reset value, every memory zero, the queue empty. -/
def State.reset : State := {}

end Sys2Proof.Machine
end

