-- ==== Sys2Proof/Machine/Ops.lean ====
section
/-!
DEFINITION. The named operations over State: register fields, events, memories, processor contexts, free values.
-/

namespace Sys2Proof.Machine

/-! ### Register fields (R7 to R11) -/

/-- The live value of a field. -/
def State.rd (s : State) (f : Fld) : Nat := s.regs.getD f.key f.reset

/-- Set the live value of a field, cut to its width. -/
def State.wr (s : State) (f : Fld) (x : Nat) : State :=
  { s with regs := s.regs.setD f.key f.reset (x % 2 ^ f.width) }

/-- The staged value of a Taken field: the live value where nothing is staged (R50). -/
def State.rdStaged (s : State) (f : Fld) : Nat := (s.staged.find? f.key).getD (s.rd f)

/-- Stage a value of a Taken field. -/
def State.wrStaged (s : State) (f : Fld) (x : Nat) : State :=
  { s with staged := s.staged.insert f.key (x % 2 ^ f.width) }

/-- Whether a one-bit field is 1. -/
def State.is1 (s : State) (f : Fld) : Bool := s.rd f == 1

/-- Whether bit b of a field is 1. -/
def State.bit (s : State) (f : Fld) (b : Nat) : Bool := bitOf (s.rd f) b

/-- Set bit b of a field. -/
def State.setBit (s : State) (f : Fld) (b : Nat) : State := s.wr f (s.rd f ||| 2 ^ b)

/-- Clear bit b of a field. -/
def State.clrBit (s : State) (f : Fld) (b : Nat) : State :=
  s.wr f (if bitOf (s.rd f) b then s.rd f - 2 ^ b else s.rd f)

/-- Add to a counter that saturates at its largest value. -/
def State.satAdd (s : State) (f : Fld) (n : Nat) : State := s.wr f (min (s.rd f + n) (2 ^ f.width - 1))

/-- Add to a counter that wraps to zero. -/
def State.wrapAdd (s : State) (f : Fld) (n : Nat) : State := s.wr f (s.rd f + n)

/-- Append one parcel or message to those the device has sent. -/
def State.send (s : State) (m : Sent) : State := { s with sent := s.sent ++ [m] }

/-- R491: an internal fault shows at port H as AER Uncorrectable Internal Error and at each edge agent as CXL RAS Uncorrectable Internal Error;
the field bit 0 of an agent's half says that its link is up. -/
def State.internalError (s : State) : State :=
  let s := if s.is1 Reg.HPT_LINK_UP then s.send { name := "AER_INTERNAL" } else s
  (List.range 8).foldl (fun s g =>
    let h := if g % 2 = 0 then Reg.EDG_PORT_HALF0 (g / 2) else Reg.EDG_PORT_HALF1 (g / 2)
    if bitOf (s.rd h) 0 then s.send { name := "RAS_INTERNAL", dest := g } else s) s

/-- The next free value of w bits: nothing constrains it (Config.freeValue). -/
def State.fresh (s : State) (w : Nat) : Nat × State :=
  (Config.freeValue s.free % 2 ^ w, { s with free := s.free + 1 })

/-- The access with a ticket is given up: nothing that it waits for comes back to it. -/
def State.forget (s : State) (own : Nat) : State :=
  let off (q : CReq) : CReq := if q.tk = own then { q with tk := 1 } else q
  let quiet (y : AStore) : AStore := if y.tk = own then { y with tk := 0 } else y
  { s with
    xlt := { s.xlt with waits := s.xlt.waits.erase own, acc := s.xlt.acc.erase own }
    coh := { s.coh with
      got := s.coh.got.erase own
      dir := s.coh.dir.mapVals (fun _ (d : DirEnt) => { d with req := d.req.map off, queue := d.queue.map off })
      wait := s.coh.wait.map (fun w => (w.1, off w.2))
      ag := s.coh.ag.mapVals (fun _ (c : ACopy) => { c with store := c.store.map quiet, later := c.later.map (fun w => (if w.1 = own then 0 else w.1, w.2)) }) } }

/-! ### Names of common settings -/

/-- The device number (EFH_CTL.DEVICE). -/
def State.device (s : State) : Nat := s.rd Reg.EFH_CTL_DEVICE

/-- CUE_COUNT (R35). -/
def State.cueNow (s : State) : Nat := s.rd Reg.CUE_COUNT_COUNT

/-- The cue offset (R33). -/
def State.ofs (s : State) : Nat := s.rd Reg.CUE_PHASE_OFFSET

/-- The phase: 0 TAKE, 1 WORK, 2 GUARD, 3 STOPPED (R60). -/
def State.phase (s : State) : Nat := s.rd Reg.CUE_PHASE_PHASE

/-- The period in force (R34). -/
def State.period (s : State) : Nat := s.rd Reg.CUE_PERIOD_PERIOD

/-- Whether the device stands still: it has no refclk, is in REST, has no input, or is under a boundary-scan test (R32, R531,
R543, R591, R599): every command but those that end it changes nothing then. -/
def State.halted (s : State) : Bool := s.door.halt != 0

/-- Whether the Curtain is down on a partition (R470). -/
def State.curtain (s : State) (p : Nat) : Bool := s.bit Reg.RSL_CURTAIN_DOWN p

/-- R467, R477: whether this device discards what other devices send it for a partition (16 and above: for none): it is fenced, or a
rehearsal verdict has named it, or it stands still. -/
def State.deaf (s : State) (part : Nat) : Bool :=
  s.halted || s.is1 Reg.RSL_PM_STATE_FENCED || (s.res.rh.fenced && s.bit Reg.RSL_RH_CTL_PARTS part)

/-- R478: whether a rehearsal of a link fault loses the parcels of a partition on an Efhal port. -/
def State.rhLink (s : State) (port part : Nat) : Bool :=
  match s.res.rhKind with
  | some (1, _) => s.rd Reg.RSL_RH_STAT_PORT == port && s.bit Reg.RSL_RH_CTL_PARTS part
  | _ => false

/-- R384, R467, R477: whether accesses of a partition to device d end with ST_TARGET_LOST. -/
def State.gone (s : State) (d part : Nat) : Bool :=
  bitOf s.res.lostDevices d || s.is1 Reg.RSL_PM_STATE_FENCED ||
    (s.bit Reg.RSL_RH_CTL_PARTS part && (bitOf s.res.rhLost d || s.res.rh.fenced))

/-! ### Processor contexts (R129 to R132) -/

/-- The key of an agent in the context map. -/
def agentKey : Agent → Nat
  | .ce t c => t.val * 48 + c.val
  | .ctx k => 307200 + k.val
  | .core n => 311296 + n.val

/-- The profile an agent runs (R128): 0 compute, 1 courier, 2 control. -/
def agentProfile : Agent → Nat
  | .ce _ _ => 0
  | .ctx _ => 1
  | .core _ => 2

/-- A context nothing has touched since reset: every register zero (R132), a CE IDLE, a courier context POOL, a core OFF. The LENGTH of the
program that boot loads into a courier or a core is its whole instruction store (R128, log entry 49). -/
def cxReset (k : Nat) : Cx :=
  if k < 307200 then {} else if k < 311296 then { st := .pool, len := 1024 } else { st := .off, len := 16384 }

/-- The context with a key. -/
def State.cxAt (s : State) (k : Nat) : Cx := s.proc.cx.getD k (cxReset k)

/-- Replace the context with a key. -/
def State.setCxAt (s : State) (k : Nat) (c : Cx) : State :=
  { s with proc := { s.proc with cx := s.proc.cx.setD k (cxReset k) c } }

/-- An agent's context. -/
def State.cx (s : State) (u : Agent) : Cx := s.cxAt (agentKey u)

/-- Replace an agent's context. -/
def State.setCx (s : State) (u : Agent) (c : Cx) : State := s.setCxAt (agentKey u) c

/-- The key of core n. -/
def coreKey (n : Nat) : Nat := 311296 + n

/-- The key of CE c of physical troupe t. -/
def ceKey (t c : Nat) : Nat := t * 48 + c

/-- The key of courier context k. -/
def ctxKey (k : Nat) : Nat := 307200 + k

/-- R514: whether core n is neither OFF nor STOPPED. -/
def State.coreUp (s : State) (n : Nat) : Bool :=
  match (s.cxAt (coreKey n)).st with
  | .off => false
  | .stopped _ => false
  | _ => true

/-- R514: whether core c is STOPPED. -/
def State.coreStopped (s : State) (c : Nat) : Bool :=
  match (s.cxAt (coreKey c)).st with
  | .stopped _ => true
  | _ => false

/-! ### Events (R516 to R526) -/

/-- Whether event id i is pending. -/
def State.pendingId (s : State) (i : Nat) : Bool := s.bit (Reg.EVC_PENDING_BITS (i / 64)) (i % 64)

/-- Whether event id i is in service. -/
def State.activeId (s : State) (i : Nat) : Bool := s.bit (Reg.EVC_ACTIVE_BITS (i / 64)) (i % 64)

/-- R518: whether id i is deliverable to core c. -/
def State.deliverable (s : State) (c i : Nat) : Bool :=
  decide (0 < i) && decide (i < 2047) && s.is1 (Reg.EVC_SRC_EN (i - 1)) && s.pendingId i && !s.activeId i &&
    s.bit (Reg.EVC_SRC_TARGET (i - 1)) c &&
    decide (s.rd (Reg.EVC_CORE_THRESHOLD c) < s.rd (Reg.EVC_SRC_PRIO (i - 1))) && s.coreUp c

/-- The ids pending, in ascending order. -/
def State.pendingIds (s : State) : List Nat :=
  (List.range 32).flatMap (fun w =>
    let x := s.rd (Reg.EVC_PENDING_BITS w)
    if x = 0 then [] else ((List.range 64).filter (fun b => bitOf x b)).map (fun b => 64 * w + b))

/-- R518: the first id deliverable to core c, by higher PRIO and then lower id; 0 where there is none. -/
def State.firstId (s : State) (c : Nat) : Nat :=
  (s.pendingIds.filter (s.deliverable c)).foldl (fun best i =>
    if best = 0 then i
    else if s.rd (Reg.EVC_SRC_PRIO (best - 1)) < s.rd (Reg.EVC_SRC_PRIO (i - 1)) then i else best) 0

/-- A(t): add one latch for target t (R522). -/
def State.latch (s : State) (t : Nat) : State :=
  { s with ev := { s.ev with latch := s.ev.latch.setD t 0 (s.ev.latch.getD t 0 + 1) } }

/-- R522: a core's A is zero once no id remains deliverable to it. -/
def State.settleLatches (s : State) : State :=
  { s with ev := { s.ev with latch := s.ev.latch.filter (fun t _ =>
      decide (16 ≤ t) || decide (s.firstId t ≠ 0)) } }

/-- R516, R522, R525: a rising edge of id i sets its pending bit, and is latched for the cores it is deliverable to and
for the vector it is forwarded to. Ids 0 and 2047 are no sources. -/
def State.raise (s : State) (i : Nat) : State :=
  if i = 0 ∨ 2047 ≤ i then s
  else
    let s := s.setBit (Reg.EVC_PENDING_BITS (i / 64)) (i % 64)
    let s := (List.range 16).foldl (fun s c => if s.deliverable c i then s.latch c else s) s
    if s.is1 (Reg.EVC_SRC_FWD_EN (i - 1)) then
      s.latch (16 + 32 * s.rd (Reg.EVC_SRC_FWD_PART (i - 1)) + s.rd (Reg.EVC_SRC_FWD_VEC (i - 1)))
    else s

/-- R516, R517: clear a pending bit. -/
def State.unpend (s : State) (i : Nat) : State :=
  (s.clrBit (Reg.EVC_PENDING_BITS (i / 64)) (i % 64)).settleLatches

/-- R526: a software raise of id i. -/
def State.softRaise (s : State) (i : Nat) : State :=
  if i = 0 then s
  else if 1024 ≤ i ∧ i ≤ 2046 then (if s.pendingId i then s else s.raise i)
  else s.satAdd Reg.EVC_STAT_BAD_RAISE 1

/-! ### Memories -/

/-- The n bytes of a memory from address a. -/
def Memory.bytes (m : Memory) (a n : Nat) : List Byte := (List.range n).map (fun i => SMap.getD m (a + i) 0)

/-- Write bytes from address a, keeping the canonical form. -/
def Memory.store (m : Memory) (a : Nat) : List Byte → Memory
  | [] => m
  | b :: bs => Memory.store (SMap.setD m a 0 b) (a + 1) bs

/-- The little-endian number in n bytes from address a (R4). -/
def Memory.num (m : Memory) (a n : Nat) : Nat := leBytes (m.bytes a n)

/-- Set a mark for each codeword that touches the n bytes from address a. -/
def markRange (d : SMap Bool) (a n : Nat) (b : Bool) : SMap Bool :=
  if n = 0 then d
  else (List.range ((a + n - 1) / 8 - a / 8 + 1)).foldl (fun d i => d.setD (a / 8 + i) false b) d

/-- Whether a codeword that touches the n bytes from address a is marked. -/
def markedIn (d : SMap Bool) (a n : Nat) : Bool :=
  n != 0 && (List.range ((a + n - 1) / 8 - a / 8 + 1)).any (fun i => d.getD (a / 8 + i) false)

/-- R456: the marks after a write of n bytes from address a: a codeword replaced whole is cleared. -/
def clearWhole (d : SMap Bool) (a n : Nat) : SMap Bool :=
  (List.range ((a + n) / 8 - (a + 7) / 8)).foldl (fun d i => d.setD ((a + 7) / 8 + i) false false) d

/-- R195, R448: bytes as a reader sees them: those of a marked codeword read as zero. -/
def maskDead (d : SMap Bool) (a : Nat) (bs : List Byte) : List Byte :=
  bs.zipIdx.map (fun (b, i) => if d.getD ((a + i) / 8) false then 0 else b)

/-- Troupe SRAM: n bytes from address a of physical troupe t, as a load sees them, and whether a marked codeword was read. -/
def State.sramRead (s : State) (t a n : Nat) : List Byte × Bool :=
  (maskDead s.trp.dead (393216 * t + a) (Memory.bytes s.trp.sram (393216 * t + a) n),
   markedIn s.trp.dead (393216 * t + a) n)

/-- Troupe SRAM: a store of bytes at address a of troupe t (R194). -/
def State.sramWrite (s : State) (t a : Nat) (bs : List Byte) : State :=
  { s with trp := { s.trp with
      sram := Memory.store s.trp.sram (393216 * t + a) bs
      dead := clearWhole s.trp.dead (393216 * t + a) bs.length
      flips := if s.trp.flips.isEmpty then [] else s.trp.flips.filter (fun k _ =>
        !(decide (393216 * t + a ≤ 8 * k) && decide (8 * k + 8 ≤ 393216 * t + a + bs.length))) } }

/-- Troupe SRAM: a line written with every codeword marked or clear (R455). -/
def State.sramLine (s : State) (t line : Nat) (bs : List Byte) (poison : Bool) : State :=
  let s := s.sramWrite t (64 * line) bs
  if poison then
    { s with trp := { s.trp with dead := markRange s.trp.dead (393216 * t + 64 * line) 64 true } }
  else s

/-- 64 bytes as the value of a v register or a parcel payload, little-endian (R4, R65). -/
def lineOf (bs : List Byte) : BitVec 512 := BitVec.ofNat 512 (leBytes bs)

/-- The 64 bytes of a v register or a parcel payload. -/
def bytesOf (x : BitVec 512) : List Byte := toLe 64 x.toNat

/-! ### Troupes -/

/-- The loaded program and routes of physical troupe t. -/
def State.troupe (s : State) (t : Nat) : Troupe := s.trp.t.getD t {}

/-- Replace the loaded program and routes of physical troupe t. -/
def State.setTroupe (s : State) (t : Nat) (x : Troupe) : State :=
  { s with trp := { s.trp with t := s.trp.t.setD t {} x } }

/-- R92: the state of physical troupe t: 0 ACTIVE, 1 QUARANTINED, 2 RESERVED, 3 SPARE, 4 RETIRED, 5 FUSED. -/
def State.trpState (s : State) (t : Nat) : Nat := s.rd (Reg.TRP_STATE_STATE t)

/-- R62: the physical troupe that holds a logical number. -/
def State.physOf (s : State) (l : Nat) : Option Nat :=
  if s.rd (Reg.TRP_STATE_LOGICAL l) = l ∧ l < 6250 then some l
  else (List.range 6400).find? (fun t => s.rd (Reg.TRP_STATE_LOGICAL t) == l)

/-- The unit with an id on a troupe. -/
def Troupe.unit (t : Troupe) (id : Nat) : Option UnitRt := t.units.find? (fun u => u.desc.id == id)

/-- Change the unit with an id on a troupe. -/
def Troupe.mapUnit (t : Troupe) (id : Nat) (f : UnitRt → UnitRt) : Troupe :=
  { t with units := t.units.map (fun u => if u.desc.id = id then f u else u) }

/-- Change entry n of a list. -/
def mapAt {α : Type} (l : List α) (n : Nat) (f : α → α) : List α :=
  l.zipIdx.map (fun (x, i) => if i = n then f x else x)

/-- A courier context beyond its registers. -/
def State.ctx (s : State) (k : Nat) : Ctx := s.cour.ctx.getD k {}

/-- Replace a courier context's record. -/
def State.setCtx (s : State) (k : Nat) (c : Ctx) : State :=
  { s with cour := { s.cour with ctx := s.cour.ctx.setD k {} c } }

/-! ### Exception records (R165, R166, R515) -/

/-- Write an exception record at SMX_XQ.WR, or drop it where the queue is full. -/
def State.writeXRec (s : State) (x : XRec) : State :=
  let wr := s.rd Reg.SMX_XQ_WR
  let rd := s.rd Reg.SMX_XQ_RD
  if (wr + 65536 - rd) % 65536 = 256 then
    ({ s with proc := { s.proc with xlost := true } }).satAdd Reg.SMX_XQ_LOST 1
  else
    ({ s with proc := { s.proc with
        xq := s.proc.xq.insert (wr % 256) { x with lost := s.proc.xlost }
        xlost := false } }).wrapAdd Reg.SMX_XQ_WR 1

/-- R165: the 16 bytes of an exception record as a number. -/
def XRec.num (x : XRec) : Nat :=
  x.profile + b2n x.lost * 2 ^ 7 + x.cause * 2 ^ 8 + x.pc * 2 ^ 16 + x.source * 2 ^ 32 + x.sub * 2 ^ 48 +
    x.cue * 2 ^ 56 + x.unit * 2 ^ 64 + x.detail * 2 ^ 96

end Sys2Proof.Machine
end

