-- ==== Sys2Proof/Machine/Fabric.lean ====
section
/-!
DEFINITION. Check sums, and the form of a fabric parcel (R285, R142, R391, R392, R394).
-/

namespace Sys2Proof.Machine

/-! ### Check sums -/

/-- One byte of a reflected CRC of a given polynomial. -/
def crcByte (poly c : Nat) (b : Byte) : Nat :=
  (List.range 8).foldl (fun c _ => if c % 2 = 1 then (c / 2) ^^^ poly else c / 2) (c ^^^ b.toNat)

/-- R285: CRC-64 with the ECMA-182 polynomial, reflected. -/
def crc64 (bs : List Byte) : Nat := bs.foldl (crcByte 0xC96C5795D7870F42) (2 ^ 64 - 1) ^^^ (2 ^ 64 - 1)

/-- R142: CRC-32C. -/
def crc32c (bs : List Byte) : Nat := bs.foldl (crcByte 0x82F63B78) (2 ^ 32 - 1) ^^^ (2 ^ 32 - 1)

/-! ### Fabric parcels (R391, R392) -/

/-- A fabric parcel as its header gives it: OP, class, flags, LEVEL, source and destination, PART, TAG, ARG; its payload. -/
structure FabParcel where
  op : Nat := 0
  cls : Nat := 0
  mcast : Bool := false
  mark : Bool := false
  poison : Bool := false
  level : Nat := 1
  src : Nat := 0
  dst : Nat := 0
  part : Nat := 0
  tag : Nat := 0
  arg : Nat := 0
  rsvd : Bool := false
  pl : Nat := 0
  deriving DecidableEq, Repr

/-- R391: the 96-bit header. -/
def FabParcel.header (p : FabParcel) : Nat :=
  p.op + p.cls * 2 ^ 6 + b2n p.mcast * 2 ^ 9 + b2n p.mark * 2 ^ 10 + b2n p.poison * 2 ^ 11 + p.level * 2 ^ 12 +
    p.src * 2 ^ 14 + p.dst * 2 ^ 20 + p.part * 2 ^ 28 + p.tag * 2 ^ 32 + p.arg * 2 ^ 48 + b2n p.rsvd * 2 ^ 95

/-- R391: the seal over the header and the payload. -/
def sealOf (header pl : Nat) : Nat := crc32c (toLe 12 header ++ toLe 64 pl)

/-- R391: the 80 bytes of a parcel as a number. -/
def FabParcel.num (p : FabParcel) : Nat := p.header + sealOf p.header p.pl * 2 ^ 96 + p.pl * 2 ^ 128

/-- R391: the parcel in 80 bytes, and whether its seal verifies. -/
def parcelOf (x : Nat) : FabParcel × Bool :=
  ({ op := bitsOf x 0 6, cls := bitsOf x 6 3, mcast := bitOf x 9, mark := bitOf x 10, poison := bitOf x 11,
     level := bitsOf x 12 2, src := bitsOf x 14 6, dst := bitsOf x 20 8, part := bitsOf x 28 4, tag := bitsOf x 32 16,
     arg := bitsOf x 48 47, rsvd := bitOf x 95, pl := bitsOf x 128 512 },
   sealOf (x % 2 ^ 96) (bitsOf x 128 512) == bitsOf x 96 32)

/-- R392 ARG of a PARCEL: [12:0] RTROUPE, [18:13] RROUTE, [20:19] kind (0 DATA, 1 TALLY, 2 CANCEL), [21] LAST, [29:22] cue,
[45:30] UNIT. -/
def parcelArg (troupe route kind : Nat) (last : Bool) (cue unit : Nat) : Nat :=
  troupe + route * 2 ^ 13 + kind * 2 ^ 19 + b2n last * 2 ^ 21 + cue * 2 ^ 22 + unit * 2 ^ 30

/-- R394: the class an operation travels in; PARCELs by their kind and route. -/
def FabParcel.classOk (p : FabParcel) : Bool :=
  if p.op = 0x0A ∨ p.op = 0x0B then p.cls == 0
  else if p.op = 0x0F ∨ p.op = 0x0C ∨ p.op = 0x0D ∨ (0x10 ≤ p.op ∧ p.op ≤ 0x18) then p.cls == 1
  else if p.op = 0x0E ∨ (1 ≤ p.op ∧ p.op ≤ 4) then p.cls == 2
  else if p.op = 5 then p.cls == 3
  else if p.op = 9 then p.cls == 4
  else if p.op = 8 then (if bitsOf p.arg 19 2 = 2 then p.cls == 4 else if bitsOf p.arg 19 2 = 1 then p.cls == 5 else decide (6 ≤ p.cls))
  else false

/-- R391 to R394: whether a header uses no reserved encoding or bit and travels in its class. -/
def FabParcel.wellFormed (p : FabParcel) : Bool :=
  decide (p.op ≠ 0) && decide (p.op < 0x19) && !p.rsvd && decide (p.level ≠ 0) && (p.mcast || decide (p.dst < 64)) && p.classOk &&
    (decide (p.op ≤ 5) || p.op == 8 || p.tag == 0) &&
    (if p.op ≤ 4 ∨ p.op = 0x0E then true
     else if p.op = 5 then decide (p.arg < 2 ^ 10)
     else if p.op = 8 then bitsOf p.arg 19 2 != 3 && !bitOf p.arg 46 && decide (bitsOf p.arg 0 13 < 6250)
     else p.arg == 0)

/-- The fabric parcel leaves its maker for a switch input, which takes it and routes it (R370, R393); `extra` is what the 80 bytes have no field for (log entry 41). -/
def State.sendFab (s : State) (input : Nat) (p : FabParcel) (extra : List Nat := []) : State :=
  s.send { name := "FABRIC_PARCEL", dest := input, args := extra, bytes := toLe 80 p.num }

/-- R394: the class of an operation other than PARCEL. -/
def opClass (op : Nat) : Nat :=
  if op = 0x0A ∨ op = 0x0B then 0 else if op = 0x0E ∨ op ≤ 4 then 2 else if op = 5 then 3 else if op = 9 then 4 else 1

/-- R389: the switch input of an operation's maker: the slices and couriers are at COURIER, the hub's logic at LOCAL. -/
def opInput (op : Nat) : Nat := if op ≤ 5 ∨ op = 0x0E then 19 else 18

/-- R392: fields, each with its width in bytes, in order, little-endian. -/
def fieldsNum (fs : List (Nat × Nat)) : Nat := fs.foldr (fun f acc => f.1 % 2 ^ (8 * f.2) + 2 ^ (8 * f.2) * acc) 0

/-- R372, R394: this device sends an operation 0x0A to 0x18 of a partition to a device, with its fields. -/
def State.fabMsg (s : State) (op dst part : Nat) (fs : List (Nat × Nat)) (extra : List Nat := []) : State :=
  s.sendFab (opInput op) { op := op, cls := opClass op, src := s.device, dst := dst, part := part % 16, pl := fieldsNum fs } extra

/-- R372, R392: a request of partition `part` of device src to device dst for the line of a PGA: RD, WR, WR_PART, ATOM (op: minor, width, TA, operand, compare value) or MIRROR_WR (op: the
STEP it is stamped with), with the marks of its data. What the header has no field for goes beside it (log entry 41): whether a region entry passed the request on, the marks
of the codewords, where in the line an atomic is and its width, the REQID and stamp of a mirror write. -/
def State.fabReq (s : State) (src part id kind dst target mask marks : Nat) (op : List Nat) (x : BitVec 512) (fwd : Bool) : State :=
  let p : FabParcel := { op := kind, cls := 2, src := src, dst := dst, part := part % 16, tag := if kind = 14 then 0 else id,
                         arg := target % 2 ^ 53 / 64, poison := marks != 0 }
  let g (i : Nat) : Nat := op.getD i 0
  if kind = 1 then s.sendFab 19 p [b2n fwd]
  else if kind = 3 then (s.sendFab 19 { p with pl := mask } [b2n fwd]).sendFab 19 { p with pl := x.toNat } [b2n fwd, marks]
  else if kind = 4 then s.sendFab 19 { p with pl := fieldsNum [(g 0, 1), (g 2, 1), (0, 6), (g 3, 8), (g 4, 8)] } [b2n fwd, target % 64, g 1]
  else if kind = 14 then s.sendFab 19 { p with pl := x.toNat } ([id, marks] ++ op)
  else s.sendFab 19 { p with pl := x.toNat } [b2n fwd, marks]

/-- R372, R392, R402: an RSP to device dst: REQID, status, FWD, the MARK of the request, data with its marks. -/
def State.fabRsp (s : State) (dst id status marks : Nat) (fwd : Bool) (x : BitVec 512) : State :=
  let mark := s.sw.marked.contains (dst, id)
  { s with sw := { s.sw with marked := s.sw.marked.erase (dst, id) } }.sendFab 19
    { op := 5, cls := 3, src := s.device, dst := dst, tag := id, arg := status % 256 + b2n fwd * 2 ^ 8 + b2n mark * 2 ^ 9, poison := marks != 0,
      pl := x.toNat } [marks]

/-- A list in pieces of n, in order. -/
def pieces {α : Type} (n : Nat) (l : List α) : List (List α) :=
  (List.range ((l.length + n - 1) / n)).map (fun i => (l.drop (n * i)).take n)

/-- R392: an entry of a CRED: the destination troupe and its inbound route, and the credits returned. -/
def credEntry (troupe route n : Nat) : Nat := troupe + route * 2 ^ 13 + n * 2 ^ 19

/-- R392: up to 16 CRED entries of 4 B. -/
def credNum (es : List Nat) : Nat := es.foldr (fun e acc => e + 2 ^ 32 * acc) 0

/-- R83, R392, R394: class 4 CREDs of up to 16 entries (troupe, inbound route, credits) that return to a device credits of routes of device `at_`. -/
def State.credsTo (s : State) (dev at_ : Nat) (es : List (Nat × Nat × Nat)) : State :=
  (pieces 16 es).foldl (fun s l =>
    s.sendFab 18 { op := 9, cls := 4, src := at_, dst := dev, pl := credNum (l.map (fun e => credEntry e.1 e.2.1 e.2.2)) }) s

/-- R392, R394: a class 4 CRED that returns to a device n credits of an inbound route of a troupe of device `at_`. -/
def State.credTo (s : State) (dev at_ troupe route n : Nat) : State := s.credsTo dev at_ [(troupe, route, n)]

end Sys2Proof.Machine
end

