-- ==== Sys2Proof/Machine/Mesh.lean ====
section
/-!
DEFINITION. The troupe mesh: dimension-order routing, parcels between routers, route credits, cancellation, and what a
parcel does where it leaves the mesh (R72 to R87).
-/

namespace Sys2Proof.Machine

/-- The router next to router r on output dir (0 N, 1 S, 2 E, 3 W), R72. -/
def neighbour (r dir : Nat) : Option Nat :=
  let x := r % 80
  let y := r / 80
  if dir = 0 then (if y = 0 then none else some (r - 80))
  else if dir = 1 then (if y = 79 then none else some (r + 80))
  else if dir = 2 then (if x = 79 then none else some (r + 1))
  else if dir = 3 then (if x = 0 then none else some (r - 1))
  else none

/-- R74: the output a parcel for router d takes at router r: x first, then y; 4 at its destination. -/
def routeDir (r d : Nat) : Nat :=
  if r % 80 < d % 80 then 2 else if d % 80 < r % 80 then 3
  else if r / 80 < d / 80 then 1 else if d / 80 < r / 80 then 0 else 4

/-- The output that faces back along a link. -/
def opposite (dir : Nat) : Nat := if dir = 0 then 1 else if dir = 1 then 0 else if dir = 2 then 3 else 2

/-- R73: the gate troupe Gg of compute die n, as a physical index. -/
def gateTroupe (n g : Nat) : Nat :=
  let x := (if g % 4 = 0 then 2 else if g % 4 = 1 then 7 else if g % 4 = 2 then 12 else 17)
  let y := if g < 4 then 4 else 15
  80 * (20 * (n / 4) + y) + 20 * (n % 4) + x

/-- The mesh distance between two troupes (R90). -/
def meshDist (a b : Nat) : Nat :=
  (max (a % 80) (b % 80) - min (a % 80) (b % 80)) + (max (a / 80) (b / 80) - min (a / 80) (b / 80))

/-- R202: the gate nearest to a troupe on its own die, ties to the lower number. -/
def nearestGate (t : Nat) : Nat :=
  let n := Reg.trpDie t
  (List.range 8).foldl (fun best g =>
    if meshDist t (gateTroupe n g) < meshDist t (gateTroupe n best) then g else best) 0

/-- R202: the physical troupe that carries the gate nearest to troupe t. -/
def gateOf (t : Nat) : Nat := gateTroupe (Reg.trpDie t) (nearestGate t)

/-- R202: the courier that serves the store accesses of troupe t. -/
def courierOf (t : Nat) : Nat := 2 * (8 * Reg.trpDie t + nearestGate t) + t % 80 % 2

/-- R565: the courier that serves the store accesses of troupe t now: while an MI die waits for new microcode, the next die's. -/
def State.courierNow (s : State) (t : Nat) : Nat :=
  let c := courierOf t
  match s.door.arm with
  | some a => if a.kind = 3 ∧ c / 32 = a.die then 32 * ((a.die + 1) % 8) + c % 32 else c
  | none => c

/-- R533: the clock region of the domain that physical troupe t lies in. -/
def regionOf (t : Nat) : Nat := 10 * Reg.trpDie t + Reg.trpDomain t

/-- R541: a region that automatic gating or power-off has stopped runs again. -/
def State.ungate (s : State) (r : Nat) : State :=
  let p := s.rd (Reg.CLK_REG_POWER r)
  if p = 1 ∨ p = 2 then s.wr (Reg.CLK_REG_POWER r) 0 else s

/-- The key of a router's output and lane in the hop-credit maps. -/
def hopKey (r dir vl : Nat) : Nat := (r * 8 + dir) * 4 + vl

/-- The partition that owns physical troupe t. -/
def State.trpPart (s : State) (t : Nat) : Nat := s.rd (Reg.TRP_STATE_PARTITION t)

/-- Put a parcel into the router it enters the mesh by. -/
def State.inject (s : State) (p : MParcel) : State :=
  { s with trp := { s.trp with mesh := s.trp.mesh ++ [p] } }

/-- Add to a column of the parcel ledger (R46). -/
def State.ledgerAdd (s : State) (f : Ledger → Ledger) : State :=
  { s with res := { s.res with parcel := f s.res.parcel } }

/-- Change the model-token ledger of a partition and class (R221). -/
def State.tokenAdd (s : State) (p c : Nat) (f : Ledger → Ledger) : State :=
  { s with res := { s.res with token := s.res.token.setD (8 * p + c) {} (f (s.res.token.getD (8 * p + c) {})) } }

/-- R83: a return of n credits joins the pairs of a CRED: one pair for each route. -/
def addPair (pairs : List (Nat × Nat)) (route n : Nat) : List (Nat × Nat) :=
  if pairs.any (fun q => q.1 == route) then pairs.map (fun q => if q.1 = route then (q.1, q.2 + n) else q) else pairs ++ [(route, n)]

/-- R83: whether a mesh parcel is a CRED of troupe t for a destination that has not left t's router and has room for a pair of a route. -/
def MParcel.gathers (p : MParcel) (t dst : Nat) (toCtx : Option Nat) (route : Nat) : Bool :=
  p.kind == 3 && p.src == t && p.at_ == t && p.inDir == 4 && p.dst == dst && p.tries == 0 &&
    (match p.pl with
     | .cred pairs c => c == toCtx && (pairs.any (fun q => q.1 == route) || decide (pairs.length < 16))
     | _ => false)

/-- R83: n credits of a route return from troupe t: they are gathered into a CRED that still waits at t, else a new one is injected. -/
def State.credBack (s : State) (t dst : Nat) (toCtx : Option Nat) (route n : Nat) : State :=
  match s.trp.mesh.find? (fun p => p.gathers t dst toCtx route) with
  | some p =>
    let pairs := match p.pl with | .cred l _ => addPair l route n | _ => []
    { s with trp := { s.trp with mesh := s.trp.mesh.map (fun q => if q = p then { p with pl := .cred pairs toCtx } else q) } }
  | none =>
    s.inject { kind := 3, vl := 3, src := t, dst := dst, at_ := t, pl := .cred [(route, n)] toCtx, cue := s.cueNow % 256 }

/-- The distinct entries of a list with the number of times each stands in it. -/
def counted (l : List (Nat × Nat)) : List ((Nat × Nat) × Nat) := l.dedup.map (fun x => (x, (l.filter (fun y => y == x)).length))

/-- R83: the credits of slots that troupe t frees return, each to the outbound route of its sender (source, route): by CRED parcels on VL3, or,
for senders on another device, by fabric CREDs (R392), gathered up to 16 in one. -/
def State.returnCredits (s : State) (t : Nat) (rs : List (Nat × Nat)) : State :=
  let near := counted (rs.filter (fun r => decide (r.1 < 6400)))
  let far := counted (rs.filter (fun r => decide (6400 ≤ r.1)))
  let s := near.foldl (fun s e => s.credBack t e.1.1 none e.1.2 e.2) s
  ((far.map (fun e => e.1.1)).dedup).foldl (fun s d =>
    s.credsTo (d - 10000) s.device ((far.filter (fun e => e.1.1 == d)).map (fun e => (e.1.2 / 64, e.1.2 % 64, e.2)))) s

/-- R83: the credit of one slot returns. -/
def State.returnCredit (s : State) (t src srcRoute : Nat) : State := s.returnCredits t [(src, srcRoute)]

/-- R275: the credit of a DLV parcel returns from troupe t to the context that sent it. -/
def State.dlvCredit (s : State) (t : Nat) (p : MParcel) : State := s.credBack t (gateOf t) (some p.srcRoute) p.route 1

/-- R221: a completed model token of a partition whose last parcel is dropped counts as cancelled. -/
def State.dropTok (s : State) (part : Nat) (tok : Option Nat) : State :=
  match tok with
  | none => s
  | some c => s.tokenAdd part c (fun l => { l with cancelled := l.cancelled + 1 })

/-- R81: the input slot a parcel held at its router is free: its hop credit is on its way back. -/
def State.freeSlot (s : State) (p : MParcel) : State :=
  if p.inDir < 4 then
    match neighbour p.at_ p.inDir with
    | some up =>
      let k := hopKey up (opposite p.inDir) p.vl
      { s with trp := { s.trp with hopBack := s.trp.hopBack.setD k 0 (s.trp.hopBack.getD k 0 + 1) } }
    | none => s
  else s

/-- Take one parcel out of the mesh. -/
def State.dropParcel (s : State) (p : MParcel) : State :=
  { s with trp := { s.trp with mesh := s.trp.mesh.erase p } }

/-- R87: record a cancelled parcel of troupe t: TRP_TRAFFIC.CANCELLED and the ledger's cancelled column. -/
def State.countCancelled (s : State) (t n : Nat) : State :=
  (s.satAdd (Reg.TRP_TRAFFIC_CANCELLED t) n).ledgerAdd (fun l => { l with cancelled := l.cancelled + n })

/-- The POISON flag of either lane image of a TALLY payload (R119, R455). -/
def tallyPoison (x : BitVec 512) : Bool := bitOf x.toNat (22 * 8 + 6) || bitOf x.toNat (46 * 8 + 6)

/-- R220: whether the next parcel of a unit of another device on an inbound route completes a model token; its TCLASS. -/
def InRt.tokenOf (ir : InRt) (p : MParcel) : Option Nat :=
  if p.src < 6400 then p.tok
  else if bitOf ir.desc.tflags 0 ∧ ir.desc.tpp ≠ 0 ∧ (ir.got.getD (65536 * p.src + p.unit) 0 + 1) % ir.desc.tpp = 0 then
    some (bitsOf ir.desc.tflags 2 3)
  else none

/-- R220: the count of an inbound route's parcels from units of other devices after one more. -/
def InRt.gotOne (ir : InRt) (p : MParcel) : SMap Nat :=
  if p.src < 6400 then ir.got else ir.got.insert (65536 * p.src + p.unit) (ir.got.getD (65536 * p.src + p.unit) 0 + 1)

/-- R221, R392: a model token that another device has sent is injected into this device's ledger where its last parcel arrives (log entry 44). -/
def State.landTok (s : State) (p : MParcel) (tok : Option Nat) : State :=
  match tok with
  | some c => if p.src < 6400 then s else s.tokenAdd p.part c (fun l => { l with injected := l.injected + 1 })
  | none => s

/-- R155, R82: a parcel for the receive ring of its inbound route at troupe t. -/
def State.ringArrive (s : State) (t : Nat) (p : MParcel) (x : BitVec 512) : State :=
  let tr := s.troupe t
  match tr.ins[p.route]? with
  | none => s.satAdd (Reg.TRP_TRAFFIC_MALFORMED t) 1
  | some ir =>
    if ir.desc.slots = 0 then s.satAdd (Reg.TRP_TRAFFIC_MALFORMED t) 1
    else
      let tok := ir.tokenOf p
      let ir := { ir with got := ir.gotOne p }
      let s := s.landTok p tok
      if ir.cancelled.contains (p.unit, p.cue) then
        (((s.setTroupe t { tr with ins := mapAt tr.ins p.route (fun _ => ir) }).countCancelled t 1).dropTok p.part tok).returnCredit t p.src p.srcRoute
      else
        let line := ir.desc.ring + ir.wr % ir.desc.slots
        let slot : RingSlot := { line := line, last := p.last, poison := p.poison, seq := p.seq, unit := p.unit,
                                 cue := p.cue, src := p.src, srcRoute := p.srcRoute, tok := tok }
        let ir' := { ir with q := ir.q ++ [slot], wr := (ir.wr + 1) % ir.desc.slots }
        (s.sramLine t line (bytesOf x) false).setTroupe t { tr with ins := mapAt tr.ins p.route (fun _ => ir') }

/-- R276: a status record for a unit of troupe t arrives: it counts toward N_d; one of ST_UNDERSTUDY tells the unit that its weights stand at ULINE. -/
def State.statusArrive (s : State) (t unit status : Nat) : State :=
  s.setTroupe t ((s.troupe t).mapUnit unit (fun u =>
    { u with recs := u.recs + 1, undRec := u.undRec || status == 2, dead := u.dead || status == 0x20 }))

/-- R275: a DLV parcel is written into troupe SRAM, or dropped where its delivery is cancelled; its credit returns to the
courier context that sent it. -/
def State.dlvArrive (s : State) (t : Nat) (p : MParcel) (x : BitVec 512) : State :=
  let tr := s.troupe t
  if tr.dlv.contains (p.route, p.unit, p.cue) then (s.countCancelled t 1).dlvCredit t p
  else
    let s := (s.sramLine t p.line (bytesOf x) p.poison).ledgerAdd (fun l => { l with delivered := l.delivered + 1 })
    let s := s.dlvCredit t p
    if p.last then s.statusArrive t (bitsOf x.toNat 16 16) (bitsOf x.toNat 0 8) else s

/-- R83: credits reach a sender: up to the route's count. -/
def State.credArrive (s : State) (t : Nat) (pairs : List (Nat × Nat)) : State :=
  let tr := s.troupe t
  s.setTroupe t { tr with outs := tr.outs.zipIdx.map (fun (o, i) =>
    let n := ((pairs.filter (fun q => q.1 == i)).map (·.2)).sum
    { o with cr := min o.desc.credits (o.cr + n) }) }

/-- R87: a CANCEL for (route, unit, cue): the pair is kept, and queued parcels that match are dropped with their credit
returned. A route beyond the inbound routes names a delivery stream (R278). -/
def State.cancelArrive (s : State) (t route unit cue : Nat) (isDlv : Bool) : State :=
  let tr := s.troupe t
  if isDlv then s.setTroupe t { tr with dlv := tr.dlv ++ [(route, unit, cue)] }
  else
    match tr.ins[route]? with
    | none => s
    | some ir =>
      let gone := ir.q.filter (fun q => q.unit == unit && q.cue == cue && q.reader.isNone)
      let kept := ir.q.filter (fun q => !(q.unit == unit && q.cue == cue && q.reader.isNone))
      let s := s.setTroupe t { tr with ins := mapAt tr.ins route (fun _ =>
        { ir with q := kept, cancelled := ir.cancelled ++ [(unit, cue)] }) }
      let s := gone.foldl (fun s q => s.dropTok (s.trpPart t) q.tok) (s.countCancelled t gone.length)
      s.returnCredits t (gone.map (fun q => (q.src, q.srcRoute)))

/-- R265: the work of a context ends: it goes to IDLE, or to POOL where no plan is bound. -/
def State.endWork (s : State) (k : Nat) : State :=
  let x := s.cxAt (ctxKey k)
  let st : CxSt := if s.is1 (Reg.CRR_CTX_PLAN_EN k) then .idle else .pool
  ((s.setCxAt (ctxKey k) { x with st := st }).setCtx k { s.ctx k with job := none }).forget (ctxKey k)

/-- R271: a stream of a context: its id toward one troupe. -/
def streamKey (t stream : Nat) : Nat := 64 * t + stream

/-- R275: the credits of the stream of a parcel that its context has in use. -/
def State.dlvUsed (s : State) (k : Nat) (it : DlvItem) : Nat :=
  match s.physOf it.troupe with
  | some t => (s.ctx k).used.getD (streamKey t it.stream) 0
  | none => 0

/-- R275, R276: inject a DLV parcel of a context: it enters the mesh at the gate nearest to the destination troupe. A status record carries the
cue in which it is sent. -/
def State.injectDlv (s : State) (k : Nat) (it : DlvItem) : State :=
  match s.physOf it.troupe with
  | none => s
  | some t =>
    let c := s.ctx k
    let key := streamKey t it.stream
    let seq := c.seqs.getD key 0
    let x := if it.closes then BitVec.ofNat 512 (putBits it.data.toNat 32 32 (s.cueNow % 2 ^ 32)) else it.data
    let p : MParcel :=
      { poison := it.poison, last := it.last, cue := s.cueNow % 256, line := it.line, unit := it.unit,
        seq := seq % 65536, route := it.stream, kind := 1, vl := 1, src := gateOf t, srcRoute := k, dst := t,
        pl := .data x, at_ := gateOf t, inDir := 5, part := it.part }
    let s := (s.inject p).ledgerAdd (fun l => { l with injected := l.injected + 1 })
    s.setCtx k { c with used := c.used.setD key 0 (c.used.getD key 0 + 1)
                        seqs := c.seqs.setD key 0 (seq + 1)
                        bytes := c.bytes + (if it.closes then 0 else 64) }

/-- R274 to R276: a context injects the parcels it holds while it holds a credit on their stream; with its status record an
entry ends. -/
def State.pumpGo (s : State) (k : Nat) : Nat → State
  | 0 => s
  | fuel + 1 =>
    let c := s.ctx k
    match c.q with
    | [] => s
    | it :: rest =>
      if it.credits ≤ s.dlvUsed k it then s
      else
        let s := (s.setCtx k { c with q := rest }).injectDlv k it
        let s :=
          if !it.closes then s
          else
            let c := s.ctx k
            let s := s.setCtx k { c with closed := c.closed ++ [it.ent] }
            match c.job with
            | some j => if j.idx = it.ent % 4096 ∧ j.sent then s.endWork k else s
            | none => s
        State.pumpGo s k fuel

/-- R290: a context injects what it can; one in STOPPED injects nothing. -/
def State.pump (s : State) (k : Nat) : State :=
  match (s.cxAt (ctxKey k)).st with
  | .stopped _ => s
  | _ => s.pumpGo k (s.ctx k).q.length

/-- R275: credits of streams from troupe t reach the courier context that sent on them. -/
def State.courierCred (s : State) (k t : Nat) (pairs : List (Nat × Nat)) : State :=
  let s := pairs.foldl (fun s q =>
    let c := s.ctx k
    let key := streamKey t q.1
    s.setCtx k { c with used := c.used.setD key 0 (c.used.getD key 0 - q.2) }) s
  s.pump k

/-- R470: whether a parcel of a partition is older than the Curtain that fell on it. -/
def State.beforeCurtain (s : State) (p : MParcel) : Bool :=
  s.curtain p.part && ((s.res.curtainCue.getD p.part 0 + 256 - p.cue % 256) % 256 != 0) &&
    decide ((s.res.curtainCue.getD p.part 0 + 256 - p.cue % 256) % 256 < 128)

/-- R392: a gate forms the fabric parcel of an OUT mesh parcel, or of the CANCEL of an OUT route with the number SENT, and
passes it to the switch at port LOCAL. -/
def State.gateLeave (s : State) (p : MParcel) (pl : Nat) : State :=
  let o := p.out.getD {}
  let cancel := p.kind == 4
  s.sendFab 18 { op := 8, cls := if cancel then 4 else o.swclass, poison := p.poison, src := s.device, dst := o.dev, part := p.part,
                 tag := if cancel then 0 else p.seq,
                 arg := parcelArg o.troupe o.route (if cancel then 2 else if o.swclass = 5 then 1 else 0) p.last p.cue p.unit,
                 pl := pl }

/-- R540: whether the domain of a region is being power-cycled, or its cycle has ended in this cue. -/
def State.cycling (s : State) (r : Nat) : Bool := s.rd (Reg.CLK_REG_POWER r) == 3 || s.door.cycled.contains r

/-- R540: a parcel that arrives for a troupe whose domain cycles is dropped, its credit returned. -/
def State.cycleDrop (s : State) (t : Nat) (p : MParcel) : State :=
  let s := (s.countCancelled t 1).dropTok p.part p.tok
  if p.kind = 1 then s.dlvCredit t p else s.returnCredit t p.src p.srcRoute

/-- R221, R392: a parcel that leaves the device through a gate is delivered as far as this device's ledgers go, and so is its model token
(log entry 44). -/
def State.leaveTok (s : State) (p : MParcel) : State :=
  let s := s.ledgerAdd (fun l => { l with delivered := l.delivered + 1 })
  match p.tok with
  | some c => s.tokenAdd p.part c (fun l => { l with delivered := l.delivered + 1 })
  | none => s

/-- What a parcel does where it leaves the mesh at troupe t. -/
def State.eject (s : State) (t : Nat) (p : MParcel) : State :=
  let s := if s.rd (Reg.CLK_REG_POWER (regionOf t)) = 1 then s.ungate (regionOf t) else s
  match p.pl with
  | .data x =>
    if p.kind = 5 then (s.gateLeave p x.toNat).leaveTok p
    else if s.beforeCurtain p then
      (if p.kind = 1 then s.dlvCredit t p else s.returnCredit t p.src p.srcRoute)
    else if s.cycling (regionOf t) then s.cycleDrop t p
    else if p.kind = 1 then s.dlvArrive t p x
    else s.ringArrive t p x
  | .cred pairs none => s.credArrive t pairs
  | .cred pairs (some k) => s.courierCred k p.src pairs
  | .cancel r u c =>
    if p.out.isSome then s.gateLeave p p.seq
    else s.cancelArrive t r u c (p.srcRoute == 1)

/-- R79: the coordinates of troupe t as a header gives them: the column in bits [6:0], the row in bits [13:7]. -/
def coordNum (t : Nat) : Nat := t % 80 + t / 80 * 2 ^ 7

/-- R79: the 96-bit header of a mesh parcel. A parcel that entered by a gate has the gate's troupe as its source. -/
def MParcel.header (p : MParcel) : Nat :=
  coordNum p.dst + coordNum (if p.src < 6400 then p.src else gateOf p.dst) * 2 ^ 14 + p.vl * 2 ^ 28 + p.kind * 2 ^ 30 + p.route % 64 * 2 ^ 34 +
    p.seq * 2 ^ 40 + p.unit * 2 ^ 56 + p.line * 2 ^ 72 + p.cue * 2 ^ 85 + b2n p.last * 2 ^ 93 + b2n p.poison * 2 ^ 94

/-- R79, R83, R87: the 64-byte payload of a mesh parcel as a number: the data; the entries of a CRED, which name the context it goes to or no
troupe; SENT for the CANCEL of an OUT route (log entry 91). -/
def MParcel.payload (p : MParcel) : Nat :=
  match p.pl with
  | .data x => x.toNat
  | .cred pairs k => credNum (pairs.map (fun q => credEntry (k.getD 0) q.1 q.2))
  | .cancel _ _ _ => if p.out.isSome then p.seq else 0

/-- R79: the 80 bytes of a mesh parcel: the header, the seal that the sending mesh interface computes over header and payload, the payload. -/
def MParcel.image (p : MParcel) : Nat := p.header + sealOf p.header p.payload * 2 ^ 96 + p.payload * 2 ^ 128

/-- R78, R79: whether the seal of 80 received bytes verifies. -/
def sealGood (x : Nat) : Bool := sealOf (x % 2 ^ 96) (bitsOf x 128 512) == bitsOf x 96 32

/-- R80: whether a header is one that hardware forms: Rsvd zero, a listed KIND, a LINE in range where it is used, coordinates below 80, the
lane that its KIND uses (R76). -/
def headerOk (h : Nat) : Bool :=
  let kind := bitsOf h 30 4
  let vl := bitsOf h 28 2
  !bitOf h 95 && decide (kind < 7) && (!(kind == 1 || kind == 5) || decide (bitsOf h 72 13 < 6144)) &&
    decide (bitsOf h 0 7 < 80) && decide (bitsOf h 7 7 < 80) && decide (bitsOf h 14 7 < 80) && decide (bitsOf h 21 7 < 80) &&
    vl == (if kind = 0 ∨ kind = 5 then 0 else if kind = 1 then 1 else if kind = 2 then 2 else 3)

/-- R80: whether a parcel's header is one that hardware forms. -/
def MParcel.wellFormed (p : MParcel) : Bool := headerOk p.header

/-- R79: the entries of a CRED payload as pairs of route and count, the empty ones left out. -/
def credPairs (pl : Nat) : List (Nat × Nat) :=
  ((List.range 16).map (fun i => (bitsOf pl (32 * i + 13) 6, bitsOf pl (32 * i + 19) 13))).filter (fun q => q.2 != 0)

/-- R79: a parcel as a router reads it from 80 bytes that differ from those sent. -/
def MParcel.reread (p : MParcel) (x : Nat) : MParcel :=
  let pl := bitsOf x 128 512
  { p with poison := bitOf x 94, last := bitOf x 93, cue := bitsOf x 85 8, line := bitsOf x 72 13, unit := bitsOf x 56 16, seq := bitsOf x 40 16,
           route := bitsOf x 34 6, kind := bitsOf x 30 4, vl := bitsOf x 28 2, dst := bitsOf x 0 7 + 80 * bitsOf x 7 7,
           pl := match p.pl with
             | .data _ => .data (BitVec.ofNat 512 pl)
             | .cred _ k => .cred (credPairs pl) k
             | .cancel _ _ _ => .cancel (bitsOf x 34 6) (bitsOf x 56 16) (bitsOf x 85 8) }

/-- R77: the first of the numbers below n, from `first` on and round, that may be served. -/
def roundRobin (ok : Nat → Bool) (first n : Nat) : Option Nat := ((List.range n).map (fun i => (first + i) % n)).find? ok

/-- The parcels of a lane that wait at router r for output `od`, oldest first. -/
def State.waitsFor (s : State) (r od vl : Nat) : List MParcel :=
  s.trp.mesh.filter (fun p => p.at_ == r && p.vl == vl && routeDir r p.dst == od)

/-- R77, R81: whether a lane of an output has a parcel and a hop credit (the local output needs none). -/
def State.laneReady (s : State) (r od vl : Nat) : Bool :=
  !(s.waitsFor r od vl).isEmpty && (od == 4 || decide (s.trp.hopUsed.getD (hopKey r od vl) 0 < 16))

/-- R77: the parcel that output `od` of router r sends next: VL3 first, then VL0 to VL2 in turn, and within a lane the inputs in turn. -/
def State.nextParcel (s : State) (r od : Nat) : Option MParcel :=
  match (if s.laneReady r od 3 then some 3 else roundRobin (s.laneReady r od) (s.trp.nextVl.getD (8 * r + od) 0) 3) with
  | none => none
  | some vl =>
    let ps := s.waitsFor r od vl
    match roundRobin (fun i => ps.any (fun p => p.inDir == i)) (s.trp.nextIn.getD (hopKey r od vl) 0) 6 with
    | none => none
    | some i => ps.find? (fun p => p.inDir == i)

/-- R77: an output has sent a parcel: the turns of its lanes and inputs move on. -/
def State.turned (s : State) (r od : Nat) (p : MParcel) : State :=
  { s with trp := { s.trp with
      nextVl := if p.vl = 3 then s.trp.nextVl else s.trp.nextVl.setD (8 * r + od) 0 ((p.vl + 1) % 3)
      nextIn := s.trp.nextIn.setD (hopKey r od p.vl) 0 ((p.inDir + 1) % 6) } }

/-- R78: the seal of a parcel on the link from router r by output `od` to router t fails: it is sent again, or, the fourth time, the link is
FAILED (the parcel is lost: log entry 13). -/
def State.sealFails (s : State) (t r od : Nat) (p : MParcel) : State :=
  if p.tries = 3 then
    let s := (s.dropParcel p).freeSlot p
    ({ s with trp := { s.trp with linkFailed := s.trp.linkFailed.insert (r * 8 + od) true } }).raise 44
  else
    ({ s with trp := { s.trp with mesh := s.trp.mesh.map (fun q => if q = p then { p with tries := p.tries + 1 } else q) } }).satAdd
      (Reg.TRP_TRAFFIC_RETRIED t) 1

/-- R78, R80, R81: a parcel that a link carries into router t from input `dir`, its seal good, as that router reads it: it is dropped as
malformed, it leaves the mesh at its destination, or it takes an input slot. -/
def State.takeParcel (s : State) (t dir : Nat) (p : MParcel) : State :=
  if !p.wellFormed then s.satAdd (Reg.TRP_TRAFFIC_MALFORMED t) 1
  else if p.dst = t then s.eject t p
  else
    let k := hopKey ((neighbour t dir).getD t) (opposite dir) p.vl
    let s := { s with trp := { s.trp with hopUsed := s.trp.hopUsed.setD k 0 (s.trp.hopUsed.getD k 0 + 1) } }
    s.inject { p with at_ := t, inDir := dir, tries := 0 }

/-- R77 to R81: the parcel that the router at the other end of router t's link `dir` sends next arrives at t, with the bits `flips` of its 80 bytes
changed on the way; `dir` 4 is t's own local output, where a parcel for t leaves the mesh. -/
def State.meshArrive (s : State) (t dir flips : Nat) : State :=
  if s.halted then s
  else if dir = 4 then
    match s.nextParcel t 4 with
    | none => s
    | some p => ((s.turned t 4 p).dropParcel p).eject t p
  else
    match neighbour t dir with
    | none => s
    | some up =>
      let od := opposite dir
      if s.trp.linkFailed.getD (up * 8 + od) false then s
      else match s.nextParcel up od with
      | none => s
      | some p =>
        let x := p.image ^^^ flips
        if flips ≠ 0 ∧ !sealGood x then s.sealFails t up od p
        else (((s.turned up od p).dropParcel p).freeSlot p).takeParcel t dir (if flips = 0 then p else p.reread x)

/-- R81: a hop credit on its way back for an output and lane of router t arrives there. -/
def State.hopReturn (s : State) (t dir vl : Nat) : State :=
  let k := hopKey t dir vl
  if s.trp.hopBack.getD k 0 = 0 then s
  else { s with trp := { s.trp with
      hopBack := s.trp.hopBack.setD k 0 (s.trp.hopBack.getD k 0 - 1)
      hopUsed := s.trp.hopUsed.setD k 0 (s.trp.hopUsed.getD k 0 - 1) } }

end Sys2Proof.Machine
end

