-- ==== Sys2Proof/Machine/Units.lean ====
section
/-!
DEFINITION. Units on troupes: starting, ending, carrying, cancelling; the exceptions of compute programs; logic faults
(R43 to R49, R86 to R88, R148, R155 to R162, R601).
-/

namespace Sys2Proof.Machine

/-- Note a condition of R457 for the streams of partition p in this cue. -/
def State.noteCond (s : State) (p b : Nat) : State :=
  { s with res := { s.res with cond := s.res.cond.setD p 0 (s.res.cond.getD p 0 ||| 2 ^ b) } }

/-- R145: the CEs that take part in a unit, as a mask. -/
def partMask (img : Img) (d : UnitDesc) : Nat :=
  (List.range 48).foldl (fun m c =>
    if bitOf d.cemask c ∧ (img.cemap[c]?.getD 255) ≠ 255 then m + 2 ^ c else m) 0

/-- R145: the CEs that take part in a unit of a troupe's image. -/
def Troupe.unitMask (tr : Troupe) (d : UnitDesc) : Nat := match tr.img with | some img => partMask img d | none => d.cemask

/-- The section a CE runs (R145). -/
def sectionOf (img : Img) (c : Nat) : List Word := (img.secs[img.cemap[c]?.getD 255]?).getD []

/-- R213: the outbound routes of a troupe on which a unit sends, with their numbers. -/
def Troupe.outsOf (tr : Troupe) (unit : Nat) : List (OutRt × Nat) :=
  tr.outs.zipIdx.filter (fun (o, _) =>
    (o.desc.kind == 5 || o.desc.sunit == unit || o.desc.sunit == 0xFFFF) && decide (0 < o.desc.credits))

/-- R601: the units that read, in this cue on this device, a route that unit u of troupe t sends on. -/
def State.consumers (s : State) (t u : Nat) : List (Nat × Nat) :=
  (s.troupe t).outs.flatMap (fun o =>
    if o.desc.kind ≠ 5 ∧ 0 < o.desc.credits ∧ (o.desc.sunit = u ∨ o.desc.sunit = 0xFFFF) then
      match o.dstPhys with
      | none => []
      | some d =>
        match (s.troupe d).ins[o.desc.dstRoute]? with
        | none => []
        | some ir =>
          if ir.desc.runit = 0xFFFF then (s.troupe d).units.map (fun x => (d, x.desc.id)) else [(d, ir.desc.runit)]
    else [])

/-- R601: the dependants of a list of units, found in at most `fuel` rounds. -/
def State.depsGo (s : State) : Nat → List (Nat × Nat) → List (Nat × Nat) → List (Nat × Nat)
  | 0, _, acc => acc
  | fuel + 1, front, acc =>
    let nxt := ((front.flatMap (fun q => s.consumers q.1 q.2)).filter (fun q => !acc.contains q)).dedup
    if nxt.isEmpty then acc else State.depsGo s fuel nxt (acc ++ nxt)

/-- R601: the dependants of unit u of troupe t. -/
def State.dependants (s : State) (t u : Nat) : List (Nat × Nat) :=
  (s.depsGo ((s.trp.t.map (fun e => e.2.units.length)).sum + 1) [(t, u)] []).filter (fun q => q != (t, u))

/-- R87: one CANCEL for each outbound route of a unit. -/
def State.cancelOutputs (s : State) (t u : Nat) : State :=
  ((s.troupe t).outsOf u).foldl (fun s (o, _) =>
    let c := s.cueNow % 256
    if o.desc.kind = 5 then
      s.inject { kind := 4, vl := 3, src := t, dst := gateOf t, at_ := t, cue := c, unit := u, seq := o.sentBy.getD u 0,
                 pl := .cancel o.desc.rroute u c, part := s.trpPart t,
                 out := some { dev := o.desc.rdev, swclass := o.desc.swclass, troupe := o.desc.rtroupe, route := o.desc.rroute } }
    else match o.dstPhys with
      | none => s
      | some d => s.inject { kind := 4, vl := 3, src := t, dst := d, at_ := t, cue := c, unit := u,
                             pl := .cancel o.desc.dstRoute u c, part := s.trpPart t }) s

/-- Stop every CE of a unit, leaving it in a state (R87, R162). -/
def State.stopCEs (s : State) (t u : Nat) (st : CxSt) : State :=
  (List.range 48).foldl (fun s c =>
    let x := s.cxAt (ceKey t c)
    if x.unit = u ∧ x.st ≠ .idle ∧ x.st ≠ .halt then s.setCxAt (ceKey t c) { x with st := st } else s) s

/-- Why the slots that a unit has read are released: a SKIP unit's RECV reads them (R156), the unit completes, it is cancelled. -/
inductive Release where
  | read | done | cancelled
  deriving DecidableEq, Repr

/-- R221: a model token whose last parcel a unit has read is delivered with the unit's completion, or cancelled. -/
def State.endTok (s : State) (t : Nat) (done : Bool) (k : Nat × Bool) : State :=
  s.tokenAdd (s.trpPart t) k.1 (fun l =>
    if done then { l with delivered := l.delivered + 1, residual := l.residual + (if k.2 then 1 else 0) }
    else { l with cancelled := l.cancelled + 1 })

/-- Release the ring slots a unit has read: their credits return (R45, R83, R156), their parcels count as delivered or as cancelled, and so do the
model tokens they complete; those that a SKIP unit reads count once it ends (R221). -/
def State.releaseSlots (s : State) (t u : Nat) (why : Release) : State :=
  (List.range (s.troupe t).ins.length).foldl (fun s r =>
    match (s.troupe t).ins[r]? with
    | none => s
    | some ir =>
      let gone := ir.q.filter (fun q => q.reader == some u)
      if gone.isEmpty then s
      else
        let toks := gone.filterMap (fun q => q.tok.map (fun c => (c, bitOf ir.desc.tflags 1)))
        let tr := s.troupe t
        let tr := { tr with ins := mapAt tr.ins r (fun ir => { ir with q := ir.q.filter (fun q => q.reader != some u) }) }
        let s := s.setTroupe t (if why = .read then tr.mapUnit u (fun x => { x with toks := x.toks ++ toks }) else tr)
        let s := if why = .read then s else toks.foldl (fun s k => s.endTok t (why == .done) k) s
        let s := if why = .cancelled then s.ledgerAdd (fun l => { l with cancelled := l.cancelled + gone.length })
                 else s.ledgerAdd (fun l => { l with delivered := l.delivered + gone.length })
        s.returnCredits t (gone.map (fun q => (q.src, q.srcRoute)))) s

/-- R221: the model tokens that a unit has read and released count with its end. -/
def State.settleToks (s : State) (t u : Nat) (done : Bool) : State :=
  match (s.troupe t).unit u with
  | none => s
  | some x => (x.toks.foldl (fun s k => s.endTok t done k) s).setTroupe t
      (((x.toks.foldl (fun s k => s.endTok t done k) s).troupe t).mapUnit u (fun x => { x with toks := [] }))

/-- R45, R157: the slots a carried unit has read stay in its rings, unread again. -/
def State.rewindSlots (s : State) (t u : Nat) : State :=
  s.setTroupe t { s.troupe t with ins := (s.troupe t).ins.map (fun ir =>
    { ir with q := ir.q.map (fun q => if q.reader = some u then { q with reader := none } else q) }) }

/-- R220: an outbound route that carries model tokens, of TPP parcels each. -/
def OutDesc.tokens (d : OutDesc) : Bool := bitOf d.tflags 0 && d.tpp != 0

/-- R220: note the model tokens that a unit, as it completes, leaves partial on its outbound token routes. -/
def State.partialTokens (s : State) (t u : Nat) : State :=
  ((s.troupe t).outsOf u).foldl (fun s (o, _) =>
    if !o.desc.tokens ∨ o.sentBy.getD u 0 % o.desc.tpp = 0 then s
    else s.tokenAdd (s.trpPart t) (bitsOf o.desc.tflags 2 3) (fun l => { l with partials := l.partials + 1 })) s

/-- R148: a unit completes once every CE that takes part has executed END. -/
def State.completeUnit (s : State) (t u : Nat) : State :=
  let tr := s.troupe t
  match tr.unit u with
  | none => s
  | some x =>
    let mask := match tr.img with | some im => partMask im x.desc | none => 0
    let dl := (List.range 48).any (fun c => bitOf mask c && bitOf (s.cxAt (ceKey t c)).flags 5)
    let dead := x.dead || dl
    let s := s.setTroupe t (tr.mapUnit u (fun x => { x with st := .done, dead := dead, carries := 0, carried := false }))
    let s := ((s.partialTokens t u).releaseSlots t u .done).settleToks t u true
    let s := if dead then s.noteCond (s.trpPart t) 4 else s
    if x.undRec then s.noteCond (s.trpPart t) 6 else s

/-- R47: a unit carried for CUE_CARRY_ALERT.CUES consecutive cues raises EV_CARRY_LIMIT once. -/
def State.carryAlert (s : State) (t u : Nat) : State :=
  let lim := s.rd Reg.CUE_CARRY_ALERT_CUES
  match (s.troupe t).unit u with
  | none => s
  | some x =>
    if lim ≠ 0 ∧ lim ≤ x.carries ∧ !x.alerted then
      (s.setTroupe t ((s.troupe t).mapUnit u (fun x => { x with alerted := true }))).raise 35
    else s

/-- R88: whether a unit stands on a QUARANTINED troupe, or depends in this cue on a unit that does: it is cancelled and never carried. -/
def State.quarantined (s : State) (t u : Nat) : Bool :=
  s.trpState t == 1 || (s.rd Reg.TRP_SUMMARY_QUARANTINED != 0 &&
    s.trp.t.any (fun e => s.trpState e.1 == 1 && e.2.units.any (fun x => (s.dependants e.1 x.desc.id).contains (t, u))))

/-- Cancel one unit: its CEs stop, its outputs are cancelled, its inputs released (R44, R162). -/
def State.cancelOne (s : State) (t u : Nat) (st : CxSt) : State :=
  match (s.troupe t).unit u with
  | none => s
  | some x =>
    if x.st = .done ∨ x.st = .cancelled then s
    else
      let s := s.stopCEs t u st
      let s := s.cancelOutputs t u
      let s := (s.releaseSlots t u .cancelled).settleToks t u false
      s.setTroupe t ((s.troupe t).mapUnit u (fun x =>
        { x with st := .cancelled, carries := 0, carried := false, ended := 0, bars := [] }))

/-- Cancel a unit and its dependants without carrying them, noting a condition of R457 (R78, R88, R162, R540). -/
def State.cancelUnit (s : State) (t u b : Nat) : State :=
  let ds := s.dependants t u
  let s := (s.cancelOne t u .idle).noteCond (s.trpPart t) b
  ds.foldl (fun s q => (s.cancelOne q.1 q.2 .idle).noteCond (s.trpPart q.1) b) s

/-- R44: stop one unit and carry it to the next cue, its inputs kept; one that a quarantine bars is cancelled instead (R88). -/
def State.carryOne (s : State) (t u : Nat) : State :=
  match (s.troupe t).unit u with
  | none => s
  | some x =>
    if x.st = .done ∨ x.st = .missed ∨ x.st = .cancelled then s
    else if s.quarantined t u then (s.cancelOne t u .idle).noteCond (s.trpPart t) 2
    else
      let s := s.stopCEs t u .idle
      let s := s.cancelOutputs t u
      let s := s.rewindSlots t u
      let s := s.setTroupe t ((s.troupe t).mapUnit u (fun x =>
        { x with st := .missed, carries := x.carries + 1, carried := true, since := if x.carried then x.since else s.cueNow, ended := 0, bars := [] }))
      let s := s.satAdd Reg.CUE_MISS_COUNT_CARRIED 1
      let s := s.noteCond (s.trpPart t) 5
      s.carryAlert t u

/-- R44: CARRY: the unit and all its dependants in this cue. -/
def State.carryUnit (s : State) (t u : Nat) : State :=
  let ds := s.dependants t u
  ds.foldl (fun s q => s.carryOne q.1 q.2) (s.carryOne t u)

/-- R44: the parcels that wait unread on the routes that unit u alone reads are released, their credits returned (log entry 89). -/
def State.releaseUnread (s : State) (t u : Nat) : State :=
  (List.range (s.troupe t).ins.length).foldl (fun s r =>
    match (s.troupe t).ins[r]? with
    | none => s
    | some ir =>
      let gone := ir.q.filter (fun q => q.reader.isNone)
      if ir.desc.runit ≠ u ∨ gone.isEmpty then s
      else
        let s := s.setTroupe t { s.troupe t with ins := mapAt (s.troupe t).ins r (fun ir =>
          { ir with q := ir.q.filter (fun q => q.reader.isSome) }) }
        let s := s.ledgerAdd (fun l => { l with cancelled := l.cancelled + gone.length })
        let s := gone.foldl (fun s q => s.dropTok (s.trpPart t) q.tok) s
        s.returnCredits t (gone.map (fun q => (q.src, q.srcRoute)))) s

/-- The kinds of miss of R43. -/
inductive Miss where
  | delivery | completion | frame
  deriving DecidableEq, Repr

/-- R43, R44: a unit that misses takes its declared policy; a unit that took SKIP shows in its stream's record where nothing of R457 does
(condition 7, log entry 92). -/
def State.missUnit (s : State) (t u : Nat) (k : Miss) : State :=
  match (s.troupe t).unit u with
  | none => s
  | some x =>
    if x.st = .done ∨ x.st = .missed ∨ x.st = .cancelled then s
    else
      let s := if k = .frame then s.satAdd Reg.CUE_MISS_COUNT_FRAME 1 else s
      if s.quarantined t u then s.cancelUnit t u 2
      else if x.desc.policy = 2 then
        (((s.cancelOne t u .idle).releaseUnread t u).satAdd Reg.CUE_MISS_COUNT_SKIPPED 1).noteCond (s.trpPart t) 7
      else if x.desc.policy = 1 ∧ k = .delivery ∧ !x.understudy then
        s.setTroupe t ((s.troupe t).mapUnit u (fun x => { x with understudy := true }))
      else s.carryUnit t u

/-- R276: whether a unit's deliveries are present: its N_d status records have arrived. -/
def UnitRt.present (x : UnitRt) : Bool := decide (x.nd ≤ x.recs)

/-- R217, R231: whether every frame a unit declares holds its expected live tag. -/
def State.framesLive (s : State) (img : Img) (u : Nat) : Bool :=
  img.frames.all (fun f =>
    if f.unit = u ∨ f.unit = 0xFFFF then
      let want := (f.tag + (if f.rot = 0 then 0 else s.cueNow % f.rot)) % 2 ^ 32
      s.rd (Reg.PBK_FRAME_LIVE_TAG f.frame) == want && !(s.book.lateFrame.getD f.frame false)
    else true)

/-- R78: whether a route's dimension-order path, followed for at most `fuel` hops, crosses a FAILED link. -/
def State.pathFailed (s : State) : Nat → Nat → Nat → Bool
  | 0, _, _ => false
  | fuel + 1, r, d =>
    let dir := routeDir r d
    if dir = 4 then false
    else s.trp.linkFailed.getD (r * 8 + dir) false ||
      (match neighbour r dir with | some n => State.pathFailed s fuel n d | none => false)

/-- R78: the inbound routes of a unit of troupe t, with their numbers. -/
def Troupe.insOf (tr : Troupe) (u : Nat) : List (InRt × Nat) :=
  tr.ins.zipIdx.filter (fun (r, _) => (r.desc.runit == u || r.desc.runit == 0xFFFF) && decide (0 < r.desc.slots))

/-- R78, R392: the troupes of this device whose routes send to inbound route r of troupe t; none does where its parcels come from another device,
by the gate nearest to t. -/
def State.feeders (s : State) (t r : Nat) : List Nat :=
  let l := (s.trp.t.filter (fun _ (q : Troupe) => q.outs.any (fun o =>
    o.desc.kind != 5 && decide (0 < o.desc.credits) && o.dstPhys == some t && o.desc.dstRoute == r))).keys
  if l.isEmpty then [gateOf t] else l

/-- R78: whether a unit has a route that crosses a FAILED link: one that it sends on, or one that it reads. -/
def State.unitCut (s : State) (t u : Nat) : Bool :=
  !s.trp.linkFailed.isEmpty &&
    (((s.troupe t).outsOf u).any (fun (o, _) =>
      match (if o.desc.kind = 5 then some (gateOf t) else o.dstPhys) with
      | some d => s.pathFailed 160 t d
      | none => false) ||
     ((s.troupe t).insOf u).any (fun (_, r) => (s.feeders t r).any (fun q => s.pathFailed 160 q t)))

/-- The condition of R457 under which a unit of troupe t is cancelled at its start: the Curtain (R470), a teardown (R384), an aborted step
(R472), a quarantined troupe (R88), a domain that is power-cycled (R540), a FAILED link (R78); none where it may start. -/
def State.barred (s : State) (t u : Nat) : Option Nat :=
  let p := s.trpPart t
  if s.curtain p then some 0
  else if s.bit Reg.EFH_PART_STATE_TEARDOWN p then some 1
  else if s.bit Reg.EFH_PART_STATE_ABORT p ∨ bitOf s.res.resume p then some 4
  else if s.quarantined t u ∨ s.cycling (regionOf t) then some 2
  else if s.unitCut t u then some 2
  else none

/-- R148: the first unit CE c of a troupe has yet to end, in the order of R148. -/
def Troupe.nextUnit (tr : Troupe) (img : Img) (c : Nat) : Option Nat :=
  let cand := tr.units.filter (fun x => bitOf (partMask img x.desc) c && !bitOf x.ended c &&
    (x.st == .waiting || x.st == .running))
  let before (a b : UnitRt) : Bool :=
    if a.carried != b.carried then a.carried
    else if a.carried then decide (a.desc.id < b.desc.id)
    else decide (a.desc.start < b.desc.start) || (a.desc.start == b.desc.start && decide (a.desc.id < b.desc.id))
  (cand.foldl (fun best x => match best with
    | none => some x
    | some y => if before x y then some x else some y) none).map (·.desc.id)

/-- R131, R148: CE c begins a unit at ENTRY: FLAGS and the link stack are cleared, every other register keeps its value. -/
def beginCx (x : Cx) (img : Img) (d : UnitDesc) (c p : Nat) : Cx :=
  { x with pc := d.entry, len := (sectionOf img c).length, st := .run, flags := 0, link := [], unit := d.id,
           dline := d.d, ddel := d.ddel, level := img.level + 256 * img.isa, part := p }

/-- R145, R196: a barrier of a unit completes once every CE that takes part has arrived or ended: those waiting go on. -/
def State.settleBarrier (s : State) (t u id : Nat) : State :=
  match (s.troupe t).unit u with
  | none => s
  | some x =>
    let arrived := x.bars.getD id 0
    let mask := (s.troupe t).unitMask x.desc
    if arrived ≠ 0 ∧ (arrived ||| x.ended) &&& mask = mask then
      let s := s.setTroupe t ((s.troupe t).mapUnit u (fun x => { x with bars := x.bars.erase id }))
      (List.range 48).foldl (fun s c =>
        let k := ceKey t c
        if bitOf arrived c then s.setCxAt k { s.cxAt k with st := .run, pc := (s.cxAt k).pc + 1 } else s) s
    else s

/-- R86, R148: every idle CE whose next unit this is begins it once its start offset is reached and its deliveries are
present; a unit barred for its partition or troupe is cancelled, and one with a late frame misses (R231). -/
def State.startUnit (s : State) (t u : Nat) : State :=
  let tr := s.troupe t
  match tr.img, tr.unit u with
  | some img, some x =>
    if s.phase ≠ 1 ∨ (x.st ≠ .waiting ∧ x.st ≠ .running) ∨ (!x.carried ∧ s.ofs < x.desc.start) then s
    else match s.barred t u with
    | some b => s.cancelUnit t u b
    | none =>
      if !x.present then s
      else if x.st = .waiting ∧ !s.framesLive img u then s.missUnit t u .frame
      else
        let mask := partMask img x.desc
        let takers := (List.range 48).filter (fun c =>
          bitOf mask c && (s.cxAt (ceKey t c)).st == .idle && tr.nextUnit img c == some u)
        let empty := takers.filter (fun c => (sectionOf img c).isEmpty)
        let p := s.trpPart t
        let s := takers.foldl (fun s c =>
          if (sectionOf img c).isEmpty then s
          else s.setCxAt (ceKey t c) (beginCx (s.cxAt (ceKey t c)) img x.desc c p)) s
        let ended := (empty.map (2 ^ ·)).sum
        let s := if x.st = .waiting ∧ x.undRec then s.satAdd Reg.CUE_MISS_COUNT_UNDERSTUDY 1 else s
        let s := s.setTroupe t ((s.troupe t).mapUnit u (fun x =>
          { x with st := .running, ended := x.ended + ended, bars := if x.st = .waiting then [] else x.bars }))
        let s := if empty.isEmpty then s else (List.range 4).foldl (fun s id => s.settleBarrier t u id) s
        if x.ended + ended = mask then s.completeUnit t u else s
  | _, _ => s

/-- R148, R150: a CE ends its unit: the CE is IDLE, and the unit completes with the last. -/
def State.endCE (s : State) (t c u : Nat) : State :=
  let k := ceKey t c
  let s := s.setCxAt k { s.cxAt k with st := .idle }
  let s := s.setTroupe t ((s.troupe t).mapUnit u (fun x => { x with ended := x.ended ||| 2 ^ c }))
  let s := (List.range 4).foldl (fun s id => s.settleBarrier t u id) s
  match (s.troupe t).img, (s.troupe t).unit u with
  | some img, some x => if x.ended = partMask img x.desc then s.completeUnit t u else s
  | _, _ => s

/-- R93: TRP_SUMMARY counts the troupes in each state. -/
def State.summarise (s : State) : State :=
  let count (k : Nat) : Nat := ((List.range 6400).filter (fun t => s.trpState t == k)).length
  let s := s.wr Reg.TRP_SUMMARY_ACTIVE (count 0)
  let s := s.wr Reg.TRP_SUMMARY_QUARANTINED (count 1)
  let s := s.wr Reg.TRP_SUMMARY_RESERVED (count 2)
  let s := s.wr Reg.TRP_SUMMARY_SPARE (count 3)
  s.wr Reg.TRP_SUMMARY_RETIRED (count 4)

/-- Move one troupe from a state to another, keeping TRP_SUMMARY (R93). -/
def State.moveTroupe (s : State) (t to_ : Nat) : State :=
  let fld (k : Nat) : Option Fld :=
    if k = 0 then some Reg.TRP_SUMMARY_ACTIVE else if k = 1 then some Reg.TRP_SUMMARY_QUARANTINED
    else if k = 2 then some Reg.TRP_SUMMARY_RESERVED else if k = 3 then some Reg.TRP_SUMMARY_SPARE
    else if k = 4 then some Reg.TRP_SUMMARY_RETIRED else none
  let s := match fld (s.trpState t) with | some f => s.wr f (s.rd f - 1) | none => s
  let s := s.wr (Reg.TRP_STATE_STATE t) to_
  match fld to_ with | some f => s.wr f (s.rd f + 1) | none => s

/-- R88: a logic fault in a CE or unit control quarantines the troupe at once: its CEs halt, its outbound parcels are
cancelled, those of units already complete too, and its units and their dependants are cancelled. A troupe that is not ACTIVE is not changed
(log entry 93). -/
def State.logicFault (s : State) (t : Nat) : State :=
  if s.trpState t ≠ 0 then s
  else
    let s := (s.moveTroupe t 1).raise 41
    let s := (s.troupe t).units.foldl (fun s x => if x.st = .done then s.cancelOutputs t x.desc.id else s) s
    let s := (s.troupe t).units.foldl (fun s x => s.cancelUnit t x.desc.id 2) s
    (List.range 48).foldl (fun s c => s.setCxAt (ceKey t c) { s.cxAt (ceKey t c) with st := .halt }) s

/-- R162, R165: a CE that faults halts until the next TAKE, and the exception is recorded. -/
def State.ceRecord (s : State) (t c cause detail : Nat) : State :=
  let x := s.cxAt (ceKey t c)
  let s := s.setCxAt (ceKey t c) { x with st := .halt, cut := none }
  let s := s.writeXRec { profile := 0, cause := cause, pc := x.pc, source := t, sub := c, cue := s.cueNow % 256,
                         unit := x.unit, detail := detail % 2 ^ 32 }
  s.raise 48

/-- R166: the other CEs that run unit u of troupe t are stopped in this clk, so that one that faults in the same clk still records it. -/
def State.cutCEs (s : State) (t u c : Nat) : State :=
  (List.range 48).foldl (fun s i =>
    let x := s.cxAt (ceKey t i)
    if i ≠ c ∧ x.unit = u ∧ x.st ≠ .idle ∧ x.st ≠ .halt then s.setCxAt (ceKey t i) { x with cut := some (s.cueNow, s.ofs) } else s) s

/-- R161, R162: a compute exception stops every CE of the unit, cancels the unit and its dependants, and is recorded; the CE that
faulted halts until the next TAKE. ILLEGAL is a logic fault, with no record and no event 48 (log entry 94). -/
def State.ceException (s : State) (t c cause detail : Nat) : State :=
  if cause = 1 then s.logicFault t
  else
    let u := (s.cxAt (ceKey t c)).unit
    ((s.cutCEs t u c).cancelUnit t u 3).ceRecord t c cause detail

/-- R166: a CE that an exception of its unit stopped in this clk faults too: it records its own; the unit is cancelled once. -/
def State.lateFault (s : State) (u : Agent) (cause detail : Nat) : State :=
  match u with
  | .ce t c => if cause = 1 then s.logicFault t.val else s.ceRecord t.val c.val cause detail
  | _ => s

/-- R162, R163, R164: an exception of an agent, by its profile. -/
def State.exception (s : State) (u : Agent) (cause detail : Nat) : State :=
  match u with
  | .ce t c => s.ceException t.val c.val cause detail
  | .ctx k =>
    let x := s.cxAt (ctxKey k.val)
    let s := s.setCxAt (ctxKey k.val) { x with st := .stopped cause }
    let s := s.writeXRec { profile := 1, cause := cause, pc := x.pc, source := k.val / 16, sub := k.val % 16,
                           cue := s.cueNow % 256, unit := x.unit, detail := detail % 2 ^ 32 }
    s.raise 49
  | .core n =>
    let x := s.cxAt (coreKey n.val)
    let s := s.setCxAt (coreKey n.val) { x with st := .stopped cause }
    let s := s.writeXRec { profile := 2, cause := cause, pc := x.pc, source := n.val, sub := 0,
                           cue := s.cueNow % 256, unit := 0, detail := detail % 2 ^ 32 }
    (s.raise 50).settleLatches

end Sys2Proof.Machine
end

