-- ==== Sys2Proof/Machine/Operands.lean ====
section
/-!
DEFINITION. The instruction word (R133 to R137), its operand forms, the mask (R140, R141), the rules by which a word is
legal, and the one path by which every Oahan instruction issues (R138, R151, R159, R160).
-/

namespace Sys2Proof.Machine

/-! ### Fields of the word below MAJOR and MINOR (R133) -/

/-- A field of the word's low 52 bits. -/
def fld (f : BitVec 52) (lo w : Nat) : Nat := bitsOf f.toNat lo w

/-- D [46:41]. -/
def fD (f : BitVec 52) : Nat := fld f 41 6
/-- A [40:35]. -/
def fA (f : BitVec 52) : Nat := fld f 35 6
/-- B [34:29]. -/
def fB (f : BitVec 52) : Nat := fld f 29 6
/-- C [28:23]. -/
def fC (f : BitVec 52) : Nat := fld f 23 6
/-- RM [22:20]. -/
def fRM (f : BitVec 52) : Nat := fld f 20 3
/-- SAT [19]. -/
def fSAT (f : BitVec 52) : Bool := bitOf f.toNat 19
/-- TA [18:14]. -/
def fTA (f : BitVec 52) : Nat := fld f 14 5
/-- TB [13:9]. -/
def fTB (f : BitVec 52) : Nat := fld f 9 5
/-- TS [8:7]. -/
def fTS (f : BitVec 52) : Nat := fld f 7 2
/-- MOD [6:0]. -/
def fMOD (f : BitVec 52) : Nat := fld f 0 7
/-- IMM [31:0] of the I form. -/
def fIMM (f : BitVec 52) : Nat := fld f 0 32
/-- PE [51]. -/
def fPE (f : BitVec 52) : Bool := bitOf f.toNat 51
/-- PINV [50]. -/
def fPINV (f : BitVec 52) : Bool := bitOf f.toNat 50
/-- PSEL [49:47]. -/
def fPSEL (f : BitVec 52) : Nat := fld f 47 3

/-- How an instruction uses a specifier field: not at all, as a number up to a bound, or as a register group of a file. -/
inductive Opd where
  | z
  | num (max : Nat)
  | s | a | p
  | v (n : Nat)
  deriving DecidableEq, Repr

/-- The encoding of one instruction: MAJOR, MINOR, form, how each field is used. `ta`, `tb`: the type codes accepted (none
listed: the field is unused); `modMask`: the MOD bits it uses; `imm`: the low bits of IMM it uses. -/
structure Enc where
  major : Nat
  minor : Nat
  iform : Bool := false
  d : Opd := .z
  a : Opd := .z
  b : Opd := .z
  c : Opd := .z
  rm : Bool := false
  sat : Bool := false
  ta : List Nat := []
  tb : List Nat := []
  ts : Bool := false
  modMask : Nat := 0
  imm : Nat := 0
  deriving DecidableEq, Repr

/-- R136: whether a profile runs a major. -/
def majorIn (prof major : Nat) : Bool :=
  if prof = 0 then decide (major ≤ 0x12)
  else if prof = 1 then decide (major ≤ 6) || major == 8 || major == 9 || major == 0x13 || major == 0x14
  else [0, 2, 3, 4, 5, 0x12, 0x15, 0x16].contains major

/-- R129: whether a register specifier names registers the profile holds. -/
def Opd.legal (prof n : Nat) : Opd → Bool
  | .z => n == 0
  | .num m => decide (n ≤ m)
  | .s => decide (n < 32)
  | .a => decide (n < 16)
  | .p => decide (n < 8) && prof != 2
  | .v k => prof != 2 && decide (n + k ≤ if prof = 0 then 64 else 16)

/-- R129, R133 to R136, R140, R141, R173: whether an encoding's fields are all legal in a profile. -/
def Enc.legal (e : Enc) (prof : Nat) (f : BitVec 52) : Bool :=
  majorIn prof e.major &&
    (if fPE f then prof != 2 else !fPINV f && fPSEL f == 0) &&
    e.d.legal prof (fD f) && e.a.legal prof (fA f) &&
    (if e.iform then fld f 32 3 == 0 && decide (fIMM f < 2 ^ e.imm)
     else
      e.b.legal prof (fB f) && e.c.legal prof (fC f) &&
        (if e.rm then decide (fRM f ≤ 4) else fRM f == 0) &&
        (e.sat || !fSAT f) &&
        (if e.ta.isEmpty then fTA f == 0 else e.ta.contains (fTA f)) &&
        (if e.tb.isEmpty then fTB f == 0 else e.tb.contains (fTB f)) &&
        (e.ts || fTS f == 0) &&
        (fMOD f &&& (127 - e.modMask) == 0))

/-- The registers a specifier names, as pending-register keys. -/
def Opd.regs (n : Nat) : Opd → List PendReg
  | .s => [⟨0, n⟩]
  | .a => [⟨1, n⟩]
  | _ => []

/-- R138: the s and a registers that an instruction reads or writes beside those that its s and a specifiers name: s30, s31 and a15 for RM = 4
(R173); the scales aC and a(C + 1) of TDOT and TDOTB, and aC of TDOTS (R188); s(D + 1) of a 256-bit HDIST (R192); sD and aD of an atomic, with
a(D + 1), a(B + 1) and a(C + 1) of ACAS128 (R203). -/
def Enc.implied (e : Enc) (f : BitVec 52) : List PendReg :=
  let block (ty : Nat) : Bool := decide (10 ≤ ty) && decide (ty ≤ 16)
  (if e.rm && fRM f == 4 then [⟨0, 30⟩, ⟨0, 31⟩, ⟨1, 15⟩] else []) ++
    (if e.major = 0x0A then
      (if block (fTA f) then [⟨1, fC f⟩] else []) ++ (if decide (e.minor ≤ 1) && block (fTB f) then [⟨1, fC f + 1⟩] else [])
    else if e.major = 0x0C ∧ e.minor = 1 ∧ fMOD f = 0 then [⟨0, fD f + 1⟩]
    else if e.major = 0x12 then
      [⟨0, fD f⟩, ⟨1, fD f⟩] ++ (if e.minor = 8 then [⟨1, fD f + 1⟩, ⟨1, fB f + 1⟩, ⟨1, fC f + 1⟩] else [])
    else [])

/-- R138: the s and a registers an instruction reads or writes. -/
def Enc.regs (e : Enc) (f : BitVec 52) : List PendReg :=
  e.d.regs (fD f) ++ e.a.regs (fA f) ++
    (if e.iform then [] else e.b.regs (fB f) ++ e.c.regs (fC f)) ++ e.implied f

/-- R140: the mask M of an instruction. -/
def maskOf (x : Cx) (f : BitVec 52) : Nat :=
  if fPE f then
    let p := (x.p.getD (fPSEL f) 0).toNat
    if fPINV f then 0xFFFF - p else p
  else 0xFFFF

/-! ### Registers of a context -/

/-- s[n] as a number. -/
def Cx.sr (x : Cx) (n : Nat) : Nat := (x.s.getD n 0).toNat
/-- a[n] as a number. -/
def Cx.ar (x : Cx) (n : Nat) : Nat := (x.a.getD n 0).toNat
/-- p[n] as a number. -/
def Cx.pr (x : Cx) (n : Nat) : Nat := (x.p.getD n 0).toNat
/-- Lane l of v[n] as a number. -/
def Cx.vl (x : Cx) (n l : Nat) : Nat := (x.v.getD (16 * n + l) 0).toNat
/-- Write s[n]. -/
def Cx.setS (x : Cx) (n y : Nat) : Cx := { x with s := x.s.setD n 0 (BitVec.ofNat 32 y) }
/-- Write a[n]. -/
def Cx.setA (x : Cx) (n y : Nat) : Cx := { x with a := x.a.setD n 0 (BitVec.ofNat 64 y) }
/-- Write p[n]. -/
def Cx.setP (x : Cx) (n y : Nat) : Cx := { x with p := x.p.setD n 0 (BitVec.ofNat 16 y) }
/-- Write lane l of v[n]; the register no longer holds a parcel as RECV read it (R455). -/
def Cx.setL (x : Cx) (n l y : Nat) : Cx :=
  { x with v := x.v.setD (16 * n + l) 0 (BitVec.ofNat 32 y), vp := x.vp.filter (fun k => k != n) }
/-- OR bits into FLAGS: they are sticky (R131). -/
def Cx.orFlags (x : Cx) (fl : Nat) : Cx := { x with flags := x.flags ||| fl }
/-- The base of tally ts (R110). -/
def Cx.base (x : Cx) (ts : Nat) : Int := x.tb.getD ts 0
/-- Lane l of tally ts. -/
def Cx.tlane (x : Cx) (ts l : Nat) : TLane := x.tl.getD (16 * ts + l) {}
/-- Write lane l of tally ts. -/
def Cx.setT (x : Cx) (ts l : Nat) (y : TLane) : Cx := { x with tl := x.tl.setD (16 * ts + l) {} y }

/-- R170: the k registers from v[n] as one little-endian number, register order then lane order. -/
def Cx.group (x : Cx) (n k : Nat) : Nat :=
  (List.range (16 * k)).foldr (fun i acc => x.vl (n + i / 16) (i % 16) + 2 ^ 32 * acc) 0

/-- Write the k registers from v[n] from one number, in the lanes l of every register for which the mask has bit l. -/
def Cx.setGroup (x : Cx) (n k m y : Nat) : Cx :=
  (List.range (16 * k)).foldl (fun x i =>
    if bitOf m (i % 16) then x.setL (n + i / 16) (i % 16) (bitsOf y (32 * i) 32) else x) x

/-- The 64 bytes of v[n]. -/
def Cx.vbytes (x : Cx) (n : Nat) : List Byte := toLe 64 (x.group n 1)

/-! ### Issue -/

/-- What an instruction's body does: it completes, it branches, it waits at issue in a state of the context, or it raises an
exception with a cause and a detail, having had no effect (R160). -/
inductive Body where
  | go (s : State)
  | br (s : State) (target : Nat)
  | wait (s : State) (st : CxSt)
  | exc (cause detail : Nat)

/-- Whether a context may issue: it runs, or it waits at the issue of the instruction it now issues again. -/
def Cx.canIssue (x : Cx) (w : CxSt) : Bool := x.st == .run || x.st == .hold || x.st == w

/-- R264: the context of an agent is the one of its courier that issued last. -/
def State.issued (s : State) (u : Agent) : State :=
  { s with cour := { s.cour with last := match u with
    | .ctx k => s.cour.last.insert (k.val / 16) (k.val % 16)
    | _ => s.cour.last } }

/-- R264: whether context k is ready: in RUN, and not waiting for memory or for a credit. -/
def State.ready (s : State) (k : Nat) : Bool :=
  let c := s.ctx k
  (s.cxAt (ctxKey k)).st == .run && (s.xlt.acc.find? (ctxKey k)).isNone && (s.xlt.waits.find? (ctxKey k)).isNone &&
    (match c.job with | some j => !j.transit | none => true) &&
    (match c.q with | it :: _ => decide (s.dlvUsed k it < it.credits) | [] => true)

/-- R264: where context k stands in its courier's order of issue: first one that delivers an understudy copy, then the others in ascending number, starting after the
one that issued last. -/
def State.issueRank (s : State) (k : Nat) : Nat :=
  let c := s.ctx k
  let und := match c.job, c.q with | some j, it :: _ => j.ent.ulen != 0 && it.stream == j.ent.ustream | _, _ => false
  if und then 0 else 1 + (k % 16 + 15 - s.cour.last.getD (k / 16) 15) % 16

/-- R264: whether an agent may issue now: a context, where no ready context of its courier comes before it (log entry 102). -/
def State.mayIssue (s : State) (u : Agent) : Bool :=
  match u with
  | .ctx k => (List.range 16).all (fun i =>
      let j := k.val / 16 * 16 + i
      j == k.val || !s.ready j || decide (s.issueRank k.val ≤ s.issueRank j))
  | _ => true

/-- After a completed instruction the context runs at the next index. -/
def State.advance (s : State) (u : Agent) : State :=
  let x := s.cx u
  (s.setCx u { x with pc := x.pc + 1, st := if x.st == .hold || x.st == .recv || x.st == .credit then .run else x.st }).issued u

/-- R136: whether Oahan operation reference defines a minor of a major. -/
def minorDefined (major minor : Nat) : Bool :=
  decide (minor < [11, 8, 16, 12, 10, 9, 15, 15, 4, 6, 4, 5, 2, 6, 6, 4, 4, 3, 9, 6, 4, 5, 6].getD major 0) ||
    (major == 4 && decide (16 ≤ minor) && decide (minor ≤ 18))

/-- R128: the word that an agent's instruction store holds at an index, where the model knows the program (log entry 9). -/
def State.storedWord (s : State) (u : Agent) (pc : Nat) : Option Word :=
  match u with
  | .ce t c => (s.troupe t.val).img.bind (fun img => (sectionOf img c.val)[pc]?)
  | .ctx k => (s.proc.code.getD (k.val / 16) [])[pc]?
  | .core n => (s.proc.code.getD (256 + n.val) [])[pc]?

/-- R136, R137: the upper half of the word at an agent's PC, where the store holds one whose major its profile does not run, or whose minor is not
defined. -/
def State.badWord (s : State) (u : Agent) : Option Nat :=
  match s.storedWord u (s.cx u).pc with
  | none => none
  | some w =>
    let major := bitsOf w.toNat 58 6
    if majorIn (agentProfile u) major && minorDefined major (bitsOf w.toNat 52 6) then none else some (w.toNat / 2 ^ 32)

/-- R159, R160: the cause and detail of the exception that an instruction raises at issue, before its body: an illegal encoding, a fetch at or
above LENGTH, an undefined word in the store. -/
def State.issueFault (s : State) (u : Agent) (e : Enc) (f : BitVec 52) (extra : Bool) : Option (Nat × Nat) :=
  let x := s.cx u
  if !(e.legal (agentProfile u) f && extra) then some (1, e.major * 2 ^ 26 + e.minor * 2 ^ 20 + f.toNat / 2 ^ 32)
  else if x.len ≤ x.pc then some (2, x.pc)
  else (s.badWord u).map (fun d => (1, d))

/-- R138, R141: whether an instruction does nothing, its mask being zero, or waits at issue for a register with a write pending. -/
def Cx.masked (x : Cx) (f : BitVec 52) (whole : Bool) : Bool := whole && maskOf x f == 0

/-- R138: whether a register that an instruction reads or writes has a write pending. -/
def Cx.waits (x : Cx) (e : Enc) (f : BitVec 52) : Bool := (e.regs f).any (fun r => x.pend.contains r)

/-- R159: the exception that an instruction raises, if any: at issue, or from its body. -/
def State.faultOf (s : State) (u : Agent) (e : Enc) (f : BitVec 52) (extra whole : Bool) (body : Cx → State → Body) : Option (Nat × Nat) :=
  let x := s.cx u
  match s.issueFault u e f extra with
  | some q => some q
  | none =>
    if x.masked f whole || x.waits e f then none
    else match body x s with
      | .exc c d => some (c, d)
      | .br _ t => if x.len ≤ t then some (2, t) else none
      | _ => none

/-- R138 to R141, R151, R159, R160, R264: the issue of one instruction by an agent, in its turn. A context that does not run issues
nothing, but a CE that an exception of its unit stopped in this clk still records its own (R166). An instruction that executes as a whole
does nothing where its mask is zero; a register with a write pending holds the instruction at issue. -/
def issueW (u : Agent) (e : Enc) (f : BitVec 52) (extra : Bool) (whole : Bool) (w : CxSt)
    (body : Cx → State → Body) (s : State) : State :=
  let x := s.cx u
  if s.halted ∨ !s.mayIssue u then s
  else if !x.canIssue w then
    (if x.cut = some (s.cueNow, s.ofs) then
      match s.faultOf u e f extra whole body with
      | some q => s.lateFault u q.1 q.2
      | none => s
    else s)
  else match s.issueFault u e f extra with
  | some q => s.exception u q.1 q.2
  | none =>
    if x.masked f whole then s.advance u
    else if x.waits e f then s.setCx u { x with st := .hold }
    else
      match body x s with
      | .go s' => s'.advance u
      | .br s' target =>
        if x.len ≤ target then s.exception u 2 target
        else (s'.setCx u { s'.cx u with pc := target, st := .run }).issued u
      | .wait s' st => s'.setCx u { s'.cx u with st := st }
      | .exc c d => s.exception u c d

/-- The issue of an instruction that executes as a whole (R141). -/
def issue (u : Agent) (e : Enc) (f : BitVec 52) (extra : Bool) (body : Cx → State → Body) (s : State) : State :=
  issueW u e f extra true .run body s

/-- The issue of a lane-wise instruction (R140). -/
def issueL (u : Agent) (e : Enc) (f : BitVec 52) (extra : Bool) (body : Cx → State → Body) (s : State) : State :=
  issueW u e f extra false .run body s

/-- The issue of an instruction whose only effect is on its own context's registers. -/
def issueR (u : Agent) (e : Enc) (f : BitVec 52) (extra : Bool) (op : Cx → Cx) (s : State) : State :=
  issue u e f extra (fun x s => .go (s.setCx u (op x))) s

/-- The issue of a lane-wise instruction whose only effect is on its own context's registers. -/
def issueV (u : Agent) (e : Enc) (f : BitVec 52) (extra : Bool) (op : Cx → Cx) (s : State) : State :=
  issueL u e f extra (fun x s => .go (s.setCx u (op x))) s

end Sys2Proof.Machine
end

