-- ==== Sys2Proof/Machine/Wings.lean ====
section
/-!
DEFINITION. The store's codewords: the layout of the Wings (R247), lost data (R252), dead-letter marks (R448, R456), wrong
bits and what a read does with them (R449 to R451), and the failure of a channel (R249, R250).
-/

namespace Sys2Proof.Machine

/-! ### The Wings layout (R247) -/

/-- R247: the parity group of an own-store offset. -/
def wingsGroup (off : Nat) : Nat := off / 4096 % 2

/-- R247: the stripe of an own-store offset. -/
def wingsStripe (off : Nat) : Nat := off / 4096 / 2 / 14

/-- R247: the position in its group of the channel that holds the data of an own-store offset. -/
def wingsPos (off : Nat) : Nat := (wingsStripe off + 2 + off / 4096 / 2 % 14) % 16

/-- R247: the channel that holds the data of an own-store offset. -/
def wingsChannel (off : Nat) : Nat := 2 * wingsPos off + wingsGroup off

/-- R247: the position in its group of a stripe's parity. -/
def parityPos (stripe : Nat) : Nat := stripe % 16

/-- R247: the position in its group of a stripe's spare. -/
def sparePos (stripe : Nat) : Nat := (stripe + 1) % 16

/-- R247: the offset within its channel at which the data of an own-store offset lies. -/
def channelOffset (off : Nat) : Nat := 4096 * wingsStripe off + off % 4096

/-- R247: the own-store offset of byte b of data unit d of a stripe of group g. -/
def stripeOff (g stripe d b : Nat) : Nat := ((stripe * 14 + d) * 2 + g) * 4096 + b

/-- The stripes of a group, which are the rows of each channel (R247). -/
def State.stripes (s : State) : Nat := s.rd Reg.STM_SIZE_UNITS * 4 / 7

/-- R246: the first stripe of the upper half of a channel's rows. -/
def State.halfStripe (s : State) : Nat := (s.stripes + 1) / 2

/-- R246: the row half of a stripe as a mask: on a two-RDIMM channel DIMM 0 holds the lower half of the rows. -/
def State.rowMask (s : State) (stripe : Nat) : Nat :=
  if s.rd Reg.STM_WINGS_POP = 2 then (if 2 * stripe < s.stripes then 1 else 2) else 3

/-- Whether a store offset lies in the own store. -/
def State.inOwn (s : State) (off : Nat) : Bool := decide (off < 65536 * s.rd Reg.STM_SIZE_UNITS)

/-! ### Marks -/

/-- R252: whether a loss covers the Wings slot of an own-store offset. -/
def State.slotCovers (s : State) (off : Nat) (l : Loss) : Bool :=
  let st := wingsStripe off
  wingsGroup off == l.group && bitOf l.chans (wingsPos off) && l.rows &&& s.rowMask st != 0 &&
    !l.done.any (fun r => decide (r.1 ≤ st) && decide (st < r.2)) && !l.spared.any (fun r => decide (r.1 ≤ off) && decide (off < r.1 + r.2))

/-- R252: whether a loss covers the data of an own-store offset, which a frame that held its unit keeps. -/
def State.lossCovers (s : State) (off : Nat) (l : Loss) : Bool := s.slotCovers off l && !l.held.contains (off / 65536)

/-- Whether the Wings slot of an own-store offset holds lost data. -/
def State.slotLost (s : State) (off : Nat) : Bool := s.inOwn off && s.store.losses.any (s.slotCovers off)

/-- Whether lost Wings data leaves a codeword of the store marked. -/
def State.lostCw (s : State) (cw : Nat) : Bool := s.inOwn (8 * cw) && s.store.losses.any (s.lossCovers (8 * cw))

/-- Whether a codeword of the store is marked as a dead letter. -/
def State.deadCw (s : State) (cw : Nat) : Bool := (s.store.dead.find? cw).getD (s.lostCw cw)

/-- Mark or clear a codeword of the store. -/
def State.setDead (s : State) (cw : Nat) (b : Bool) : State :=
  { s with store := { s.store with dead := s.store.dead.setD cw (s.lostCw cw) b } }

/-- The codewords that touch the n bytes from an address. -/
def cwsOf (a n : Nat) : List Nat :=
  if n = 0 then [] else (List.range ((a + n - 1) / 8 - a / 8 + 1)).map (fun i => a / 8 + i)

/-- The codewords that lie whole in the n bytes from an address. -/
def wholeCws (a n : Nat) : List Nat := (List.range ((a + n) / 8 - (a + 7) / 8)).map (fun i => (a + 7) / 8 + i)

/-- The store: n bytes at a store offset as a reader sees them, and whether a marked codeword was read (R448). -/
def State.storeRead (s : State) (a n : Nat) : List Byte × Bool :=
  ((Memory.bytes s.store.mem a n).zipIdx.map (fun (b, i) => if s.deadCw ((a + i) / 8) then 0 else b),
   (cwsOf a n).any s.deadCw)

/-- The store: a write of bytes at a store offset; a codeword replaced whole loses its mark and its wrong bits (R456). -/
def State.storeWrite (s : State) (a : Nat) (bs : List Byte) : State :=
  let s := (wholeCws a bs.length).foldl (fun s c => s.setDead c false) s
  { s with store := { s.store with
      mem := Memory.store s.store.mem a bs
      flips := (wholeCws a bs.length).foldl (fun f c => f.erase c) s.store.flips } }

/-- The store: mark the codewords of n bytes at a store offset as dead letters (R454). -/
def State.storeMark (s : State) (a n : Nat) : State := (cwsOf a n).foldl (fun s c => s.setDead c true) s

/-- The store: the little-endian number in n bytes at a store offset. -/
def State.storeNum (s : State) (a n : Nat) : Nat := leBytes (s.storeRead a n).1

/-- R239, R257: n bytes from a store offset read as zero, unmarked, from here on. -/
def State.storeZero (s : State) (a n : Nat) : State :=
  let keep (k : Nat) : Bool := !(decide (a ≤ k) && decide (k < a + n))
  { s with store := { s.store with
      mem := s.store.mem.filter (fun e => keep e.1)
      dead := s.store.dead.filter (fun c _ => keep (8 * c))
      flips := s.store.flips.filter (fun c _ => keep (8 * c))
      losses := s.store.losses.map (fun l => { l with spared := l.spared ++ [(a, n)] }) } }

/-! ### Channels (R249 to R253) -/

/-- The state field of channel ch. -/
def chField (ch : Nat) : Fld :=
  { reg := if ch < 16 then 0x200030 else 0x200038, lo := 4 * (ch % 16), width := 4, reset := 0, acc := .RO }

/-- The state of channel ch: 0 OK, 1 FAILED, 2 REBUILDING, 3 REBUILT, 4 COPYBACK. -/
def State.chState (s : State) (ch : Nat) : Nat := s.rd (chField ch)

/-- R252: data of a group's failed channels is lost: marked, whatever was written before, LOST set, EV_WINGS_LOST raised. -/
def State.wingsLost (s : State) (l : Loss) : State :=
  let l := { l with held := (s.store.units.filter (fun _ (u : SUnit) => u.frame.isSome)).keys }
  let s := { s with store := { s.store with
    losses := s.store.losses ++ [l]
    dead := s.store.dead.filter (fun c _ => !(s.inOwn (8 * c) && s.lossCovers (8 * c) l)) } }
  (s.setBit Reg.STM_WINGS_LOST l.group).raise 58

/-- R252: the frame of unit u, which was clean, no longer holds it: lost data of its Wings slot is what a reader meets. -/
def State.frameGone (s : State) (u : Nat) : State :=
  if s.store.losses.any (fun l => l.held.contains u) then
    { s with store := { s.store with
      losses := s.store.losses.map (fun l => { l with held := l.held.erase u })
      dead := s.store.dead.filter (fun c _ => !(decide (8 * c / 65536 = u) && s.slotLost (8 * c))) } }
  else s

/-- R243, R252: the dirty frame of unit u has been copied to its Wings slot, each line whole. -/
def State.slotWritten (s : State) (u : Nat) : State :=
  { s with store := { s.store with losses := s.store.losses.map (fun l => { l with held := l.held.erase u, spared := l.spared ++ [(65536 * u, 65536)] }) } }

/-- The other channels of a channel's group that have failed rows. -/
def State.failedBeside (s : State) (ch : Nat) : List Nat :=
  ((List.range 16).map (fun p => 2 * p + ch % 2)).filter (fun c => c != ch && s.store.fails.getD c 0 != 0)

/-- Whether a stripe has been rebuilt. -/
def Rebuild.has (r : Rebuild) (stripe : Nat) : Bool :=
  r.odd.contains stripe || r.did.any (fun d => decide (d.1 ≤ stripe) && decide (stripe < d.2))

/-- How far the rebuild of channel ch has come. -/
def State.rebuildOf (s : State) (ch : Nat) : Rebuild := s.store.rebuilds.getD ch {}

/-- Replace how far the rebuild of channel ch has come. -/
def State.setRebuild (s : State) (ch : Nat) (r : Rebuild) : State :=
  { s with store := { s.store with rebuilds := s.store.rebuilds.insert ch r } }

/-- The first failed stripe of channel ch. -/
def State.firstFailed (s : State) (ch : Nat) : Nat := if s.store.fails.getD ch 0 = 2 then s.halfStripe else 0

/-- The end of the failed stripes of channel ch. -/
def State.endFailed (s : State) (ch : Nat) : Nat := if s.store.fails.getD ch 0 = 1 then s.halfStripe else s.stripes

/-- The first failed stripe of channel ch at which a rebuild in ascending order has work to do. -/
def State.firstToDo (s : State) (ch : Nat) : Nat :=
  let from_ (x : Nat) : Nat := (((s.rebuildOf ch).did.find? (fun d => decide (d.1 ≤ x) && decide (x < d.2))).map (fun (d : Nat × Nat) => d.2)).getD x
  let a := from_ (s.firstFailed ch)
  if s.store.fails.getD ch 0 == 3 && decide (s.halfStripe ≤ a) then from_ a else a

/-- R250, R262: the failed stripes of channel ch still to be rebuilt. -/
def State.rebuildLeft (s : State) (ch : Nat) : Nat :=
  let r := s.rebuildOf ch
  let a := (r.did.headD (s.firstFailed ch, s.firstFailed ch)).2
  let z := s.endFailed ch
  (z - a) - (r.odd.filter (fun x => decide (a ≤ x))).length - (r.did.tail.map (fun d => min d.2 z - max d.1 a)).sum

/-- STM_REBUILD.REMAIN follows the rebuild or copyback of channel ch, where it shows that channel. -/
def State.showRebuild (s : State) (ch : Nat) : State :=
  if s.is1 Reg.STM_REBUILD_ACTIVE ∧ s.rd Reg.STM_REBUILD_CHANNEL = ch then
    s.wr Reg.STM_REBUILD_REMAIN (if s.chState ch = 4 then s.endFailed ch - (s.rebuildOf ch).back else s.rebuildLeft ch)
  else s

/-- R250: the rebuild of channel ch starts, or goes on with rows that have failed beside those rebuilt. -/
def State.startRebuild (s : State) (ch : Nat) : State :=
  let r := s.rebuildOf ch
  let a := s.firstToDo ch
  let s := s.setRebuild ch { r with did := (a, a) :: r.did }
  let s := s.wr (chField ch) 2
  ((s.wr Reg.STM_REBUILD_ACTIVE 1).wr Reg.STM_REBUILD_CHANNEL ch).showRebuild ch

/-- R252: a second channel of a group fails. -/
def State.secondFailure (s : State) (ch o rows done : Nat) : State :=
  let both := rows &&& s.store.fails.getD o 0
  if s.chState o = 2 ∧ both ≠ 0 then
    let r := s.rebuildOf o
    let run := r.did.headD (0, 0)
    s.wingsLost { group := ch % 2, chans := 2 ^ (ch / 2) + 2 ^ (o / 2), rows := both,
                  done := (run.1, max run.2 (run.1 + done)) :: r.did.tail ++ r.odd.map (fun x => (x, x + 1)) }
  else s

/-- R249, R250, R252: the rows of a mask of channel ch fail when the rebuild that runs has done at least its first `done` stripes. What was
copied back before is lost again (R253). -/
def State.channelFailed (s : State) (ch rows done : Nat) : State :=
  let had := s.store.fails.getD ch 0
  let others := s.failedBeside ch
  let r := s.rebuildOf ch
  let s := if s.chState ch = 4 then s.setRebuild ch { did := [(r.back, s.endFailed ch)] } else s
  let s := { s with store := { s.store with
    fails := s.store.fails.setD ch 0 (had ||| rows)
    flips := s.store.flips.filter (fun c _ => !(s.inOwn (8 * c) && wingsChannel (8 * c) == ch && rows &&& s.rowMask (wingsStripe (8 * c)) != 0 &&
      (s.store.units.getD (8 * c / 65536) {}).frame.isNone)) } }
  let s := s.raise 56
  if others.isEmpty then s.startRebuild ch
  else
    let s := s.wr (chField ch) 1
    if others.length = 1 then s.secondFailure ch (others.headD 0) rows done
    else s.wingsLost { group := ch % 2, chans := ((ch :: others).map (fun c => 2 ^ (c / 2))).sum, rows := 3 }

/-- R250: a write to a unit on a rebuilding channel first rebuilds its stripe. -/
def State.rebuildStripe (s : State) (off : Nat) : State :=
  let ch := wingsChannel off
  let st := wingsStripe off
  let r := s.rebuildOf ch
  if s.inOwn off ∧ s.chState ch = 2 ∧ s.store.fails.getD ch 0 &&& s.rowMask st ≠ 0 ∧
      (s.store.units.getD (off / 65536) {}).frame.isNone ∧ !r.has st then
    (s.setRebuild ch { r with odd := r.odd ++ [st] }).showRebuild ch
  else s

/-- R251, R253: the stripes that a rebuild (or a copyback, eight times as fast) does in a cue of the period in force: each channel gives
SHARE sixteenths of 51.2 B per clk, or of 40.96 B per clk with two RDIMMs, in units of 4 KiB. -/
def State.stripesPerCue (s : State) (copyback : Bool) : Nat :=
  s.period * s.rd Reg.STM_WINGS_SHARE * (if copyback then 8 else 1) / (if s.rd Reg.STM_WINGS_POP = 2 then 1600 else 1280)

/-- R250, R253: the rebuilds and copybacks go on by what a cue gives them, up to their last stripe, whose end is a command of its own
(log entry 98). -/
def State.rebuildCue (s : State) : State :=
  s.store.rebuilds.keys.foldl (fun s ch =>
    let r := s.rebuildOf ch
    let z := s.endFailed ch
    if s.chState ch = 2 then
      let run := r.did.headD (0, 0)
      (s.setRebuild ch { r with did := (run.1, min (run.2 + s.stripesPerCue false) (max run.2 (z - 1))) :: r.did.tail }).showRebuild ch
    else if s.chState ch = 4 then
      (s.setRebuild ch { r with back := min (r.back + s.stripesPerCue true) (max r.back (z - 1)) }).showRebuild ch
    else s) s

/-! ### Parity (R248) -/

/-- R248: whether the unit at a position of a stripe of group g cannot be read: its rows have failed and it has not been rebuilt, or the
channel of the spare it was rebuilt into has failed too. -/
def State.unitMissing (s : State) (g stripe pos : Nat) : Bool :=
  let ch := 2 * pos + g
  let down (c : Nat) : Bool := s.store.fails.getD c 0 &&& s.rowMask stripe != 0
  down ch && (if s.chState ch = 3 ∨ s.chState ch = 4 ∨ (s.chState ch = 2 ∧ (s.rebuildOf ch).has stripe) then down (2 * sparePos stripe + g) else true)

/-- R248: codeword w of data unit d of a stripe of group g as its Wings slot holds it: 64 data bits and the dead-letter bit. -/
def State.dataWord (s : State) (g stripe w d : Nat) : BitVec 65 :=
  let off := stripeOff g stripe d (8 * w)
  BitVec.ofNat 65 (leBytes (Memory.bytes s.store.mem off 8) + b2n (s.deadCw (off / 8)) * 2 ^ 64)

/-- R248: codeword w of a stripe's parity: the XOR of those of its 14 data units. -/
def State.parityWord (s : State) (g stripe w : Nat) : BitVec 65 :=
  (List.range 14).foldl (fun x d => x ^^^ s.dataWord g stripe w d) 0

/-- R248, R250: codeword w of data unit d computed from the other 14 live units of its stripe. -/
def State.rebuiltWord (s : State) (g stripe w d : Nat) : BitVec 65 :=
  ((List.range 14).filter (fun e => e != d)).foldl (fun x e => x ^^^ s.dataWord g stripe w e) (s.parityWord g stripe w)

/-! ### Wrong bits (R448 to R451) -/

/-- R451: count an error of channel ch; a count that reaches its limit makes the Stage Door report the channel failed. -/
def State.channelError (s : State) (ch : Nat) (ue : Bool) : State :=
  let n := (if ue then s.store.chUE.getD ch 0 else s.store.chCE.getD ch 0) + 1
  let lim := s.rd (if ue then Reg.RSL_CODE_LIMIT_CH_UE else Reg.RSL_CODE_LIMIT_CH_CE)
  let s := if ue then { s with store := { s.store with chUE := s.store.chUE.setD ch 0 n } }
           else { s with store := { s.store with chCE := s.store.chCE.setD ch 0 n } }
  if lim ≠ 0 ∧ n = lim ∧ s.chState ch = 0 then s.channelFailed ch 3 0 else s

/-- R450: count an uncorrectable codeword; EV_MEM_UE at most once per cue. -/
def State.noteUE (s : State) (marked : Bool) : State :=
  let s := s.satAdd Reg.RSL_CODE_UE 1
  let s := if marked then s.satAdd Reg.RSL_CODE_MARKED 1 else s
  if s.store.memUeRaised then s else ({ s with store := { s.store with memUeRaised := true } }).raise 112

/-- R248: whether another unit of the stripe of a Wings codeword is missing or uncorrectable at that codeword. -/
def State.stripeLacks (s : State) (cw : Nat) : Bool :=
  let off := 8 * cw
  let st := wingsStripe off
  let g := wingsGroup off
  (List.range 16).any (fun p => p != wingsPos off && p != sparePos st && s.unitMissing g st p) ||
    (List.range 14).any (fun d =>
      let o := stripeOff g st d (off % 4096)
      o != off && decide (3 ≤ s.store.flips.getD (o / 8) 0))

/-- R449: whether an uncorrectable Wings codeword is not rebuilt from its stripe: its group has a FAILED channel, or the stripe lacks another
unit at that codeword. -/
def State.stripeBad (s : State) (cw : Nat) : Bool :=
  (List.range 16).any (fun p => s.chState (2 * p + wingsGroup (8 * cw)) == 1) || s.stripeLacks cw

/-- The wrong bits with which a read of a codeword of the store meets: those of a codeword of the Wings whose unit is missing are those of the
codeword computed in line from the rest of its stripe (R250). -/
def State.cwBits (s : State) (cw : Nat) : Nat :=
  let off := 8 * cw
  if s.inOwn off ∧ (s.store.units.getD (off / 65536) {}).frame.isNone ∧ s.unitMissing (wingsGroup off) (wingsStripe off) (wingsPos off) then
    (if s.stripeLacks cw ∧ !s.slotLost off then 3 else 0)
  else s.store.flips.getD cw 0

/-- R449: a codeword of the store is written anew with a value: 64 data bits and the dead-letter bit. -/
def State.putWord (s : State) (cw : Nat) (x : BitVec 65) : State :=
  { s with store := { s.store with mem := Memory.store s.store.mem (8 * cw) (toLe 8 (x.toNat % 2 ^ 64)) } }.setDead cw (bitOf x.toNat 64)

/-- R449: a read of a codeword of the store that has e wrong bits: two are corrected; three are repaired from the Wings slot or
the stripe, or the codeword is rewritten marked. -/
def State.cwError (s : State) (cw e : Nat) : State :=
  let off := 8 * cw
  let u := s.store.units.getD (off / 65536) {}
  let wings := s.inOwn off && u.frame.isNone
  if e = 0 then s
  else if e ≤ 2 then
    let s := { s with store := { s.store with flips := s.store.flips.erase cw } }
    let s := s.satAdd Reg.RSL_CODE_CORR 1
    if wings then s.channelError (wingsChannel off) false else s
  else
    let mark := if wings then s.stripeBad cw else !(s.inOwn off && !u.dirty) || s.slotLost off
    let s := { s with store := { s.store with flips := s.store.flips.erase cw } }
    let s := s.noteUE mark
    let s := if mark then s.setDead cw true
             else if wings then s.putWord cw (s.rebuiltWord (wingsGroup off) (wingsStripe off) (off % 4096 / 8) (off / 4096 / 2 % 14)) else s
    if wings then s.channelError (wingsChannel off) true else s

/-- Whether an own-store offset lies in the rehearsal range (R477). -/
def State.inRehearsal (s : State) (off : Nat) : Bool :=
  decide (65536 * s.rd Reg.RSL_RH_RANGE_FIRST ≤ off) &&
    decide (off < 65536 * (s.rd Reg.RSL_RH_RANGE_FIRST + s.rd Reg.RSL_RH_RANGE_UNITS))

/-- R449, R478: the codewords of n bytes at a store offset are read: each wrong bit acts, a rehearsal injection among them. -/
def State.storeCheck (s : State) (a n : Nat) : State :=
  if s.store.flips.isEmpty ∧ s.res.rhBits = 0 ∧ s.store.fails.isEmpty then s
  else (cwsOf a n).foldl (fun s c =>
    if s.res.rhBits ≠ 0 ∧ s.inOwn (8 * c) ∧ s.inRehearsal (8 * c) then
      ({ s with res := { s.res with rhBits := 0 } }).cwError c (min 3 (s.cwBits c + s.res.rhBits))
    else s.cwError c (s.cwBits c)) s

/-- R70, R195, R449: a read of codeword w (keyed 49,152 t + codeword) of the SRAM of troupe t that has e wrong bits: two are corrected and
counted, with EV_TROUPE_DEGRADED as CORR comes to its limit; three leave it marked. -/
def State.sramError (s : State) (t w e : Nat) : State :=
  let s := { s with trp := { s.trp with flips := s.trp.flips.erase w } }
  if e ≤ 2 then
    let was := s.rd (Reg.TRP_ERR_CORR t)
    let s := (s.satAdd (Reg.TRP_ERR_CORR t) 1).satAdd Reg.RSL_CODE_CORR 1
    if was < s.rd (Reg.TRP_ERR_CORR t) ∧ s.rd (Reg.TRP_ERR_CORR t) = s.rd (Reg.TRP_ERR_LIMIT_LIMIT t) then s.raise 40 else s
  else ({ s with trp := { s.trp with dead := s.trp.dead.insert w true } }).noteUE true

/-- R70: every SRAM read of troupe t checks the codewords that hold the given addresses. -/
def State.sramCheck (s : State) (t : Nat) (addrs : List Nat) : State :=
  if s.trp.flips.isEmpty then s
  else ((addrs.map (fun a => (393216 * t + a) / 8)).dedup).foldl (fun s w =>
    match s.trp.flips.find? w with | some e => s.sramError t w e | none => s) s

/-- R195: count uncorrectable and dead-letter codewords read from a troupe's SRAM. -/
def State.countUE (s : State) (t n : Nat) : State := if n = 0 then s else s.satAdd (Reg.TRP_ERR_UE t) n

/-- The marked codewords of troupe t among those that hold the given addresses. -/
def State.deadWords (s : State) (t : Nat) (addrs : List Nat) : Nat :=
  ((addrs.map (fun a => (393216 * t + a) / 8)).dedup.filter (fun k => s.trp.dead.getD k false)).length

/-- The addresses of the codewords of n bytes at address a. -/
def wordsAt (a n : Nat) : List Nat := (List.range ((n + 7) / 8)).map (fun i => a + 8 * i)

/-- R449, R450: a read, or the background scrub, meets wrong bits in a codeword of a line of the Stage or the Wings, beyond those already known. Own-store and
Stage-only lines alone have any. -/
def State.scrubStore (s : State) (off cw bits : Nat) : State :=
  let a := off / 64 * 64
  let stage := decide (0x8000000000000 ≤ a) && decide (a < 0x8000000000000 + 2 ^ 30 * s.rd Reg.STM_STAGE_ONLY_GIB)
  if !s.inOwn a ∧ !stage then s
  else
    let c := a / 8 + cw
    let s := { s with store := { s.store with flips := s.store.flips.setD c 0 (min 3 (s.store.flips.getD c 0 + bits)) } }
    (cwsOf a 64).foldl (fun s c => s.cwError c (s.cwBits c)) s

/-- R451: a window of 65,536 cues begins: the counts of every channel start at zero. -/
def execErrorWindowStart (s : State) : Host.Outcome State Fault Refusal :=
  if s.halted then .next s else
  if s.cueNow % 65536 = 0 then .next { s with store := { s.store with chUE := [], chCE := [] } } else .next s

end Sys2Proof.Machine
end

