-- ==== Sys2Proof/Machine/Scalar.lean ====
section
/-!
DEFINITION. The PRED, SALU, SIMM, AALU and MOVE instructions (R174 to R178).
-/

namespace Sys2Proof.Machine

/-- The outcome of a command. -/
abbrev Res := Host.Outcome State Fault Refusal

/-- Write each lane l of vD for which the mask has bit l, with the bits of FLAGS each lane sets (R106, R140). -/
def Cx.mapLanes (x : Cx) (d m : Nat) (g : Nat → Nat × Nat) : Cx :=
  (List.range 16).foldl (fun y l => if bitOf m l then (y.setL d l (g l).1).orFlags (g l).2 else y) x

/-- Write each bit l of pD for which the mask has bit l (R179). -/
def Cx.mapPred (x : Cx) (d m : Nat) (g : Nat → Bool) : Cx :=
  x.setP d ((List.range 16).foldl (fun acc l =>
    acc + b2n (if bitOf m l then g l else bitOf (x.pr d) l) * 2 ^ l) 0)

/-- R174: the encoding of PAND. -/
def encPand : Enc := { major := 1, minor := 0, d := .p, a := .p, b := .p }

/-- R174 PAND: pD := pA and pB. -/
def execPand (u : Agent) (f : BitVec 52) (s : State) : Res :=
  .next (issueR u encPand f true (fun x => x.setP (fD f) (x.pr (fA f) &&& x.pr (fB f))) s)

/-- R174: the encoding of POR. -/
def encPor : Enc := { major := 1, minor := 1, d := .p, a := .p, b := .p }

/-- R174 POR: pD := pA or pB. -/
def execPor (u : Agent) (f : BitVec 52) (s : State) : Res :=
  .next (issueR u encPor f true (fun x => x.setP (fD f) (x.pr (fA f) ||| x.pr (fB f))) s)

/-- R174: the encoding of PXOR. -/
def encPxor : Enc := { major := 1, minor := 2, d := .p, a := .p, b := .p }

/-- R174 PXOR: pD := pA xor pB. -/
def execPxor (u : Agent) (f : BitVec 52) (s : State) : Res :=
  .next (issueR u encPxor f true (fun x => x.setP (fD f) (x.pr (fA f) ^^^ x.pr (fB f))) s)

/-- R174: the encoding of PANDN. -/
def encPandn : Enc := { major := 1, minor := 3, d := .p, a := .p, b := .p }

/-- R174 PANDN: pD := pA and not pB. -/
def execPandn (u : Agent) (f : BitVec 52) (s : State) : Res :=
  .next (issueR u encPandn f true (fun x => x.setP (fD f) (x.pr (fA f) &&& (0xFFFF - x.pr (fB f)))) s)

/-- R174: the encoding of PNOT. -/
def encPnot : Enc := { major := 1, minor := 4, d := .p, a := .p }

/-- R174 PNOT: pD := not pA. -/
def execPnot (u : Agent) (f : BitVec 52) (s : State) : Res :=
  .next (issueR u encPnot f true (fun x => x.setP (fD f) (0xFFFF - x.pr (fA f))) s)

/-- R174: the encoding of PANY. -/
def encPany : Enc := { major := 1, minor := 5, d := .s, a := .p }

/-- R174 PANY: sD := 1 if pA is not 0, else 0. -/
def execPany (u : Agent) (f : BitVec 52) (s : State) : Res :=
  .next (issueR u encPany f true (fun x => x.setS (fD f) (b2n (x.pr (fA f) != 0))) s)

/-- R174: the encoding of PCNT. -/
def encPcnt : Enc := { major := 1, minor := 6, d := .s, a := .p }

/-- R174 PCNT: sD := the number of set bits of pA. -/
def execPcnt (u : Agent) (f : BitVec 52) (s : State) : Res :=
  .next (issueR u encPcnt f true (fun x => x.setS (fD f) (popcount 16 (x.pr (fA f)))) s)

/-- R174: the encoding of PFIRST. -/
def encPfirst : Enc := { major := 1, minor := 7, d := .s, a := .p }

/-- R174 PFIRST: sD := the index of the lowest set bit of pA, or 16. -/
def execPfirst (u : Agent) (f : BitVec 52) (s : State) : Res :=
  .next (issueR u encPfirst f true (fun x => x.setS (fD f) (lowestBit 16 (x.pr (fA f)))) s)

/-- R175: the encoding of ADD. -/
def encAdd : Enc := { major := 2, minor := 0, d := .s, a := .s, b := .s, sat := true, ta := [0, 1] }

/-- R175 ADD: sD := sA + sB modulo 2^32, or limited to the TA range with SAT. -/
def execAdd (u : Agent) (f : BitVec 52) (s : State) : Res :=
  .next (issueR u encAdd f true (fun x =>
      let y := byTA (fTA f) (x.sr (fA f)) + byTA (fTA f) (x.sr (fB f))
      if fSAT f then (x.setS (fD f) (limit32 (fTA f == 0) y).1).orFlags (limit32 (fTA f == 0) y).2
      else x.setS (fD f) (unsgn 32 y)) s)

/-- R175: the encoding of SUB. -/
def encSub : Enc := { major := 2, minor := 1, d := .s, a := .s, b := .s, sat := true, ta := [0, 1] }

/-- R175 SUB: sD := sA - sB modulo 2^32, or limited to the TA range with SAT. -/
def execSub (u : Agent) (f : BitVec 52) (s : State) : Res :=
  .next (issueR u encSub f true (fun x =>
      let y := byTA (fTA f) (x.sr (fA f)) - byTA (fTA f) (x.sr (fB f))
      if fSAT f then (x.setS (fD f) (limit32 (fTA f == 0) y).1).orFlags (limit32 (fTA f == 0) y).2
      else x.setS (fD f) (unsgn 32 y)) s)

/-- R175: the encoding of MUL. -/
def encMul : Enc := { major := 2, minor := 2, d := .s, a := .s, b := .s }

/-- R175 MUL: sD := the low 32 bits of sA times sB. -/
def execMul (u : Agent) (f : BitVec 52) (s : State) : Res :=
  .next (issueR u encMul f true (fun x => x.setS (fD f) (x.sr (fA f) * x.sr (fB f))) s)

/-- R175: the encoding of MULH. -/
def encMulh : Enc := { major := 2, minor := 3, d := .s, a := .s, b := .s, ta := [0, 1] }

/-- R175 MULH: sD := the high 32 bits of the product, signed or unsigned by TA. -/
def execMulh (u : Agent) (f : BitVec 52) (s : State) : Res :=
  .next (issueR u encMulh f true (fun x => x.setS (fD f) (unsgn 32 (byTA (fTA f) (x.sr (fA f)) * byTA (fTA f) (x.sr (fB f)) / 2 ^ 32))) s)

/-- R175: the encoding of AND. -/
def encAndS : Enc := { major := 2, minor := 4, d := .s, a := .s, b := .s }

/-- R175 AND: sD := sA and sB. -/
def execAndS (u : Agent) (f : BitVec 52) (s : State) : Res :=
  .next (issueR u encAndS f true (fun x => x.setS (fD f) (x.sr (fA f) &&& x.sr (fB f))) s)

/-- R175: the encoding of OR. -/
def encOrS : Enc := { major := 2, minor := 5, d := .s, a := .s, b := .s }

/-- R175 OR: sD := sA or sB. -/
def execOrS (u : Agent) (f : BitVec 52) (s : State) : Res :=
  .next (issueR u encOrS f true (fun x => x.setS (fD f) (x.sr (fA f) ||| x.sr (fB f))) s)

/-- R175: the encoding of XOR. -/
def encXorS : Enc := { major := 2, minor := 6, d := .s, a := .s, b := .s }

/-- R175 XOR: sD := sA xor sB. -/
def execXorS (u : Agent) (f : BitVec 52) (s : State) : Res :=
  .next (issueR u encXorS f true (fun x => x.setS (fD f) (x.sr (fA f) ^^^ x.sr (fB f))) s)

/-- R175: the encoding of SHL. -/
def encShl : Enc := { major := 2, minor := 7, d := .s, a := .s, b := .s }

/-- R175 SHL: sD := sA shifted left by sB[4:0]. -/
def execShl (u : Agent) (f : BitVec 52) (s : State) : Res :=
  .next (issueR u encShl f true (fun x => x.setS (fD f) (x.sr (fA f) * 2 ^ (x.sr (fB f) % 32))) s)

/-- R175: the encoding of SHR. -/
def encShr : Enc := { major := 2, minor := 8, d := .s, a := .s, b := .s }

/-- R175 SHR: sD := sA shifted right logically by sB[4:0]. -/
def execShr (u : Agent) (f : BitVec 52) (s : State) : Res :=
  .next (issueR u encShr f true (fun x => x.setS (fD f) (x.sr (fA f) / 2 ^ (x.sr (fB f) % 32))) s)

/-- R175: the encoding of SRA. -/
def encSra : Enc := { major := 2, minor := 9, d := .s, a := .s, b := .s }

/-- R175 SRA: sD := sA shifted right arithmetically by sB[4:0]. -/
def execSra (u : Agent) (f : BitVec 52) (s : State) : Res :=
  .next (issueR u encSra f true (fun x => x.setS (fD f) (unsgn 32 (sgn 32 (x.sr (fA f)) / (2 ^ (x.sr (fB f) % 32) : Nat)))) s)

/-- R175: the encoding of MIN. -/
def encMin : Enc := { major := 2, minor := 10, d := .s, a := .s, b := .s, ta := [0, 1] }

/-- R175 MIN: sD := the smaller of sA and sB, by TA. -/
def execMin (u : Agent) (f : BitVec 52) (s : State) : Res :=
  .next (issueR u encMin f true (fun x => x.setS (fD f) (if byTA (fTA f) (x.sr (fB f)) < byTA (fTA f) (x.sr (fA f)) then x.sr (fB f) else x.sr (fA f))) s)

/-- R175: the encoding of MAX. -/
def encMax : Enc := { major := 2, minor := 11, d := .s, a := .s, b := .s, ta := [0, 1] }

/-- R175 MAX: sD := the larger of sA and sB, by TA. -/
def execMax (u : Agent) (f : BitVec 52) (s : State) : Res :=
  .next (issueR u encMax f true (fun x => x.setS (fD f) (if byTA (fTA f) (x.sr (fA f)) < byTA (fTA f) (x.sr (fB f)) then x.sr (fB f) else x.sr (fA f))) s)

/-- R175: the encoding of SLT. -/
def encSlt : Enc := { major := 2, minor := 12, d := .s, a := .s, b := .s, ta := [0, 1] }

/-- R175 SLT: sD := 1 if sA < sB by TA, else 0. -/
def execSlt (u : Agent) (f : BitVec 52) (s : State) : Res :=
  .next (issueR u encSlt f true (fun x => x.setS (fD f) (b2n (decide (byTA (fTA f) (x.sr (fA f)) < byTA (fTA f) (x.sr (fB f)))))) s)

/-- R175: the encoding of SEQ. -/
def encSeq : Enc := { major := 2, minor := 13, d := .s, a := .s, b := .s }

/-- R175 SEQ: sD := 1 if sA = sB, else 0. -/
def execSeq (u : Agent) (f : BitVec 52) (s : State) : Res :=
  .next (issueR u encSeq f true (fun x => x.setS (fD f) (b2n (x.sr (fA f) == x.sr (fB f)))) s)

/-- R175: the encoding of CLZ. -/
def encClz : Enc := { major := 2, minor := 14, d := .s, a := .s }

/-- R175 CLZ: sD := the leading zero bits of sA, 32 when sA = 0. -/
def execClz (u : Agent) (f : BitVec 52) (s : State) : Res :=
  .next (issueR u encClz f true (fun x => x.setS (fD f) (if x.sr (fA f) = 0 then 32 else 31 - Nat.log2 (x.sr (fA f)))) s)

/-- R175: the encoding of POPC. -/
def encPopc : Enc := { major := 2, minor := 15, d := .s, a := .s }

/-- R175 POPC: sD := the set bits of sA. -/
def execPopc (u : Agent) (f : BitVec 52) (s : State) : Res :=
  .next (issueR u encPopc f true (fun x => x.setS (fD f) (popcount 32 (x.sr (fA f)))) s)

/-- R176: the encoding of ADDI. -/
def encAddi : Enc := { major := 3, minor := 0, iform := true, d := .s, a := .s, imm := 32 }

/-- R176 ADDI: sD := sA + IMM. -/
def execAddi (u : Agent) (f : BitVec 52) (s : State) : Res :=
  .next (issueR u encAddi f true (fun x => x.setS (fD f) (x.sr (fA f) + fIMM f)) s)

/-- R176: the encoding of MULI. -/
def encMuli : Enc := { major := 3, minor := 1, iform := true, d := .s, a := .s, imm := 32 }

/-- R176 MULI: sD := the low 32 bits of sA times IMM. -/
def execMuli (u : Agent) (f : BitVec 52) (s : State) : Res :=
  .next (issueR u encMuli f true (fun x => x.setS (fD f) (x.sr (fA f) * fIMM f)) s)

/-- R176: the encoding of ANDI. -/
def encAndi : Enc := { major := 3, minor := 2, iform := true, d := .s, a := .s, imm := 32 }

/-- R176 ANDI: sD := sA and IMM. -/
def execAndi (u : Agent) (f : BitVec 52) (s : State) : Res :=
  .next (issueR u encAndi f true (fun x => x.setS (fD f) (x.sr (fA f) &&& fIMM f)) s)

/-- R176: the encoding of ORI. -/
def encOri : Enc := { major := 3, minor := 3, iform := true, d := .s, a := .s, imm := 32 }

/-- R176 ORI: sD := sA or IMM. -/
def execOri (u : Agent) (f : BitVec 52) (s : State) : Res :=
  .next (issueR u encOri f true (fun x => x.setS (fD f) (x.sr (fA f) ||| fIMM f)) s)

/-- R176: the encoding of XORI. -/
def encXori : Enc := { major := 3, minor := 4, iform := true, d := .s, a := .s, imm := 32 }

/-- R176 XORI: sD := sA xor IMM. -/
def execXori (u : Agent) (f : BitVec 52) (s : State) : Res :=
  .next (issueR u encXori f true (fun x => x.setS (fD f) (x.sr (fA f) ^^^ fIMM f)) s)

/-- R176: the encoding of SHLI. -/
def encShli : Enc := { major := 3, minor := 5, iform := true, d := .s, a := .s, imm := 5 }

/-- R176 SHLI: sD := sA shifted left by IMM[4:0]. -/
def execShli (u : Agent) (f : BitVec 52) (s : State) : Res :=
  .next (issueR u encShli f true (fun x => x.setS (fD f) (x.sr (fA f) * 2 ^ fIMM f)) s)

/-- R176: the encoding of SHRI. -/
def encShri : Enc := { major := 3, minor := 6, iform := true, d := .s, a := .s, imm := 5 }

/-- R176 SHRI: sD := sA shifted right logically by IMM[4:0]. -/
def execShri (u : Agent) (f : BitVec 52) (s : State) : Res :=
  .next (issueR u encShri f true (fun x => x.setS (fD f) (x.sr (fA f) / 2 ^ fIMM f)) s)

/-- R176: the encoding of SRAI. -/
def encSrai : Enc := { major := 3, minor := 7, iform := true, d := .s, a := .s, imm := 5 }

/-- R176 SRAI: sD := sA shifted right arithmetically by IMM[4:0]. -/
def execSrai (u : Agent) (f : BitVec 52) (s : State) : Res :=
  .next (issueR u encSrai f true (fun x => x.setS (fD f) (unsgn 32 (sgn 32 (x.sr (fA f)) / (2 ^ fIMM f : Nat)))) s)

/-- R176: the encoding of SLTI. -/
def encSlti : Enc := { major := 3, minor := 8, iform := true, d := .s, a := .s, imm := 32 }

/-- R176 SLTI: sD := 1 if sA < IMM, signed, else 0. -/
def execSlti (u : Agent) (f : BitVec 52) (s : State) : Res :=
  .next (issueR u encSlti f true (fun x => x.setS (fD f) (b2n (decide (sgn 32 (x.sr (fA f)) < sgn 32 (fIMM f))))) s)

/-- R176: the encoding of SLTIU. -/
def encSltiu : Enc := { major := 3, minor := 9, iform := true, d := .s, a := .s, imm := 32 }

/-- R176 SLTIU: sD := 1 if sA < IMM, unsigned, else 0. -/
def execSltiu (u : Agent) (f : BitVec 52) (s : State) : Res :=
  .next (issueR u encSltiu f true (fun x => x.setS (fD f) (b2n (decide (x.sr (fA f) < fIMM f)))) s)

/-- R176: the encoding of SEQI. -/
def encSeqi : Enc := { major := 3, minor := 10, iform := true, d := .s, a := .s, imm := 32 }

/-- R176 SEQI: sD := 1 if sA = IMM, else 0. -/
def execSeqi (u : Agent) (f : BitVec 52) (s : State) : Res :=
  .next (issueR u encSeqi f true (fun x => x.setS (fD f) (b2n (x.sr (fA f) == fIMM f))) s)

/-- R176: the encoding of LI. -/
def encLi : Enc := { major := 3, minor := 11, iform := true, d := .s, imm := 32 }

/-- R176 LI: sD := IMM. -/
def execLi (u : Agent) (f : BitVec 52) (s : State) : Res :=
  .next (issueR u encLi f true (fun x => x.setS (fD f) (fIMM f)) s)

/-- R177: the encoding of AADD. -/
def encAadd : Enc := { major := 4, minor := 0, d := .a, a := .a, b := .a }

/-- R177 AADD: aD := aA + aB modulo 2^64. -/
def execAadd (u : Agent) (f : BitVec 52) (s : State) : Res :=
  .next (issueR u encAadd f true (fun x => x.setA (fD f) (x.ar (fA f) + x.ar (fB f))) s)

/-- R177: the encoding of ASUB. -/
def encAsub : Enc := { major := 4, minor := 1, d := .a, a := .a, b := .a }

/-- R177 ASUB: aD := aA - aB modulo 2^64. -/
def execAsub (u : Agent) (f : BitVec 52) (s : State) : Res :=
  .next (issueR u encAsub f true (fun x => x.setA (fD f) (x.ar (fA f) + (2 ^ 64 - x.ar (fB f)))) s)

/-- R177: the encoding of AADDS. -/
def encAadds : Enc := { major := 4, minor := 2, d := .a, a := .a, b := .s }

/-- R177 AADDS: aD := aA + sB sign-extended. -/
def execAadds (u : Agent) (f : BitVec 52) (s : State) : Res :=
  .next (issueR u encAadds f true (fun x => x.setA (fD f) (x.ar (fA f) + unsgn 64 (sgn 32 (x.sr (fB f))))) s)

/-- R177: the encoding of ASHL. -/
def encAshl : Enc := { major := 4, minor := 3, d := .a, a := .a, b := .s }

/-- R177 ASHL: aD := aA shifted left by sB[5:0]. -/
def execAshl (u : Agent) (f : BitVec 52) (s : State) : Res :=
  .next (issueR u encAshl f true (fun x => x.setA (fD f) (x.ar (fA f) * 2 ^ (x.sr (fB f) % 64))) s)

/-- R177: the encoding of ASHR. -/
def encAshr : Enc := { major := 4, minor := 4, d := .a, a := .a, b := .s }

/-- R177 ASHR: aD := aA shifted right logically by sB[5:0]. -/
def execAshr (u : Agent) (f : BitVec 52) (s : State) : Res :=
  .next (issueR u encAshr f true (fun x => x.setA (fD f) (x.ar (fA f) / 2 ^ (x.sr (fB f) % 64))) s)

/-- R177: the encoding of AAND. -/
def encAand : Enc := { major := 4, minor := 5, d := .a, a := .a, b := .a }

/-- R177 AAND: aD := aA and aB. -/
def execAand (u : Agent) (f : BitVec 52) (s : State) : Res :=
  .next (issueR u encAand f true (fun x => x.setA (fD f) (x.ar (fA f) &&& x.ar (fB f))) s)

/-- R177: the encoding of AOR. -/
def encAor : Enc := { major := 4, minor := 6, d := .a, a := .a, b := .a }

/-- R177 AOR: aD := aA or aB. -/
def execAor (u : Agent) (f : BitVec 52) (s : State) : Res :=
  .next (issueR u encAor f true (fun x => x.setA (fD f) (x.ar (fA f) ||| x.ar (fB f))) s)

/-- R177: the encoding of AXOR. -/
def encAxor : Enc := { major := 4, minor := 7, d := .a, a := .a, b := .a }

/-- R177 AXOR: aD := aA xor aB. -/
def execAxor (u : Agent) (f : BitVec 52) (s : State) : Res :=
  .next (issueR u encAxor f true (fun x => x.setA (fD f) (x.ar (fA f) ^^^ x.ar (fB f))) s)

/-- R177: the encoding of ALTU. -/
def encAltu : Enc := { major := 4, minor := 8, d := .s, a := .a, b := .a }

/-- R177 ALTU: sD := 1 if aA < aB, unsigned, else 0. -/
def execAltu (u : Agent) (f : BitVec 52) (s : State) : Res :=
  .next (issueR u encAltu f true (fun x => x.setS (fD f) (b2n (decide (x.ar (fA f) < x.ar (fB f))))) s)

/-- R177: the encoding of AEQ. -/
def encAeq : Enc := { major := 4, minor := 9, d := .s, a := .a, b := .a }

/-- R177 AEQ: sD := 1 if aA = aB, else 0. -/
def execAeq (u : Agent) (f : BitVec 52) (s : State) : Res :=
  .next (issueR u encAeq f true (fun x => x.setS (fD f) (b2n (x.ar (fA f) == x.ar (fB f)))) s)

/-- R177: the encoding of AADDI. -/
def encAaddi : Enc := { major := 4, minor := 16, iform := true, d := .a, a := .a, imm := 32 }

/-- R177 AADDI: aD := aA + IMM sign-extended. -/
def execAaddi (u : Agent) (f : BitVec 52) (s : State) : Res :=
  .next (issueR u encAaddi f true (fun x => x.setA (fD f) (x.ar (fA f) + unsgn 64 (sgn 32 (fIMM f)))) s)

/-- R177: the encoding of ALO. -/
def encAlo : Enc := { major := 4, minor := 17, iform := true, d := .a, imm := 32 }

/-- R177 ALO: aD := IMM zero-extended. -/
def execAlo (u : Agent) (f : BitVec 52) (s : State) : Res :=
  .next (issueR u encAlo f true (fun x => x.setA (fD f) (fIMM f)) s)

/-- R177: the encoding of AHI. -/
def encAhi : Enc := { major := 4, minor := 18, iform := true, d := .a, imm := 32 }

/-- R177 AHI: aD[63:32] := IMM, aD[31:0] kept. -/
def execAhi (u : Agent) (f : BitVec 52) (s : State) : Res :=
  .next (issueR u encAhi f true (fun x => x.setA (fD f) (fIMM f * 2 ^ 32 + x.ar (fD f) % 2 ^ 32)) s)

/-- R178: the encoding of S2A. -/
def encS2a : Enc := { major := 5, minor := 0, d := .a, a := .s, modMask := 1 }

/-- R178 S2A: aD := sA zero-extended, or sign-extended with MOD[0] = 1. -/
def execS2a (u : Agent) (f : BitVec 52) (s : State) : Res :=
  .next (issueR u encS2a f true (fun x => x.setA (fD f) (if fMOD f = 1 then unsgn 64 (sgn 32 (x.sr (fA f))) else x.sr (fA f))) s)

/-- R178: the encoding of A2S. -/
def encA2s : Enc := { major := 5, minor := 1, d := .s, a := .a, modMask := 1 }

/-- R178 A2S: sD := aA[31:0], or aA[63:32] with MOD[0] = 1. -/
def execA2s (u : Agent) (f : BitVec 52) (s : State) : Res :=
  .next (issueR u encA2s f true (fun x => x.setS (fD f) (if fMOD f = 1 then x.ar (fA f) / 2 ^ 32 else x.ar (fA f))) s)

/-- R178: the encoding of V2S. -/
def encV2s : Enc := { major := 5, minor := 2, d := .s, a := .v 1, modMask := 15 }

/-- R178 V2S: sD := lane MOD[3:0] of vA. -/
def execV2s (u : Agent) (f : BitVec 52) (s : State) : Res :=
  .next (issueR u encV2s f true (fun x => x.setS (fD f) (x.vl (fA f) (fMOD f))) s)

/-- R178: the encoding of S2V. -/
def encS2v : Enc := { major := 5, minor := 3, d := .v 1, a := .s, modMask := 15 }

/-- R178 S2V: Lane MOD[3:0] of vD := sA, the other lanes kept. -/
def execS2v (u : Agent) (f : BitVec 52) (s : State) : Res :=
  .next (issueR u encS2v f true (fun x => x.setL (fD f) (fMOD f) (x.sr (fA f))) s)

/-- R178: the encoding of VMOV. -/
def encVmov : Enc := { major := 5, minor := 4, d := .v 1, a := .v 1 }

/-- R178 VMOV: vD := vA, lane-wise. -/
def execVmov (u : Agent) (f : BitVec 52) (s : State) : Res :=
  .next (issueV u encVmov f true (fun x => x.mapLanes (fD f) (maskOf x f) (fun l => (x.vl (fA f) l, 0))) s)

/-- R178: the encoding of S2P. -/
def encS2p : Enc := { major := 5, minor := 5, d := .p, a := .s }

/-- R178 S2P: pD := sA[15:0]. -/
def execS2p (u : Agent) (f : BitVec 52) (s : State) : Res :=
  .next (issueR u encS2p f true (fun x => x.setP (fD f) (x.sr (fA f))) s)

/-- R178: the encoding of P2S. -/
def encP2s : Enc := { major := 5, minor := 6, d := .s, a := .p }

/-- R178 P2S: sD := pA zero-extended. -/
def execP2s (u : Agent) (f : BitVec 52) (s : State) : Res :=
  .next (issueR u encP2s f true (fun x => x.setS (fD f) (x.pr (fA f))) s)

/-- R178: the encoding of SMOV. -/
def encSmov : Enc := { major := 5, minor := 7, d := .s, a := .s }

/-- R178 SMOV: sD := sA. -/
def execSmov (u : Agent) (f : BitVec 52) (s : State) : Res :=
  .next (issueR u encSmov f true (fun x => x.setS (fD f) (x.sr (fA f))) s)

/-- R178: the encoding of AMOV. -/
def encAmov : Enc := { major := 5, minor := 8, d := .a, a := .a }

/-- R178 AMOV: aD := aA. -/
def execAmov (u : Agent) (f : BitVec 52) (s : State) : Res :=
  .next (issueR u encAmov f true (fun x => x.setA (fD f) (x.ar (fA f))) s)

end Sys2Proof.Machine
end

