-- ==== Sys2Proof/Machine/Vector.lean ====
section
/-!
DEFINITION. The VINT, VFP, VCVT and VPERM instructions (R179 to R185).
-/

namespace Sys2Proof.Machine

/-- R179: the encoding of VADD. -/
def encVadd : Enc := { major := 6, minor := 0, d := .v 1, a := .v 1, b := .v 1, sat := true, ta := [0, 1] }

/-- R179 VADD: vA + vB per lane, limited to the TA range with SAT. -/
def execVadd (u : Agent) (f : BitVec 52) (s : State) : Res :=
  .next (issueV u encVadd f true (fun x => x.mapLanes (fD f) (maskOf x f) (fun l =>
      let y := byTA (fTA f) (x.vl (fA f) l) + byTA (fTA f) (x.vl (fB f) l)
      if fSAT f then limit32 (fTA f == 0) y else (unsgn 32 y, 0))) s)

/-- R179: the encoding of VSUB. -/
def encVsub : Enc := { major := 6, minor := 1, d := .v 1, a := .v 1, b := .v 1, sat := true, ta := [0, 1] }

/-- R179 VSUB: vA - vB per lane, limited to the TA range with SAT. -/
def execVsub (u : Agent) (f : BitVec 52) (s : State) : Res :=
  .next (issueV u encVsub f true (fun x => x.mapLanes (fD f) (maskOf x f) (fun l =>
      let y := byTA (fTA f) (x.vl (fA f) l) - byTA (fTA f) (x.vl (fB f) l)
      if fSAT f then limit32 (fTA f == 0) y else (unsgn 32 y, 0))) s)

/-- R179: the encoding of VMUL. -/
def encVmul : Enc := { major := 6, minor := 2, d := .v 1, a := .v 1, b := .v 1, ta := [0, 1] }

/-- R179 VMUL: the low 32 bits of vA times vB per lane. -/
def execVmul (u : Agent) (f : BitVec 52) (s : State) : Res :=
  .next (issueV u encVmul f true (fun x => x.mapLanes (fD f) (maskOf x f) (fun l => (x.vl (fA f) l * x.vl (fB f) l, 0))) s)

/-- R179: the encoding of VMULH. -/
def encVmulh : Enc := { major := 6, minor := 3, d := .v 1, a := .v 1, b := .v 1, ta := [0, 1] }

/-- R179 VMULH: the high 32 bits of the product per lane, by TA. -/
def execVmulh (u : Agent) (f : BitVec 52) (s : State) : Res :=
  .next (issueV u encVmulh f true (fun x => x.mapLanes (fD f) (maskOf x f) (fun l => (unsgn 32 (byTA (fTA f) (x.vl (fA f) l) * byTA (fTA f) (x.vl (fB f) l) / 2 ^ 32), 0))) s)

/-- R179: the encoding of VMIN. -/
def encVmin : Enc := { major := 6, minor := 4, d := .v 1, a := .v 1, b := .v 1, ta := [0, 1] }

/-- R179 VMIN: the smaller per lane, by TA. -/
def execVmin (u : Agent) (f : BitVec 52) (s : State) : Res :=
  .next (issueV u encVmin f true (fun x => x.mapLanes (fD f) (maskOf x f) (fun l => (if byTA (fTA f) (x.vl (fB f) l) < byTA (fTA f) (x.vl (fA f) l) then x.vl (fB f) l else x.vl (fA f) l, 0))) s)

/-- R179: the encoding of VMAX. -/
def encVmax : Enc := { major := 6, minor := 5, d := .v 1, a := .v 1, b := .v 1, ta := [0, 1] }

/-- R179 VMAX: the larger per lane, by TA. -/
def execVmax (u : Agent) (f : BitVec 52) (s : State) : Res :=
  .next (issueV u encVmax f true (fun x => x.mapLanes (fD f) (maskOf x f) (fun l => (if byTA (fTA f) (x.vl (fA f) l) < byTA (fTA f) (x.vl (fB f) l) then x.vl (fB f) l else x.vl (fA f) l, 0))) s)

/-- R179: the encoding of VAND. -/
def encVand : Enc := { major := 6, minor := 6, d := .v 1, a := .v 1, b := .v 1, ta := [0, 1] }

/-- R179 VAND: vA and vB per lane. -/
def execVand (u : Agent) (f : BitVec 52) (s : State) : Res :=
  .next (issueV u encVand f true (fun x => x.mapLanes (fD f) (maskOf x f) (fun l => (x.vl (fA f) l &&& x.vl (fB f) l, 0))) s)

/-- R179: the encoding of VOR. -/
def encVor : Enc := { major := 6, minor := 7, d := .v 1, a := .v 1, b := .v 1, ta := [0, 1] }

/-- R179 VOR: vA or vB per lane. -/
def execVor (u : Agent) (f : BitVec 52) (s : State) : Res :=
  .next (issueV u encVor f true (fun x => x.mapLanes (fD f) (maskOf x f) (fun l => (x.vl (fA f) l ||| x.vl (fB f) l, 0))) s)

/-- R179: the encoding of VXOR. -/
def encVxor : Enc := { major := 6, minor := 8, d := .v 1, a := .v 1, b := .v 1, ta := [0, 1] }

/-- R179 VXOR: vA xor vB per lane. -/
def execVxor (u : Agent) (f : BitVec 52) (s : State) : Res :=
  .next (issueV u encVxor f true (fun x => x.mapLanes (fD f) (maskOf x f) (fun l => (x.vl (fA f) l ^^^ x.vl (fB f) l, 0))) s)

/-- R179: the encoding of VSHL. -/
def encVshl : Enc := { major := 6, minor := 9, d := .v 1, a := .v 1, b := .v 1, ta := [0, 1] }

/-- R179 VSHL: vA shifted left by vB[4:0] per lane. -/
def execVshl (u : Agent) (f : BitVec 52) (s : State) : Res :=
  .next (issueV u encVshl f true (fun x => x.mapLanes (fD f) (maskOf x f) (fun l => (x.vl (fA f) l * 2 ^ (x.vl (fB f) l % 32), 0))) s)

/-- R179: the encoding of VSHR. -/
def encVshr : Enc := { major := 6, minor := 10, d := .v 1, a := .v 1, b := .v 1, ta := [0, 1] }

/-- R179 VSHR: vA shifted right logically by vB[4:0] per lane. -/
def execVshr (u : Agent) (f : BitVec 52) (s : State) : Res :=
  .next (issueV u encVshr f true (fun x => x.mapLanes (fD f) (maskOf x f) (fun l => (x.vl (fA f) l / 2 ^ (x.vl (fB f) l % 32), 0))) s)

/-- R179: the encoding of VSRA. -/
def encVsra : Enc := { major := 6, minor := 11, d := .v 1, a := .v 1, b := .v 1, ta := [0, 1] }

/-- R179 VSRA: vA shifted right arithmetically by vB[4:0] per lane. -/
def execVsra (u : Agent) (f : BitVec 52) (s : State) : Res :=
  .next (issueV u encVsra f true (fun x => x.mapLanes (fD f) (maskOf x f) (fun l => (unsgn 32 (sgn 32 (x.vl (fA f) l) / (2 ^ (x.vl (fB f) l % 32) : Nat)), 0))) s)

/-- R179: the encoding of VCMP. -/
def encVcmp : Enc := { major := 6, minor := 12, d := .p, a := .v 1, b := .v 1, ta := [0, 1], modMask := 3 }

/-- R179 VCMP: pD bit l := the comparison MOD[1:0] of vA and vB, bits of masked lanes kept. -/
def execVcmp (u : Agent) (f : BitVec 52) (s : State) : Res :=
  .next (issueV u encVcmp f true (fun x => x.mapPred (fD f) (maskOf x f) (fun l =>
      let a := byTA (fTA f) (x.vl (fA f) l)
      let b := byTA (fTA f) (x.vl (fB f) l)
      if fMOD f = 0 then a == b else if fMOD f = 1 then a != b else if fMOD f = 2 then decide (a < b) else decide (a ≤ b))) s)

/-- R179: the encoding of VADDS. -/
def encVadds : Enc := { major := 6, minor := 13, d := .v 1, a := .v 1, b := .s, sat := true, ta := [0, 1] }

/-- R179 VADDS: vA + sB per lane, limited to the TA range with SAT. -/
def execVadds (u : Agent) (f : BitVec 52) (s : State) : Res :=
  .next (issueV u encVadds f true (fun x => x.mapLanes (fD f) (maskOf x f) (fun l =>
      let y := byTA (fTA f) (x.vl (fA f) l) + byTA (fTA f) (x.sr (fB f))
      if fSAT f then limit32 (fTA f == 0) y else (unsgn 32 y, 0))) s)

/-- R179: the encoding of VPOPC. -/
def encVpopc : Enc := { major := 6, minor := 14, d := .v 1, a := .v 1, ta := [0, 1] }

/-- R179 VPOPC: the set bits of vA per lane. -/
def execVpopc (u : Agent) (f : BitVec 52) (s : State) : Res :=
  .next (issueV u encVpopc f true (fun x => x.mapLanes (fD f) (maskOf x f) (fun l => (popcount 32 (x.vl (fA f) l), 0))) s)

/-- The random word of element e of an instruction's result (R123, R173): TID from s30, STEP from s31, IDX from a15. -/
def Cx.srw (x : Cx) (f : BitVec 52) (e : Nat) : Nat :=
  if fRM f = 4 then srWord (x.sr 30) (x.sr 31) (x.ar 15 + e) else 0

/-- R170, R180: apply an operation to each element of lane l: one binary32, or two 16-bit elements. The operation gets the
index of the element and the codes of vA, vB and vC. -/
def Cx.vfLane (x : Cx) (f : BitVec 52) (g : Nat → Nat → Nat → Nat → Nat × Nat) (l : Nat) : Nat × Nat :=
  let a := x.vl (fA f) l
  let b := x.vl (fB f) l
  let c := x.vl (fC f) l
  if fTA f = 2 then g l a b c
  else
    let h (k : Nat) (y : Nat) : Nat := bitsOf y (16 * k) 16
    let y0 := g (2 * l) (h 0 a) (h 0 b) (h 0 c)
    let y1 := g (2 * l + 1) (h 1 a) (h 1 b) (h 1 c)
    (y0.1 + 2 ^ 16 * y1.1, y0.2 ||| y1.2)

/-- R180: the value of a code of type TA. -/
def tav (f : BitVec 52) (y : Nat) : FV := decodeF (fmtOf (fTA f)) y

/-- R103: a result rounded once under the instruction's RM and SAT. -/
def vfin (x : Cx) (f : BitVec 52) (e : Nat) (v : FV × Bool) : Nat × Nat :=
  finish (fmtOf (fTA f)) (fRM f) (fSAT f) (x.srw f e) v


/-- R180: the encoding of VFADD. -/
def encVfadd : Enc := { major := 7, minor := 0, d := .v 1, a := .v 1, b := .v 1, rm := true, sat := true, ta := [2, 3, 4] }

/-- R180 VFADD: vA + vB per element. -/
def execVfadd (u : Agent) (f : BitVec 52) (s : State) : Res :=
  .next (issueV u encVfadd f true (fun x => x.mapLanes (fD f) (maskOf x f) (x.vfLane f (fun e a b _ =>
      vfin x f e ((tav f a).add (fRM f) (tav f b))))) s)

/-- R180: the encoding of VFSUB. -/
def encVfsub : Enc := { major := 7, minor := 1, d := .v 1, a := .v 1, b := .v 1, rm := true, sat := true, ta := [2, 3, 4] }

/-- R180 VFSUB: vA - vB per element. -/
def execVfsub (u : Agent) (f : BitVec 52) (s : State) : Res :=
  .next (issueV u encVfsub f true (fun x => x.mapLanes (fD f) (maskOf x f) (x.vfLane f (fun e a b _ =>
      vfin x f e ((tav f a).add (fRM f) (tav f b).neg)))) s)

/-- R180: the encoding of VFMUL. -/
def encVfmul : Enc := { major := 7, minor := 2, d := .v 1, a := .v 1, b := .v 1, rm := true, sat := true, ta := [2, 3, 4] }

/-- R180 VFMUL: vA times vB per element. -/
def execVfmul (u : Agent) (f : BitVec 52) (s : State) : Res :=
  .next (issueV u encVfmul f true (fun x => x.mapLanes (fD f) (maskOf x f) (x.vfLane f (fun e a b _ =>
      vfin x f e ((tav f a).mul (tav f b))))) s)

/-- R180: the encoding of VFMA. -/
def encVfma : Enc := { major := 7, minor := 3, d := .v 1, a := .v 1, b := .v 1, c := .v 1, rm := true, sat := true, ta := [2, 3, 4] }

/-- R180 VFMA: vA times vB plus vC per element, one rounding. -/
def execVfma (u : Agent) (f : BitVec 52) (s : State) : Res :=
  .next (issueV u encVfma f true (fun x => x.mapLanes (fD f) (maskOf x f) (x.vfLane f (fun e a b c =>
      let p := (tav f a).mul (tav f b)
      let q := p.1.add (fRM f) (tav f c)
      vfin x f e (q.1, p.2 || q.2)))) s)

/-- R181: the encoding of VFMIN. -/
def encVfmin : Enc := { major := 7, minor := 4, d := .v 1, a := .v 1, b := .v 1, ta := [2, 3, 4] }

/-- R181 VFMIN: the smaller per element; a NaN operand gives the other. -/
def execVfmin (u : Agent) (f : BitVec 52) (s : State) : Res :=
  .next (issueV u encVfmin f true (fun x => x.mapLanes (fD f) (maskOf x f) (x.vfLane f (fun _ a b _ =>
      if (tav f a).isNan && (tav f b).isNan then ((fmtOf (fTA f)).nanCode, 0)
      else if (tav f a).isNan then (b, 0) else if (tav f b).isNan then (a, 0)
      else (if (tav f b).ltz (tav f a) then b else a, 0)))) s)

/-- R181: the encoding of VFMAX. -/
def encVfmax : Enc := { major := 7, minor := 5, d := .v 1, a := .v 1, b := .v 1, ta := [2, 3, 4] }

/-- R181 VFMAX: the larger per element; a NaN operand gives the other. -/
def execVfmax (u : Agent) (f : BitVec 52) (s : State) : Res :=
  .next (issueV u encVfmax f true (fun x => x.mapLanes (fD f) (maskOf x f) (x.vfLane f (fun _ a b _ =>
      if (tav f a).isNan && (tav f b).isNan then ((fmtOf (fTA f)).nanCode, 0)
      else if (tav f a).isNan then (b, 0) else if (tav f b).isNan then (a, 0)
      else (if (tav f a).ltz (tav f b) then b else a, 0)))) s)

/-- R180: the encoding of VFABS. -/
def encVfabs : Enc := { major := 7, minor := 6, d := .v 1, a := .v 1, ta := [2, 3, 4] }

/-- R97, R180 VFABS: vA with sign 0 per element; every NaN gives the canonical NaN. -/
def execVfabs (u : Agent) (f : BitVec 52) (s : State) : Res :=
  .next (issueV u encVfabs f true (fun x => x.mapLanes (fD f) (maskOf x f) (x.vfLane f (fun _ a _ _ =>
      (if (tav f a).isNan then (fmtOf (fTA f)).nanCode else a % 2 ^ (tyBits (fTA f) - 1), 0)))) s)

/-- R180: the encoding of VFNEG. -/
def encVfneg : Enc := { major := 7, minor := 7, d := .v 1, a := .v 1, ta := [2, 3, 4] }

/-- R97, R180 VFNEG: vA with its sign inverted per element; every NaN gives the canonical NaN. -/
def execVfneg (u : Agent) (f : BitVec 52) (s : State) : Res :=
  .next (issueV u encVfneg f true (fun x => x.mapLanes (fD f) (maskOf x f) (x.vfLane f (fun _ a _ _ =>
      (if (tav f a).isNan then (fmtOf (fTA f)).nanCode else a ^^^ 2 ^ (tyBits (fTA f) - 1), 0)))) s)

/-- R180: the encoding of VFCMP. -/
def encVfcmp : Enc := { major := 7, minor := 8, d := .p, a := .v 1, b := .v 1, ta := [2, 3, 4], modMask := 3 }

/-- R180 VFCMP: pD bit l := the comparison MOD[1:0], for 16-bit types of both elements. -/
def execVfcmp (u : Agent) (f : BitVec 52) (s : State) : Res :=
  .next (issueV u encVfcmp f true (fun x => x.mapPred (fD f) (maskOf x f) (fun l =>
      let t (a b : Nat) : Bool :=
        let va := tav f a
        let vb := tav f b
        if fMOD f = 0 then va.eqv vb else if fMOD f = 1 then va.lt vb
        else if fMOD f = 2 then va.lt vb || va.eqv vb else va.isNan || vb.isNan
      let a := x.vl (fA f) l
      let b := x.vl (fB f) l
      if fTA f = 2 then t a b else t (a % 2 ^ 16) (b % 2 ^ 16) && t (a / 2 ^ 16) (b / 2 ^ 16))) s)

/-- R181: the encoding of VFEXP2. -/
def encVfexp2 : Enc := { major := 7, minor := 9, d := .v 1, a := .v 1, rm := true, sat := true, ta := [2] }

/-- R181 VFEXP2: 2 to the power vA per element, exactly rounded. -/
def execVfexp2 (u : Agent) (f : BitVec 52) (s : State) : Res :=
  .next (issueV u encVfexp2 f true (fun x => x.mapLanes (fD f) (maskOf x f) (x.vfLane f (fun e a _ _ =>
      vfExp2 (fRM f) (fSAT f) (x.srw f e) (tav f a)))) s)

/-- R181: the encoding of VFLOG2. -/
def encVflog2 : Enc := { major := 7, minor := 10, d := .v 1, a := .v 1, rm := true, ta := [2] }

/-- R181 VFLOG2: the base-2 logarithm of vA per element, exactly rounded. -/
def execVflog2 (u : Agent) (f : BitVec 52) (s : State) : Res :=
  .next (issueV u encVflog2 f true (fun x => x.mapLanes (fD f) (maskOf x f) (x.vfLane f (fun e a _ _ =>
      vfLog2 (fRM f) (fSAT f) (x.srw f e) (tav f a)))) s)

/-- R181: the encoding of VFRCP. -/
def encVfrcp : Enc := { major := 7, minor := 11, d := .v 1, a := .v 1, rm := true, sat := true, ta := [2] }

/-- R181 VFRCP: 1 divided by vA per element, exactly rounded. -/
def execVfrcp (u : Agent) (f : BitVec 52) (s : State) : Res :=
  .next (issueV u encVfrcp f true (fun x => x.mapLanes (fD f) (maskOf x f) (x.vfLane f (fun e a _ _ =>
      vfRcp (fRM f) (fSAT f) (x.srw f e) (tav f a)))) s)

/-- R181: the encoding of VFRSQ. -/
def encVfrsq : Enc := { major := 7, minor := 12, d := .v 1, a := .v 1, rm := true, ta := [2] }

/-- R181 VFRSQ: 1 divided by the square root of vA per element, exactly rounded. -/
def execVfrsq (u : Agent) (f : BitVec 52) (s : State) : Res :=
  .next (issueV u encVfrsq f true (fun x => x.mapLanes (fD f) (maskOf x f) (x.vfLane f (fun e a _ _ =>
      vfRsq (fRM f) (fSAT f) (x.srw f e) (tav f a)))) s)

/-- R181: the encoding of VFSQRT. -/
def encVfsqrt : Enc := { major := 7, minor := 13, d := .v 1, a := .v 1, rm := true, ta := [2] }

/-- R181 VFSQRT: the square root of vA per element, exactly rounded. -/
def execVfsqrt (u : Agent) (f : BitVec 52) (s : State) : Res :=
  .next (issueV u encVfsqrt f true (fun x => x.mapLanes (fD f) (maskOf x f) (x.vfLane f (fun e a _ _ =>
      vfSqrt (fRM f) (fSAT f) (x.srw f e) (tav f a)))) s)

/-- R180: the encoding of VFSCL. -/
def encVfscl : Enc := { major := 7, minor := 14, d := .v 1, a := .v 1, b := .v 1, rm := true, sat := true, ta := [2, 3, 4] }

/-- R180 VFSCL: vA times 2 to the INT32 in the lane of vB, per element. -/
def execVfscl (u : Agent) (f : BitVec 52) (s : State) : Res :=
  .next (issueV u encVfscl f true (fun x => x.mapLanes (fD f) (maskOf x f) (fun l =>
      x.vfLane f (fun e a _ _ => vfin x f e ((tav f a).scale (sgn 32 (x.vl (fB f) l)), false)) l)) s)

/-- R182: source registers, destination registers, destination element bits, source element bits, elements. -/
def cvtShape (f : BitVec 52) : Nat × Nat × Nat × Nat × Nat :=
  let v := tyBits (fTA f)
  let w := tyBits (fTB f)
  let ns := 32 / v
  let nd := 32 / w
  let rs := max 1 (nd / ns)
  (rs, max 1 (ns / nd), w, v, 16 * ns * rs)

/-- The registers a profile holds in its v file (R129). -/
def vCount (prof : Nat) : Nat := if prof = 0 then 64 else 16

/-- R169, R182: TA differs from TB, and both groups lie in the file. -/
def cvtOk (prof : Nat) (f : BitVec 52) : Bool :=
  let (rs, rd, _, _, _) := cvtShape f
  fTA f != fTB f && decide (fA f + rs ≤ vCount prof) && decide (fD f + rd ≤ vCount prof)

/-- R183: the registers of a block-scaled source group. -/
def decRegs (ty : Nat) : Nat := if tyBits ty = 6 then 3 else 1

/-- R183: the elements of a block-scaled source group. -/
def decCount (ty : Nat) : Nat := 512 * decRegs ty / tyBits ty

/-- R169, R183: both groups lie in the file. -/
def decOk (prof : Nat) (f : BitVec 52) : Bool :=
  decide (fA f + decRegs (fTA f) ≤ vCount prof) &&
    decide (fD f + decCount (fTA f) * tyBits (fTB f) / 512 ≤ vCount prof)

/-- R98 to R100, R171: the value of element e of a block-scaled group whose side array is in an a register. -/
def blockVal (ty side e code : Nat) : FV :=
  if ty = 16 then
    let k := e / 64
    let step := bitsOf side (16 * k + 8 + 2 * (e % 64 / 16)) 2
    (elemVal ty code).withScale (bitsOf side (16 * k) 8) step
  else (elemVal ty code).withScale (bitsOf side (8 * (e / 32)) 8) 0

/-- R184: the permitted block slots of an MX type. -/
def qmxSlots (ty : Nat) : Nat := if ty = 14 then 4 else if ty = 12 ∨ ty = 13 then 8 else 2

/-- R169, R184: the block slot is permitted, and the groups lie in the file. -/
def qmxOk (prof : Nat) (f : BitVec 52) : Bool :=
  decide (fMOD f < qmxSlots (fTB f)) && decide (fA f + (if fTA f = 2 then 2 else 1) ≤ vCount prof) &&
    decide (fD f + decRegs (fTB f) ≤ vCount prof)

/-- R169, R184: the same for PS4. -/
def qps4Ok (prof : Nat) (f : BitVec 52) : Bool :=
  decide (fMOD f < 2) && decide (fA f + (if fTA f = 2 then 4 else 2) ≤ vCount prof)

/-- R182, R183: write n converted elements of w bits, packed, into k registers from vD, in the enabled destination lanes. -/
def Cx.convert (x : Cx) (d k w m n : Nat) (g : Nat → Nat × Nat) : Cx :=
  let per := 32 / w
  (List.range (16 * k)).foldl (fun y i =>
    if bitOf m (i % 16) then
      let el := (List.range per).map (fun j => if per * i + j < n then g (per * i + j) else (0, 0))
      (y.setL (d + i / 16) (i % 16) (el.foldr (fun c acc => c.1 + 2 ^ w * acc) 0)).orFlags (orAll (el.map (·.2)))
    else y) x


/-- R182: the encoding of CVT. -/
def encCvt : Enc := { major := 8, minor := 0, d := .v 1, a := .v 1, rm := true, sat := true, ta := [0, 1, 2, 3, 4, 5, 6, 7, 8, 9], tb := [0, 1, 2, 3, 4, 5, 6, 7, 8, 9] }

/-- R182 CVT: converts the group of vA from type TA to type TB; the mask governs destination lanes. -/
def execCvt (u : Agent) (f : BitVec 52) (s : State) : Res :=
  .next (issueV u encCvt f (cvtOk (agentProfile u) f) (fun x =>
      let (rs, rd, w, v, n) := cvtShape f
      x.convert (fD f) rd w (maskOf x f) n (fun e => cvtTo (fTB f) (fRM f) (fSAT f) (x.srw f e)
        (elemVal (fTA f) (bitsOf (x.group (fA f) rs) (v * e) v)))) s)

/-- R183: the encoding of DEC. -/
def encDec : Enc := { major := 8, minor := 1, d := .v 1, a := .v 1, b := .a, rm := true, sat := true, ta := [10, 11, 12, 13, 14, 15, 16], tb := [2, 3, 4] }

/-- R183 DEC: decodes the block-scaled group of vA of type TA, scales from aB, into type TB. -/
def execDec (u : Agent) (f : BitVec 52) (s : State) : Res :=
  .next (issueV u encDec f (decOk (agentProfile u) f) (fun x =>
      let v := tyBits (fTA f)
      let w := tyBits (fTB f)
      let n := decCount (fTA f)
      x.convert (fD f) (n * w / 512) w (maskOf x f) n (fun e => (blockVal (fTA f) (x.ar (fB f)) e
        (bitsOf (x.group (fA f) (decRegs (fTA f))) (v * e) v)).toF (fmtOf (fTB f)) false (fRM f) (fSAT f) (x.srw f e))) s)

/-- R184: the encoding of QMX. -/
def encQmx : Enc := { major := 8, minor := 2, d := .v 1, a := .v 1, c := .a, rm := true, ta := [2, 3, 4], tb := [10, 11, 12, 13, 14, 15], modMask := 7 }

/-- R184 QMX: quantises 32 values of type TA into MX block slot MOD[2:0] of vD, with its scale into aC. -/
def execQmx (u : Agent) (f : BitVec 52) (s : State) : Res :=
  .next (issueR u encQmx f (qmxOk (agentProfile u) f) (fun x =>
      let k := fMOD f
      let w := tyBits (fTA f)
      let src := x.group (fA f) (if fTA f = 2 then 2 else 1)
      let vs := (List.range 32).map (fun i => decodeF (fmtOf (fTA f)) (bitsOf src (w * i) w))
      let (codes, sb, fl) := quantMX (fTB f) (fRM f) (x.srw f) vs
      let e := tyBits (fTB f)
      let blk := codes.foldr (fun c acc => c + 2 ^ e * acc) 0
      let regs := if e = 6 then 3 else 1
      let y := putBits (x.group (fD f) regs) (32 * e * k) (32 * e) blk
      ((x.setGroup (fD f) regs 0xFFFF y).setA (fC f) (putBits (x.ar (fC f)) (8 * k) 8 sb)).orFlags fl) s)

/-- R184: the encoding of QPS4. -/
def encQps4 : Enc := { major := 8, minor := 3, d := .v 1, a := .v 1, c := .a, rm := true, ta := [2, 3, 4], tb := [16], modMask := 7 }

/-- R184 QPS4: quantises 64 values of type TA into PS4 block slot MOD[2:0] of vD, with scale and step byte into aC. -/
def execQps4 (u : Agent) (f : BitVec 52) (s : State) : Res :=
  .next (issueR u encQps4 f (qps4Ok (agentProfile u) f) (fun x =>
      let k := fMOD f
      let w := tyBits (fTA f)
      let src := x.group (fA f) (if fTA f = 2 then 4 else 2)
      let vs := (List.range 64).map (fun i => decodeF (fmtOf (fTA f)) (bitsOf src (w * i) w))
      let (codes, sb, st, fl) := quantPS4 (fRM f) (x.srw f) vs
      let blk := codes.foldr (fun c acc => c + 16 * acc) 0
      let y := putBits (x.group (fD f) 1) (256 * k) 256 blk
      ((x.setGroup (fD f) 1 0xFFFF y).setA (fC f) (putBits (x.ar (fC f)) (16 * k) 16 (sb + 256 * st))).orFlags fl) s)

/-- R185: the encoding of VBCAST. -/
def encVbcast : Enc := { major := 9, minor := 0, d := .v 1, a := .v 1, modMask := 15 }

/-- R185 VBCAST: every lane of vD := lane MOD[3:0] of vA. -/
def execVbcast (u : Agent) (f : BitVec 52) (s : State) : Res :=
  .next (issueV u encVbcast f true (fun x => x.mapLanes (fD f) (maskOf x f) (fun _ => (x.vl (fA f) (fMOD f), 0))) s)

/-- R185: the encoding of VSPLAT. -/
def encVsplat : Enc := { major := 9, minor := 1, d := .v 1, a := .s }

/-- R185 VSPLAT: every lane of vD := sA. -/
def execVsplat (u : Agent) (f : BitVec 52) (s : State) : Res :=
  .next (issueV u encVsplat f true (fun x => x.mapLanes (fD f) (maskOf x f) (fun _ => (x.sr (fA f), 0))) s)

/-- R185: the encoding of VPERM. -/
def encVperm : Enc := { major := 9, minor := 2, d := .v 1, a := .v 1, b := .v 1 }

/-- R185 VPERM: lane l of vD := the lane of vA that lane l of vB names. -/
def execVperm (u : Agent) (f : BitVec 52) (s : State) : Res :=
  .next (issueV u encVperm f true (fun x => x.mapLanes (fD f) (maskOf x f) (fun l => (x.vl (fA f) (x.vl (fB f) l % 16), 0))) s)

/-- R185: the encoding of VROT. -/
def encVrot : Enc := { major := 9, minor := 3, d := .v 1, a := .v 1, b := .s }

/-- R185 VROT: lane l of vD := lane (l + sB) mod 16 of vA. -/
def execVrot (u : Agent) (f : BitVec 52) (s : State) : Res :=
  .next (issueV u encVrot f true (fun x => x.mapLanes (fD f) (maskOf x f) (fun l => (x.vl (fA f) ((l + x.sr (fB f)) % 16), 0))) s)

/-- R185: the encoding of VMINL. -/
def encVminl : Enc := { major := 9, minor := 4, d := .s, a := .v 1, c := .s }

/-- R185 VMINL: sD := the smallest unsigned lane of vA, sC := the lowest lane holding it; with D = C the lane stays (log entry 97). -/
def execVminl (u : Agent) (f : BitVec 52) (s : State) : Res :=
  .next (issueR u encVminl f true (fun x =>
      let best := (List.range 16).foldl (fun b l => if x.vl (fA f) l < x.vl (fA f) b then l else b) 0
      (x.setS (fD f) (x.vl (fA f) best)).setS (fC f) best) s)

/-- R185: the encoding of VSUML. -/
def encVsuml : Enc := { major := 9, minor := 5, d := .s, a := .v 1 }

/-- R185 VSUML: sD := the sum of the 16 lanes of vA modulo 2^32. -/
def execVsuml (u : Agent) (f : BitVec 52) (s : State) : Res :=
  .next (issueR u encVsuml f true (fun x => x.setS (fD f) ((List.range 16).map (x.vl (fA f))).sum) s)

end Sys2Proof.Machine
end

