-- ==== Sys2Proof/Machine/Mem.lean ====
section
/-!
DEFINITION. The store as its readers and writers see it: the ranges of R236, the current copy of a line (R326, R331), who
may access it (R254, R258, R376), requests over the fabric (R373), and teardown (R384).
-/

namespace Sys2Proof.Machine

/-! ### Listed registers -/

/-- The indices i below n of an indexed field (offset stride apart) whose live value is listed, so differs from reset. -/
def State.listed (s : State) (f0 : Fld) (stride n : Nat) : List Nat :=
  s.regs.filterMap (fun e =>
    let r := e.1 / 64
    if e.1 % 64 = f0.lo ∧ f0.reg ≤ r ∧ (r - f0.reg) % stride = 0 ∧ (r - f0.reg) / stride < n then
      some ((r - f0.reg) / stride)
    else none)

/-! ### The PGA and the store's ranges (R236, R296) -/

/-- R296: the DEVICE of a PGA. -/
def pgaDev (p : Nat) : Nat := bitsOf p 54 6
/-- R296: the SPACE bit of a PGA. -/
def pgaCtl (p : Nat) : Bool := bitOf p 53
/-- R296: the OFFSET of a PGA. -/
def pgaOff (p : Nat) : Nat := bitsOf p 0 53
/-- R296: whether the reserved bits of a PGA are zero. -/
def pgaOk (p : Nat) : Bool := decide (p < 2 ^ 60)
/-- R296: the PGA of a store offset of a device. -/
def pgaOf (dev off : Nat) : Nat := dev * 2 ^ 54 + off

/-- R236: what a store offset names. -/
inductive Range where
  | own
  | stage
  | loan (w b : Nat)
  | nothing
  deriving DecidableEq, Repr

/-- R236: the range a store offset of this device lies in. -/
def State.range (s : State) (off : Nat) : Range :=
  if off < 65536 * s.rd Reg.STM_SIZE_UNITS then .own
  else if 0x8000000000000 ≤ off ∧ off < 0x8000000000000 + 2 ^ 30 * s.rd Reg.STM_STAGE_ONLY_GIB then .stage
  else if 0x10000000000000 ≤ off ∧ off < 0x10000000000000 + 16 * 2 ^ 40 then
    .loan ((off - 0x10000000000000) / 2 ^ 40) ((off - 0x10000000000000) % 2 ^ 40)
  else .nothing

/-- Whether n bytes from a PGA lie in this device's own store or Stage-only range. -/
def State.isLocal (s : State) (p n : Nat) : Bool :=
  pgaOk p && !pgaCtl p && pgaDev p == s.device && n != 0 &&
    (match s.range (pgaOff p), s.range (pgaOff p + n - 1) with
     | .own, .own => true
     | .stage, .stage => true
     | _, _ => false)

/-- Whether n bytes from a PGA lie in this device's own store. -/
def State.isOwn (s : State) (p n : Nat) : Bool :=
  s.isLocal p n && s.range (pgaOff p) == .own

/-! ### The current copy of a line -/

/-- The directory's number of the line at a store offset of this device. -/
def State.lineKey (s : State) (off : Nat) : Nat := pgaOf s.device off / 64

/-- The eight marks of the line at a store offset, as a mask. -/
def State.tierMarks (s : State) (off : Nat) : Nat :=
  (List.range 8).foldl (fun m i => m + b2n (s.deadCw (off / 64 * 8 + i)) * 2 ^ i) 0

/-- The line at a store offset as its tier holds it. -/
def State.tierLine (s : State) (off : Nat) : BitVec 512 × Nat :=
  (lineOf (Memory.bytes s.store.mem (off / 64 * 64) 64), s.tierMarks off)

/-- The frames that hold a unit or are the destination of a migration. -/
def State.framesUsed (s : State) : List Nat :=
  s.store.units.vals.flatMap (fun (x : SUnit) =>
    (match x.frame with | some f => [f] | none => []) ++ (match x.moving with | some (some f) => [f] | _ => []))

/-- R239: whether the line of the Stage-only range at a store offset lies in a frame that a unit still holds: writes to it wait. -/
def State.frameHeld (s : State) (off : Nat) : Bool :=
  decide (0x8000000000000 ≤ off) && s.framesUsed.contains ((764 * 2 ^ 30 - 1 - (off - 0x8000000000000)) / 65536)

/-- R331, R343: the line at a store offset as the device holds it at this moment: in an on-device agent in E or M, in a message on its way, in
the home atomic buffer, or in its tier. -/
def State.lineNow (s : State) (off : Nat) : BitVec 512 × Nat :=
  let k := s.lineKey off
  match List.find? (fun (e : Nat × ACopy) => e.1 / 64 == k && decide (3 ≤ e.2.st) && decide (e.2.st ≤ 4)) s.coh.ag with
  | some e => (e.2.data, e.2.marks)
  | none =>
    match s.coh.wire.find? (fun m => m.line == k && (m.code == 0x32 || m.code == 0x33 || m.code == 0x35 || m.code == 0x36)) with
    | some m => (m.data, m.marks)
    | none =>
      match s.coh.dir.find? k with
      | some d => (match d.rcd with
        | some x => x
        | none => if d.st = 3 ∧ d.owner = none then (d.buf, d.bufMarks) else s.tierLine off)
      | none => s.tierLine off

/-- R337: recall a line from edge agents (a mask over 0 to 7): a BISnpData where a reader needs only S, else a BISnpInv. -/
def State.recallEdges (s : State) (line mask : Nat) (forRead : Bool) : State :=
  let d := s.coh.dir.getD line {}
  let e : DirEnt := { d with st := 4, bis := d.bis ||| mask, bisData := if forRead then d.bisData ||| mask else d.bisData }
  let s := { s with coh := { s.coh with dir := s.coh.dir.insert line e } }
  (List.range 8).foldl (fun s g => if bitOf mask g then
    s.send { name := if forRead then "BISnpData" else "BISnpInv", dest := g, args := [line] } else s) s

/-- The bytes of a line as a reader sees them: those of a marked codeword read as zero (R448). -/
def seenBytes (x : BitVec 512 × Nat) : List Byte :=
  (bytesOf x.1).zipIdx.map (fun (b, i) => if bitOf x.2 (i / 8) then 0 else b)

/-- n bytes at a store offset as a coherent reader sees them, and whether one of their codewords is marked. -/
def State.cohRead (s : State) (off n : Nat) : List Byte × Bool :=
  let ls := (List.range ((off + n + 63) / 64 - off / 64)).map (fun i => s.lineNow (64 * (off / 64 + i)))
  let marks := ls.zipIdx.any (fun (l, i) => (List.range 8).any (fun j =>
    let a := 64 * (off / 64 + i) + 8 * j
    bitOf l.2 j && decide (off < a + 8) && decide (a < off + n)))
  (((ls.flatMap seenBytes).drop (off % 64)).take n, marks)

/-- The little-endian number in n bytes at a store offset, as a coherent reader sees it. -/
def State.cohNum (s : State) (off n : Nat) : Nat := leBytes (s.cohRead off n).1

/-- Replace bytes of a line from position i, by a list. -/
def patchLine (x : BitVec 512) (i : Nat) (bs : List Byte) : BitVec 512 :=
  lineOf (((bytesOf x).take i ++ bs ++ (bytesOf x).drop (i + bs.length)).take 64)

/-- R383: region entry i has passed a request on. -/
def State.passedOn (s : State) (i : Nat) : State :=
  let s := s.satAdd Reg.EFH_COUNTS_FORWARDED 1
  { s with efh := { s.efh with idle := s.efh.idle.insert i (s.cueNow + 1) } }

/-- R373: send a request over the fabric for a requester inside this device, or take the answer of one it has sent; none
while no answer has come. A lost device answers ST_TARGET_LOST (R384). -/
def State.fabric (s : State) (q : FReq) : State × Option FAns :=
  if s.gone q.dest q.part then
    ({ s with efh := { s.efh with out := s.efh.out.filter (fun x => !(x.own == q.own && x.kind == q.kind && x.pga == q.pga)) } },
     some { status := 0x23 })
  else
    match s.efh.out.find? (fun x => x.own == q.own && x.kind == q.kind && x.pga == q.pga && x.dest == q.dest) with
    | some x =>
      (match x.ans with
       | none => (s, none)
       | some a => ({ s with efh := { s.efh with out := s.efh.out.erase x } }, some a))
    | none =>
      let q := { q with id := s.efh.nextId }
      let s := { s with efh := { s.efh with out := s.efh.out ++ [q], nextId := (s.efh.nextId + 1) % 65536 } }
      let s := match q.via with | some i => s.passedOn i | none => s
      (s.fabReq s.device q.part q.id q.kind q.dest q.pga q.mask q.marks q.op q.data q.via.isSome, none)

/-- R261: whether the mirror partner is lost. -/
def State.partnerLost (s : State) : Bool := bitOf s.res.lostDevices (s.rd Reg.STM_MIRROR_PARTNER)

/-- R260, R261: whether writes to the unit of a store offset are forwarded to the partner. -/
def State.mirrored (s : State) (off : Nat) : Bool :=
  s.is1 Reg.STM_MIRROR_EN && (s.store.units.getD (off / 65536) {}).mirror && !s.partnerLost

/-- R260: forward a completed write of one line of a MIRROR unit, stamped with STEP. -/
def State.forwardMirror (s : State) (off : Nat) : State :=
  if !s.mirrored off then s else
  let x := s.lineNow off
  let q : FReq := { id := s.efh.nextId, dest := s.rd Reg.STM_MIRROR_PARTNER, kind := 14, pga := pgaOf s.device (off / 64 * 64),
                    data := x.1, marks := x.2, op := [s.rd Reg.STM_MIRROR_STEP], own := 2 ^ 40 }
  let s := { s with efh := { s.efh with out := s.efh.out ++ [q], nextId := (s.efh.nextId + 1) % 65536 } }
  s.fabReq s.device q.part q.id 14 q.dest q.pga 0 q.marks q.op q.data false

/-- R331: a line is written to its tier with the marks its data carries; a resident unit's frame becomes dirty. -/
def State.tierPut (s : State) (off : Nat) (x : BitVec 512) (m : Nat) : State :=
  let a := off / 64 * 64
  let s := (s.rebuildStripe a).storeWrite a (bytesOf x)
  let s := (List.range 8).foldl (fun s j => if bitOf m j then s.setDead (a / 8 + j) true else s) s
  let u := s.store.units.getD (a / 65536) {}
  if u.frame.isSome ∧ !u.dirty then
    { s with store := { s.store with units := s.store.units.setD (a / 65536) {} { u with dirty := true } } }
  else s

/-- R340, R347: every codeword of the line at a store offset becomes a dead letter in its tier. -/
def State.tierMark (s : State) (off : Nat) : State :=
  (List.range 8).foldl (fun s j => s.setDead (off / 64 * 8 + j) true) s

/-- A line with masked bytes replaced, a codeword written whole losing its mark (R342). -/
def mergeLine (x : BitVec 512 × Nat) (y : BitVec 512) (mask : Nat) : BitVec 512 × Nat :=
  (lineOf ((bytesOf x.1).zipIdx.map (fun (b, i) => if bitOf mask i then (bytesOf y).getD i 0 else b)),
   (List.range 8).foldl (fun m i => m + b2n (bitOf x.2 i && bitsOf mask (8 * i) 8 != 255) * 2 ^ i) 0)

/-- A write of the masked bytes of the line at a store offset to its tier alone (R554). -/
def State.tierMasked (s : State) (off : Nat) (x : BitVec 512) (mask : Nat) : State :=
  let y := mergeLine (s.tierLine off) x mask
  let s := s.storeWrite (off / 64 * 64) (bytesOf y.1)
  (List.range 8).foldl (fun s j => if bitOf y.2 j then s.setDead (off / 64 * 8 + j) true else s) s

/-! ### Regions and owners (R375, R376) -/

/-- The base of region entry i. -/
def State.regionBase (s : State) (i : Nat) : Nat := s.rd (Reg.EFH_REGION0_BASE i) * 2 ^ 21

/-- The region entries in use. -/
def State.regions (s : State) : List Nat := s.listed (Reg.EFH_REGION0_STATE 0) 0x20 4096

/-- R375: the region entry that covers a PGA. -/
def State.regionAt (s : State) (p : Nat) : Option Nat :=
  s.regions.find? (fun i => decide (s.regionBase i ≤ p) && decide (p < s.regionBase i + 2 ^ s.rd (Reg.EFH_REGION0_LOG2 i)))

/-- What the home switch decides of an access. -/
inductive Verdict where
  | permit
  | stat (code : Nat)
  | pass (entry target : Nat)
  deriving DecidableEq, Repr

/-- R376, R383: the check of an access to a PGA of this device's own store by a device and partition. -/
def State.regionCheck (s : State) (dev part p : Nat) (write forwarded : Bool) : Verdict :=
  match s.regionAt p with
  | none => if dev = s.device then .permit else .stat 0x21
  | some i =>
    let st := s.rd (Reg.EFH_REGION0_STATE i)
    let pub := s.is1 (Reg.EFH_REGION0_PUB i)
    let own := s.rd (Reg.EFH_REGION1_OWNER_DEV i) == dev && s.rd (Reg.EFH_REGION1_OWNER_PART i) == part
    if st = 4 then
      (if forwarded then .stat 0x21
       else .pass i (s.rd (Reg.EFH_REGION2_TARGET i) * 2 ^ 21 + (p - s.regionBase i)))
    else if st = 2 then .stat 0x22
    else if st = 3 then .stat 0x21
    else if pub ∧ write then .stat 0x11
    else if own then .permit
    else if pub then .permit
    else .stat 0x21

/-- R376: count an ST_NOT_OWNER or ST_IN_TRANSIT. -/
def State.countOwner (s : State) (code : Nat) : State :=
  if code = 0x21 then s.satAdd Reg.EFH_COUNTS_NOT_OWNER 1
  else if code = 0x22 then s.satAdd Reg.EFH_COUNTS_IN_TRANSIT 1
  else s

/-- R254: the lender entry that lends the unit of a store offset. -/
def State.lentAt (s : State) (off : Nat) : Option Nat :=
  (List.range 16).find? (fun i =>
    let st := s.rd (Reg.STM_LEND_STATE i)
    (st == 1 || st == 2) && decide (65536 * s.rd (Reg.STM_LEND_BASE i) ≤ off) &&
      decide (off < 65536 * s.rd (Reg.STM_LEND_BASE i) + 2 ^ s.rd (Reg.STM_LEND_LOG2 i)))

/-- R258: whether a store offset lies in the mirror reserve. -/
def State.reserved (s : State) (off : Nat) : Bool :=
  decide (65536 * s.rd Reg.STM_MIRROR_RESERVE_BASE ≤ off) &&
    decide (off < 65536 * (s.rd Reg.STM_MIRROR_RESERVE_BASE + s.rd Reg.STM_MIRROR_RESERVE_UNITS))

/-- R199 orders 5 and 6, R254, R255, R258, R376: where an access of a local partition to a PGA ends. Partition 16 stands for a
control core, which is no partition (log entry 15). -/
def State.reach (s : State) (part p : Nat) (write : Bool) : State × Reach :=
  if !pgaOk p ∨ pgaCtl p then (s, .stat 0x11)
  else if pgaDev p ≠ s.device then (s, .rem (pgaDev p) p none)
  else
    let off := pgaOff p
    match s.range off with
    | .nothing => (s, .stat 0x11)
    | .stage => (s, .loc off)
    | .loan w b =>
      let st := s.rd (Reg.STM_BORROW_STATE w)
      if (st = 1 ∨ st = 2) ∧ b < 2 ^ s.rd (Reg.STM_BORROW_LOG2 w) then (s, .rem (s.rd (Reg.STM_BORROW_LENDER w)) p none)
      else (s, .stat 0x10)
    | .own =>
      if part < 16 ∧ ((s.lentAt off).isSome ∨ s.reserved off) then (s, .stat 0x11)
      else match s.regionCheck s.device part p write false with
        | .permit => (s, .loc off)
        | .stat c => (s.countOwner c, .stat c)
        | .pass i target => (s, .rem (pgaDev target) target (some i))

/-! ### Lost targets (R384) -/

/-- The courier contexts with a plan of partition p. -/
def State.ctxsOf (s : State) (p : Nat) : List Nat :=
  (s.listed (Reg.CRR_CTX_PLAN_EN 0) 0x40 4096).filter (fun k => s.rd (Reg.CRR_CTX_PLAN_PARTITION k) == p)

/-- Put a courier context in HALTED (R265). -/
def State.haltCtx (s : State) (k : Nat) : State :=
  let x := s.cxAt (ctxKey k)
  if x.st = .halted then s
  else (((s.setCxAt (ctxKey k) { x with st := .halted }).setCtx k { s.ctx k with job := none, q := [] }).forget (ctxKey k)).satAdd Reg.CRR_MISS_HALTED 1

/-- The physical troupes of partition p that have units. -/
def State.troupesOf (s : State) (p : Nat) : List Nat :=
  (s.trp.t.filter (fun t _ => s.trpPart t == p)).keys

/-- R384: the first access of partition p that ends with ST_TARGET_LOST tears its job down. -/
def State.teardown (s : State) (p : Nat) : State :=
  if s.bit Reg.EFH_PART_STATE_TEARDOWN p then s
  else
    let s := (s.setBit Reg.EFH_PART_STATE_TEARDOWN p).raise 92
    let s := (s.ctxsOf p).foldl State.haltCtx s
    (s.troupesOf p).foldl (fun s t =>
      (s.troupe t).units.foldl (fun s x => s.cancelUnit t x.desc.id 1) s) s

end Sys2Proof.Machine
end

