-- ==== Sys2Proof/Machine/Home.lean ====
section
/-!
DEFINITION. The home of a line and the caches of its on-device agents: the directory, the messages between them, the requests it serves, recalls,
protocol errors, lost edge agents, and the accesses that requesters make through it (R325 to R364, R292).
-/

namespace Sys2Proof.Machine

/-! ### Lines and entries -/

/-- R327: the home slice of a line (a PGA div 64). -/
def sliceOf (line : Nat) : Nat := bitsOf line 0 3 ^^^ bitsOf line 9 3 ^^^ bitsOf line 18 3

/-- R346: the set of its slice that a line's entry lies in, which the spec does not give (log entry 2). -/
def setOf (line : Nat) : Nat := Config.freeValue (2 ^ 64 + line) % 16384

/-- The directory entry of a line: in I where none is listed (R329). -/
def State.dirAt (s : State) (line : Nat) : DirEnt := s.coh.dir.getD line {}

/-- Replace the directory entry of a line; an entry in I with nothing waiting is not held. -/
def State.setDir (s : State) (line : Nat) (d : DirEnt) : State :=
  if d.st = 0 ∧ d.queue.isEmpty ∧ d.rcd.isNone then { s with coh := { s.coh with dir := s.coh.dir.erase line } }
  else { s with coh := { s.coh with dir := s.coh.dir.insert line d } }

/-- The entry in the stable state its holders give, what a transient state noted cleared (R329). -/
def DirEnt.settle (d : DirEnt) : DirEnt :=
  { sharers := if d.owner.isSome then 0 else d.sharers, fh := if d.owner.isSome then none else d.fh, owner := d.owner,
    queue := d.queue, alloc := d.alloc, use := d.use,
    st := if d.owner.isSome then 3 else if d.sharers = 0 then 0 else if d.fh.isSome then 2 else 1 }

/-- Take an agent out of an entry's holders. -/
def DirEnt.without (d : DirEnt) (a : Nat) : DirEnt :=
  { d with sharers := if bitOf d.sharers a then d.sharers - 2 ^ a else d.sharers
           fh := if d.fh = some a then none else d.fh
           owner := if d.owner = some a then none else d.owner }

/-- Whether an entry lists an agent. -/
def DirEnt.lists (d : DirEnt) (a : Nat) : Bool := bitOf d.sharers a || d.owner == some a

/-- The store offset of a line whose data lies in this device's own store or Stage-only range. -/
def State.lineOff (s : State) (line : Nat) : Option Nat :=
  if s.isLocal (64 * line) 64 then some (64 * line % 2 ^ 53) else none

/-- An access that ended with ST_TARGET_LOST tears the partition down (R384). -/
def State.lostTo (s : State) (part code : Nat) : State := if code = 0x23 ∧ part < 16 then s.teardown part else s

/-- R320: a window access that cannot complete normally is counted, and EV_WIN_ERR raised at most once per cue. -/
def State.winErr (s : State) (f : Fld) : State :=
  let s := s.satAdd f 1
  if s.xlt.winRaised then s else ({ s with xlt := { s.xlt with winRaised := true } }).raise 73

/-! ### The tier (R349) -/

/-- The requester tag of the proxy home's requests for a line; `win` says that the write came through a host window (R320). -/
def proxyTag (line : Nat) (win : Bool) : Nat := (if win then 2 ^ 61 else 2 ^ 60) + line

/-- The requester tag of port H's window writes, which are posted. -/
def hostWrite : Nat := 2 ^ 32

/-- R326: send a request to another device's home, for the proxy home. One to a lost device ends with ST_TARGET_LOST at once (R384). -/
def State.proxySend (s : State) (line part kind : Nat) (x : BitVec 512 × Nat) (mask : Nat) (win : Bool := false) : State :=
  match (s.reach part (64 * line) (kind != 1)).2 with
  | .rem dest q via =>
    let r : FReq := { id := s.efh.nextId, dest := dest, kind := kind, part := part, pga := q, data := x.1, marks := x.2,
                      mask := mask, own := proxyTag line win, via := via }
    if s.gone dest part then
      if kind = 1 then { s with efh := { s.efh with out := s.efh.out ++ [{ r with ans := some { status := 0x23 } }],
                                                    nextId := (s.efh.nextId + 1) % 65536 } }
      else (if win then s.winErr Reg.XLT_WIN_ERR_REMOTE else s).lostTo part 0x23
    else
    let s := { s with efh := { s.efh with out := s.efh.out ++ [r], nextId := (s.efh.nextId + 1) % 65536 } }
    let s := match via with | some i => s.passedOn i | none => s
    s.fabReq s.device part r.id kind dest q mask x.2 [] x.1 via.isSome
  | _ => s

/-- R349 "tier": start a read of a line; one of another device's line crosses the fabric. -/
def State.tierStart (s : State) (line part : Nat) : State :=
  if (s.lineOff line).isSome then s else s.proxySend line part 1 (0, 0) 0

/-- R349 "tier": the data of a read once it is there, and its status; a read that another device refuses gives a marked line. -/
def State.tierData (s : State) (line : Nat) : State × Option (Nat × BitVec 512 × Nat) :=
  match s.lineOff line with
  | some off =>
    let s := s.storeCheck off 64
    (s, some (0, s.tierLine off))
  | none =>
    match s.efh.out.find? (fun q => q.own == proxyTag line false && q.kind == 1) with
    | none => (s, some (0, 0, 255))
    | some q =>
      match q.ans with
      | none => (s, none)
      | some a =>
        let s := ({ s with efh := { s.efh with out := s.efh.out.erase q } }).lostTo q.part a.status
        if a.status = 0 ∨ a.status = 0x20 then (s, some (0, a.data, a.marks)) else (s, some (a.status, 0, 255))

/-- R331, R349 "tier": write a line to its tier. -/
def State.tierWrite (s : State) (line part : Nat) (x : BitVec 512 × Nat) (win : Bool := false) : State :=
  match s.lineOff line with
  | some off => s.tierPut off x.1 x.2
  | none => s.proxySend line part 2 x (2 ^ 64 - 1) win

/-- R260: a completed write of a line of a MIRROR unit is forwarded. -/
def State.mirrorLine (s : State) (line : Nat) : State :=
  match s.lineOff line with
  | some off => s.forwardMirror off
  | none => s

/-! ### Messages (R332 to R334) -/

/-- A message sets out. -/
def State.post (s : State) (m : CMsg) : State := { s with coh := { s.coh with wire := s.coh.wire ++ [m] } }

/-- The node of a line's home. -/
def homeNode (line : Nat) : Nat := 40 + sliceOf line

/-- R332: the class of a message: 0 REQ, 1 FWD, 2 RSP, 3 DAT. -/
def CMsg.cls (m : CMsg) : Nat := if m.code = 0x91 then 1 else if m.code < 0x10 then 0 else if m.code < 0x20 then 1 else if m.code < 0x30 then 2 else 3

/-- R332: messages of one class between one source and one destination keep their order. -/
def CMsg.chan (m : CMsg) : Nat × Nat × Nat := (m.cls, m.src, m.dst)

/-- The name of a source that an arrival does not give. -/
def anySrc : Nat := 99

/-- Whether a message on its way is one that an arrival names: the code, both ends and the line. -/
def CMsg.same (m n : CMsg) : Bool := m.code == n.code && (m.src == anySrc || m.src == n.src) && m.dst == n.dst && m.line == n.line

/-- Whether a message on its way is the very one that arrives. -/
def CMsg.like (m n : CMsg) : Bool := m.same n && m.r == n.r && m.data == n.data && m.marks == n.marks && m.note == n.note

/-- R333, R334: the requests of agent a that a home slice holds, which take up its REQ credits there. -/
def State.reqsHeld (s : State) (a node : Nat) : Nat :=
  (s.coh.dir.filter (fun k _ => homeNode k == node)).vals.foldl (fun n (d : DirEnt) =>
      n + (d.queue.filter (fun q => q.r == a)).length + (match d.req with | some q => b2n (q.r == a) | none => 0)) 0
    + (s.coh.wait.filter (fun w => homeNode w.1 == node && w.2.r == a)).length

/-- R333, R334: the FWDs of a home slice that agent a has parked, which take up the slice's FWD credits there. -/
def State.fwdsHeld (s : State) (a node : Nat) : Nat :=
  (s.coh.ag.filter (fun k (c : ACopy) => k % 64 == a && homeNode (k / 64) == node && c.parked.isSome)).length

/-- R334: whether the receiver of a message has room for it: 8 REQs and 4 FWDs of each agent and slice; RSP and DAT always sink (R333)
(log entry 112). -/
def State.roomAt (s : State) (m : CMsg) : Bool :=
  if m.cls = 0 ∧ m.src ≤ 24 then decide (s.reqsHeld m.src m.dst < 8)
  else if m.cls = 1 then decide (s.fwdsHeld m.dst m.src < 4)
  else true

/-- R332, R334: a message arrives. One that is on its way arrives only as the first of its channel, and only where its receiver has room; while another of its
kind for the line is on its way none arrives instead. The message that arrives, where one does. -/
def State.takeMsg (s : State) (m : CMsg) : Option (State × CMsg) :=
  match s.coh.wire.find? (fun n => m.like n) with
  | none => if s.coh.wire.any (fun n => m.same n) then none else some (s, m)
  | some n =>
    if (s.coh.wire.find? (fun k => k.chan == n.chan)) = some n ∧ s.roomAt n then
      some ({ s with coh := { s.coh with wire := s.coh.wire.erase n } }, n)
    else none

/-- A message of the home to an on-device agent or a requester. -/
def State.homeMsg (s : State) (code a line : Nat) (r : Nat := 33) : State :=
  s.post { code := code, src := homeNode line, dst := a, line := line, r := r }

/-- A message of the home with a line's data. -/
def State.homeData (s : State) (code a line : Nat) (x : BitVec 512 × Nat) : State :=
  s.post { code := code, src := homeNode line, dst := a, line := line, data := x.1, marks := x.2 }

/-- A CXL message of the home to edge agent g about a line. -/
def State.edgeMsg (s : State) (name : String) (g line : Nat) : State := s.send { name := name, dest := g, args := [line] }

/-- R336, R364: the answer to a read of an edge agent: MemData, poisoned where a codeword is marked, then an NDR. -/
def State.edgeData (s : State) (g line : Nat) (x : BitVec 512 × Nat) (ndr : String) : State :=
  (s.send { name := "MemData", dest := g, args := [line, b2n (x.2 != 0)], bytes := seenBytes x }).edgeMsg ndr g line

/-- R349: FWDs to every on-device agent of a mask. -/
def State.fwdAll (s : State) (code line mask r : Nat) : State :=
  (List.range 25).foldl (fun s a => if bitOf mask a then s.homeMsg code a line r else s) s

/-! ### Answers over the fabric (R373) -/

/-- R373: answer a fabric request of a device: its RSP leaves; that of a write or atomic is kept, the last 4,096 of each
device. -/
def State.respond (s : State) (src id : Nat) (a : FAns) (keep : Bool) : State :=
  let s := if keep then
      let mine := s.efh.done.filter (fun d => d.src == src)
      let drop := if 4096 ≤ mine.length then mine.getLast? else none
      let rest := match drop with | some d => s.efh.done.erase d | none => s.efh.done
      { s with efh := { s.efh with done := { src := src, id := id, ans := a } :: rest } }
    else s
  s.fabRsp src id a.status a.marks a.fwd a.data

/-- R373: the answer recorded for a resent write or atomic. -/
def State.answered (s : State) (src id : Nat) : Option FAns :=
  (s.efh.done.find? (fun d => d.src == src && d.id == id)).map (·.ans)

/-- The ticket of a request REQID id of device src at this home; fwd says that a region entry passed it on (R383). -/
def farTicket (src id : Nat) (fwd : Bool) : Nat := 2 ^ 50 + b2n fwd * 2 ^ 30 + src * 2 ^ 16 + id

/-- R332, R357: the answer to a request of kind 4 to 7: to a source in this device by its ticket (1: nothing waits for it), to another
device over the fabric, else a message to the requester. -/
def State.answer (s : State) (line : Nat) (q : CReq) (status : Nat) (x : BitVec 512 × Nat) : State :=
  if q.tk = 1 then s
  else if 2 ^ 50 ≤ q.tk then
    s.respond (bitsOf q.tk 16 6) (q.tk % 2 ^ 16)
      { status := if status = 0 ∧ q.kind = 4 ∧ x.2 ≠ 0 then 0x20 else status, data := x.1, marks := x.2, fwd := bitOf q.tk 30 } (q.kind != 4)
  else if q.tk ≠ 0 then
    { s with coh := { s.coh with got := s.coh.got.insert q.tk { line := line, kind := q.kind, status := status, data := x.1, marks := x.2 } } }
  else if q.kind = 4 then s.homeData 0x34 q.r line x
  else if q.kind = 7 then s.homeData 0x37 q.r line (x.1, status)
  else s.send { name := "GNT", dest := q.r, args := [line] }

/-! ### Protocol errors and lost agents (R340, R347) -/

/-- R340, R342, R347: mark every codeword of a line in its tier, which counts in DL_MARKED (log entry 111). -/
def State.markLine (s : State) (line : Nat) : State :=
  let s := s.satAdd Reg.COH_COUNTS_DL_MARKED 1
  match s.lineOff line with
  | some off => s.tierMark off
  | none => s.proxySend line 16 2 (0, 255) (2 ^ 64 - 1)

/-- R347: log the first protocol error and count it. -/
def State.protoLog (s : State) (line msg st agent side : Nat) : State :=
  let s := s.satAdd Reg.COH_PROTO_COUNT 1
  if s.is1 Reg.COH_PROTO_VALID then s
  else
    let s := (s.wr Reg.COH_PROTO_VALID 1).wr Reg.COH_PROTO_MSG msg
    let s := (s.wr Reg.COH_PROTO_STATE st).wr Reg.COH_PROTO_AGENT agent
    let s := (s.wr Reg.COH_PROTO_SIDE side).wr Reg.COH_PROTO_SLICE (sliceOf line)
    s.wr Reg.COH_PROTO_PGA_LINE line

/-- R340 step 3: a lost agent leaves one entry; a line it owned is marked, and its entry becomes I. -/
def State.sweepEntry (s : State) (line g : Nat) : State :=
  let d := s.dirAt line
  let a := 25 + g
  if d.owner = some a then
    let s := s.markLine line
    let s := s.satAdd (Reg.COH_AGENT_LOST a) 1
    let d := s.dirAt line
    s.setDir line ({ d with owner := none, sharers := 0, fh := none } : DirEnt).settle
  else if bitOf d.sharers a then
    if 1 ≤ d.st ∧ d.st ≤ 3 then s.setDir line (d.without a).settle else s.setDir line (d.without a)
  else s

/-- R340 step 4: a lookup of a line finds agents in SWEEP. -/
def State.sweepLine (s : State) (line : Nat) : State :=
  (List.range 8).foldl (fun s g =>
    if s.rd (Reg.COH_AGENT_STATE (25 + g)) = 2 ∧ (s.dirAt line).st ≤ 3 then s.sweepEntry line g else s) s

/-- R347: the on-device data of a line is discarded: its copies go, SM_G falls back to IM_D, and no FWD stays parked. -/
def State.dropLine (s : State) (line : Nat) : State :=
  { s with coh := { s.coh with ag := (s.coh.ag.mapVals (fun q (c : ACopy) =>
      if q / 64 ≠ line then c
      else if c.st = 10 then { c with st := 9, data := 0, marks := 0, fromF := false, parked := none }
      else if c.st ≤ 4 then {} else { c with parked := none })).filter (fun _ (c : ACopy) => c != ({} : ACopy)) } }

/-- R347: what of a line's messages a protocol error discards (log entry 40): FWDs, what answers them, data and grants on their way to agents; a written-back line is dropped and granted,
so that REQ, EVICT and the GNT of an eviction alone stay. -/
def State.dropWire (s : State) (line : Nat) : State :=
  let w := s.coh.wire
  let evicting (a : Nat) : Bool := (s.coh.ag.getD (64 * line + a) {}).st == 11
  let keep (m : CMsg) : Bool := m.line != line || m.cls == 0 || m.code == 0x24 || m.code == 0x34 && m.dst != 33 || m.code == 0x37 ||
    (m.code == 0x25 && evicting m.dst)
  let back := w.filter (fun m => m.line == line && m.code == 0x36)
  let s := { s with coh := { s.coh with wire := w.filter keep } }
  back.foldl (fun s m => s.homeMsg 0x25 m.src line) s

/-- The requests of agents that wait for a line's data or grant and have none on its way or at the home: a protocol error took it. -/
def State.bereft (s : State) (line : Nat) (queue : List CReq) : List CReq :=
  (List.range 25).filterMap (fun a =>
    let c := s.coh.ag.getD (64 * line + a) {}
    if (c.st = 8 ∨ c.st = 9) ∧ !queue.any (fun q => q.r == a) ∧
        !s.coh.wire.any (fun m => m.line == line && m.src == a && m.cls == 0) then
      some { kind := if c.st = 8 then 1 else 2, r := a, part := c.part }
    else none)

/-- R340, R347, R362, R363: a protocol error on a line: it is logged, every tracked copy invalidated, the line marked, the entry in I; the request being served is served
again from I, then the waiting ones. Edge holders are snooped (`again`: those whose answer was the error), and the line stays in BLK until they answer
(log entry 40). The fault shows at the host ports (R491). -/
def State.protoError (s : State) (line msg st agent side : Nat) (again : Nat := 0) : State :=
  let s := s.sweepLine line
  let s := ((s.protoLog line msg st agent side).raise 80).internalError
  let s := { s with coh := { s.coh with bad := s.coh.bad.filter (· != line) } }
  let d := s.dirAt line
  let s := ((s.dropLine line).dropWire line).markLine line
  let lost := (List.range 8).foldl (fun m g => m + b2n (s.rd (Reg.COH_AGENT_STATE (25 + g)) != 1) * 2 ^ g) 0
  let held := (d.sharers / 2 ^ 25 ||| (match d.owner with | some o => if 25 ≤ o then 2 ^ (o - 25) else 0 | none => 0) ||| d.bis)
  let e := held &&& (255 ^^^ lost)
  let q := (match d.req with | some q => if q.kind = 0x80 then [] else [q] | none => []) ++ d.queue
  let q := q ++ s.bereft line q
  if e = 0 then s.setDir line { queue := q, alloc := d.alloc }
  else
    let s := s.setDir line { st := 4, bis := e, bisData := d.bisData &&& e &&& (255 ^^^ again), purge := true, queue := q, alloc := d.alloc }
    (List.range 8).foldl (fun s g =>
      if bitOf e g && (!bitOf d.bis g || bitOf again g) then s.edgeMsg "BISnpInv" g line else s) s

/-- R347: an uncorrectable error in a line's directory entry is found, with no message. -/
def State.entryError (s : State) (line agent : Nat) : State := s.protoError line 0 (s.dirAt line).st agent 0

/-- The tracked agent of a requester as COH_PROTO.AGENT codes it. -/
def agentCode (r : Nat) : Nat := if r ≤ 32 then r else 63

/-! ### Serving a request (R357, R358, R361) -/

/-- R203: what an atomic leaves in memory, from the old value: `minor` as the table has it, `w` the width in bytes. -/
def atomNew (minor w ta rm srw old opnd cmp : Nat) : Nat :=
  let b := 8 * w
  let o := opnd % 2 ^ b
  let less (x y : Nat) : Bool :=
    if ta = 2 then (decodeF fmt32 x).ltz (decodeF fmt32 y)
    else if ta = 0 then decide (sgn b x < sgn b y) else decide (x < y)
  let nan (x : Nat) : Bool := ta == 2 && (decodeF fmt32 x).isNan
  let pick (first : Bool) : Nat :=
    if nan old && nan o then fmt32.nanCode else if nan old then o else if nan o then old
    else if first then old else o
  if minor = 0 then
    (if ta = 2 then (finish fmt32 rm false srw (FV.add rm (decodeF fmt32 old) (decodeF fmt32 o))).1 else (old + o) % 2 ^ b)
  else if minor = 1 then pick (!less o old)
  else if minor = 2 then pick (!less old o)
  else if minor = 3 then old &&& o
  else if minor = 4 then old ||| o
  else if minor = 5 then old ^^^ o
  else if minor = 6 then o
  else if old = cmp % 2 ^ b then o else old

/-- R204: the atomics permitted on another device's line. -/
def atomRemoteOk (minor ta : Nat) : Bool := (decide (minor ≤ 2) && decide (ta ≤ 1)) || minor == 7

/-- R343, R344: the atomic unit performs an operation on a line: the line after it, and the answer. -/
def State.atomicDo (s : State) (line : Nat) (q : CReq) (x : BitVec 512 × Nat) : State × (BitVec 512 × Nat) :=
  let s := s.wrapAdd (if q.r = 37 then Reg.COH_ATOM_REMOTE else Reg.COH_ATOM_LOCAL) 1
  if x.2 ≠ 0 then (s.answer line q 0x20 (0, 0), x)
  else
    let old := bitsOf x.1.toNat (8 * q.off) (8 * q.wide)
    let y := patchLine x.1 q.off (toLe q.wide (atomNew q.op q.wide q.ta q.rm q.srw old q.opnd q.cmp))
    (s.answer line q 0 (BitVec.ofNat 512 old, 0), (y, x.2))

/-- The line enters the home atomic buffer (R343); an atomic that changed it is a completed write (R260). -/
def State.intoBuffer (s : State) (line : Nat) (d : DirEnt) (x : BitVec 512 × Nat) : State :=
  let e : DirEnt := { st := 3, buf := x.1, bufMarks := x.2, queue := d.queue, alloc := d.alloc, use := s.coh.stamp }
  let s := s.setDir line e
  let s := { s with coh := { s.coh with stamp := s.coh.stamp + 1 } }
  if x.2 = 0 then s.mirrorLine line else s

/-- R331, R473: a completed write of a line: to its tier, and to the mirror partner unless it is not forwarded. -/
def State.homeWrite (s : State) (line part : Nat) (x : BitVec 512 × Nat) (win : Bool := false) (quiet : Bool := false) : State :=
  let s := s.tierWrite line part x win
  if quiet then s else s.mirrorLine line

/-- R320: whether a request came through a host window: an edge agent's, or port H's. -/
def CReq.window (q : CReq) : Bool := (decide (25 ≤ q.r) && decide (q.r ≤ 32)) || q.r == 34

/-- R357, R361 "then": the request completes with the line's data, its former holders as the entry lists them. -/
def State.finish (s : State) (line : Nat) (d : DirEnt) (q : CReq) (x : BitVec 512 × Nat) : State :=
  let g := q.r - 25
  let d0 : DirEnt := { d with owner := none }
  let own (a : Nat) : DirEnt := ({ d with owner := some a, sharers := 0, fh := none } : DirEnt).settle
  let none' : DirEnt := ({ d with owner := none, sharers := 0, fh := none } : DirEnt).settle
  let edge (d : DirEnt) : DirEnt := { d with sharers := d.sharers ||| 2 ^ q.r }
  let afterWrite : DirEnt := if q.mv = 0 then none' else if q.mv = 1 then (edge none').settle else own q.r
  if q.kind = 1 then
    if d0.sharers = 0 then (s.setDir line (own q.r)).homeData 0x32 q.r line x
    else (s.setDir line { (edge d0) with fh := some q.r }.settle).homeData 0x31 q.r line x
  else if q.kind = 2 then (s.setDir line (own q.r)).homeData 0x33 q.r line x
  else if q.kind = 3 then
    if bitOf d.sharers q.r then (s.setDir line (own q.r)).homeMsg 0x25 q.r line
    else (s.setDir line (own q.r)).homeData 0x33 q.r line x
  else if q.kind = 4 then (s.setDir line d.settle).answer line q 0 x
  else if q.kind = 5 then ((s.setDir line none').homeWrite line q.part (q.data, q.marks) q.window q.quiet).answer line q 0 (0, 0)
  else if q.kind = 6 then
    let y := mergeLine x q.data q.mask
    ((s.setDir line none').homeWrite line q.part (y.1, y.2 ||| q.marks) q.window q.quiet).answer line q 0 (0, 0)
  else if q.kind = 7 then
    let (s, y) := s.atomicDo line q x
    s.intoBuffer line d y
  else if q.kind = 0x41 then (s.setDir line d.settle).edgeData g line x "Cmp"
  else if q.kind = 0x42 then (s.setDir line (edge d0).settle).edgeData g line x "Cmp-S"
  else if q.kind = 0x43 then (s.setDir line (own q.r)).edgeData g line x "Cmp-E"
  else if q.kind = 0x45 then ((s.setDir line afterWrite).homeWrite line q.part (q.data, q.marks) true).edgeMsg "Cmp" g line
  else if q.kind = 0x46 then ((s.setDir line afterWrite).homeWrite line q.part (mergeLine x q.data q.mask) true).edgeMsg "Cmp" g line
  else s.setDir line none'

/-- R355, R357: a tier read of the home returns. A request of a source in this device that another device refuses ends with that status. -/
def State.tierReturn (s : State) (line : Nat) : State :=
  let (s, r) := s.tierData line
  let d := s.dirAt line
  match r, d.req with
  | some (st, x), some q =>
    let far := decide (0x20 < st) && decide (st ≤ 0x23)
    let s := if far && decide (25 ≤ q.r) && decide (q.r ≤ 32) then s.winErr Reg.XLT_WIN_ERR_REMOTE else s
    if d.st = 8 ∨ d.st = 16 then
      if st ≠ 0 ∧ q.tk ≠ 0 then (s.setDir line ({ d with tier := false } : DirEnt).settle).answer line q st (0, 0)
      else s.finish line { d with tier := false } q x
    else if d.st = 9 then
      let d := { d with tier := false, rcd := some x }
      if d.acks = 0 then s.finish line (if bitOf d.sharers q.r ∧ q.kind = 3 then d else { d with sharers := 0, fh := none, owner := none }) q x
      else s.setDir line d
    else s
  | _, _ => s

/-- R357: the tier read that a request in state I (or one that needs no snoop) waits for; recorded data takes its place (R360). A read of this device's own store for a source in
this device returns at once: nothing comes between. -/
def State.startRead (s : State) (line : Nat) (d : DirEnt) (q : CReq) : State :=
  match d.rcd with
  | some x => s.finish line { d with rcd := none } q x
  | none =>
    let s := (s.setDir line { d with st := if q.kind = 7 then 16 else 8, req := some q, tier := true }).tierStart line q.part
    if q.tk ≠ 0 ∧ (s.lineOff line).isSome then s.tierReturn line else s

/-- Whether a request reads the tier while its snoops are out (R357). -/
def CReq.reads (q : CReq) (sharer : Bool) : Bool :=
  q.kind == 2 || (q.kind == 3 && !sharer) || q.kind == 6 || q.kind == 7 || q.kind == 0x43 || q.kind == 0x46

/-- R357, R358: a request in S or SF that must invalidate the sharers: edge sharers by back-invalidation first, in BLK; then
the on-device ones. -/
def State.serveInvalidate (s : State) (line : Nat) (d : DirEnt) (q : CReq) : State :=
  let keep := q.kind == 3 && bitOf d.sharers q.r
  let targets := if keep then d.sharers - 2 ^ q.r else d.sharers
  let e := targets / 2 ^ 25
  if e ≠ 0 then (s.setDir line { d with queue := q :: d.queue }).recallEdges line e false
  else if targets = 0 then s.finish line d q (0, 0)
  else
    let reads := q.reads keep && d.rcd.isNone
    let s := s.setDir line { d with st := 9, req := some q, acks := targets, tier := reads }
    let s := if q.kind = 0x80 then s.fwdAll 0x12 line targets 33 else s.fwdAll 0x91 line targets (if q.r ≤ 32 then q.r else 33)
    let s := if reads then s.tierStart line q.part else s
    if reads ∧ q.tk ≠ 0 ∧ (s.lineOff line).isSome then s.tierReturn line else s

/-- R357, R361: a request for a line with an on-device owner. -/
def State.serveOwned (s : State) (line : Nat) (d : DirEnt) (q : CReq) (o : Nat) : State :=
  let go (st code r : Nat) : State := (s.setDir line { d with st := st, req := some q }).homeMsg code o line r
  if q.kind = 1 then go 11 0x10 q.r
  else if q.kind = 2 ∨ q.kind = 3 then go 12 0x11 q.r
  else if q.kind = 4 ∨ q.kind = 0x41 then go 14 0x13 33
  else if q.kind = 5 ∨ q.kind = 0x45 then
    (s.setDir line { d with st := 9, req := some q, acks := 2 ^ o, tier := false }).homeMsg 0x91 o line 33
  else if q.kind = 0x42 then go 11 0x14 33
  else go 13 0x12 33

/-- R357, R361: a request for a line in the home atomic buffer. -/
def State.serveBuffered (s : State) (line : Nat) (d : DirEnt) (q : CReq) : State :=
  let x := (d.buf, d.bufMarks)
  let stays (d : DirEnt) (s : State) : State :=
    let s := s.setDir line { d with use := s.coh.stamp }
    { s with coh := { s.coh with stamp := s.coh.stamp + 1 } }
  if q.kind = 4 then (stays d s).answer line q 0 x
  else if q.kind = 0x41 then (stays d s).edgeData (q.r - 25) line x "Cmp"
  else if q.kind = 6 then
    let y := mergeLine x q.data q.mask
    ((stays { d with buf := y.1, bufMarks := y.2 ||| q.marks } s).mirrorLine line).answer line q 0 (0, 0)
  else if q.kind = 7 then
    let (s, y) := s.atomicDo line q x
    s.intoBuffer line d y
  else if q.kind = 5 ∨ q.kind = 0x45 ∨ q.kind = 0x46 then s.finish line d q x
  else (s.tierWrite line q.part x).finish line d q x

/-- R357, R361: serve a request for a line in a stable state. -/
def State.serveStable (s : State) (line : Nat) (q : CReq) : State :=
  let d := s.dirAt line
  if d.st = 0 then
    if q.kind = 5 ∨ q.kind = 0x45 then s.finish line { d with rcd := none } q (0, 0)
    else if q.kind = 0x80 then s.setDir line { d with rcd := none }
    else s.startRead line d q
  else if d.st = 3 then
    match d.owner with
    | none => s.serveBuffered line d q
    | some o =>
      if o ≤ 24 then s.serveOwned line d q o
      else
        let forRead := q.kind == 1 || q.kind == 4 || q.kind == 0x41 || q.kind == 0x42
        (s.setDir line { d with queue := q :: d.queue }).recallEdges line (2 ^ (o - 25)) forRead
  else if q.kind = 1 ∧ d.st = 2 then
    match d.fh with
    | some f => (s.setDir line { d with st := 10, req := some q }).homeMsg 0x10 f line q.r
    | none => s.startRead line d q
  else if q.kind = 1 ∨ q.kind = 4 ∨ q.kind = 0x41 ∨ q.kind = 0x42 then s.startRead line d q
  else s.serveInvalidate line d q

/-! ### Room for a new entry and in the atomic buffer (R346, R358) -/

/-- The lines whose entries lie in the set of a line, where the set can be full. -/
def State.setLines (s : State) (line : Nat) : List Nat :=
  if s.coh.dir.length < 32 then []
  else (s.coh.dir.filter (fun k (d : DirEnt) => d.st != 0 && sliceOf k == sliceOf line && setOf k == setOf line)).keys

/-- R346: the victim of a full set. -/
def State.victim (s : State) (ls : List Nat) : Option Nat :=
  let stable (k : Nat) : Bool := let d := s.dirAt k; decide (1 ≤ d.st ∧ d.st ≤ 3)
  let easy (k : Nat) : Bool :=
    let d := s.dirAt k
    stable k && !(d.st == 3 && d.owner.isNone) && d.sharers / 2 ^ 25 == 0 &&
      (match d.owner with | some o => decide (o ≤ 24) | none => true)
  let pick (l : List Nat) : Option Nat := l.foldl (fun b k => match b with
    | none => some k
    | some j => if (s.dirAt k).alloc < (s.dirAt j).alloc then some k else some j) none
  (pick (ls.filter easy)).orElse (fun _ => pick (ls.filter stable))

/-- R340, R346: make room for an entry of a line: whether there is room now. Lost agents leave the set's entries; a recall starts unless enough run for the requests
that wait for this set. -/
def State.makeRoom (s : State) (line : Nat) : State × Bool :=
  let s := (s.setLines line).foldl State.sweepLine s
  let ls := s.setLines line
  if ls.length < 32 then (s, true)
  else
    let running := (ls.filter (fun k =>
      let d := s.dirAt k
      (match d.req with | some q => q.kind == 0x80 | none => false) || d.queue.any (fun q => q.kind == 0x80))).length
    let waiting := (s.coh.wait.filter (fun w => sliceOf w.1 == sliceOf line && setOf w.1 == setOf line)).length
    if waiting < running then (s, false)
    else match s.victim ls with
    | none => (s, false)
    | some k =>
      let s := s.wrapAdd Reg.COH_COUNTS_RECALLS 1
      let s := if s.coh.bad.contains k then s.entryError k 63 else s.serveStable k { kind := 0x80, r := 33 }
      (s, decide ((s.setLines line).length < 32))

/-- The lines of a slice in, or with a place kept in, its atomic buffer. -/
def State.buffered (s : State) (slice : Nat) : List Nat :=
  (s.coh.dir.filter (fun k (d : DirEnt) => sliceOf k == slice &&
    ((d.st == 3 && d.owner.isNone) ||
      (decide (8 ≤ d.st) && (match d.req with | some q => q.kind == 7 | none => false))))).keys

/-- R358: make a place in the atomic buffer of a line's slice: whether there is one. -/
def State.makePlace (s : State) (line : Nat) : State × Bool :=
  let ls := s.buffered (sliceOf line)
  if ls.contains line ∨ ls.length < 64 then (s, true)
  else
    let c := ls.filter (fun k => (s.dirAt k).st == 3)
    match c.foldl (fun (b : Option Nat) k => match b with
        | none => some k
        | some j => if (s.dirAt k).use < (s.dirAt j).use then some k else some j) none with
    | none => (s, false)
    | some k =>
      let d := s.dirAt k
      ((s.tierWrite k 16 (d.buf, d.bufMarks)).setDir k { queue := d.queue }, true)

/-- R239: whether a request writes a line whose frame a vacating unit still holds: it waits. -/
def State.heldBack (s : State) (line : Nat) (q : CReq) : Bool :=
  (q.kind == 5 || q.kind == 6 || q.kind == 7 || q.kind == 0x45 || q.kind == 0x46) &&
    (match s.lineOff line with | some off => s.frameHeld off | none => false)

/-- R340, R347, R356: serve a request for a stable line, first making room; a listed on-device requester is an error. -/
def State.serve (s : State) (line : Nat) (q : CReq) : State :=
  let s := s.sweepLine line
  let d := s.dirAt line
  let wait (s : State) : State := { s with coh := { s.coh with wait := s.coh.wait ++ [(line, q)] } }
  if s.coh.bad.contains line ∧ d.st ≠ 0 then
    (s.setDir line { d with queue := q :: d.queue }).entryError line (agentCode q.r)
  else if s.coh.wait.any (fun w => w.1 == line) ∨ s.heldBack line q then wait s
  else if 1 ≤ q.kind ∧ q.kind ≤ 7 ∧ q.r ≤ 24 ∧ d.lists q.r ∧ !(q.kind == 3 && bitOf d.sharers q.r) then
    s.protoError line q.kind d.st q.r 0
  else
    let own := (q.kind = 0x45 ∨ q.kind = 0x46) ∧ d.st = 3 ∧ d.owner = some q.r
    let s := if 0x40 ≤ q.kind ∧ q.kind < 0x80 ∧ !own ∧ d.lists q.r then s.setDir line (d.without q.r).settle else s
    let d := s.dirAt line
    if own then
      if q.kind = 0x46 ∧ (s.lineOff line).isNone then
        let s := s.proxySend line q.part 3 (q.data, 0) q.mask true
        (s.setDir line (if q.mv = 0 then ({ d with owner := none } : DirEnt).settle
          else if q.mv = 1 then ({ d with owner := none, sharers := 2 ^ q.r } : DirEnt).settle else d)).edgeMsg "Cmp" (q.r - 25) line
      else
        let (s, x) := if q.kind = 0x46 then s.tierData line else (s, none)
        s.finish line d q ((x.map (·.2)).getD (0, 0))
    else
      let needs := d.st == 0 && d.rcd.isNone && q.kind != 5 && !(q.kind == 0x45 && q.mv == 0) && q.kind != 0x80
      let (s, ok) := if needs then s.makeRoom line else (s, true)
      if !ok then wait s
      else
        let (s, ok) := if q.kind = 7 then s.makePlace line else (s, true)
        if !ok then wait s
        else if needs then
          let n := s.coh.stamp
          let s := { s with coh := { s.coh with stamp := n + 1, dir := s.coh.dir.insert line { s.dirAt line with alloc := n + 1 } } }
          let s := s.serveStable line q
          if (s.dirAt line).st = 0 then s.setDir line (s.dirAt line) else s
        else s.serveStable line q

/-- R356: serve the waiting requests of a line in order while it is stable; at most `fuel` of them. -/
def State.drain (s : State) : Nat → Nat → State
  | 0, _ => s
  | fuel + 1, line =>
    let d := s.dirAt line
    match d.queue with
    | [] => s
    | q :: rest =>
      if 4 ≤ d.st then s
      else State.drain ((s.setDir line { d with queue := rest }).serve line q) fuel line

/-- R346, R358: the requests that wait for room are served again, in order. -/
def State.retryWaiting (s : State) : State :=
  let w := s.coh.wait
  w.foldl (fun s e =>
    let d := s.dirAt e.1
    if 4 ≤ d.st then s.setDir e.1 { d with queue := d.queue ++ [e.2] } else s.serve e.1 e.2)
    { s with coh := { s.coh with wait := [] } }

/-- The home has acted on a line: what waits for it goes on. -/
def State.homeDone (s : State) (line : Nat) : State :=
  let s := s.drain ((s.dirAt line).queue.length + 1) line
  if s.coh.wait.isEmpty then s else s.retryWaiting

/-- R356: a request arrives at the home: it waits in BLK and in every transient state. -/
def State.request (s : State) (line : Nat) (q : CReq) : State :=
  let d := s.dirAt line
  if 4 ≤ d.st ∨ !d.queue.isEmpty then s.setDir line { d with queue := d.queue ++ [q] }
  else (s.serve line q).homeDone line

/-! ### Agents (R351 to R354) -/

/-- An on-device agent's copy of a line. -/
def State.copyAt (s : State) (a line : Nat) : ACopy := s.coh.ag.getD (64 * line + a) {}

/-- Replace an agent's copy of a line. -/
def State.setCopy (s : State) (a line : Nat) (c : ACopy) : State :=
  { s with coh := { s.coh with ag := s.coh.ag.setD (64 * line + a) {} c } }

/-- A message of agent a to the home of a line. -/
def State.agentMsg (s : State) (code a line : Nat) : State := s.post { code := code, src := a, dst := homeNode line, line := line }

/-- A message of agent a with its copy of a line: to the home, or to requester r (33: the home). -/
def State.agentData (s : State) (code a r line : Nat) (c : ACopy) : State :=
  s.post { code := code, src := a, dst := if r ≤ 24 then r else homeNode line, line := line, data := c.data, marks := c.marks }

/-- A request of agent a. -/
def State.agentReq (s : State) (code a line part : Nat) : State :=
  s.post { code := code, src := a, dst := homeNode line, line := line, part := part }

/-- R347, R350, R354: an impossible message reaches agent a: its copy is dropped and the home is told. -/
def State.agentError (s : State) (a line msg : Nat) (fwd : Bool) : State :=
  let c := s.copyAt a line
  let s := if c.st ≤ 4 then s.setCopy a line {}
           else if fwd ∧ c.st = 10 then s.setCopy a line { c with st := 9, data := 0, marks := 0, fromF := false } else s
  s.post { code := 0x20, src := a, dst := homeNode line, line := line, note := some (msg, c.st) }

/-- R352: agent a acts on a FWD: 0x10 SNP_SHR, 0x11 SNP_INV, 0x91 SNP_INV/N, 0x12 SNP_INV_HOME, 0x13 SNP_ONCE, 0x14 SNP_SHR_HOME. -/
def State.actFwd (s : State) (a line msg r : Nat) : State :=
  let c := s.copyAt a line
  let ack (s : State) : State := s.agentMsg 0x20 a line
  let gone (s : State) : State := s.setCopy a line {}
  let home (s : State) : State := s.agentData 0x35 a 33 line c
  let keepS (s : State) : State := s.setCopy a line { c with st := 1, hold := false, parked := none }
  if c.st = 0 ∨ c.st = 11 then ack (s.setCopy a line { c with parked := none })
  else if msg = 0x91 ∨ msg = 0x12 then
    if msg = 0x12 ∧ 3 ≤ c.st ∧ c.st ≤ 4 then gone ((home s).agentMsg 0x21 a line)
    else if c.st = 10 then ack (s.setCopy a line { c with st := 9, data := 0, marks := 0, fromF := false, parked := none })
    else ack (gone s)
  else if msg = 0x10 then
    if c.st = 2 then keepS ((s.agentData 0x31 a r line c).agentMsg 0x22 a line)
    else if 3 ≤ c.st ∧ c.st ≤ 4 then keepS ((home (s.agentData 0x30 a r line c)).agentMsg 0x22 a line)
    else if c.st = 10 ∧ c.fromF then
      ((s.agentData 0x31 a r line c).agentMsg 0x22 a line).setCopy a line { c with fromF := false, parked := none }
    else s.agentError a line msg true
  else if !(decide (3 ≤ c.st ∧ c.st ≤ 4)) then s.agentError a line (if msg = 0x91 then 0x11 else msg) true
  else if msg = 0x11 then gone ((s.agentData 0x33 a r line c).agentMsg 0x21 a line)
  else if msg = 0x13 then ((s.agentData 0x34 a r line c).agentMsg 0x23 a line).setCopy a line { c with parked := none }
  else keepS ((home s).agentMsg 0x22 a line)

/-- R333, R335, R353: a FWD arrives at agent a: it is parked while data is awaited or the minimum hold runs. -/
def State.fwdArrive (s : State) (a line msg r : Nat) : State :=
  let c := s.copyAt a line
  if c.st = 8 ∨ c.st = 9 ∨ c.hold then s.setCopy a line { c with parked := some (msg, r) } else s.actFwd a line msg r

/-- R335, R363: agent a acts on a FWD it has parked, once nothing holds it. -/
def State.unpark (s : State) (a line : Nat) : State :=
  let c := s.copyAt a line
  match c.parked with
  | some (m, r) => if c.hold ∨ c.st = 8 ∨ c.st = 9 then s else (s.setCopy a line { c with parked := none }).actFwd a line m r
  | none => s

/-- The copy of agent a is used: it becomes the most recent of its cache (R292). -/
def State.touchCopy (s : State) (a line : Nat) : State :=
  let s := s.setCopy a line { s.copyAt a line with use := s.coh.stamp }
  { s with coh := { s.coh with stamp := s.coh.stamp + 1 } }

/-- R352, R364, R455: a store is performed on a copy: its marks stay, but that a codeword which a store with data of its own marks writes whole takes the data's mark
(log entry 110). -/
def ACopy.put (c : ACopy) (y : AStore) : ACopy :=
  let m := mergeLine (c.data, c.marks) y.data y.mask
  { c with data := m.1, marks := (if y.take then m.2 else c.marks) ||| y.marks }

/-- What came of an access of a source in this device. -/
def State.tell (s : State) (tk line kind : Nat) (x : BitVec 512 × Nat) : State :=
  if tk ≤ 1 then s
  else { s with coh := { s.coh with got := s.coh.got.insert tk { line := line, kind := kind, data := x.1, marks := x.2 } } }

/-- R260, R352: agent a performs a store on its E or M copy, which is M then. -/
def State.storeHit (s : State) (a line : Nat) (y : AStore) : State :=
  let c := s.copyAt a line
  let s := (s.setCopy a line { c.put y with st := 4 }).touchCopy a line
  (if y.mask = 0 then s else s.mirrorLine line).tell y.tk line 0x51 (0, 0)

/-- R352: the store that agent a's request was for is performed. -/
def State.storeDone (s : State) (a line : Nat) : State :=
  let c := s.copyAt a line
  match c.store with
  | some y => (s.setCopy a line { c with store := none }).storeHit a line y
  | none => s

/-- R352, R335: agent a replaces a line; a voluntary eviction ends the hold at once. -/
def State.replaceCopy (s : State) (a line : Nat) : State :=
  let c := s.copyAt a line
  let out : ACopy := { st := 11, parked := c.parked }
  if 1 ≤ c.st ∧ c.st ≤ 3 then ((s.setCopy a line out).agentMsg 0x24 a line).unpark a line
  else if c.st = 4 then ((s.setCopy a line out).agentData 0x36 a 33 line c).unpark a line
  else s

/-- R292: the set of a line in a courier cache of 2,048 sets, by an index that the spec does not give (log entry 2). -/
def courierSet (line : Nat) : Nat := Config.freeValue (2 ^ 68 + line) % 2048

/-- R21, R292, R325: the lines that compete with a line for room in agent a's cache, and how many it has room for: a set of 16 ways of a courier cache, the 512 lines of a
core's cache, whose organisation the spec does not give (log entry 100). The row cache makes its own room (R423). -/
def State.cacheMates (s : State) (a line : Nat) : List Nat × Nat :=
  let ways := if a < 8 then 16 else 512
  if s.coh.ag.length < ways then ([], ways)
  else
    (((s.coh.ag.filter (fun k (c : ACopy) => k % 64 == a && c.st != 0 && c.st != 11 &&
        (decide (8 ≤ a) || courierSet (k / 64) == courierSet line))).keys.map (· / 64)), ways)

/-- R292: agent a has room for a line, having replaced the least recently used line of its set where the set was full; or no line there may be replaced now. -/
def State.cacheRoom (s : State) (a line : Nat) : State × Bool :=
  let m := s.cacheMates a line
  if a = 24 ∨ m.1.length < m.2 then (s, true)
  else
    let stable := m.1.filter (fun k => let c := s.copyAt a k; decide (1 ≤ c.st) && decide (c.st ≤ 4))
    match stable.foldl (fun (b : Option Nat) k => match b with
        | none => some k
        | some j => if (s.copyAt a k).use < (s.copyAt a j).use then some k else some j) none with
    | none => (s, false)
    | some k => (s.replaceCopy a k, true)

/-- R352: a load (none) or store of agent a: performed, or its request set out, or it waits for the line to become stable (R353). Where its cache has no room for the line, nothing
happens. -/
def State.agentDo (s : State) (a line part tk : Nat) (st : Option AStore) : State :=
  let c := s.copyAt a line
  let wait (s : State) : State :=
    let c := s.copyAt a line
    s.setCopy a line { c with later := c.later ++ [(tk, st)] }
  if c.st = 0 then
    let (s, ok) := s.cacheRoom a line
    if !ok then s
    else match st with
      | none => wait ((s.setCopy a line { c with st := 8, part := part }).agentReq 1 a line part)
      | some y => (s.setCopy a line { c with st := 9, store := some { y with tk := tk }, part := part }).agentReq 2 a line part
  else match st with
    | none =>
      if c.st ≤ 4 ∨ c.st = 10 then (s.touchCopy a line).tell tk line 0x50 (c.data, c.marks) else wait s
    | some y =>
      if c.st = 3 ∨ c.st = 4 then s.storeHit a line { y with tk := tk }
      else if c.st = 1 ∨ c.st = 2 then
        (s.setCopy a line { c with st := 10, fromF := c.st == 2, store := some { y with tk := tk }, part := part }).agentReq 3 a line part
      else wait s

/-- R353: the loads and stores that waited are tried again, in order, once the line is stable. -/
def State.retryLater (s : State) (a line : Nat) : State :=
  let c := s.copyAt a line
  c.later.foldl (fun s w => s.agentDo a line c.part w.1 w.2) (s.setCopy a line { c with later := [] })

/-- R352: DATA_S, DATA_F, DATA_E (code 0x30 to 0x32) arrives at agent a; with DATA_E the minimum hold starts (R335). -/
def State.dataArrive (s : State) (a line code : Nat) (x : BitVec 512 × Nat) : State :=
  let c := s.copyAt a line
  if c.st = 8 then
    ((s.setCopy a line { c with st := code - 0x2F, data := x.1, marks := x.2, hold := code == 0x32 }).retryLater a line).unpark a line
  else s.agentError a line code false

/-- R335, R352: DATA_M arrives at agent a: the hold starts and the store completes. -/
def State.dataMArrive (s : State) (a line : Nat) (x : BitVec 512 × Nat) : State :=
  let c := s.copyAt a line
  if c.st = 9 then
    ((s.setCopy a line { c with st := 4, data := x.1, marks := x.2, hold := true }).storeDone a line).retryLater a line
  else s.agentError a line 0x33 false

/-- R352: GNT arrives at agent a: it completes an upgrade or an eviction. -/
def State.gntArrive (s : State) (a line : Nat) : State :=
  let c := s.copyAt a line
  if c.st = 10 then ((s.setCopy a line { c with st := 4, hold := true, fromF := false }).storeDone a line).retryLater a line
  else if c.st = 11 then (s.setCopy a line { later := c.later, part := c.part }).retryLater a line
  else s.agentError a line 0x25 false

/-! ### Accesses of the requesters in this device -/

/-- Take what has come of the access with a ticket, where it is one of a kind to a line; what came of another is dropped. -/
def State.takeGot (s : State) (tk line kind : Nat) : State × Option CAns :=
  match s.coh.got.find? tk with
  | none => (s, none)
  | some a =>
    ({ s with coh := { s.coh with got := s.coh.got.erase tk } }, if a.line = line ∧ a.kind = kind then some a else none)

/-- Whether a request with a ticket waits at the home of a line. -/
def State.asked (s : State) (line tk : Nat) : Bool :=
  let d := s.dirAt line
  (match d.req with | some q => q.tk == tk | none => false) || d.queue.any (fun q => q.tk == tk) ||
    s.coh.wait.any (fun w => w.1 == line && w.2.tk == tk)

/-- R376: whether a request of another device, by its ticket, has been checked and waits at a home. -/
def State.askedFar (s : State) (tk : Nat) : Bool :=
  s.coh.wait.any (fun w => w.2.tk == tk) || s.coh.dir.any (fun (e : Nat × DirEnt) =>
    e.2.queue.any (fun q => q.tk == tk) || (match e.2.req with | some q => q.tk == tk | none => false))

/-- R337, R356: the access of a requester that does not cache: it reaches the home once, waits there in its turn, and is taken when it has been served. -/
def State.access (s : State) (line : Nat) (q : CReq) : State × Option CAns :=
  match s.takeGot q.tk line q.kind with
  | (s, some a) => (s, some a)
  | (s, none) => if s.asked line q.tk then (s, none) else (s.request line q).takeGot q.tk line q.kind

/-- Whether a load or store with a ticket waits at agent a for a line. -/
def State.agentAsked (s : State) (a line tk : Nat) : Bool :=
  let c := s.copyAt a line
  c.later.any (fun w => w.1 == tk) || (match c.store with | some y => y.tk == tk | none => false)

/-- R295: an access of a courier of MI die a to a line hits or misses its cache. -/
def State.countHit (s : State) (a : Nat) (hit : Bool) : State :=
  if a < 8 then s.satAdd (if hit then Reg.CRR_CACHE_HIT a else Reg.CRR_CACHE_MISS a) 1 else s

/-- Whether agent a's cache holds a line. -/
def State.holds (s : State) (a line : Nat) : Bool :=
  let c := s.copyAt a line
  (decide (1 ≤ c.st) && decide (c.st ≤ 4)) || c.st == 10

/-- R292, R295: a load or store at agent a begins, counted where its cache took it up. -/
def State.agentNew (s : State) (a line part tk : Nat) (st : Option AStore) : State :=
  let hit := s.holds a line
  let s := s.agentDo a line part tk st
  if hit ∨ (s.copyAt a line).st ≠ 0 then s.countHit a hit else s

/-- R292, R353: the access of a requester that caches, as agent a: it is begun once, waits in its turn, and is taken when it has been performed. -/
def State.agentAccess (s : State) (a line part tk : Nat) (st : Option AStore) : State × Option CAns :=
  let kind := if st.isSome then 0x51 else 0x50
  match s.takeGot tk line kind with
  | (s, some x) => (s, some x)
  | (s, none) => if s.agentAsked a line tk then (s, none) else (s.agentNew a line part tk st).takeGot tk line kind

/-- What the access of one line answers: it waits, it ends with a status, or the line with its marks. -/
inductive LRes where
  | wait
  | stat (code : Nat)
  | line (x : BitVec 512) (marks : Nat)

/-- The answer to an access of one line. -/
def LRes.of (a : Option CAns) : LRes :=
  match a with
  | none => .wait
  | some a => if a.status = 0 ∨ a.status = 0x20 then .line a.data a.marks else .stat a.status

/-- Read a line through its home for requester `who`: a tracked on-device agent, which caches it, or one that does not cache. -/
def State.readLine (s : State) (who part tk line : Nat) : State × LRes :=
  let (s, a) := if who ≤ 24 then s.agentAccess who line part tk none
                else s.access line { kind := 4, r := who, part := part, tk := tk }
  (s, LRes.of a)

/-- R343: an access of an atomic, which its line's home performs: the answer with the old value as data. -/
def State.atomLine (s : State) (line : Nat) (q : CReq) : State × Option CAns := s.access line { q with kind := 7 }

/-- Write the masked bytes of a line through its home for requester `who`, with the marks its data carries. -/
def State.writeLine (s : State) (who part tk line : Nat) (x : BitVec 512) (marks mask : Nat) : State × LRes :=
  let (s, a) := if who ≤ 24 then s.agentAccess who line part tk (some { mask := mask, data := x, marks := marks, take := decide (who < 8) })
                else s.access line { kind := if mask = 2 ^ 64 - 1 then 5 else 6, r := who, part := part, tk := tk, data := x, marks := marks, mask := mask }
  (s, match LRes.of a with | .line _ _ => .line x marks | r => r)

/-- R331, R337: the hub writes bytes of one line at a PGA of this device: a posted request, which waits at the home in its turn. -/
def State.hubWrite (s : State) (p : Nat) (bs : List Byte) : State :=
  if !s.isLocal p 1 then s
  else
    let i := p % 64
    let mask := (2 ^ bs.length - 1) * 2 ^ i
    s.request (p / 64) { kind := if mask = 2 ^ 64 - 1 then 5 else 6, r := 33, part := 16, tk := 1,
                         data := BitVec.ofNat 512 (leBytes bs * 2 ^ (8 * i)), mask := mask }

/-- R473: the hub writes a line at a store offset of this device with the marks its data carries; the write is not forwarded to the mirror partner. -/
def State.hubLine (s : State) (off : Nat) (x : BitVec 512 × Nat) : State :=
  s.request (s.lineKey off) { kind := 5, r := 33, part := 16, tk := 1, data := x.1, marks := x.2, mask := 2 ^ 64 - 1, quiet := true }

/-- The hub writes masked bytes of the line at a store offset of this device with the marks its data carries. -/
def State.hubPart (s : State) (off : Nat) (x : BitVec 512 × Nat) (mask : Nat) : State :=
  s.request (s.lineKey off) { kind := if mask = 2 ^ 64 - 1 then 5 else 6, r := 33, part := 16, tk := 1, data := x.1, marks := x.2, mask := mask }

/-- R337: whether a posted write waits at the home of the line at a store offset. -/
def State.hubWaits (s : State) (off : Nat) : Bool := s.asked (s.lineKey off) 1

/-- The lines that n bytes from a store offset touch. -/
def linesOf (off n : Nat) : List Nat := if n = 0 then [] else (List.range ((off + n - 1) / 64 - off / 64 + 1)).map (fun i => off / 64 + i)

/-- The part of a range of bytes from a store offset (all marked, or none) that lies in a line: its line data, its marks, its byte mask. -/
def partOf (off : Nat) (bs : List Byte) (dead : Bool) (l : Nat) : (BitVec 512 × Nat) × Nat :=
  let lo := max off (64 * l)
  let hi := min (off + bs.length) (64 * l + 64)
  let i := lo - 64 * l
  let n := hi - lo
  let marks := (List.range 8).foldl (fun m j => m + b2n (dead && decide (8 * j < i + n) && decide (i < 8 * j + 8)) * 2 ^ j) 0
  ((lineOf (List.replicate i 0 ++ (bs.drop (lo - off)).take n ++ List.replicate (64 - i - n) 0), marks), (2 ^ n - 1) * 2 ^ i)

/-- The read of a line with a ticket begins, unless it has begun. -/
def State.beginRead (s : State) (who part tk line : Nat) : State :=
  let kind := if who ≤ 24 then 0x50 else 4
  if (match s.coh.got.find? tk with | some a => a.line == line && a.kind == kind | none => false) then s
  else if who ≤ 24 then (if s.agentAsked who line tk then s else s.agentNew who line part tk none)
  else if s.asked line tk then s
  else s.request line { kind := 4, r := who, part := part, tk := tk }

/-- R433: read lines of this device for requester `who`, with tickets from tk on, the first before the others: once all have come, the lines in order. -/
def State.readAll (s : State) (who part tk : Nat) (lines : List Nat) : State × Option (List (BitVec 512 × Nat)) :=
  let s := lines.zipIdx.foldl (fun (s : State) (l, i) =>
    if i = 0 ∨ (s.coh.got.find? tk).isSome then s.beginRead who part (tk + i) l else s) s
  let come := (List.range lines.length).filterMap (fun i => (s.coh.got.find? (tk + i)).map (fun a => (a.data, a.marks)))
  if come.length < lines.length then (s, none)
  else ((List.range lines.length).foldl (fun (s : State) i => { s with coh := { s.coh with got := s.coh.got.erase (tk + i) } }) s, some come)

/-- The hub writes bytes at a store offset of this device, line by line, in at most `fuel` lines. -/
def State.hubBytes (s : State) : Nat → Nat → List Byte → State
  | 0, _, _ => s
  | fuel + 1, off, bs =>
    if bs.isEmpty then s
    else
      let n := 64 - off % 64
      (s.hubWrite (pgaOf s.device off) (bs.take n)).hubBytes fuel (off + n) (bs.drop n)

end Sys2Proof.Machine
end

