-- ==== Sys2Proof/Machine/Xlate.lean ====
section
/-!
DEFINITION. Two-stage translation: table walks, the TLBs, faults, maintenance, host windows and pointer conversion
(R302 to R322).
-/

namespace Sys2Proof.Machine

/-- A failed translation: cause, stage and level as PRT_FAULT_INFO codes them, and the IPA being walked. -/
structure XFault where
  cause : Nat
  stage : Nat
  level : Nat
  ipa : Nat := 0
  deriving DecidableEq, Repr

/-- R304: the status of a cause. -/
def XFault.status (f : XFault) : Nat := if f.cause = 4 ∨ f.cause = 5 ∨ f.cause = 6 then 0x11 else 0x10

/-- A leaf of one stage: the first output address, the input range it maps, its permissions, its C bit, its level, and the
address of its entry. -/
structure Leaf where
  addr : Nat
  base : Nat
  size : Nat
  r : Bool
  w : Bool
  c : Bool
  level : Nat
  slot : Nat
  deriving DecidableEq, Repr

/-- R302: the lowest address bit a level indexes. -/
def lvlShift (l : Nat) : Nat := if l = 0 then 48 else if l = 1 then 39 else if l = 2 then 30 else if l = 3 then 21 else 16

/-- R302: the number of address bits a level of a stage indexes. -/
def lvlBits (stage l : Nat) : Nat := if l = 0 then (if stage = 1 then 9 else 5) else if l = 4 then 5 else 9

/-- R302: the index an address has at a level of a stage. -/
def lvlIndex (stage l a : Nat) : Nat := bitsOf a (lvlShift l) (lvlBits stage l)

/-- R303: ADDR of a table entry. -/
def pteAddr (e : Nat) : Nat := bitsOf e 8 52 * 256

/-- R303: whether a valid entry of a stage and level is well-formed. -/
def State.pteOk (s : State) (stage l e : Nat) : Bool :=
  let t := bitOf e 1
  let a := pteAddr e
  bitsOf e 60 4 == 0 && bitsOf e 5 3 == 0 &&
    !(!t && decide (l ≤ 1)) && !(t && l == 4) &&
    (if t then a % (if l = 3 then 256 else 4096) == 0 else a % 2 ^ lvlShift l == 0) &&
    (stage == 2 || bitsOf a 53 7 == 0) &&
    (!(stage == 2 && t) || s.isLocal a (if l = 3 then 256 else 4096))

/-- R303: the leaf a valid entry at an address of its table is. -/
def leafOf (l a e slot : Nat) : Leaf :=
  { addr := pteAddr e, base := a - a % 2 ^ lvlShift l, size := 2 ^ lvlShift l, r := bitOf e 2, w := bitOf e 3, c := bitOf e 4,
    level := l, slot := slot }

/-- Why a walk stops: it needs a table entry that it has not read, or it faults. -/
inductive XStop where
  | need (slot : Nat)
  | fault (f : XFault)
  deriving DecidableEq, Repr

/-- The table entry at a PGA, of those a walk has read. -/
def readIn (seen : List (Nat × Nat)) (slot : Nat) : Except XStop Nat :=
  match seen.find? (fun e => e.1 == slot) with
  | some e => .ok e.2
  | none => .error (.need slot)

/-- A table entry at its level that ends a walk down: a leaf, or, with C, one whose group's first entry tells (R307). -/
structure RawLeaf where
  level : Nat
  addr : Nat
  slot : Nat
  e : Nat

/-- R307: whether an entry is of a group of 16. -/
def RawLeaf.c (x : RawLeaf) : Bool := bitOf x.e 4

/-- R303: the leaf that an entry is by itself. -/
def State.single (s : State) (stage : Nat) (x : RawLeaf) (ipa : Nat) : Except XStop Leaf :=
  if s.pteOk stage x.level x.e then .ok (leafOf x.level x.addr x.e x.slot)
  else .error (.fault { cause := 3, stage := stage, level := x.level, ipa := ipa })

/-- R307: the run of 16 pages that the first entry of an entry's aligned group maps. -/
def State.groupOf (s : State) (seen : List (Nat × Nat)) (stage : Nat) (x : RawLeaf) (ipa : Nat) : Except XStop Leaf := do
  let i := lvlIndex stage x.level x.addr % 16
  let e ← readIn seen (x.slot - 8 * i)
  if !bitOf e 0 then .error (.fault { cause := 2, stage := stage, level := x.level, ipa := ipa })
  else if !s.pteOk stage x.level e ∨ bitOf e 1 then .error (.fault { cause := 3, stage := stage, level := x.level, ipa := ipa })
  else
    let lf := leafOf x.level x.addr e x.slot
    .ok { lf with base := lf.base - i * lf.size, size := 16 * lf.size }

/-- R302, R304: a walk down stage 2 from a table at a level, in at most `fuel` levels. -/
def State.walk2Go (s : State) (seen : List (Nat × Nat)) (ipa : Nat) : Nat → Nat → Nat → Except XStop RawLeaf
  | 0, l, _ => .error (.fault { cause := 3, stage := 2, level := l, ipa := ipa })
  | fuel + 1, l, tab => do
    let slot := tab + 8 * lvlIndex 2 l ipa
    let e ← readIn seen slot
    if !bitOf e 0 then .error (.fault { cause := 2, stage := 2, level := l, ipa := ipa })
    else if !bitOf e 1 ∧ bitOf e 4 ∧ 2 ≤ l then .ok ⟨l, ipa, slot, e⟩
    else if !s.pteOk 2 l e then .error (.fault { cause := 3, stage := 2, level := l, ipa := ipa })
    else if bitOf e 1 then s.walk2Go seen ipa fuel (l + 1) (pteAddr e)
    else .ok ⟨l, ipa, slot, e⟩

/-- The walk down stage 2 for an IPA of partition p. -/
def State.walk2 (s : State) (seen : List (Nat × Nat)) (p ipa : Nat) : Except XStop RawLeaf :=
  s.walk2Go seen ipa 5 0 (s.rd (Reg.PRT_S2_ROOT_ROOT p) * 256)

/-- The output address of an input address under a leaf. -/
def Leaf.out (lf : Leaf) (a : Nat) : Nat := lf.addr + (a - lf.base)

/-- R304: the PGA of a stage-1 table entry at an IPA: a read under stage 2, in this device's own store or Stage-only range. -/
def State.tableAt (s : State) (seen : List (Nat × Nat)) (p ipa l : Nat) : Except XStop Nat := do
  let x ← s.walk2 seen p ipa
  let lf ← if x.c then s.groupOf seen 2 x ipa else s.single 2 x ipa
  if !lf.r then .error (.fault { cause := 4, stage := 2, level := lf.level, ipa := ipa })
  else if !s.isLocal (lf.out ipa) 8 then .error (.fault { cause := 3, stage := 1, level := l })
  else .ok (lf.out ipa)

/-- R302, R304: a walk down stage 1 for a VA of partition p. -/
def State.walk1Go (s : State) (seen : List (Nat × Nat)) (p va : Nat) : Nat → Nat → Nat → Except XStop RawLeaf
  | 0, l, _ => .error (.fault { cause := 3, stage := 1, level := l })
  | fuel + 1, l, tab => do
    let slot ← s.tableAt seen p (tab + 8 * lvlIndex 1 l va) l
    let e ← readIn seen slot
    if !bitOf e 0 then .error (.fault { cause := 2, stage := 1, level := l })
    else if !bitOf e 1 ∧ bitOf e 4 ∧ 2 ≤ l then .ok ⟨l, va, slot, e⟩
    else if !s.pteOk 1 l e then .error (.fault { cause := 3, stage := 1, level := l })
    else if bitOf e 1 then s.walk1Go seen p va fuel (l + 1) (pteAddr e)
    else .ok ⟨l, va, slot, e⟩

/-- The TLB entry that two leaves make for a VA (R306). -/
def tlbOf (p va : Nat) (l1 l2 : Leaf) (size : Nat) : Tlb :=
  let v0 := va - va % size
  let ipa := l1.out va
  { part := p, va := v0, size := size, pga := l2.out ipa - va % size, ipa := ipa - va % size, r1 := l1.r, w1 := l1.w,
    r2 := l2.r, w2 := l2.w, lvl1 := l1.level, lvl2 := l2.level, leaf := l2.base, leafSize := l2.size }

/-- Whether a leaf's input range holds n addresses from a. -/
def Leaf.covers (lf : Leaf) (a n : Nat) : Bool := decide (lf.base ≤ a) && decide (a + n ≤ lf.base + lf.size)

/-- R302 to R307: stage 2 behind a stage-1 leaf that stands by itself. -/
def State.walkOn (s : State) (seen : List (Nat × Nat)) (p va : Nat) (l1 : Leaf) : Except XStop Tlb := do
  let ipa := l1.out va
  let x2 ← s.walk2 seen p ipa
  if x2.c ∧ 2 ^ lvlShift x2.level < l1.size then
    let run ← s.groupOf seen 2 x2 ipa
    .ok (tlbOf p va l1 run run.size)
  else
    let l2 ← s.single 2 x2 ipa
    .ok (tlbOf p va l1 l2 (min l1.size l2.size))

/-- R307: stage 2 behind a stage-1 group of 16, from its first entry: the run, where the other stage's leaf covers it whole. -/
def State.walkRun (s : State) (seen : List (Nat × Nat)) (p va : Nat) (run1 : Leaf) : Except XStop (Option Tlb) := do
  let ipa := run1.out va
  let x2 ← s.walk2 seen p ipa
  let page := run1.size / 16
  let size2 := 2 ^ lvlShift x2.level
  if size2 = page ∧ x2.c then
    let run2 ← s.groupOf seen 2 x2 ipa
    .ok (if run2.covers run1.addr run1.size then some (tlbOf p va run1 run2 run1.size) else none)
  else if page < size2 then
    let l2 ← s.single 2 x2 ipa
    .ok (if l2.covers run1.addr run1.size then some (tlbOf p va run1 l2 run1.size) else none)
  else .ok none

/-- R302 to R307: the combined walk of a VA from the table entries read: its TLB entry, its fault, or the entry it needs next. With S1_EN = 0 stage 1 is
bypassed: the IPA equals the VA. -/
def State.walk (s : State) (seen : List (Nat × Nat)) (p va : Nat) : Except XStop Tlb := do
  if !s.is1 (Reg.PRT_CTL_S1_EN p) then
    s.walkOn seen p va { addr := 0, base := 0, size := 2 ^ 53, r := true, w := true, c := false, level := 0, slot := 0 }
  else
    let x1 ← s.walk1Go seen p va 5 0 (s.rd (Reg.PRT_S1_ROOT_ROOT p) * 4096)
    if x1.c then
      let run1 ← s.groupOf seen 1 x1 0
      match (← s.walkRun seen p va run1) with
      | some e => .ok e
      | none => s.walkOn seen p va (← s.single 1 x1 0)
    else s.walkOn seen p va (← s.single 1 x1 0)

/-- The walk of a VA as the tables stand, in at most `fuel` reads. -/
def State.walkNow (s : State) (p va : Nat) : Nat → List (Nat × Nat) → Except XFault Tlb
  | 0, _ => .error { cause := 3, stage := 0, level := 0 }
  | fuel + 1, seen =>
    match s.walk seen p va with
    | .ok e => .ok e
    | .error (.fault f) => .error f
    | .error (.need slot) => s.walkNow p va fuel (seen ++ [(slot, s.cohNum (pgaOff slot) 8)])

/-- R306, R309: the page that a VA lies in (first VA, size), as the tables stand: that of its translation, or, where it has none, 64 KiB. -/
def State.pageOf (s : State) (p va : Nat) : Nat × Nat :=
  match s.walkNow p va 64 [] with
  | .ok e => (e.va, e.size)
  | .error _ => (va - va % 65536, 65536)

/-! ### Faults (R310 to R312) -/

/-- R312: log a translation fault of a source (a troupe index, or 65,536 plus a context number). -/
def State.logFault (s : State) (p src va : Nat) (write : Bool) (f : XFault) : State :=
  let s := (s.satAdd (Reg.PRT_FAULT_INFO_COUNT p) 1).satAdd Reg.XLT_TLB_STAT_FAULTS 1
  if s.is1 (Reg.PRT_FAULT_INFO_VALID p) then s
  else
    let s := s.wr (Reg.PRT_FAULT_INFO_VALID p) 1
    let s := s.wr (Reg.PRT_FAULT_INFO_SOURCE p) (src % 65536)
    let s := s.wr (Reg.PRT_FAULT_INFO_KIND p) (if src < 65536 then 0 else 1)
    let s := s.wr (Reg.PRT_FAULT_INFO_WRITE p) (b2n write)
    let s := s.wr (Reg.PRT_FAULT_INFO_STAGE p) f.stage
    let s := s.wr (Reg.PRT_FAULT_INFO_LEVEL p) f.level
    let s := s.wr (Reg.PRT_FAULT_INFO_CAUSE p) f.cause
    let s := s.wr (Reg.PRT_FAULT_VA_VA p) va
    let s := s.wr (Reg.PRT_FAULT_IPA_IPA p) (if f.stage = 2 then f.ipa else 0)
    s.raise 72

/-- R206, R310: a courier context is switched out on a translation fault. -/
def State.ctxFault (s : State) (k va : Nat) (write : Bool) (status : Nat) : State :=
  let s := s.setCxAt (ctxKey k) { s.cxAt (ctxKey k) with st := .fault status }
  let s := s.wr (Reg.CRR_CTX_FAULT_VALID k) 1
  let s := s.wr (Reg.CRR_CTX_FAULT_ABANDONED k) 0
  let s := s.wr (Reg.CRR_CTX_FAULT_WRITE k) (b2n write)
  let s := s.wr (Reg.CRR_CTX_FAULT_VA k) va
  let s := s.satAdd (Reg.CRR_CTX_COUNT_FAULTS k) 1
  (s.setCtx k { s.ctx k with waited := 0 }).raise 64

/-! ### TLBs (R306 to R309) -/

/-- What a translation answers: it waits for a walk, gives a PGA, or ends with a status. -/
inductive XRes where
  | wait
  | pga (p : Nat)
  | fault (status : Nat)
  deriving DecidableEq, Repr

/-- Whether a TLB entry translates a VA of a partition. -/
def Tlb.hits (e : Tlb) (p va : Nat) : Bool := e.part == p && decide (e.va ≤ va) && decide (va < e.va + e.size)

/-- R306: the set of the shared TLB that an entry falls in: a hash of the partition and of the VA above the entry's size that the spec does
not publish, so a free value (log entry 2). -/
def Tlb.set (e : Tlb) : Nat := Config.freeValue (2 ^ 200 + e.part + 16 * (e.size + 2 ^ 58 * (e.va / e.size))) % 4096

/-- R306: an entry comes into the shared TLB, whose list holds the least recently used first: a set of 4 gives up its first. -/
def State.tlbFill (s : State) (e : Tlb) : State :=
  let mates := s.xlt.tlb.filter (fun x => x.set == e.set)
  let l := match mates with | a :: _ => if 4 ≤ mates.length then s.xlt.tlb.erase a else s.xlt.tlb | [] => s.xlt.tlb
  { s with xlt := { s.xlt with tlb := l ++ [e] } }

/-- R306: an entry of the shared TLB is used. -/
def State.tlbTouch (s : State) (e : Tlb) : State :=
  { s with xlt := { s.xlt with tlb := s.xlt.tlb.erase e ++ [e] } }

/-- R304 orders 5 and 6, on a translation found. -/
def State.useTlb (s : State) (src va acc : Nat) (e : Tlb) : State × XRes :=
  let rd := acc != 1
  let wt := acc != 0
  let bad1 := (rd && !e.r1) || (wt && !e.w1)
  let bad2 := (rd && !e.r2) || (wt && !e.w2)
  let pga := e.pga + (va - e.va)
  let ipa := e.ipa + (va - e.va)
  if bad1 then (s.logFault e.part src va wt { cause := 4, stage := 1, level := e.lvl1 }, .fault 0x11)
  else if bad2 then (s.logFault e.part src va wt { cause := 4, stage := 2, level := e.lvl2, ipa := ipa }, .fault 0x11)
  else if pgaCtl pga then (s.logFault e.part src va wt { cause := 5, stage := 0, level := 0 }, .fault 0x11)
  else (s, .pga pga)

/-- R266: put a translation into a courier's micro-TLB of 64 entries; the entry it displaces is a free value (log entry 2). -/
def State.fillMicro (s : State) (c : Nat) (e : Tlb) : State :=
  let l := s.xlt.utlb.getD c []
  if l.length < 64 then { s with xlt := { s.xlt with utlb := s.xlt.utlb.setD c [] (l ++ [e]) } }
  else
    let (i, s) := s.fresh 6
    { s with xlt := { s.xlt with utlb := s.xlt.utlb.setD c [] (mapAt l i (fun _ => e)) } }

/-- R304, R306, R308, R309: translate a VA of a partition for an access (0 read, 1 write, 2 atomic) of a source, with a ticket, served by courier
c. A miss starts a walk, or waits for one of the same page, or for one of the 64 to end; a fault is known to the accesses that waited for its walk alone. -/
def State.translate (s : State) (own src c p va acc : Nat) : State × XRes :=
  let wt := acc != 0
  let w := s.xlt.waits.find? own
  let known := match w with | some x => x.va == va && x.part == p | none => false
  let gone (s : State) : State := { s with xlt := { s.xlt with waits := s.xlt.waits.erase own } }
  let miss (s : State) : State := if known then s else s.satAdd (Reg.CRR_LOAD_UTLB_MISS c) 1
  if !s.is1 (Reg.PRT_CTL_EN p) then ((gone s).logFault p src va wt { cause := 6, stage := 0, level := 0 }, .fault 0x11)
  else if 2 ^ 57 ≤ va ∨ (!s.is1 (Reg.PRT_CTL_S1_EN p) ∧ 2 ^ 53 ≤ va) then
    ((gone s).logFault p src va wt { cause := 1, stage := 0, level := 0 }, .fault 0x10)
  else match (s.xlt.utlb.getD c []).find? (fun e => e.hits p va) with
  | some e => (gone s).useTlb src va acc e
  | none =>
    match s.xlt.tlb.find? (fun e => e.hits p va) with
    | some e => ((((gone (miss s)).tlbTouch e)).fillMicro c e).useTlb src va acc e
    | none =>
      match (if known then w.bind (·.res) else none) with
      | some st => (gone s, .fault st)
      | none =>
        let s := miss s
        let s := { s with xlt := { s.xlt with waits := s.xlt.waits.insert own { src := src, part := p, va := va, write := wt } } }
        if s.xlt.walks.any (fun w => w.part == p && decide (w.lo ≤ va) && decide (va < w.lo + w.size)) ∨ 64 ≤ s.xlt.walks.length then (s, .wait)
        else
          let pg := s.pageOf p va
          let s := s.wrapAdd Reg.XLT_TLB_STAT_WALKS 1
          ({ s with xlt := { s.xlt with walks := s.xlt.walks ++ [{ own := own, part := p, va := va, lo := pg.1, size := pg.2 }] } }, .wait)

/-- R304, R309, R310, R312: a walk faults: so does every access that waits for it, in ascending source: a CE's gets its status when it is served next, a courier context is
switched out where the status is ST_XLATE_FAULT. -/
def State.walkFault (s : State) (w : Walk) (f : XFault) : State :=
  let mine := s.xlt.waits.filter (fun _ (x : XWait) => x.part == w.part && decide (w.lo ≤ x.va) && decide (x.va < w.lo + w.size) && x.res.isNone)
  let inOrder : SMap (Nat × XWait) := mine.foldl (fun m (e : Nat × XWait) => SMap.insert m (2 ^ 64 * e.2.src + e.1) e) []
  inOrder.vals.foldl (fun s (e : Nat × XWait) =>
    let s := s.logFault w.part e.2.src e.2.va e.2.write f
    if e.2.src < 65536 ∨ f.status ≠ 0x10 then
      { s with xlt := { s.xlt with waits := s.xlt.waits.insert e.1 { e.2 with res := some f.status } } }
    else ({ s with xlt := { s.xlt with waits := s.xlt.waits.erase e.1 } }).ctxFault (e.2.src - 65536) e.2.va e.2.write f.status) s

/-- The ticket of the table reads of a walk. -/
def walkTicket (w : Walk) : Nat := 2 ^ 44 + w.own

/-- R304, R309, R310: the n-th walk in flight reads the table entry it needs next, as a requester that does not cache, and waits while the line's home holds that read; then the
walk goes on, fills the TLB, or faults. -/
def execTableReadComplete (n : Fin 64) (s : State) : Res :=
  if s.halted then .next s else
  match s.xlt.walks[n.val]? with
  | none => .next s
  | some w =>
    let rest (s : State) : State := { s with xlt := { s.xlt with walks := s.xlt.walks.erase w } }
    let ended (s : State) (r : Except XStop Tlb) : State :=
      match r with
      | .ok e => (rest s).tlbFill e
      | .error (.fault f) => (rest s).walkFault w f
      | .error (.need _) => s
    match s.walk w.seen w.part w.va with
    | .error (.need slot) =>
      let (s, a) := s.access (slot / 64) { kind := 4, r := 35, tk := walkTicket w }
      (match a with
       | none => .next s
       | some a =>
         let seen := w.seen ++ [(slot, leBytes (((seenBytes (a.data, a.marks)).drop (slot % 64)).take 8))]
         match s.walk seen w.part w.va with
         | .error (.need _) =>
           .next { s with xlt := { s.xlt with walks := s.xlt.walks.map (fun x => if x = w then { w with seen := seen } else x) } }
         | r => .next (ended s r))
    | r => .next (ended s r)

/-! ### Maintenance (R314 to R316) -/

/-- R315: every walk starts anew from level 0. -/
def State.restartWalks (s : State) : State :=
  let s := s.xlt.walks.foldl (fun s w => s.forget (walkTicket w)) s
  { s with xlt := { s.xlt with walks := s.xlt.walks.map (fun w => { w with seen := [] }) } }

/-- Remove the TLB entries that satisfy a test, and restart every walk (R315). -/
def State.dropTlb (s : State) (p : Tlb → Bool) : State :=
  { s with xlt := { s.xlt with
      tlb := s.xlt.tlb.filter (fun e => !p e)
      utlb := (s.xlt.utlb.mapVals (fun _ (l : List Tlb) => l.filter (fun e => !p e))).filter (fun _ l => !l.isEmpty) } }.restartWalks

/-- R315: an invalidation waits for the accesses under way that used an entry it removes. -/
def State.drainOn (s : State) (p : Tlb → Bool) : State :=
  let removed := (s.xlt.tlb ++ (s.xlt.utlb.vals).flatten).filter p
  { s with xlt := { s.xlt with acc := s.xlt.acc.mapVals (fun _ (x : Access) =>
      if x.kind < 3 ∧ removed.any (fun e => e.hits x.part x.addr) then { x with drain := true } else x) } }

/-- R314: an invalidation by OP, PARTITION and COUNT, with the range start in XLT_TLBI_ADDR. Only holder codes 16 and 17
write this block (R300). -/
def State.tlbi (s : State) (h op p count : Nat) : State :=
  if h ≠ 16 ∧ h ≠ 17 then s
  else
    let s := (s.wr Reg.XLT_TLBI_CTL_COUNT count).wr Reg.XLT_TLBI_CTL_PARTITION p
    let s := if op < 4 then s.wr Reg.XLT_TLBI_CTL_OP op else s
    let a := s.rd Reg.XLT_TLBI_ADDR_ADDR * 65536
    if s.is1 Reg.XLT_TLBI_CTL_BUSY then s
    else if 4 ≤ op ∨ (op = 3 ∧ 2 ^ 53 ≤ a) then s.wr Reg.XLT_TLBI_CTL_RESULT 2
    else if 2 ≤ op ∧ count = 0 then (s.wr Reg.XLT_TLBI_CTL_RESULT 1).raise 74
    else
      let top := a + 65536 * count
      let goes (e : Tlb) : Bool :=
        op == 0 || (e.part == p && (op == 1 ||
          (op == 2 && decide (e.va < top) && decide (a < e.va + e.size)) ||
          (op == 3 && decide (e.leaf < top) && decide (a < e.leaf + e.leafSize))))
      ((s.drainOn goes).dropTlb goes).wr Reg.XLT_TLBI_CTL_BUSY 1

/-- R314: OP ALL. -/
def execTlbiAll (h : Fin 18) (s : State) : Res :=
  if s.halted then .next s else .next (s.tlbi h.val 0 (s.rd Reg.XLT_TLBI_CTL_PARTITION) (s.rd Reg.XLT_TLBI_CTL_COUNT))

/-- R314: OP PART. -/
def execTlbiPart (h : Fin 18) (p : Fin 16) (s : State) : Res := if s.halted then .next s else .next (s.tlbi h.val 1 p.val (s.rd Reg.XLT_TLBI_CTL_COUNT))

/-- R314: OP VA. -/
def execTlbiVa (h : Fin 18) (p : Fin 16) (count : Lane) (s : State) : Res := if s.halted then .next s else .next (s.tlbi h.val 2 p.val count.toNat)

/-- R314: OP IPA. -/
def execTlbiIpa (h : Fin 18) (p : Fin 16) (count : Lane) (s : State) : Res := if s.halted then .next s else .next (s.tlbi h.val 3 p.val count.toNat)

/-- R315: the removal has ended and the accesses that used removed entries have drained. -/
def execTlbiComplete (s : State) : Res :=
  if s.halted then .next s else
  if s.is1 Reg.XLT_TLBI_CTL_BUSY ∧ !s.xlt.acc.any (fun e => e.2.drain) then
    .next (((s.wr Reg.XLT_TLBI_CTL_BUSY 0).wr Reg.XLT_TLBI_CTL_RESULT 1).raise 74)
  else .next s

/-! ### Host windows and pointers (R317 to R322) -/

/-- R319: the window and offset that a host physical address of edge agent g decodes to, before the window's own test. -/
def State.hdmHit (s : State) (g hpa : Nat) : Option (Nat × Nat) :=
  (List.range 4).findSome? (fun k =>
    let d := s.xlt.hdm.getD (4 * g + k) {}
    if d.committed ∧ d.base ≤ hpa ∧ hpa < d.base + d.size then some (4 * g + k, hpa - d.base) else none)

/-- R319: whether window w is enabled and covers offset o. -/
def State.winCovers (s : State) (w o : Nat) : Bool :=
  s.is1 (Reg.XLT_WIN_MAP_EN w) && decide (o < 65536 * s.rd (Reg.XLT_WIN_SIZE_UNITS w))

/-- R319: the window, of those that satisfy a test, and the offset of a port H BAR offset: the lowest-numbered that covers it. -/
def State.hWindowOf (s : State) (p : Nat → Bool) (o : Nat) : Option (Nat × Nat) :=
  (List.range 4).findSome? (fun i =>
    let w := 32 + i
    let b := s.rd (Reg.XLT_WIN_HBASE_HBASE i) * 65536
    if p w ∧ b ≤ o ∧ s.winCovers w (o - b) then some (w, o - b) else none)

/-- R319: the window and offset of a port H BAR offset. -/
def State.hWindow (s : State) (o : Nat) : Option (Nat × Nat) := s.hWindowOf (fun _ => true) o

/-- The PGA base of window w. -/
def State.winBase (s : State) (w : Nat) : Nat := s.rd (Reg.XLT_WIN_MAP_PGA w) * 65536

/-- R322: a host window address of the partition's PTR_AGENT as a PGA, by the windows of that partition alone. -/
def State.hostToPga (s : State) (part barBase word : Nat) : Option Nat :=
  let g := s.rd (Reg.PRT_CTL_PTR_AGENT part)
  let mine (w : Nat) : Bool := s.rd (Reg.XLT_WIN_MAP_PARTITION w) == part
  let hit := if g < 8 then (s.hdmHit g word).bind (fun q => if mine q.1 ∧ s.winCovers q.1 q.2 then some q else none)
             else if word < barBase then none else s.hWindowOf mine (word - barBase)
  hit.map (fun q => s.winBase q.1 + q.2)

/-- R297, R322: a PGA as an address in the lowest-numbered window of the partition's PTR_AGENT that covers it. -/
def State.pgaToHost (s : State) (part barBase word : Nat) : Option Nat :=
  let g := s.rd (Reg.PRT_CTL_PTR_AGENT part)
  (List.range 4).findSome? (fun k =>
    let w := if g < 8 then 4 * g + k else 32 + k
    let d := s.xlt.hdm.getD (4 * g + k) {}
    let b := if g < 8 then d.base else barBase + s.rd (Reg.XLT_WIN_HBASE_HBASE k) * 65536
    if pgaOk word ∧ s.winBase w ≤ word ∧ s.winCovers w (word - s.winBase w) ∧ s.rd (Reg.XLT_WIN_MAP_PARTITION w) = part ∧ (8 ≤ g ∨ d.committed)
    then some (b + (word - s.winBase w)) else none)

end Sys2Proof.Machine
end

