-- ==== Sys2Proof/Machine/Gmem.lean ====
section
/-!
DEFINITION. Line accesses by virtual address or PGA, and the GMEM and ATOM instructions (R198 to R204).
-/

namespace Sys2Proof.Machine

/-! ### One line -/

/-- How an access is kept while it waits (Access.kind): by VA a read, a write, an atomic; by PGA a read, a write, an atomic. -/
def accByPga : Nat := 3

/-- The access with a ticket that waits for its line, where it is one of a kind to an address. -/
def State.accOf (s : State) (own part addr kind : Nat) : Option Access :=
  match s.xlt.acc.find? own with
  | some x => if x.part = part ∧ x.addr = addr ∧ x.kind = kind then some x else none
  | none => none

/-- R316, R376: an access that has passed its checks is kept, under the translation it has, until it ends. -/
def State.keepAcc (s : State) (own : Nat) (x : Access) : State := { s with xlt := { s.xlt with acc := s.xlt.acc.insert own x } }

/-- An access ends, but where it waits. -/
def State.endAcc (own : Nat) (q : State × LRes) : State × LRes :=
  match q.2 with
  | .wait => q
  | r => ({ q.1 with xlt := { q.1.xlt with acc := q.1.xlt.acc.erase own } }, r)

/-- Whether the home of a line of another device's memory (or of a loan window) takes part in an access with a ticket: it tracks the line, or has the request. -/
def State.atHome (s : State) (line tk : Nat) : Bool :=
  (s.dirAt line).st != 0 || s.asked line tk || (match s.coh.got.find? tk with | some a => a.line == line | none => false)

/-- R199, R326: the line of an access that has passed its checks is read: at its home, or, where no agent of this device holds a line of another device,
across the fabric (log entry 101). -/
def State.readOn (s : State) (who own part : Nat) (x : Access) : State × LRes :=
  match x.way with
  | .wait => (s, .wait)
  | .stat c => (s, .stat c)
  | .loc off => s.readLine who part own (s.lineKey off)
  | .rem dest q via =>
    if s.atHome (q / 64) own then s.readLine who part own (q / 64)
    else
      let (s, a) := s.fabric { dest := dest, kind := 1, part := part, pga := q, own := own, via := via }
      match a with
      | none => (s, .wait)
      | some a =>
        let s := s.countHit who false
        if a.status = 0 ∨ a.status = 0x20 then (s, .line a.data a.marks) else (s.lostTo part a.status, .stat a.status)

/-- R199, R326: the masked bytes of the line of an access that has passed its checks are written. -/
def State.writeOn (s : State) (who own part : Nat) (x : Access) (d : BitVec 512) (marks mask : Nat) : State × LRes :=
  match x.way with
  | .wait => (s, .wait)
  | .stat c => (s, .stat c)
  | .loc off => s.writeLine who part own (s.lineKey off) d marks mask
  | .rem dest q via =>
    if s.atHome (q / 64) own then s.writeLine who part own (q / 64) d marks mask
    else
      let full := mask == 2 ^ 64 - 1
      let (s, a) := s.fabric { dest := dest, kind := if full then 2 else 3, part := part, pga := q, data := d, marks := marks,
                               mask := mask, own := own, via := via }
      match a with
      | none => (s, .wait)
      | some a =>
        let s := s.countHit who false
        if a.status = 0 ∨ a.status = 0x20 then (s, .line d marks) else (s.lostTo part a.status, .stat a.status)

/-- R199, R376: an access to a PGA by a partition is checked, once. -/
def State.checkPga (s : State) (own part addr kind p : Nat) (write : Bool) : State × Except Nat Access :=
  let (s, r) := s.reach part p write
  match r with
  | .stat c => (s, .error c)
  | way =>
    let x : Access := { part := part, addr := addr, kind := kind, pga := p, way := way }
    (s.keepAcc own x, .ok x)

/-- R199: read the line at a PGA for a partition: `who` the requester (a tracked agent, or one that does not cache), `own` its ticket. -/
def State.readPga (s : State) (who own part p : Nat) : State × LRes :=
  match s.accOf own part p accByPga with
  | some x => State.endAcc own (s.readOn who own part x)
  | none =>
    match s.checkPga own part p accByPga p false with
    | (s, .error c) => (s, .stat c)
    | (s, .ok x) => State.endAcc own (s.readOn who own part x)

/-- R199: write the masked bytes of the line at a PGA for a partition, with the marks its data carries. -/
def State.writePga (s : State) (who own part p : Nat) (x : BitVec 512) (marks mask : Nat) : State × LRes :=
  match s.accOf own part p (accByPga + 1) with
  | some a => State.endAcc own (s.writeOn who own part a x marks mask)
  | none =>
    match s.checkPga own part p (accByPga + 1) p true with
    | (s, .error c) => (s, .stat c)
    | (s, .ok a) => State.endAcc own (s.writeOn who own part a x marks mask)

/-- R199, R304: a VA is translated and the access checked, once; or what ends it. -/
def State.checkVa (s : State) (own src c part va acc : Nat) : State × Except LRes Access :=
  match s.accOf own part va acc with
  | some x => (s, .ok x)
  | none =>
    let (s, r) := s.translate own src c part va acc
    match r with
    | .wait => (s, .error .wait)
    | .fault st => (s, .error (.stat st))
    | .pga p =>
      match s.checkPga own part va acc p (acc != 0) with
      | (s, .error c) => (s, .error (.stat c))
      | (s, .ok x) => (s, .ok x)

/-- R21: the MI die of courier c, which is the tracked agent of its cache. -/
def dieOfCourier (c : Nat) : Nat := c / 32

/-- The line of an access, as its home on this device numbers it. -/
def Access.line (x : Access) : Nat := match x.way with | .rem _ q _ => q / 64 | _ => x.pga / 64

/-- R292: the requester that an access of courier c is: its MI die's cache, or, where it does not allocate and the cache lacks the line, one that does
not cache. -/
def State.whoAt (s : State) (c : Nat) (alloc : Bool) (x : Access) : Nat :=
  if alloc ∨ s.holds (dieOfCourier c) x.line then dieOfCourier c else 36

/-- R295: an access that begins and that its courier's cache does not take up is a miss. -/
def State.countPass (s : State) (c who : Nat) (began : Bool) : State := if began ∧ who = 36 then s.countHit (dieOfCourier c) false else s

/-- R199: read the line at a VA for a source by courier c, in its cache or past it. -/
def State.readVa (s : State) (src c : Nat) (alloc : Bool) (own part va : Nat) : State × LRes :=
  let began := (s.accOf own part va 0).isNone
  match s.checkVa own src c part va 0 with
  | (s, .error r) => (s, r)
  | (s, .ok x) =>
    let who := s.whoAt c alloc x
    State.endAcc own ((s.countPass c who began).readOn who own part x)

/-- R199: write the line at a VA for a source by courier c. -/
def State.writeVa (s : State) (src c : Nat) (alloc : Bool) (own part va : Nat) (x : BitVec 512) (marks mask : Nat) : State × LRes :=
  let began := (s.accOf own part va 1).isNone
  match s.checkVa own src c part va 1 with
  | (s, .error r) => (s, r)
  | (s, .ok a) =>
    let who := if alloc then dieOfCourier c else 36
    State.endAcc own ((s.countPass c who began).writeOn who own part a x marks mask)

/-- The line at a troupe SRAM address with its marks. -/
def State.sramGet (s : State) (t a : Nat) : BitVec 512 × Nat :=
  let b := 393216 * t + a
  (lineOf (Memory.bytes s.trp.sram b 64),
   (List.range 8).foldl (fun m i => m + b2n (s.trp.dead.getD (b / 8 + i) false) * 2 ^ i) 0)

/-- Write a line into troupe SRAM with its marks. -/
def State.sramPut (s : State) (t a : Nat) (x : BitVec 512) (m : Nat) : State :=
  let s := s.sramWrite t a (bytesOf x)
  if m = 0 then s
  else { s with trp := { s.trp with dead := (List.range 8).foldl (fun d i =>
      if bitOf m i then d.setD ((393216 * t + a) / 8 + i) false true else d) s.trp.dead } }

/-! ### GMEM, major 0x11 -/

/-- R200: the outstanding GMEM and ATOM operations of an agent, oldest first. -/
def State.gopsOf (s : State) (k : Nat) : List GOp := s.trp.gops.filter (fun g => g.agent == k)

/-- Queue an operation, its destination registers pending (R200). -/
def State.pushGop (s : State) (u : Agent) (x : Cx) (g : GOp) (regs : List PendReg) : State :=
  let s := s.setCx u { x with pend := x.pend ++ regs }
  { s with trp := { s.trp with gops := s.trp.gops ++ [{ g with id := s.trp.gopNext }], gopNext := s.trp.gopNext + 1 } }

/-- R198, R199, R200: the issue of GLD (kind 0) or GST (kind 1). -/
def gmemIssue (u : Agent) (f : BitVec 52) (kind : Nat) (x : Cx) (s : State) : Body :=
  let len := x.sr (fC f)
  if 8 ≤ (s.gopsOf (agentKey u)).length then .wait s .hold
  else if len % 64 ≠ 0 ∨ 65536 < len then .go (s.setCx u (x.setS (fD f) 0x30))
  else if len = 0 then .go (s.setCx u (x.setS (fD f) 0))
  else if x.ar (fA f) % 64 ≠ 0 then .exc 4 (x.ar (fA f))
  else if x.sr (fB f) % 64 ≠ 0 ∨ 393216 < x.sr (fB f) + len then .exc 4 (x.sr (fB f))
  else match u with
    | .ce t _ => .go (s.pushGop u x { agent := agentKey u, kind := kind, addr := x.ar (fA f), sram := x.sr (fB f), len := len,
                                      sd := fD f, part := x.part, troupe := t.val } [⟨0, fD f⟩])
    | _ => .go s

/-- R198: the encoding of GLD. -/
def encGld : Enc := { major := 0x11, minor := 0, d := .s, a := .a, b := .s, c := .s }

/-- R198 GLD: copies sC bytes from the store at aA to troupe SRAM at sB. -/
def execGld (u : Agent) (f : BitVec 52) (s : State) : Res := .next (issue u encGld f true (gmemIssue u f 0) s)

/-- R198: the encoding of GST. -/
def encGst : Enc := { major := 0x11, minor := 1, d := .s, a := .a, b := .s, c := .s }

/-- R198 GST: copies sC bytes from troupe SRAM at sB to the store at aA. -/
def execGst (u : Agent) (f : BitVec 52) (s : State) : Res := .next (issue u encGst f true (gmemIssue u f 1) s)

/-- R198: the encoding of GQ. -/
def encGq : Enc := { major := 0x11, minor := 2, d := .s }

/-- R198 GQ: sD := the CE's outstanding GMEM and ATOM operations. -/
def execGq (u : Agent) (f : BitVec 52) (s : State) : Res :=
  .next (issue u encGq f true (fun x s => .go (s.setCx u (x.setS (fD f) (s.gopsOf (agentKey u)).length))) s)

/-- Replace the outstanding operation with a serial number. -/
def State.setGop (s : State) (g : GOp) : State :=
  { s with trp := { s.trp with gops := s.trp.gops.map (fun h => if h.id = g.id then g else h) } }

/-- R265: the POOL context that served an operation is free again. -/
def State.freePool (s : State) (g : GOp) : State :=
  match g.ctx with
  | some k => if (s.cxAt (ctxKey k)).st = .run ∧ (s.ctx k).job.isNone then s.endWork k else s
  | none => s

/-- R198, R199: an operation ends: its status into sD[7:0], DL where a GLD met dead letters or a lost target. -/
def State.endGop (s : State) (g : GOp) (status : Nat) (upd : Cx → Cx) (regs : List PendReg) : State :=
  let s := (s.forget (2 ^ 20 + g.id)).freePool g
  let x := s.cxAt g.agent
  let dl := if g.kind = 0 ∧ (status = 0x20 ∨ status = 0x23) then flDL else 0
  let y := (upd ((x.setS g.sd status))).orFlags dl
  let s := s.setCxAt g.agent { y with pend := x.pend.filter (fun r => !regs.contains r) }
  { s with trp := { s.trp with gops := s.trp.gops.filter (fun h => h.id != g.id) } }

/-- R202, R265: the operation has its POOL context, which is in RUN for it: the one that serves it, or the first ready one of its troupe's courier
(log entry 115). -/
def State.poolFor (s : State) (g : GOp) : Option (State × GOp × Nat) :=
  match g.ctx with
  | some k => some (s, g, k)
  | none =>
    let c := s.courierNow g.troupe
    match ((List.range 16).map (fun i => 16 * c + i)).find? (fun k => (s.cxAt (ctxKey k)).st == .pool && !s.is1 (Reg.CRR_CTX_PLAN_EN k)) with
    | none => none
    | some k =>
      let g := { g with ctx := some k }
      some ((s.setCxAt (ctxKey k) { s.cxAt (ctxKey k) with st := .run, part := g.part }).setGop g, g, k)

/-- R199: whether a line request of an operation is under way. -/
def State.underway (s : State) (g : GOp) : Bool :=
  (s.xlt.acc.find? (2 ^ 20 + g.id)).isSome || (s.xlt.waits.find? (2 ^ 20 + g.id)).isSome

/-- The addresses of the codewords of n bytes at an aligned address. -/
def cwAddrs (a n : Nat) : List Nat := (List.range (n / 8)).map (fun i => a + 8 * i)

/-- R199: the lines of a GLD or GST in ascending order, in at most `fuel` lines: it ends, or waits with the lines served
so far. -/
def State.gmemGo (s : State) (c : Nat) : Nat → GOp → State
  | 0, g => s.setGop g
  | fuel + 1, g =>
    if s.curtain g.part ∧ !s.underway g then s.endGop g 0x24 id [⟨0, g.sd⟩]
    else if g.len ≤ 64 * g.done then s.endGop g (if g.dead then 0x20 else 0) id [⟨0, g.sd⟩]
    else
      let va := g.addr + 64 * g.done
      let a := g.sram + 64 * g.done
      let own := 2 ^ 20 + g.id
      let (s, r) := if g.kind = 0 then s.readVa g.troupe c true own g.part va
                    else
                      let s := s.sramCheck g.troupe (cwAddrs a 64)
                      let x := s.sramGet g.troupe a
                      s.writeVa g.troupe c true own g.part va x.1 x.2 (2 ^ 64 - 1)
      match r with
      | .wait => s.setGop g
      | .stat code =>
        let s := if code = 0x23 ∧ g.kind = 0 then
            (List.range (g.len / 64 - g.done)).foldl (fun s i => s.sramPut g.troupe (a + 64 * i) 0 255) s
          else s
        s.endGop g code id [⟨0, g.sd⟩]
      | .line x m =>
        let s := if g.kind = 0 then s.sramPut g.troupe a x m else s.countUE g.troupe (s.deadWords g.troupe (cwAddrs a 64))
        State.gmemGo s c fuel { g with done := g.done + 1, dead := g.dead || m != 0 }

/-- R199 to R202: the n-th outstanding operation of CE c of troupe t, a GLD or GST, is served as far as it can be: it writes
its status, or waits for a POOL context, a table walk or a fabric answer. -/
def State.gmemNext (s : State) (t c n : Nat) : State :=
  match (s.gopsOf (ceKey t c))[n]? with
  | none => s
  | some g =>
    if 2 ≤ g.kind then s
    else if s.curtain g.part ∧ !s.underway g then s.endGop g 0x24 id [⟨0, g.sd⟩]
    else match s.poolFor g with
      | none => s
      | some (s, g, k) => s.gmemGo (k / 16) (g.len / 64 + 1) g

/-! ### ATOM, major 0x12 -/

/-- The destination registers of an atomic. -/
def atomRegs (f : BitVec 52) (wide : Bool) : List PendReg :=
  [⟨0, fD f⟩, ⟨1, fD f⟩] ++ (if wide then [⟨1, fD f + 1⟩] else [])

/-- R203, R204: the issue of an atomic. -/
def atomIssue (u : Agent) (f : BitVec 52) (minor : Nat) (x : Cx) (s : State) : Body :=
  let w := if minor = 8 then 16 else if bitOf (fMOD f) 0 then 8 else 4
  let addr := x.ar (fA f)
  let two (n : Nat) : Nat := if minor = 8 then x.ar n + 2 ^ 64 * x.ar (n + 1) else x.ar n
  if agentProfile u = 0 ∧ 8 ≤ (s.gopsOf (agentKey u)).length then .wait s .hold
  else if addr % w ≠ 0 then .exc 4 addr
  else
    let t := match u with | .ce t _ => t.val | _ => 0
    .go (s.pushGop u x { agent := agentKey u, kind := minor + 2, addr := addr, len := w, sd := fD f, ad := fD f, wide := w,
                         ta := fTA f, rm := fRM f, opnd := two (fB f), cmp := two (fC f), srw := x.srw f 0,
                         part := if agentProfile u = 2 then 16 else x.part, troupe := t } (atomRegs f (minor == 8)))

/-- R203: the encoding of an atomic: its minor, the TA codes it takes, whether C is used. -/
def encAtom (minor : Nat) (ta : List Nat) (cmp : Bool) : Enc :=
  { major := 0x12, minor := minor, d := .num 15, a := .a, b := .a, c := if cmp then .a else .z, rm := minor == 0, ta := ta,
    modMask := if minor = 8 then 0 else 1 }

/-- R203: FP32 requires 32 bits; RM is used by FP32 AADD alone; ACAS128 takes even register numbers. -/
def atomOk (f : BitVec 52) (minor : Nat) : Bool :=
  !(fTA f == 2 && bitOf (fMOD f) 0) && (fRM f == 0 || (minor == 0 && fTA f == 2)) &&
    (minor != 8 || (fB f % 2 == 0 && fC f % 2 == 0 && fD f % 2 == 0))

/-- R203 AADD: memory becomes old + aB. -/
def execAtomAadd (u : Agent) (f : BitVec 52) (s : State) : Res :=
  .next (issue u (encAtom 0 [0, 1, 2] false) f (atomOk f 0) (atomIssue u f 0) s)

/-- R203 AMIN: memory becomes the smaller of old and aB. -/
def execAmin (u : Agent) (f : BitVec 52) (s : State) : Res :=
  .next (issue u (encAtom 1 [0, 1, 2] false) f (atomOk f 1) (atomIssue u f 1) s)

/-- R203 AMAX: memory becomes the larger of old and aB. -/
def execAmax (u : Agent) (f : BitVec 52) (s : State) : Res :=
  .next (issue u (encAtom 2 [0, 1, 2] false) f (atomOk f 2) (atomIssue u f 2) s)

/-- R203 AAND: memory becomes old and aB. -/
def execAtomAand (u : Agent) (f : BitVec 52) (s : State) : Res :=
  .next (issue u (encAtom 3 [] false) f (atomOk f 3) (atomIssue u f 3) s)

/-- R203 AOR: memory becomes old or aB. -/
def execAtomAor (u : Agent) (f : BitVec 52) (s : State) : Res :=
  .next (issue u (encAtom 4 [] false) f (atomOk f 4) (atomIssue u f 4) s)

/-- R203 AXOR: memory becomes old xor aB. -/
def execAtomAxor (u : Agent) (f : BitVec 52) (s : State) : Res :=
  .next (issue u (encAtom 5 [] false) f (atomOk f 5) (atomIssue u f 5) s)

/-- R203 ASWAP: memory becomes aB. -/
def execAswap (u : Agent) (f : BitVec 52) (s : State) : Res :=
  .next (issue u (encAtom 6 [] false) f (atomOk f 6) (atomIssue u f 6) s)

/-- R203 ACAS: memory becomes aB if old = aC. -/
def execAcas (u : Agent) (f : BitVec 52) (s : State) : Res :=
  .next (issue u (encAtom 7 [] true) f (atomOk f 7) (atomIssue u f 7) s)

/-- R203 ACAS128: 16 B, a(B):a(B + 1) if old = a(C):a(C + 1). -/
def execAcas128 (u : Agent) (f : BitVec 52) (s : State) : Res :=
  .next (issue u (encAtom 8 [] true) f (atomOk f 8) (atomIssue u f 8) s)

/-- R203, R204: an atomic ends: the old value into aD (zero unless the status is ST_OK) and the status into sD. -/
def State.endAtom (s : State) (g : GOp) (status old : Nat) : State :=
  let v := if status = 0 then old else 0
  s.endGop g status (fun x =>
      if g.wide = 16 then (x.setA g.ad v).setA (g.ad + 1) (v / 2 ^ 64) else x.setA g.ad v)
    ([⟨0, g.sd⟩, ⟨1, g.ad⟩] ++ (if g.wide = 16 then [⟨1, g.ad + 1⟩] else []))

/-- The request of an atomic at its line's home. -/
def GOp.req (g : GOp) (p : Nat) : CReq :=
  { kind := 7, r := 36, part := g.part, op := g.kind - 2, wide := g.wide, ta := g.ta, rm := g.rm, srw := g.srw, off := p % 64,
    opnd := g.opnd, cmp := g.cmp, tk := 2 ^ 20 + g.id }

/-- R204, R326, R343: an atomic that has passed its checks, at the PGA p: performed at this device's home of its line, which is also that of a loan window (its proxy home), or at
another device's. -/
def State.atomOn (s : State) (g : GOp) (p : Nat) (w : Reach) : State :=
  let home (line : Nat) : State :=
    match s.atomLine line (g.req p) with
    | (s, none) => s
    | (s, some a) => s.endAtom g a.status a.data.toNat
  match w with
  | .wait => s
  | .stat c => s.endAtom g c 0
  | .loc off => home (s.lineKey off)
  | .rem dest q via =>
    if pgaDev p = s.device ∧ pgaDev q = s.device then home (q / 64)
    else if !atomRemoteOk (g.kind - 2) g.ta then s.endAtom g 0x30 0
    else
      let (s, a) := s.fabric { dest := dest, kind := 4, part := g.part, pga := q, own := 2 ^ 20 + g.id, via := via,
                               op := [g.kind - 2, g.wide, g.ta, g.opnd, g.cmp] }
      match a with
      | none => s
      | some a => (s.lostTo g.part a.status).endAtom g a.status (a.data.toNat % 2 ^ (8 * g.wide))

/-- R295: the access of an atomic that begins hits or misses the cache of courier c's die. -/
def State.countAtom (s : State) (c : Nat) (began : Bool) (x : Access) : State :=
  if began then s.countHit (dieOfCourier c) (s.holds (dieOfCourier c) x.line) else s

/-- R203, R204: an atomic by VA, served by courier c: translated and checked once, then performed. -/
def State.atomVa (s : State) (g : GOp) (c : Nat) : State :=
  let own := 2 ^ 20 + g.id
  let began := (s.accOf own g.part g.addr 2).isNone
  match s.checkVa own g.troupe c g.part g.addr 2 with
  | (s, .error (.stat st)) => s.endAtom g st 0
  | (s, .error _) => s
  | (s, .ok x) => (s.countAtom c began x).atomOn g x.pga x.way

/-- R203, R209: an atomic of a control core, which names a PGA. -/
def State.atomPga (s : State) (g : GOp) : State :=
  let own := 2 ^ 20 + g.id
  match s.accOf own 16 g.addr (accByPga + 2) with
  | some x => s.atomOn g g.addr x.way
  | none =>
    match s.checkPga own 16 g.addr (accByPga + 2) g.addr true with
    | (s, .error c) => s.endAtom g c 0
    | (s, .ok x) => s.atomOn g g.addr x.way

/-- R203, R204: the n-th outstanding operation of an agent, an atomic, is performed at its line's home, or waits. A CE's is served by a POOL context of its
troupe's courier. -/
def execAtomComplete (u : Agent) (n : Fin 32) (s : State) : Res :=
  if s.halted then .next s else
  match (s.gopsOf (agentKey u))[n.val]? with
  | none => .next s
  | some g =>
    if g.kind < 2 then .next s
    else if 16 ≤ g.part then .next (s.atomPga g)
    else if s.curtain g.part ∧ !s.underway g then .next (s.endAtom g 0x24 0)
    else match s.poolFor g with
      | none => .next s
      | some (s, g, k) => .next (s.atomVa g (k / 16))

end Sys2Proof.Machine
end

