-- ==== Sys2Proof/Machine/Store.lean ====
section
/-!
DEFINITION. The store's tiers: hints and migration, the Stage-only range, rebuilds, the Loft, and the mirror's partner copy
(R236 to R262).
-/

namespace Sys2Proof.Machine

/-- R463: whether device d is a live member of the ensemble. -/
def State.liveMember (s : State) (d : Nat) : Bool := bitOf (s.rd Reg.RSL_PM_LIVE_LIVE) d

/-! ### Units and frames (R237 to R245) -/

/-- The own-store unit u. -/
def State.unitAt (s : State) (u : Nat) : SUnit := s.store.units.getD u {}

/-- Replace the own-store unit u. -/
def State.setUnit (s : State) (u : Nat) (x : SUnit) : State :=
  { s with store := { s.store with units := s.store.units.setD u {} x } }

/-- A free frame: the lowest numbered (log entry 17). -/
def State.freeFrame (s : State) : Option Nat :=
  let used := s.framesUsed
  match (List.range (used.length + 1)).find? (fun f => !used.contains f) with
  | some f => if f < s.rd Reg.STM_SIZE_FRAMES then some f else none
  | none => none

/-- The units that satisfy a test, in ascending order. -/
def State.unitsWhere (s : State) (p : SUnit → Bool) : List Nat := (s.store.units.filter (fun _ x => p x)).keys

/-- R241, R243: unit u leaves its frame: at once where it is clean, by a copy where it is dirty. -/
def State.demote (s : State) (u : Nat) : State :=
  let x := s.unitAt u
  if x.frame.isNone ∨ x.moving.isSome then s
  else if x.dirty then s.setUnit u { x with moving := some none }
  else ((s.setUnit u { x with frame := none }).frameGone u).wrapAdd Reg.STM_MIG_DEMOTED 1

/-- R241: unit u starts its way into a frame. -/
def State.promote (s : State) (u f : Nat) : State :=
  s.setUnit u { s.unitAt u with moving := some (some f), waits := false }

/-- R242: free frames go to waiting units: those a pin waits for first, then HOT units, each in ascending order. -/
def State.promoteWaiters (s : State) : Nat → State
  | 0 => s
  | fuel + 1 =>
    match s.freeFrame with
    | none => s
    | some f =>
      let w := s.unitsWhere (fun x => x.waits && x.hint == 4) ++ s.unitsWhere (fun x => x.waits && x.hint == 1)
      match w with
      | [] => s
      | u :: _ => State.promoteWaiters (s.promote u f) fuel

/-- R242: promote as many waiting units as there are frames for. -/
def State.refill (s : State) : State := s.promoteWaiters (s.unitsWhere (fun x => x.waits)).length

/-- R242: the victim of a pin: the lowest resident WARM unit, else the lowest resident HOT unit, in a frame that the Stage-only range has not
taken. -/
def State.pinVictim (s : State) : Option Nat :=
  let n := s.rd Reg.STM_SIZE_FRAMES
  let r := fun (h : Nat) => s.unitsWhere (fun x => x.moving.isNone && x.hint == h &&
    (match x.frame with | some f => decide (f < n) | none => false))
  (r 0 ++ r 1).head?

/-- R241, R242: a HOT or PIN_STAGE unit with no frame takes a free one; a HOT unit waits where there is none, and a pin demotes a victim first. The
units whose migrations that causes; none where a pin finds no victim. -/
def State.seek (s : State) (u hint : Nat) : Option (State × List Nat) :=
  match s.freeFrame with
  | some f => some (s.promote u f, [u])
  | none =>
    if hint = 1 then some ((s.setUnit u { s.unitAt u with waits := true }).satAdd Reg.STM_MIG_DEFERRED 1, [])
    else match s.pinVictim with
    | none => none
    | some v =>
      let s := s.setUnit u { s.unitAt u with waits := true }
      let y := s.unitAt v
      some (((s.setUnit v { y with waits := y.hint == 1 }).demote v).refill, [u, v])

/-- R239: a unit whose frame the Stage-only range has taken is promoted again under R241 and R242; a pin that finds no victim waits for a frame. -/
def State.seekAgain (s : State) (u : Nat) : State :=
  let x := s.unitAt u
  if x.hint = 1 ∨ x.hint = 4 then
    match s.seek u x.hint with
    | some (s, _) => s
    | none => s.setUnit u { x with waits := true }
  else s

/-- What applying a hint to a unit does: it goes on, it waits for a migration, or the pin fails. -/
inductive HintStep where
  | done (s : State) (caused : List Nat)
  | wait
  | full

/-- R241, R242: write a hint and flag to unit u, which no migration moves. -/
def State.applyHint (s : State) (u hint : Nat) (mirror : Bool) : HintStep :=
  let x := s.unitAt u
  let s1 := s.setUnit u { x with hint := hint, mirror := mirror, waits := false }
  if hint = 0 then .done s1 []
  else if hint = 2 ∨ hint = 3 then .done (s1.demote u).refill [u]
  else if x.frame.isSome then .done s1 []
  else match s1.seek u hint with
  | some (s, c) => .done s c
  | none => if s.rd Reg.STM_SIZE_FRAMES ≤ (s.unitsWhere (fun x => x.hint == 4)).length then .full else .wait

/-- Replace the hint command in progress. -/
def State.setJob (s : State) (j : HintJob) : State := { s with store := { s.store with hintJob := some j } }

/-- R260: the 1,024 lines of unit u leave as the mirror writes of its initial copy q. -/
def State.mirrorUnit (s : State) (q : FReq) (u : Nat) : State :=
  (List.range 1024).foldl (fun s i =>
    let x := s.lineNow (65536 * u + 64 * i)
    s.fabReq s.device q.part q.id 14 q.dest (q.pga + 64 * i) 0 x.2 q.op x.1 false) s

/-- R260, R261: the initial copy of a unit leaves for the partner, unless that is lost, with its marks, stamped with STEP. -/
def State.sendCopy (s : State) (u : Nat) : State :=
  if s.partnerLost then s else
  let q : FReq := { id := s.efh.nextId, dest := s.rd Reg.STM_MIRROR_PARTNER, kind := 14, pga := pgaOf s.device (65536 * u),
                    op := [s.rd Reg.STM_MIRROR_STEP], own := 2 ^ 41 + u }
  let s := { s with efh := { s.efh with out := s.efh.out ++ [q], nextId := (s.efh.nextId + 1) % 65536 } }
  s.mirrorUnit q u

/-- Whether the initial copy of unit u is unacknowledged. -/
def State.copying (s : State) (u : Nat) : Bool := s.efh.out.any (fun q => q.own == 2 ^ 41 + u)

/-- R244, R245: the hint command in progress writes units in ascending order, as far as it can; in at most `fuel` units. A unit's initial copy
leaves only where its pin would succeed, and a unit that fails keeps its hint and flag. -/
def State.hintGo (s : State) : Nat → State
  | 0 => s
  | fuel + 1 =>
    match s.store.hintJob with
    | none => s
    | some j =>
      if j.result.isSome then s
      else if j.stop ≤ j.next then s.setJob { j with result := some 1 }
      else
        let x := s.unitAt j.next
        if x.moving.isSome ∨ s.copying j.next then s
        else match s.applyHint j.next j.hint j.mirror with
          | .wait => s
          | .full =>
            (if j.set then s.setUnit j.next { x with mirror := false } else s).setJob { j with result := some 3, set := false }
          | .done s1 c =>
            if j.mirror ∧ !x.mirror ∧ s.is1 Reg.STM_MIRROR_EN ∧ !s.partnerLost then
              ((s.setUnit j.next { x with mirror := true }).setJob { j with set := true }).sendCopy j.next
            else State.hintGo (s1.setJob { j with next := j.next + 1, caused := j.caused ++ c, set := false }) fuel

/-- R245: the command completes when every migration it caused has completed. -/
def State.hintSettle (s : State) : State :=
  match s.store.hintJob with
  | none => s
  | some j =>
    let s := s.hintGo (j.stop - j.next + 1)
    match s.store.hintJob with
    | none => s
    | some j =>
      match j.result with
      | none => s
      | some r =>
        if j.caused.any (fun u => (s.unitAt u).moving.isSome || ((s.unitAt u).waits && (s.unitAt u).hint == 4)) then s
        else (({ s with store := { s.store with hintJob := none } }).wr Reg.STM_HINT_CMD_RESULT r).wr Reg.STM_HINT_CMD_BUSY 0

/-- R245: GO of STM_HINT_CMD by a holder; only port H (16) and the Stage Manager firmware (17) set hints. -/
def State.goHint (s : State) (h : Nat) : State :=
  if (h ≠ 16 ∧ h ≠ 17) ∨ s.is1 Reg.STM_HINT_CMD_BUSY then s
  else
    let first := s.rd Reg.STM_HINT_UNIT_FIRST
    let count := s.rd Reg.STM_HINT_CMD_COUNT
    let hint := s.rd Reg.STM_HINT_CMD_HINT
    if 5 ≤ hint then s.wr Reg.STM_HINT_CMD_RESULT 4
    else if count = 0 then s.wr Reg.STM_HINT_CMD_RESULT 1
    else if s.rd Reg.STM_SIZE_UNITS < first + count then s.wr Reg.STM_HINT_CMD_RESULT 2
    else
      let s := (s.wr Reg.STM_HINT_CMD_BUSY 1).wr Reg.STM_HINT_CMD_RESULT 0
      (s.setJob { next := first, stop := first + count, hint := hint, mirror := s.is1 Reg.STM_HINT_CMD_MIRROR }).hintSettle

/-- R245: a hint command of a holder for COUNT units from FIRST. -/
def execStmHintGo (h : Fin 18) (first count : BitVec 29) (hint : Fin 8) (mirror : Bool) (s : State) : Res :=
  if s.halted then .next s else
  if h.val ≠ 16 ∧ h.val ≠ 17 then .next s
  else
    let s := (s.wr Reg.STM_HINT_UNIT_FIRST first.toNat).wr Reg.STM_HINT_CMD_COUNT count.toNat
    let s := (s.wr Reg.STM_HINT_CMD_HINT hint.val).wr Reg.STM_HINT_CMD_MIRROR (b2n mirror)
    .next (s.goHint h.val)

/-- R239: ZEROING reads 0 once no block awaits zeroing and no unit sits in a frame the range has taken. -/
def State.vacating (s : State) : Bool :=
  s.framesUsed.any (fun f => decide (s.rd Reg.STM_SIZE_FRAMES ≤ f))

/-- R243: the copy of unit u is complete: its location changes, and what waits for a frame goes on. A demotion has written the unit's Wings slot,
stripes not yet rebuilt first (R250). With RATE = 0 nothing is copied (R244). -/
def execMigrationComplete (u : BitVec 29) (s : State) : Res :=
  if s.halted then .next s else
  let x := s.unitAt u.toNat
  if s.rd Reg.STM_MIG_RATE = 0 then .next s
  else match x.moving with
  | none => .next s
  | some (some f) =>
    .next ((s.setUnit u.toNat { x with frame := some f, dirty := false, moving := none }).wrapAdd Reg.STM_MIG_PROMOTED 1).hintSettle
  | some none =>
    let old := x.frame.getD 0
    let s := s.setUnit u.toNat { x with frame := none, dirty := false, moving := none, waits := x.hint == 1 || x.hint == 4 }
    let s := (List.range 16).foldl (fun s c => s.rebuildStripe (65536 * u.toNat + 4096 * c)) (s.slotWritten u.toNat)
    let s := s.wrapAdd Reg.STM_MIG_DEMOTED 1
    let s := if s.rd Reg.STM_SIZE_FRAMES ≤ old then (s.setUnit u.toNat { s.unitAt u.toNat with waits := false }).seekAgain u.toNat else s
    let s := s.refill.hintSettle
    .next (if s.coh.wait.isEmpty then s else s.retryWaiting)

/-- R239: the background zeroing of the Stage-only range is done, once no frame it has taken holds a unit. -/
def execStageOnlyZeroed (s : State) : Res :=
  if s.halted then .next s else
  if s.vacating then .next s else .next (s.wr Reg.STM_STAGE_ONLY_ZEROING 0)

/-- R238: the number of frames that a Stage-only size leaves. -/
def framesFor (gib : Nat) : Nat := (764 - gib) * 16384

/-- A number put into a list that ascends by a key, after those of an equal key. -/
def putByKey (key : Nat → Nat) (l : List Nat) (u : Nat) : List Nat :=
  l.takeWhile (fun v => decide (key v ≤ key u)) ++ u :: l.dropWhile (fun v => decide (key v ≤ key u))

/-- R239: a changed GIB takes effect: the range's contents are discarded, the frames it covers are vacated in ascending order (a unit on
its way into one looks for another), freed ones used. -/
def State.takeGib (s : State) (old : Nat) : State :=
  let gib := s.rd Reg.STM_STAGE_ONLY_GIB
  if gib = old then s
  else
    let top := max old gib * 2 ^ 30
    let s := s.storeZero 0x8000000000000 top
    let first := s.lineKey 0x8000000000000
    let inR (k : Nat) : Bool := decide (first ≤ k) && decide (k < first + top / 64)
    let s := { s with coh := { s.coh with
      ag := s.coh.ag.mapVals (fun q (c : ACopy) => if inR (q / 64) then { c with data := 0, marks := 0 } else c)
      dir := s.coh.dir.mapVals (fun q (d : DirEnt) => if inR q then { d with buf := 0, bufMarks := 0 } else d) } }
    let s := s.wr Reg.STM_SIZE_FRAMES (framesFor gib)
    let s := s.wr Reg.STM_STAGE_ONLY_ZEROING (b2n (gib != 0))
    let s := (s.unitsWhere (fun x => match x.moving with | some (some f) => decide (framesFor gib ≤ f) | _ => false)).foldl (fun s u =>
      (s.setUnit u { s.unitAt u with moving := none }).seekAgain u) s
    let at_ (u : Nat) : Nat := (s.unitAt u).frame.getD 0
    let out := (s.unitsWhere (fun x => match x.frame with | some f => decide (framesFor gib ≤ f) | none => false)).foldl (putByKey at_) []
    let s := out.foldl (fun s u =>
      let s := s.demote u
      if (s.unitAt u).frame.isNone then s.seekAgain u else s) s
    s.refill

/-! ### Failure and rebuild commands (R249 to R253) -/

/-- R249: a channel, or one DIMM of a two-RDIMM channel (half 1 or 2), is marked FAILED when the rebuild that runs has done
its first `done` stripes. -/
def execChannelFailed (ch : Fin 32) (half : Fin 3) (done : Lane) (s : State) : Res :=
  if s.halted then .next s else
  let rows := if s.rd Reg.STM_WINGS_POP = 2 ∧ half.val ≠ 0 then half.val else 3
  if s.store.fails.getD ch.val 0 ||| rows = s.store.fails.getD ch.val 0 ∧ s.chState ch.val ≠ 4 then .next s
  else .next (s.channelFailed ch.val rows done.toNat)

/-- R250: the last failed stripe of a channel is rebuilt; SHARE = 0 stops a rebuild. -/
def execRebuildComplete (ch : Fin 32) (s : State) : Res :=
  if s.halted then .next s else
  if s.chState ch.val = 2 ∧ s.rd Reg.STM_WINGS_SHARE ≠ 0 then
    let s := s.wr (chField ch.val) 3
    let s := s.setRebuild ch.val { did := [(s.firstFailed ch.val, s.endFailed ch.val)] }
    let s := if s.rd Reg.STM_REBUILD_CHANNEL = ch.val then
        (s.wr Reg.STM_REBUILD_ACTIVE 0).wr Reg.STM_REBUILD_REMAIN 0 else s
    .next (s.raise 57)
  else .next s

/-- R253: a replacement module, of the reference population, has trained: the copyback of a channel starts. -/
def State.startCopyback (s : State) (ch : Nat) : State :=
  let s := { s with store := { s.store with modules := s.store.modules.erase ch } }
  let s := (s.wr (chField ch) 4).setRebuild ch { s.rebuildOf ch with back := s.firstFailed ch }
  ((s.wr Reg.STM_REBUILD_ACTIVE 1).wr Reg.STM_REBUILD_CHANNEL ch).showRebuild ch

/-- R253: every unit held in a spare is copied back. -/
def execCopybackComplete (ch : Fin 32) (s : State) : Res :=
  if s.halted then .next s else
  if s.chState ch.val = 4 ∧ s.rd Reg.STM_WINGS_SHARE ≠ 0 then
    let s := s.wr (chField ch.val) 0
    let s := { s with store := { s.store with fails := s.store.fails.erase ch.val, rebuilds := s.store.rebuilds.erase ch.val } }
    .next (if s.rd Reg.STM_REBUILD_CHANNEL = ch.val then
        (s.wr Reg.STM_REBUILD_ACTIVE 0).wr Reg.STM_REBUILD_REMAIN 0 else s)
  else .next s

/-! ### The Loft (R254 to R257) -/

/-- R254: the conditions on a lender entry that LEND asks for. -/
def State.lendOk (s : State) (i : Nat) : Bool :=
  let l := s.rd (Reg.STM_LEND_LOG2 i)
  let b := s.rd (Reg.STM_LEND_BASE i) * 65536
  s.rd (Reg.STM_LEND_STATE i) == 0 && !s.store.lendWait.contains i && !s.store.lendNext.contains i &&
    decide (30 ≤ l) && decide (l ≤ 40) && b % 2 ^ l == 0 && decide (b + 2 ^ l ≤ 65536 * s.rd Reg.STM_SIZE_UNITS)

/-- R254, R256, R257: a command of STM_LOFT_CMD by a holder: OP 1 LEND, 2 NOTICE, 3 RELEASE. -/
def State.loftCmd (s : State) (h op i endCue : Nat) : State :=
  if h ≠ 16 then s
  else if op = 1 then
    if !s.lendOk i then s.wr Reg.STM_LOFT_CMD_RESULT 4
    else
      let b := s.rd (Reg.STM_LEND_BORROWER i)
      if !s.liveMember b then s.wr Reg.STM_LOFT_CMD_RESULT 2
      else
        let s := ({ s with store := { s.store with lendWait := s.store.lendWait ++ [i] } }).wr Reg.STM_LOFT_CMD_RESULT 0
        s.fabMsg 0x0F b 0 [(1, 1), (i, 1), (s.rd (Reg.STM_LEND_LOG2 i), 1)]
  else if op = 2 then
    let st := s.rd (Reg.STM_LEND_STATE i)
    if st ≠ 1 ∧ st ≠ 2 then s.wr Reg.STM_LOFT_CMD_RESULT 4
    else if endCue < s.cueNow + 50 then s.wr Reg.STM_LOFT_CMD_RESULT 3
    else
      let s := (s.wr (Reg.STM_LEND_STATE i) 2).wr (Reg.STM_LEND1_END_CUE i) endCue
      let s := s.wr Reg.STM_LOFT_CMD_RESULT 1
      s.fabMsg 0x0F (s.rd (Reg.STM_LEND_BORROWER i)) 0 [(3, 1), (s.rd (Reg.STM_LEND_WINDOW i), 1), (endCue, 6)]
  else if op = 3 then
    let st := s.rd (Reg.STM_BORROW_STATE i)
    if (st ≠ 1 ∧ st ≠ 2) ∨ (s.store.borrowEnd.find? i).isSome then s.wr Reg.STM_LOFT_CMD_RESULT 4
    else
      let s := ({ s with store := { s.store with borrowEnd := s.store.borrowEnd.insert i s.cueNow } }).wr Reg.STM_LOFT_CMD_RESULT 1
      s.fabMsg 0x0F (s.rd (Reg.STM_BORROW_LENDER i)) 0 [(4, 1), (s.store.borrowEntry.getD i 0, 1)]
  else s

/-- R254: LEND on lender entry i. -/
def execLend (h : Fin 18) (i : Fin 16) (s : State) : Res := if s.halted then .next s else .next (s.loftCmd h.val 1 i.val 0)

/-- R256: NOTICE on lender entry i. -/
def execNotice (h : Fin 18) (i : Fin 16) (endCue : BitVec 48) (s : State) : Res := if s.halted then .next s else .next (s.loftCmd h.val 2 i.val endCue.toNat)

/-- R257: RELEASE on borrower entry w. -/
def execRelease (h : Fin 18) (w : Fin 16) (s : State) : Res := if s.halted then .next s else .next (s.loftCmd h.val 3 w.val 0)

/-- R254, R256, R257: a LOAN message from a device: an offer of lender entry i with its size exponent, the answer to one with the
window it got, a notice for window w, or the release of lender entry i. -/
def execLoanMsg (src : Fin 64) (m : LoanMsg) (s : State) : Res :=
  if s.deaf 16 then .next s else
  match m with
  | .offer i log2 =>
    match (List.range 16).find? (fun w => s.rd (Reg.STM_BORROW_STATE w) == 0 && !s.store.borrowNext.contains w) with
    | none => .next (s.fabMsg 0x0F src.val 0 [(2, 1), (i.val, 1), (16, 1)])
    | some w =>
      let s := (s.wr (Reg.STM_BORROW_LENDER w) src.val).wr (Reg.STM_BORROW_LOG2 w) log2.toNat
      let s := { s with store := { s.store with
        borrowNext := s.store.borrowNext ++ [w], borrowEntry := s.store.borrowEntry.insert w i.val } }
      .next (s.fabMsg 0x0F src.val 0 [(2, 1), (i.val, 1), (w, 1)])
  | .reply i w =>
    if !s.store.lendWait.contains i.val ∨ s.rd (Reg.STM_LEND_BORROWER i.val) ≠ src.val then .next s
    else
      let s := { s with store := { s.store with lendWait := s.store.lendWait.erase i.val } }
      match w with
      | none => .next (s.wr Reg.STM_LOFT_CMD_RESULT 2)
      | some w =>
        let s := { s with store := { s.store with lendNext := s.store.lendNext ++ [i.val] } }
        .next ((s.wr (Reg.STM_LEND_WINDOW i.val) w.val).wr Reg.STM_LOFT_CMD_RESULT 1)
  | .notice w endCue =>
    let st := s.rd (Reg.STM_BORROW_STATE w.val)
    if (st = 1 ∨ st = 2) ∧ s.rd (Reg.STM_BORROW_LENDER w.val) = src.val then
      .next (((s.wr (Reg.STM_BORROW_STATE w.val) 2).wr (Reg.STM_BORROW1_END_CUE w.val) endCue.toNat).raise 59)
    else .next s
  | .release i =>
    let st := s.rd (Reg.STM_LEND_STATE i.val)
    if (st = 1 ∨ st = 2) ∧ s.rd (Reg.STM_LEND_BORROWER i.val) = src.val ∧ (s.store.lendEnd.find? i.val).isNone then
      .next { s with store := { s.store with lendEnd := s.store.lendEnd.insert i.val s.cueNow } }
    else .next s

/-- R254: loans agreed take effect at a TAKE. -/
def State.takeLoans (s : State) : State :=
  let s := s.store.lendNext.foldl (fun s i => s.wr (Reg.STM_LEND_STATE i) 1) s
  let s := s.store.borrowNext.foldl (fun s w => s.wr (Reg.STM_BORROW_STATE w) 1) s
  { s with store := { s.store with lendNext := [], borrowNext := [] } }

/-- R257: the lender's side of a loan ends: the range reads as zero, and zeroing runs. -/
def State.endLend (s : State) (i : Nat) : State :=
  let base := 65536 * s.rd (Reg.STM_LEND_BASE i)
  let n := 2 ^ s.rd (Reg.STM_LEND_LOG2 i)
  let s := s.storeZero base n
  let first := s.lineKey base
  let inR (k : Nat) : Bool := decide (first ≤ k) && decide (k < first + n / 64)
  let s := { s with
    coh := { s.coh with
      ag := s.coh.ag.mapVals (fun q (c : ACopy) => if inR (q / 64) then { c with data := 0, marks := 0 } else c)
      dir := s.coh.dir.mapVals (fun q (d : DirEnt) => if inR q then { d with buf := 0, bufMarks := 0 } else d) }
    store := { s.store with lendEnd := s.store.lendEnd.erase i } }
  s.wr (Reg.STM_LEND_STATE i) 3

/-- R256, R257: the borrower's side of a loan ends. -/
def State.endBorrow (s : State) (w : Nat) : State :=
  let s := { s with store := { s.store with borrowEnd := s.store.borrowEnd.erase w, borrowEntry := s.store.borrowEntry.erase w } }
  let s := (s.wr (Reg.STM_BORROW_STATE w) 0).wr (Reg.STM_BORROW1_END_CUE w) 0
  ((s.wr (Reg.STM_BORROW_LOG2 w) 0).wr (Reg.STM_BORROW_LENDER w) 0).raise 60

/-- R256, R257: whether a loan ends at this TAKE: its END_CUE is reached, or it was released in an earlier cue. -/
def State.loanOver (s : State) (state endCue : Fld) (released : Option Nat) : Bool :=
  (s.rd state == 2 && decide (s.rd endCue ≤ s.cueNow)) || (match released with | some c => decide (c < s.cueNow) | none => false)

/-- R256, R257: at a TAKE, the loan of a borrower entry (or of a lender entry) whose END_CUE is reached, or which was released in an
earlier cue, ends. -/
def execLoanEnd (lender : Bool) (i : Fin 16) (s : State) : Res :=
  if s.halted then .next s else
  if s.phase ≠ 0 then .next s
  else if lender then
    .next (if s.loanOver (Reg.STM_LEND_STATE i.val) (Reg.STM_LEND1_END_CUE i.val) (s.store.lendEnd.find? i.val) then s.endLend i.val else s)
  else
    .next (if s.loanOver (Reg.STM_BORROW_STATE i.val) (Reg.STM_BORROW1_END_CUE i.val) (s.store.borrowEnd.find? i.val) then s.endBorrow i.val else s)

/-- R257: the lender has zeroed the range of an ended loan, which it does at its migration rate: with RATE = 0 it does not. -/
def execLoanZeroingDone (i : Fin 16) (s : State) : Res :=
  if s.halted then .next s else
  if s.rd (Reg.STM_LEND_STATE i.val) = 3 ∧ s.rd Reg.STM_MIG_RATE ≠ 0 then
    .next (((s.wr (Reg.STM_LEND_STATE i.val) 0).wr (Reg.STM_LEND_WINDOW i.val) 0).wr (Reg.STM_LEND1_END_CUE i.val) 0)
  else .next s

/-! ### The partner copy (R259 to R261) -/

/-- The mirror slot n (0 or 1) kept for unit u of the mirrored device. -/
def State.slotOf (s : State) (u n : Nat) : MirrorSlot := s.store.mirrors.getD (2 * u + n) {}

/-- The mirrored device's units that have slots here. -/
def State.mirroredUnits (s : State) : List Nat := (s.store.mirrors.keys.map (· / 2)).dedup

/-- R259: the slot that a write of step k goes into: one stamped k, or the one that does not hold the greater stamp, which
then starts as a copy of the other. -/
def State.slotFor (s : State) (u k : Nat) : Nat × MirrorSlot :=
  let a := s.slotOf u 0
  let b := s.slotOf u 1
  if a.valid ∧ a.stamp = k then (0, a)
  else if b.valid ∧ b.stamp = k then (1, b)
  else if a.valid ∧ (!b.valid ∨ b.stamp < a.stamp) then (1, { a with stamp := k })
  else (0, { b with stamp := k, valid := true })

/-- R259: bytes with their marks written into the slot of unit u for step k. -/
def State.mirrorPut (s : State) (u k at_ : Nat) (bs : List Byte) (marks : SMap Bool) : State :=
  let (n, m) := s.slotFor u k
  let dead := (wholeCws at_ bs.length).foldl (fun d c => d.setD c false (marks.getD c false)) m.dead
  let m := { m with stamp := k, valid := true, bytes := Memory.store m.bytes at_ bs, dead := dead }
  { s with store := { s.store with mirrors := s.store.mirrors.insert (2 * u + n) m } }

/-- The codewords that the low n bits of a mask mark, the first of them codeword c. -/
def marksFrom (c n m : Nat) : SMap Bool :=
  (List.range n).foldl (fun (d : SMap Bool) j => if bitOf m j then d.insert (c + j) true else d) []

/-- R259, R261: a mirror write of one line of unit u from a device, or the initial copy of the unit, which is refused where the
reserve cannot hold two more units. A resent one is answered from its record. -/
def execMirrorWr (src : Fin 64) (id : BitVec 16) (unit : BitVec 29) (step : Lane) (m : MirrorMsg) (s : State) : Res :=
  if s.deaf 16 then .next s else
  let u := unit.toNat
  match s.answered src.val id.toNat with
  | some a => .next (s.respond src.val id.toNat a false)
  | none =>
    match m with
    | .line i x marks =>
      if s.mirroredUnits.contains u then
        .next ((s.mirrorPut u step.toNat (64 * i.val) (bytesOf x) (marksFrom (8 * i.val) 8 marks.toNat)).respond src.val id.toNat {} true)
      else .next (s.send { name := "MIRROR_REFUSED", dest := src.val, args := [id.toNat] })
    | .whole bs marks =>
      if !s.mirroredUnits.contains u ∧ s.rd Reg.STM_MIRROR_RESERVE_UNITS < 2 * (s.mirroredUnits.length + 1) then
        .next (s.send { name := "MIRROR_REFUSED", dest := src.val, args := [id.toNat] })
      else .next ((s.mirrorPut u step.toNat 0 (bs.take 65536) (marksFrom 0 8192 marks.toNat)).respond src.val id.toNat {} true)

/-- R245, R261: the partner has answered the initial copy of unit u: a refusal leaves MIRROR clear and ends the command FULL. -/
def State.copyAnswered (s : State) (u : Nat) (ok : Bool) : State :=
  if ok then s.hintSettle
  else
    let s := s.setUnit u { s.unitAt u with mirror := false }
    match s.store.hintJob with
    | some j => if j.next = u ∧ j.result.isNone then
          (s.setJob { j with result := some 3, set := false }).hintSettle
        else s
    | none => s

/-- R260, R261: a PARTNER or EN taken starts the initial copy of every MIRROR unit. -/
def State.takeMirror (s : State) (oldEn oldPartner : Nat) : State :=
  if s.is1 Reg.STM_MIRROR_EN ∧ (oldEn = 0 ∨ oldPartner ≠ s.rd Reg.STM_MIRROR_PARTNER) then
    (s.unitsWhere (fun x => x.mirror)).foldl State.sendCopy s
  else s

end Sys2Proof.Machine
end

