-- ==== Sys2Proof/Machine/Coherence.lean ====
section
/-!
DEFINITION. The coherence commands: requests, responses and data at the home, what agents receive and do, edge agents, and HDM decoders
(R318, R320, R325 to R364).
-/

namespace Sys2Proof.Machine

/-! ### Requests of agents and of requesters that do not cache -/

/-- R332, R334, R357: a REQ of on-device agent a arrives at the home. -/
def State.reqArrive (s : State) (code a line part : Nat) : State :=
  match s.takeMsg { code := code, src := a, dst := homeNode line, line := line, part := part } with
  | none => s
  | some (s, m) => s.request line { kind := code, r := a, part := m.part }

/-- R357 RD_S of on-device agent a. -/
def execRdS (a : Fin 25) (line : BitVec 54) (part : Fin 17) (s : State) : Res := if s.halted then .next s else .next (s.reqArrive 1 a.val line.toNat part.val)

/-- R357 RD_X of on-device agent a. -/
def execRdX (a : Fin 25) (line : BitVec 54) (part : Fin 17) (s : State) : Res := if s.halted then .next s else .next (s.reqArrive 2 a.val line.toNat part.val)

/-- R357 UPG of on-device agent a. -/
def execUpg (a : Fin 25) (line : BitVec 54) (part : Fin 17) (s : State) : Res := if s.halted then .next s else .next (s.reqArrive 3 a.val line.toNat part.val)

/-- R357 RD_ONCE of a requester that does not cache: 0 the home, 1 port H, 2 the table walker, 3 a courier read that does not
allocate, 4 another device. -/
def execRdOnce (r : Fin 5) (line : BitVec 54) (part : Fin 17) (s : State) : Res :=
  if s.halted then .next s else
  .next (s.request line.toNat { kind := 4, r := 33 + r.val, part := part.val })

/-- R357 WR_LINE of a requester that does not cache, with the marks its data carries. -/
def execWrLine (r : Fin 5) (line : BitVec 54) (part : Fin 17) (x : BitVec 512) (marks : Byte) (s : State) : Res :=
  if s.halted then .next s else
  .next (s.request line.toNat { kind := 5, r := 33 + r.val, part := part.val, data := x, marks := marks.toNat })

/-- R357 WR_PART of a requester that does not cache. -/
def execWrPart (r : Fin 5) (line : BitVec 54) (part : Fin 17) (mask : Word) (x : BitVec 512) (s : State) : Res :=
  if s.halted then .next s else
  .next (s.request line.toNat { kind := 6, r := 33 + r.val, part := part.val, data := x, mask := mask.toNat })

/-- R343, R344, R357 ATOMIC of a requester: a tracked on-device agent (0 to 24) or one that does not cache (33 to 37); minor as R203 has it,
`wide8` whether a 64-bit operation, at the byte `off` of the line. -/
def execCohAtomic (r : Fin 38) (line : BitVec 54) (part : Fin 17) (off : Fin 64) (minor : Fin 9) (wide8 : Bool) (ta rm : Fin 4)
    (srw : Lane) (opnd cmp : BitVec 128) (s : State) : Res :=
  if s.halted then .next s else
  let w := if minor.val = 8 then 16 else if wide8 then 8 else 4
  if off.val % w ≠ 0 ∨ (25 ≤ r.val ∧ r.val < 33) then .next s
  else if r.val = 37 ∧ !atomRemoteOk minor.val ta.val then .next s
  else .next (s.request line.toNat { kind := 7, r := r.val, part := part.val, op := minor.val, wide := w, ta := ta.val,
                                     rm := rm.val, srw := srw.toNat, off := off.val, opnd := opnd.toNat, cmp := cmp.toNat })

/-- R320, R355, R357: a tier read of the home returns; a window access that another device has failed is counted. -/
def execTierDataReturn (line : BitVec 54) (s : State) : Res :=
  if s.halted then .next s else
  let l := line.toNat
  if !(s.dirAt l).tier then .next s else .next ((s.tierReturn l).homeDone l)

/-! ### Responses at the home (R359, R360) -/

/-- R332, R340, R347, R354: an RSP or DAT of agent a arrives at the home of its line, lost agents having left the entry: an entry that cannot be read, or what the agent reports as
impossible, is a protocol error; else `act` handles it. What waits for the line goes on. -/
def State.rspArrive (s : State) (m : CMsg) (act : State → State) : State :=
  match s.takeMsg m with
  | none => s
  | some (s, m) =>
    let s := s.sweepLine m.line
    let s := if s.coh.bad.contains m.line then s.entryError m.line m.src
      else match m.note with
        | some (c, st) => s.protoError m.line c st m.src 1
        | none => act s
    s.homeDone m.line

/-- An RSP or DAT of agent a to the home of a line. -/
def fromAgent (code a line : Nat) : CMsg := { code := code, src := a, dst := homeNode line, line := line }

/-- The error that an agent reports with an RSP (R350, R354). -/
def CMsg.err (m : CMsg) (e : Option (Byte × Byte)) : CMsg := { m with note := e.map (fun x => (x.1.toNat, x.2.toNat)) }

/-- R359 T_INV: one ack fewer is awaited; the state completes with the last and the tier data. -/
def State.ackInv (s : State) (line a : Nat) : State :=
  let d := s.dirAt line
  let d := { d with acks := d.acks - 2 ^ a }
  match d.req with
  | none => s
  | some q =>
    let upg := q.kind == 3 && bitOf d.sharers q.r
    let d' : DirEnt := if upg then d else { d with sharers := 0, fh := none, owner := none }
    if d.acks = 0 ∧ !d.tier then s.finish line { d' with rcd := none } q (d.rcd.getD (0, 0)) else s.setDir line d

/-- R360: the snooped holder is gone and its eviction has arrived: the request is served afresh, recorded data in place of the
tier read. -/
def State.holderGone (s : State) (line a : Nat) : State :=
  let d := s.dirAt line
  let e := (d.without a).settle
  let q := match d.req with | some q => [q] | none => []
  s.setDir line { e with queue := q ++ d.queue, rcd := d.rcd }

/-- R355: the holder a snoop state awaits. -/
def DirEnt.snooped (d : DirEnt) : Option Nat :=
  if d.st = 10 then d.fh
  else if 11 ≤ d.st ∧ d.st ≤ 14 then d.owner
  else if d.st = 15 then (match d.owner with | some o => some o | none => d.fh)
  else none

/-- R359: the owner's part of T_OS or T_OH is complete once its ACK and its DATA_HOME have arrived: dirty data goes to the
tier, and the request completes. -/
def State.ownerDone (s : State) (line : Nat) : State :=
  let d := s.dirAt line
  match d.req, d.rcd, d.owner with
  | some q, some x, some o =>
    if !d.acked then s
    else
      let s := s.tierWrite line q.part x
      let e : DirEnt := { d with rcd := none, owner := none }
      if d.st = 11 then
        if q.kind = 1 then s.setDir line ({ e with sharers := 2 ^ o ||| 2 ^ q.r, fh := none } : DirEnt).settle
        else s.finish line { e with sharers := 2 ^ o, fh := none } q x
      else s.finish line { e with sharers := 0, fh := none } q x
  | _, _, _ => s

/-- R359: a request in T_O1 completes once the owner has kept its state and its copy has come. -/
def State.onceDone (s : State) (line : Nat) : State :=
  let d := s.dirAt line
  match d.req, d.rcd with
  | some q, some x => if d.acked then s.finish line { d with rcd := none } q x else s
  | _, _ => s

/-- R350, R354, R359: ACK_I of agent a; `err` the message and state that an agent reports as impossible. -/
def execAckI (a : Fin 25) (line : BitVec 54) (err : Option (Byte × Byte)) (s : State) : Res :=
  if s.halted then .next s else
  let l := line.toNat
  .next (s.rspArrive ((fromAgent 0x20 a.val l).err err) (fun s =>
    let d := s.dirAt l
    if d.st = 9 ∧ bitOf d.acks a.val then s.ackInv l a.val
    else if 10 ≤ d.st ∧ d.st ≤ 14 ∧ d.snooped = some a.val then
      if d.gone then s.holderGone l a.val
      else s.setDir l { d with st := 15, owner := if d.st = 10 then none else d.owner }
    else s.protoError l 0x20 d.st a.val 0))

/-- R350, R359: ACK_I_D of agent a. -/
def execAckID (a : Fin 25) (m : Ack) (s : State) : Res :=
  if s.halted then .next s else
  let l := m.line.toNat
  .next (s.rspArrive ((fromAgent 0x21 a.val l).err m.err) (fun s =>
    let d := s.dirAt l
    if d.st = 12 ∧ d.owner = some a.val then
      match d.req with
      | some q => s.setDir l ({ d with owner := some q.r } : DirEnt).settle
      | none => s
    else if d.st = 13 ∧ d.owner = some a.val then (s.setDir l { d with acked := true }).ownerDone l
    else s.protoError l 0x21 d.st a.val 0))

/-- R350, R359: ACK_S_D of agent a. -/
def execAckSD (a : Fin 25) (m : Ack) (s : State) : Res :=
  if s.halted then .next s else
  let l := m.line.toNat
  .next (s.rspArrive ((fromAgent 0x22 a.val l).err m.err) (fun s =>
    let d := s.dirAt l
    if d.st = 10 ∧ d.fh = some a.val then
      match d.req with
      | some q => s.setDir l ({ d with sharers := d.sharers ||| 2 ^ q.r, fh := some q.r } : DirEnt).settle
      | none => s
    else if d.st = 11 ∧ d.owner = some a.val then (s.setDir l { d with acked := true }).ownerDone l
    else s.protoError l 0x22 d.st a.val 0))

/-- R350, R359: ACK_KEEP of agent a. -/
def execAckKeep (a : Fin 25) (m : Ack) (s : State) : Res :=
  if s.halted then .next s else
  let l := m.line.toNat
  .next (s.rspArrive ((fromAgent 0x23 a.val l).err m.err) (fun s =>
    let d := s.dirAt l
    if d.st = 14 ∧ d.owner = some a.val then (s.setDir l { d with acked := true }).onceDone l
    else s.protoError l 0x23 d.st a.val 0))

/-- R350, R359: EVICT of agent a. -/
def execEvict (a : Fin 25) (m : Ack) (s : State) : Res :=
  if s.halted then .next s else
  let l := m.line.toNat
  .next (s.rspArrive ((fromAgent 0x24 a.val l).err m.err) (fun s =>
    let d := s.dirAt l
    let s := s.homeMsg 0x25 a.val l
    if 1 ≤ d.st ∧ d.st ≤ 3 ∧ d.lists a.val then s.setDir l (d.without a.val).settle
    else if d.st = 9 then s.setDir l (d.without a.val)
    else if d.snooped = some a.val then
      let s := s.setDir l { d with gone := true }
      if d.st = 15 then s.holderGone l a.val else s
    else s))

/-- R359: WB_DATA of agent a. -/
def execWbData (a : Fin 25) (line : BitVec 54) (x : BitVec 512) (marks : Byte) (s : State) : Res :=
  if s.halted then .next s else
  let l := line.toNat
  let y := (x, marks.toNat)
  .next (s.rspArrive { fromAgent 0x36 a.val l with data := x, marks := marks.toNat } (fun s =>
    let d := s.dirAt l
    if d.st = 3 ∧ d.owner = some a.val then
      ((s.tierWrite l 16 y).homeMsg 0x25 a.val l).setDir l (d.without a.val).settle
    else if 11 ≤ d.st ∧ d.st ≤ 15 ∧ d.owner = some a.val then
      let s := ((s.tierWrite l 16 y).homeMsg 0x25 a.val l).setDir l { d with gone := true, rcd := some y }
      if d.st = 15 then s.holderGone l a.val else s
    else s.protoError l 0x36 d.st a.val 0))

/-- R359: DATA_HOME of agent a. -/
def execDataHome (a : Fin 25) (line : BitVec 54) (x : BitVec 512) (marks : Byte) (s : State) : Res :=
  if s.halted then .next s else
  let l := line.toNat
  .next (s.rspArrive { fromAgent 0x35 a.val l with data := x, marks := marks.toNat } (fun s =>
    let d := s.dirAt l
    if (d.st = 11 ∨ d.st = 13) ∧ d.owner = some a.val then
      (s.setDir l { d with rcd := some (x, marks.toNat) }).ownerDone l
    else s.protoError l 0x35 d.st a.val 0))

/-- R332, R361: DATA_ONCE arrives at a requester; at the home (33) it is the copy that T_O1 awaits. -/
def execDataOnce (r : Fin 38) (line : BitVec 54) (x : BitVec 512) (marks : Byte) (s : State) : Res :=
  if s.halted then .next s else
  let l := line.toNat
  let m : CMsg := { code := 0x34, src := anySrc, dst := r.val, line := l, data := x, marks := marks.toNat }
  if r.val = 33 ∧ (s.dirAt l).st = 14 then
    .next (s.rspArrive { m with dst := homeNode l } (fun s =>
      (s.setDir l { s.dirAt l with rcd := some (x, marks.toNat) }).onceDone l))
  else match s.takeMsg m with
    | none => .next s
    | some (s, _) => .next { s with coh := { s.coh with buf := s.coh.buf.insert r.val (l, x, if marks = 0 then 0 else 0x20) } }

/-- R343: DATA_ATOM brings a requester the old value and status of its atomic. -/
def execDataAtom (r : Fin 38) (line : BitVec 54) (old : BitVec 128) (status : Byte) (s : State) : Res :=
  if s.halted then .next s else
  let l := line.toNat
  match s.takeMsg { code := 0x37, src := anySrc, dst := r.val, line := l, data := old.setWidth 512, marks := status.toNat } with
  | none => .next s
  | some (s, _) => .next { s with coh := { s.coh with buf := s.coh.buf.insert r.val (l, old.setWidth 512, status.toNat) } }

/-! ### Agents (R351 to R354) -/

/-- R332, R334, R352: a FWD for requester r arrives at agent a. -/
def State.fwdTaken (s : State) (code a line r : Nat) : State :=
  match s.takeMsg { code := code, src := homeNode line, dst := a, line := line, r := r } with
  | none => s
  | some (s, _) => s.fwdArrive a line code r

/-- R352 SNP_SHR at agent a, for requester r. -/
def execSnpShr (a : Fin 25) (line : BitVec 54) (r : Fin 34) (s : State) : Res := if s.halted then .next s else .next (s.fwdTaken 0x10 a.val line.toNat r.val)

/-- R352 SNP_INV at agent a, with or without NODATA. -/
def execSnpInv (a : Fin 25) (line : BitVec 54) (r : Fin 34) (nodata : Bool) (s : State) : Res :=
  if s.halted then .next s else
  .next (s.fwdTaken (if nodata then 0x91 else 0x11) a.val line.toNat r.val)

/-- R352 SNP_INV_HOME at agent a. -/
def execSnpInvHome (a : Fin 25) (line : BitVec 54) (r : Fin 34) (s : State) : Res := if s.halted then .next s else .next (s.fwdTaken 0x12 a.val line.toNat r.val)

/-- R352 SNP_ONCE at agent a. -/
def execSnpOnce (a : Fin 25) (line : BitVec 54) (r : Fin 34) (s : State) : Res := if s.halted then .next s else .next (s.fwdTaken 0x13 a.val line.toNat r.val)

/-- R352 SNP_SHR_HOME at agent a. -/
def execSnpShrHome (a : Fin 25) (line : BitVec 54) (r : Fin 34) (s : State) : Res := if s.halted then .next s else .next (s.fwdTaken 0x14 a.val line.toNat r.val)

/-- Data or a grant arrives at agent a, from the home or from another agent. -/
def State.datTaken (s : State) (code a line : Nat) (x : BitVec 512) (marks : Nat) (act : State → State) : State :=
  match s.takeMsg { code := code, src := anySrc, dst := a, line := line, data := x, marks := marks } with
  | none => s
  | some (s, _) => act s

/-- R352: a load at agent a; one that waits is tried again once the line is stable (R353). -/
def execAgentLoad (a : Fin 25) (line : BitVec 54) (s : State) : Res := if s.halted then .next s else .next (s.agentNew a.val line.toNat 16 0 none)

/-- R352: a store of masked bytes at agent a; one that waits is tried again once the line is stable (R353). -/
def execAgentStore (a : Fin 25) (line : BitVec 54) (mask : Word) (x : BitVec 512) (s : State) : Res :=
  if s.halted then .next s else
  .next (s.agentNew a.val line.toNat 16 0 (some { mask := mask.toNat, data := x }))

/-- R352, R335: agent a replaces a line; a voluntary eviction ends the hold at once. -/
def execAgentReplacement (a : Fin 25) (line : BitVec 54) (s : State) : Res := if s.halted then .next s else .next (s.replaceCopy a.val line.toNat)

/-- R335: the minimum hold of agent a's line ends. -/
def execHoldEnd (a : Fin 25) (line : BitVec 54) (s : State) : Res :=
  if s.halted then .next s else
  let c := s.copyAt a.val line.toNat
  if c.hold then .next ((s.setCopy a.val line.toNat { c with hold := false }).unpark a.val line.toNat) else .next s

/-! ### Edge agents (R336 to R341, R361, R362) -/

/-- Where a window access of an edge agent ends. -/
inductive Win where
  | err (f : Fld)
  | line (l part : Nat)

/-- R320: the count of a window access to a PGA of this device that ends with a status. -/
def State.winStatus (s : State) (p c : Nat) : Fld :=
  if c = 0x21 ∨ c = 0x22 ∨ c = 0x23 then Reg.XLT_WIN_ERR_REMOTE
  else if s.isOwn p 1 ∧ (s.regionAt p).isSome ∧ (s.lentAt (pgaOff p)).isNone ∧ !s.reserved (pgaOff p) then Reg.XLT_WIN_ERR_PERM
  else Reg.XLT_WIN_ERR_MISS

/-- R319, R320, R376: decode a host physical address of edge agent g and check the access. -/
def State.window (s : State) (g hpa : Nat) (write : Bool) : State × Win :=
  match s.hdmHit g hpa with
  | none => (s, .err Reg.XLT_WIN_ERR_MISS)
  | some (w, o) =>
    if !s.winCovers w o then (s, .err Reg.XLT_WIN_ERR_MISS)
    else if !(if write then s.is1 (Reg.XLT_WIN_MAP_W w) else s.is1 (Reg.XLT_WIN_MAP_R w)) then (s, .err Reg.XLT_WIN_ERR_PERM)
    else
      let p := s.winBase w + o
      let part := s.rd (Reg.XLT_WIN_MAP_PARTITION w)
      let (s, r) := s.reach part p write
      match r with
      | .loc _ => (s, .line (p / 64) part)
      | .rem d _ _ => if s.gone d part then (s, .err Reg.XLT_WIN_ERR_REMOTE) else (s, .line (p / 64) part)
      | .stat c =>
        (s, .err (s.winStatus p c))
      | .wait => (s, .err Reg.XLT_WIN_ERR_MISS)

/-- R320, R341: the answer to a read that cannot complete normally. -/
def State.poisonRead (s : State) (g hpa : Nat) : State :=
  (s.send { name := "MemData", dest := g, args := [hpa, 1], bytes := List.replicate 64 0 }).send { name := "Cmp", dest := g, args := [hpa] }

/-- The state of the link of edge agent g: 0 OFF, 1 OK, 2 SWEEP, 3 FAILED. -/
def State.edgeState (s : State) (g : Nat) : Nat := s.rd (Reg.COH_AGENT_STATE (25 + g))

/-- R319, R336, R341, R361: a read of edge agent g for MetaValue mv (0 I, 1 S, 2 A). -/
def State.edgeRead (s : State) (g hpa mv : Nat) : State :=
  if s.edgeState g = 0 then s
  else if s.edgeState g ≠ 1 then (s.winErr Reg.XLT_WIN_ERR_MISS).poisonRead g hpa
  else
    let (s, w) := s.window g hpa false
    match w with
    | .err f => (s.winErr f).poisonRead g hpa
    | .line l p => s.request l { kind := 0x41 + mv, r := 25 + g, part := p, mv := mv }

/-- R361 MemRd of edge agent g at a host physical address. -/
def execMemrd (g : Fin 8) (hpa : Word) (mv : Fin 3) (s : State) : Res := if s.halted then .next s else .next (s.edgeRead g.val hpa.toNat mv.val)

/-- R336 MemInv of edge agent g: served as a request in the state its MetaValue asks for. -/
def execMeminv (g : Fin 8) (hpa : Word) (mv : Fin 3) (s : State) : Res := if s.halted then .next s else .next (s.edgeRead g.val hpa.toNat mv.val)

/-- R320, R337, R341, R361, R491: a write of edge agent g. -/
def State.edgeWrite (s : State) (g hpa kind mv mask : Nat) (x : BitVec 512) (poison : Bool) : State :=
  if s.edgeState g = 0 then s
  else
    let drop (s : State) : State := s.send { name := "Cmp", dest := g, args := [hpa] }
    if s.edgeState g ≠ 1 then drop (s.winErr Reg.XLT_WIN_ERR_MISS)
    else if poison then drop s
    else
      let (s, w) := s.window g hpa true
      match w with
      | .err f => drop (s.winErr f)
      | .line l p =>
        let d := s.dirAt l
        let q : CReq := { kind := kind, r := 25 + g, part := p, data := x, mask := mask, mv := mv }
        if d.st = 4 ∧ bitOf d.bis g then
          let s := if kind = 0x45 then s.homeWrite l p (x, 0) true
            else if (s.lineOff l).isSome then
              let (s, y) := s.tierData l
              s.homeWrite l p (mergeLine ((y.map (·.2)).getD (0, 0)) x mask) true
            else s.proxySend l p 3 (x, 0) mask true
          s.edgeMsg "Cmp" g l
        else s.request l q

/-- R361 MemWr of edge agent g; a poisoned one is dropped (R491). -/
def execMemwr (g : Fin 8) (hpa : Word) (mv : Fin 3) (x : BitVec 512) (poison : Bool) (s : State) : Res :=
  if s.halted then .next s else
  .next (s.edgeWrite g.val hpa.toNat 0x45 mv.val (2 ^ 64 - 1) x poison)

/-- R361 MemWrPtl of edge agent g. -/
def execMemwrptl (g : Fin 8) (hpa : Word) (mv : Fin 3) (mask : Word) (x : BitVec 512) (poison : Bool) (s : State) : Res :=
  if s.halted then .next s else
  .next (s.edgeWrite g.val hpa.toNat 0x46 mv.val mask.toNat x poison)

/-- R362: a BIRsp of agent g is taken: 0 BIRspI, 1 BIRspS. BLK ends with the last one outstanding. While a protocol error takes every copy, a copy kept is invalidated in its turn
(R347). -/
def State.birspTake (s : State) (line g kind : Nat) : State :=
  let d := s.dirAt line
  let a := 25 + g
  let bisData := if bitOf d.bisData g then d.bisData - 2 ^ g else d.bisData
  if kind = 1 ∧ d.purge then (s.setDir line { d with bisData := bisData }).edgeMsg "BISnpInv" g line
  else
    let e := d.without a
    let e := if kind = 1 then { e with sharers := e.sharers ||| 2 ^ a } else e
    let e := { e with bis := d.bis - 2 ^ g, bisData := bisData }
    if e.bis = 0 then
      let f : DirEnt := { e with fh := none, bisData := 0 }
      (s.setDir line f.settle).homeDone line
    else s.setDir line e

/-- R362: a BIRsp of edge agent g for a line: 0 BIRspI, 1 BIRspS, 2 BIRspE. -/
def execBirsp (g : Fin 8) (line : BitVec 54) (kind : Fin 3) (s : State) : Res :=
  if s.halted then .next s else
  let l := line.toNat
  let s := s.sweepLine l
  let d := s.dirAt l
  if s.coh.bad.contains l then .next ((s.entryError l (25 + g.val)).homeDone l)
  else if d.st = 4 ∧ bitOf d.bis g.val ∧ (kind.val = 0 ∨ (kind.val = 1 ∧ bitOf d.bisData g.val)) then
    .next (s.birspTake l g.val kind.val)
  else .next ((s.protoError l 0 d.st (25 + g.val) 0 (2 ^ g.val)).homeDone l)

/-- R338: a BIConflict of edge agent g is answered once every BISnp sent before it has been sent, which a step has done. -/
def execBiconflict (g : Fin 8) (line : BitVec 54) (s : State) : Res := if s.halted then .next s else .next (s.edgeMsg "BIConflictAck" g.val line.toNat)

/-- R487: any other M2S opcode is handled as a MISS. -/
def execOtherM2sOpcode (g : Fin 8) (hpa : Word) (write : Bool) (s : State) : Res :=
  if s.halted then .next s else
  let s := s.winErr Reg.XLT_WIN_ERR_MISS
  .next (if write then s.send { name := "Cmp", dest := g.val, args := [hpa.toNat] } else s.poisonRead g.val hpa.toNat)

/-- R30, R340: edge agent g is lost: its outstanding back-invalidations count as answered with no data, a line it owned being
marked, and its sweep starts. -/
def State.edgeLost (s : State) (g : Nat) : State :=
  if s.edgeState g ≠ 1 then s
  else
    let s := (s.wr (Reg.COH_AGENT_STATE (25 + g)) 2).raise 81
    let ls := (s.coh.dir.filter (fun _ (d : DirEnt) => d.st == 4 && bitOf d.bis g)).keys
    ls.foldl (fun s l =>
      let s := if (s.dirAt l).owner = some (25 + g) ∧ !(s.dirAt l).purge then (s.markLine l).satAdd (Reg.COH_AGENT_LOST (25 + g)) 1 else s
      s.birspTake l g 0) s

/-- R339: no BIRsp of edge agent g has come within BI_TIMEOUT. -/
def execBiTimeout (g : Fin 8) (s : State) : Res :=
  if s.halted then .next s else
  if s.coh.dir.any (fun e => e.2.st == 4 && bitOf e.2.bis g.val) ∧ s.edgeState g.val = 1 then
    .next ((s.satAdd Reg.COH_COUNTS_BI_TIMEOUTS 1).edgeLost g.val)
  else .next s

/-- R511: the half of EDG_PORT that shows edge agent g. -/
def halfOf (g : Nat) : Fld := if g % 2 = 0 then Reg.EDG_PORT_HALF0 (g / 2) else Reg.EDG_PORT_HALF1 (g / 2)

/-- R340, R488: edge agent g is lost by DL_Down, hot reset or PERST#: its half reads down, and its HDM decoders are reset (PRESUMED, the
standard's reset rules). -/
def execEdgeAgentLost (g : Fin 8) (s : State) : Res :=
  if s.halted then .next s else
  let s := (s.edgeLost g.val).wr (halfOf g.val) 0
  .next { s with xlt := { s.xlt with hdm := s.xlt.hdm.filter (fun k _ => k / 4 != g.val) } }

/-- R340 steps 3 and 5: every slice has scanned its entries. -/
def execAgentSweepComplete (g : Fin 8) (s : State) : Res :=
  if s.halted then .next s else
  if s.edgeState g.val ≠ 2 then .next s
  else
    let ls := (s.coh.dir.filter (fun _ (d : DirEnt) => d.lists (25 + g.val))).keys
    let s := ls.foldl (fun s l => (s.sweepEntry l g.val).homeDone l) s
    .next (s.wr (Reg.COH_AGENT_STATE (25 + g.val)) 3)

/-- R341: REARM by a holder. -/
def State.cohRearm (s : State) (h n : Nat) : State :=
  if (h = 16 ∨ h = 17) ∧ 25 ≤ n ∧ s.rd (Reg.COH_AGENT_STATE n) = 3 then s.wr (Reg.COH_AGENT_STATE n) 1 else s

/-- R341: a write of COH_AGENTn.REARM. -/
def execCohAgentRearm (h : Fin 18) (n : Fin 33) (s : State) : Res := if s.halted then .next s else .next (s.cohRearm h.val n.val)

/-! ### HDM decoders (R318) -/

/-- R318, R321: the host of edge agent g commits decoder k with a base and size in 256 MiB granules; any interleave but 1-way
(code 0) fails. -/
def execHdmDecoderCommit (g : Fin 8) (k : Fin 4) (base size : BitVec 36) (ways : Fin 16) (s : State) : Res :=
  if s.halted then .next s else
  let d := s.xlt.hdm.getD (4 * g.val + k.val) {}
  let e : Hdm := if ways.val = 0 then { base := base.toNat * 2 ^ 28, size := size.toNat * 2 ^ 28, committed := true }
                 else { d with committed := false, error := true }
  .next { s with xlt := { s.xlt with hdm := s.xlt.hdm.insert (4 * g.val + k.val) e } }

end Sys2Proof.Machine
end

