-- ==== Sys2Proof/Machine/Orders.lean ====
section
/-!
DEFINITION. Work orders in flight: their fields, the order in which they start, and their completion records (R492 to R509).
-/

namespace Sys2Proof.Machine

/-- The n bytes of a work order from byte b, as a number (R4). -/
def Order.by_ (o : Order) (b n : Nat) : Nat := bitsOf o.words (8 * b) (8 * n)

/-- The number of Outbox or Inbox i of partition p. -/
def boxNo (p i : Nat) : Nat := 64 * p + i

/-- The n-th outstanding work order, oldest first. -/
def State.orderAt (s : State) (n : Nat) : Option Order := s.ord.list[n]?

/-- Replace an outstanding work order. -/
def State.setOrder (s : State) (o : Order) : State :=
  { s with ord := { s.ord with list := s.ord.list.map (fun x => if x.id = o.id then o else x) } }

/-- A work order is no longer outstanding. -/
def State.dropOrder (s : State) (o : Order) : State :=
  { s with ord := { s.ord with list := s.ord.list.filter (fun x => x.id != o.id) } }

/-- R495: whether a work order may start: every earlier one of its Outbox has started, and with FENCE has completed. -/
def State.mayStart (s : State) (o : Order) : Bool :=
  let held := decide (0x20 ≤ o.op) && (match s.door.arm with | some a => a.kind == 2 | none => false)
  !s.halted && (o.started || (!held &&
    (s.ord.list.filter (fun x => x.part == o.part && x.box == o.box && decide (x.id < o.id))).all (fun x => !o.fence && x.started)))

/-- R508: the free slots of an Inbox, from its live LOG2, WRITTEN, RESERVED and the HEAD its consumer last gave. -/
def State.freeSlots (s : State) (q : Nat) : Nat :=
  let used := (s.rd (Reg.IBX_STATE_WRITTEN q) + 2 ^ 32 - s.ord.tail.getD (1024 + q) 0) % 2 ^ 32 + s.rd (Reg.IBX_STATE_RESERVED q)
  2 ^ s.rd (Reg.IBX_RING_LOG2 q) - used

/-- R508: reserve a slot of an Inbox, where it has one free and is enabled. -/
def State.reserveSlot (s : State) (q : Nat) : Option State :=
  if s.is1 (Reg.IBX_RING_EN q) ∧ 0 < s.freeSlots q then some (s.wrapAdd (Reg.IBX_STATE_RESERVED q) 1) else none

/-- R507, R508, R509: a completion record is written into the slot reserved for it, and signals the Inbox's vector.
ST_DEVICE_FAULT shows at the host ports too (R491). -/
def State.record (s : State) (o : Order) (status info pos : Nat) (final : Bool) : State :=
  let s := if status = 0x3F then s.internalError else s
  let q := boxNo o.part o.inbox
  let k := s.rd (Reg.IBX_STATE_WRITTEN q)
  let n := s.rd (Reg.IBX_RING_LOG2 q)
  let phase := 1 - k / 2 ^ n % 2
  let x := status % 2 ^ 8 + o.op % 2 ^ 8 * 2 ^ 8 + (o.box % 64 + b2n final * 2 ^ 6 + phase * 2 ^ 7) * 2 ^ 16 + o.tag % 2 ^ 32 * 2 ^ 32 +
    info % 2 ^ 32 * 2 ^ 64 + s.rd (Reg.OBX_STATE_HEAD (boxNo o.part o.box)) % 2 ^ 16 * 2 ^ 96 + pos % 2 ^ 16 * 2 ^ 112
  let s := s.hubWrite (s.rd (Reg.IBX_RING_BASE q) * 256 + 16 * (k % 2 ^ n)) (toLe 16 x)
  let s := (s.wrapAdd (Reg.IBX_STATE_WRITTEN q) 1).wr (Reg.IBX_STATE_RESERVED q) (s.rd (Reg.IBX_STATE_RESERVED q) - 1)
  if s.is1 (Reg.IBX_RING_VEN q) then s.latch (16 + 32 * o.part + s.rd (Reg.IBX_HEAD_VECTOR q)) else s

/-- R507: a work order completes with a status and INFO. -/
def State.complete (s : State) (o : Order) (status info : Nat) : State := (s.dropOrder o).record o status info 0 true

end Sys2Proof.Machine
end

