-- ==== Sys2Proof/Machine/Efhal.lean ====
section
/-!
DEFINITION. The Efhal fabric at the home and at the requester: requests and responses, parcels and credits between troupes of
different devices, and the regions whose ownership moves (R372 to R388).
-/

namespace Sys2Proof.Machine

/-! ### Requests at the home (R373, R376) -/

/-- How the home answers a request before performing it: performed at a store offset, a status, or passed on to another PGA. -/
inductive HomeWay where
  | at_ (off : Nat)
  | stat (code : Nat)
  | pass (entry target : Nat)
  deriving DecidableEq, Repr

/-- R255, R258, R376: the checks of a request by partition part of device src to a PGA whose home this switch is (log entry 114). -/
def State.homeWay (s : State) (src part p : Nat) (write fwd : Bool) : HomeWay :=
  let off := pgaOff p
  if pgaDev p ≠ s.device then
    -- the lender's side of a loan window
    let w := (off - 0x10000000000000) / 2 ^ 40
    let b := (off - 0x10000000000000) % 2 ^ 40
    if off < 0x10000000000000 ∨ 16 ≤ w ∨ pgaDev p ≠ src then .stat 0x11
    else
      match (List.range 16).find? (fun i =>
          let st := s.rd (Reg.STM_LEND_STATE i)
          (st == 1 || st == 2) && s.rd (Reg.STM_LEND_BORROWER i) == src && s.rd (Reg.STM_LEND_WINDOW i) == w) with
      | none => .stat 0x10
      | some i =>
        if 2 ^ s.rd (Reg.STM_LEND_LOG2 i) ≤ b then .stat 0x10
        else
          let o := 65536 * s.rd (Reg.STM_LEND_BASE i) + b
          match s.regionCheck src part (pgaOf s.device o) write fwd with
          | .permit => .at_ o
          | .stat c => .stat c
          | .pass i t => .pass i t
  else
    match s.range off with
    | .own =>
      if s.reserved off then .stat 0x11
      else match s.regionCheck src part p write fwd with
        | .permit => .at_ off
        | .stat c => .stat c
        | .pass i t => .pass i t
    | .stage => .stat 0x21
    | _ => .stat 0x11

/-- R383: the old home passes a request on, keeping its source, partition and REQID. -/
def State.passOn (s : State) (entry kind src part id target mask marks : Nat) (op : List Nat) (x : BitVec 512) : State :=
  (s.passedOn entry).fabReq src part id kind (pgaDev target) target mask marks op x true

/-- R374, R376, R383: a request from device src to the line (or, for an atomic, the bytes) at a PGA: a resent one is answered from the record, or goes on waiting; a refused one gets its
status; a forwarded one leaves; else it reaches the line's home, once, which performs it in its turn and answers. -/
def State.serveFabric (s : State) (kind src part id p : Nat) (fwd : Bool) (q : CReq) (op : List Nat) : State :=
  let tk := farTicket src id fwd
  match (if kind = 1 then none else s.answered src id) with
  | some a => s.respond src id a false
  | none =>
    if s.askedFar tk then s
    else match s.homeWay src part p (kind != 1) fwd with
    | .stat c => (s.countOwner c).respond src id { status := c, fwd := fwd } false
    | .pass i t => s.passOn i kind src part id t q.mask q.marks op q.data
    | .at_ off => s.request (s.lineKey off) { q with r := 37, part := part, off := off % 64, tk := tk }

/-- R376 RD: partition part of device src reads a line (a PGA div 64); fwd says that a region entry passed it on. -/
def execFabricRd (src : Fin 64) (part : Fin 16) (id : BitVec 16) (line : BitVec 54) (fwd : Bool) (s : State) : Res :=
  if s.deaf part.val then .next s else
  .next (s.serveFabric 1 src.val part.val id.toNat (64 * line.toNat) fwd { kind := 4 } [])

/-- R376 WR: a full line with the marks its data carries. -/
def execFabricWr (src : Fin 64) (part : Fin 16) (id : BitVec 16) (line : BitVec 54) (x : BitVec 512) (marks : Byte) (fwd : Bool)
    (s : State) : Res :=
  if s.deaf part.val then .next s else
  .next (s.serveFabric 2 src.val part.val id.toNat (64 * line.toNat) fwd
    { kind := 5, data := x, marks := marks.toNat, mask := 2 ^ 64 - 1 } [])

/-- R376 WR_PART: the bytes of a line that a mask selects. -/
def execFabricWrPart (src : Fin 64) (part : Fin 16) (id : BitVec 16) (line : BitVec 54) (mask : Word) (x : BitVec 512) (fwd : Bool)
    (s : State) : Res :=
  if s.deaf part.val then .next s else
  .next (s.serveFabric 3 src.val part.val id.toNat (64 * line.toNat) fwd { kind := 6, data := x, mask := mask.toNat } [])

/-- R204, R376 ATOM: an atomic of minor and TA on 4 or 8 bytes at byte `off` of a line; one that R204 does not permit on another
device's line gets ST_BAD_FORMAT. -/
def execFabricAtom (src : Fin 64) (part : Fin 16) (id : BitVec 16) (line : BitVec 54) (off : Fin 64) (minor : Fin 9) (wide8 : Bool)
    (ta : Fin 4) (opnd cmp : Word) (fwd : Bool) (s : State) : Res :=
  if s.deaf part.val then .next s else
  let w := if wide8 then 8 else 4
  if !atomRemoteOk minor.val ta.val ∨ off.val % w ≠ 0 then .next (s.respond src.val id.toNat { status := 0x30, fwd := fwd } false)
  else
    .next (s.serveFabric 4 src.val part.val id.toNat (64 * line.toNat + off.val) fwd
      { kind := 7, op := minor.val, wide := w, ta := ta.val, opnd := opnd.toNat, cmp := cmp.toNat }
      [minor.val, w, ta.val, opnd.toNat, cmp.toNat])

/-! ### Responses at the requester (R373) -/

/-- R373, R377, R260: a response completes the outstanding request with its REQID: it is kept for the requester inside the device
that takes it; the answers to the proxy home's writes and to mirror writes are taken here. -/
def execFabricRsp (src : Fin 64) (id : BitVec 16) (status marks : Byte) (data : BitVec 512) (fwd : Bool) (s : State) : Res :=
  if s.deaf 16 then .next s else
  match s.efh.out.find? (fun q => q.id == id.toNat && q.ans.isNone && (q.dest == src.val || fwd)) with
  | none => .next s
  | some q =>
    let drop := { s with efh := { s.efh with out := s.efh.out.erase q } }
    let lost := drop.lostTo q.part status.toNat
    if q.own = hostWrite then
      .next (if status.toNat = 0x20 ∨ status.toNat = 0x21 ∨ status.toNat = 0x22 ∨ status.toNat = 0x23 then lost.winErr Reg.XLT_WIN_ERR_REMOTE else lost)
    else if 2 ^ 60 ≤ q.own ∧ q.kind ≠ 1 then
      .next (if 2 ^ 61 ≤ q.own ∧ 0x20 ≤ status.toNat ∧ status.toNat ≤ 0x23 then lost.winErr Reg.XLT_WIN_ERR_REMOTE else lost)
    else if q.own = 2 ^ 40 then .next lost
    else if 2 ^ 41 ≤ q.own ∧ q.own < 2 ^ 42 then .next (drop.copyAnswered (q.own - 2 ^ 41) (status == 0))
    else
      let a : FAns := { status := status.toNat, data := data, marks := marks.toNat, fwd := fwd }
      .next { s with efh := { s.efh with out := s.efh.out.map (fun r => if r = q then { r with ans := some a } else r) } }

/-- R373: an outstanding request is sent again with its REQID. -/
def State.resend (s : State) (q : FReq) : State :=
  if 2 ^ 41 ≤ q.own ∧ q.own < 2 ^ 42 then s.mirrorUnit q (q.own - 2 ^ 41)
  else s.fabReq s.device q.part q.id q.kind q.dest q.pga q.mask q.marks q.op q.data q.via.isSome

/-- R373: the route to device d has changed: its outstanding requests are sent again in their order. -/
def State.resendTo (s : State) (d : Nat) : State :=
  (s.efh.out.filter (fun q => q.dest == d && q.ans.isNone)).foldl State.resend s

/-! ### Parcels and credits between devices (R215, R392) -/

/-- R215, R392: a fabric PARCEL enters the mesh through the gate nearest to its destination troupe, with its source's outbound route
named by the inbound route it goes to. A parcel for a logical number that no troupe holds is dropped and its credit returned. -/
def execFabricParcel (p : BitVec 640) (s : State) : Res :=
  let (q, ok) := parcelOf p.toNat
  let troupe := bitsOf q.arg 0 13
  let route := bitsOf q.arg 13 6
  let kind := bitsOf q.arg 19 2
  if !ok ∨ q.op ≠ 8 ∨ !q.wellFormed ∨ s.deaf q.part then .next s
  else match s.physOf troupe with
  | none => .next (if kind = 2 then s else s.credTo q.src s.device troupe route 1)
  | some t =>
    let m : MParcel :=
      { poison := q.poison, last := bitOf q.arg 21, cue := bitsOf q.arg 22 8, unit := bitsOf q.arg 30 16, seq := q.tag, route := route,
        kind := if kind = 2 then 4 else if kind = 1 then 2 else 0, vl := if kind = 2 then 3 else if kind = 1 then 2 else 0,
        src := 10000 + q.src, srcRoute := if kind = 2 then 0 else 64 * troupe + route, dst := t, at_ := gateOf t, inDir := 5, part := q.part,
        pl := if kind = 2 then .cancel route (bitsOf q.arg 30 16) (bitsOf q.arg 22 8) else .data (BitVec.ofNat 512 q.pl) }
    let s := s.inject m
    .next (if kind = 2 then s else s.ledgerAdd (fun l => { l with injected := l.injected + 1 }))

/-- R392: one credit of the inbound route of a troupe of device dev returns to an OUT route that sends to it and lacks one. -/
def State.outCredit (s : State) (dev troupe route : Nat) : State :=
  let lacks (o : OutRt) : Bool := o.desc.kind == 5 && o.desc.rdev == dev && o.desc.rtroupe == troupe && o.desc.rroute == route &&
    decide (o.cr < o.desc.credits)
  match List.find? (fun (e : Nat × Troupe) => e.2.outs.any lacks) s.trp.t with
  | none => s
  | some e => s.setTroupe e.1 { e.2 with outs := mapAt e.2.outs (e.2.outs.findIdx lacks) (fun o => { o with cr := o.cr + 1, away := o.away - 1 }) }

/-- R392: a fabric CRED of device src: credits of inbound routes (troupe, route, number) return to the OUT routes that send there. -/
def execFabricCred (src : Fin 64) (entries : List (BitVec 13 × Fin 64 × BitVec 13)) (s : State) : Res :=
  if s.deaf 16 then .next s else
  .next ((entries.take 16).foldl (fun s e =>
    if 6144 < e.2.2.toNat then s
    else (List.range e.2.2.toNat).foldl (fun s _ => s.outCredit src.val e.1.toNat e.2.1.val) s) s)

/-! ### Recalls before a hand-over (R377) -/

/-- R377: recall every line of a range of PGAs that this device caches; whether none is left. -/
def State.recallRange (s : State) (base size : Nat) : State × Bool :=
  let within (k : Nat) : Bool := decide (base ≤ 64 * k) && decide (64 * k < base + size)
  let s := (s.coh.dir.filter (fun k (d : DirEnt) => within k && decide (1 ≤ d.st ∧ d.st ≤ 3))).keys.foldl (fun s k =>
    s.request k { kind := 0x80, r := 33 }) s
  (s, !s.coh.dir.any (fun e => within e.1 && e.2.st != 0) &&
    !s.efh.out.any (fun q => decide (2 ^ 60 ≤ q.own) && within ((q.own - 2 ^ 60) % 2 ^ 60) && q.kind != 1))

/-- The bytes that a region from a base may span: its size where this device is its home, else the largest a region can have. -/
def State.regionSpan (s : State) (base : Nat) : Nat :=
  match s.regions.find? (fun i => s.rd (Reg.EFH_REGION0_STATE i) != 0 && s.regionBase i == base) with
  | some i => 2 ^ s.rd (Reg.EFH_REGION0_LOG2 i)
  | none => 2 ^ 40

/-! ### Ownership orders (R378, R379, R382, R500) -/

/-- R372, R392: an OFFER, ACCEPT or PUBLISH of a partition of device src for the home of a region: the region, its epoch and the operation's own field, then the
REQID (log entry 41). -/
def State.ownMsg (s : State) (code src part id region epoch : Nat) (fields : List (Nat × Nat)) (fwd : Bool) : State :=
  s.sendFab 18 { op := code, cls := 1, src := src, dst := pgaDev region, part := part, pl := fieldsNum ([(region, 8), (epoch, 4)] ++ fields ++ [(id, 2)]) } [b2n fwd]

/-- R500: a started ownership order has a REQID; its message goes to the device that REGION names. An order to a lost device ends
with ST_DEAD_LETTER (R385). -/
def State.sendOwner (s : State) (o : Order) (code : Nat) (fields : List (Nat × Nat)) : State :=
  let region := o.by_ 8 8
  if bitOf s.res.lostDevices (pgaDev region) then s.complete o 0x20 0
  else
    let id := s.efh.nextId
    let s := { s with efh := { s.efh with nextId := (id + 1) % 65536 } }
    let s := s.setOrder { o with started := true, ext := [id] }
    s.ownMsg code s.device o.part id region (o.by_ 16 4) fields false

/-- An ownership order starts: an OFFER or PUBLISH once this device caches no line of the region (R377). -/
def State.ownerOrder (s : State) (n op : Nat) (clean : Bool) (code : Nat) (fields : Order → List (Nat × Nat)) : State :=
  match s.orderAt n with
  | none => s
  | some o =>
    if o.op ≠ op ∨ !s.mayStart o ∨ !o.ext.isEmpty then s
    else
      let s := s.setOrder { o with started := true }
      let (s, clear) := if clean then s.recallRange (o.by_ 8 8) (s.regionSpan (o.by_ 8 8)) else (s, true)
      if clear then s.sendOwner o code (fields o) else s

/-- R378 OFFER: the n-th outstanding work order, where it is one. -/
def execOffer (n : Fin 4096) (s : State) : Res :=
  if s.halted then .next s else
  .next (s.ownerOrder n.val 0x10 true 0x10 (fun o => [(o.by_ 20 1 % 64, 1), (o.by_ 21 1 % 16, 1)]))

/-- R379 ACCEPT: the n-th outstanding work order, where it is one. -/
def execAccept (n : Fin 4096) (s : State) : Res := if s.halted then .next s else .next (s.ownerOrder n.val 0x11 false 0x12 (fun _ => []))

/-- R382 PUBLISH: the n-th outstanding work order, where it is one. -/
def execPublish (n : Fin 4096) (s : State) : Res := if s.halted then .next s else .next (s.ownerOrder n.val 0x12 true 0x16 (fun o => [(o.by_ 20 1, 1)]))

/-- R379: the home's answer: to an OFFER (0), an ACCEPT (1) or a PUBLISH (2) with its REQID, or to the receiver's log (3). -/
def State.grant (s : State) (dev kind part id region status epoch : Nat) : State :=
  s.fabMsg 0x13 dev part [(status, 1), (epoch, 4), (region, 8), (id, 2), (kind, 1)]

/-- The region entry with a base. -/
def State.entryAt (s : State) (region : Nat) : Option Nat :=
  s.regions.find? (fun i => s.rd (Reg.EFH_REGION0_STATE i) != 0 && s.regionBase i == region)

/-- Whether (dev, part) owns region entry i at an epoch. -/
def State.ownsAt (s : State) (i dev part epoch : Nat) : Bool :=
  s.rd (Reg.EFH_REGION0_STATE i) != 3 && s.rd (Reg.EFH_REGION1_OWNER_DEV i) == dev && s.rd (Reg.EFH_REGION1_OWNER_PART i) == part &&
    s.rd (Reg.EFH_REGION1_EPOCH i) == epoch

/-- Where region entry i is FORWARD: the message goes on to its target, or, forwarded already, gets ST_NOT_OWNER (R383). -/
def State.passMsg (s : State) (i : Nat) (fwd : Bool) (code src part id epoch : Nat) (fields : List (Nat × Nat)) (refuse : State → State) : State :=
  if fwd then refuse s
  else
    let t := s.rd (Reg.EFH_REGION2_TARGET i) * 2 ^ 21
    (s.passedOn i).ownMsg code src part id t epoch fields true

/-- R378: an OFFER at the home, by partition part of device src at epoch e to (rdev, rpart). -/
def execOfferMsg (src : Fin 64) (part : Fin 16) (id : BitVec 16) (region : Word) (epoch : Lane) (rdev : Fin 64) (rpart : Fin 16)
    (fwd : Bool) (s : State) : Res :=
  if s.deaf part.val then .next s else
  let r := region.toNat
  let answer (st : Nat) (s : State) : State := s.grant src.val 0 part.val id.toNat r st 0
  match s.entryAt r with
  | none => .next (answer 0x21 s)
  | some i =>
    let st := s.rd (Reg.EFH_REGION0_STATE i)
    if st = 4 then
      .next (s.passMsg i fwd 0x10 src.val part.val id.toNat epoch.toNat [(rdev.val, 1), (rpart.val, 1)] (answer 0x21))
    else if st = 2 then .next (answer 0x22 (s.countOwner 0x22))
    else if !s.ownsAt i src.val part.val epoch.toNat then .next (answer 0x21 s)
    else if s.is1 (Reg.EFH_REGION0_PUB i) ∨ (rdev.val = src.val ∧ rpart.val = part.val) ∨ !s.liveMember rdev.val then
      .next (answer 0x30 s)
    else
      let s := (s.wr (Reg.EFH_REGION0_STATE i) 2).wr (Reg.EFH_REGION1_OFFER_DEV i) rdev.val
      let s := (s.wr (Reg.EFH_REGION1_OFFER_PART i) rpart.val).wr (Reg.EFH_REGION1_OFFER_AGE i) 0
      let s := { s with efh := { s.efh with hand := s.efh.hand.insert i { cue := s.cueNow, offer := id.toNat } } }
      .next (s.fabMsg 0x11 rdev.val rpart.val [(r, 8), (epoch.toNat, 4), (src.val, 1), (part.val, 1), (rpart.val, 1)])

/-- The offer log entry of a region at an epoch for a partition. -/
def State.logEntry (s : State) (region epoch : Nat) : Option Nat :=
  (List.range 64).find? (fun j => s.rd (Reg.EFH_OFFER0_STATE j) != 0 && s.rd (Reg.EFH_OFFER0_REGION j) * 2 ^ 21 == region &&
    s.rd (Reg.EFH_OFFER1_EPOCH j) == epoch)

/-- R378: an OFFER_FWD at the receiver takes the lowest FREE entry of its offer log. -/
def execOfferFwd (src : Fin 64) (region : Word) (epoch : Lane) (fromDev : Fin 64) (fromPart toPart : Fin 16) (s : State) : Res :=
  if s.deaf 16 then .next s else
  match (List.range 64).find? (fun j => s.rd (Reg.EFH_OFFER0_STATE j) == 0) with
  | none => .next (s.satAdd Reg.EFH_COUNTS_LOG_FULL 1)
  | some j =>
    if pgaDev region.toNat ≠ src.val then .next s
    else
      let s := (s.wr (Reg.EFH_OFFER0_REGION j) (region.toNat / 2 ^ 21)).wr (Reg.EFH_OFFER0_STATE j) 1
      let s := (s.wr (Reg.EFH_OFFER1_EPOCH j) epoch.toNat).wr (Reg.EFH_OFFER1_FROM_DEV j) fromDev.val
      .next (((s.wr (Reg.EFH_OFFER1_FROM_PART j) fromPart.val).wr (Reg.EFH_OFFER1_TO_PART j) toPart.val).raise 89)

/-- R379, R381: an ACCEPT at the home, by partition part of device src at epoch e. -/
def execAcceptMsg (src : Fin 64) (part : Fin 16) (id : BitVec 16) (region : Word) (epoch : Lane) (s : State) : Res :=
  if s.deaf part.val then .next s else
  let r := region.toNat
  let refuse : State := (s.satAdd Reg.EFH_COUNTS_NOT_OWNER 1).grant src.val 1 part.val id.toNat r 0x21 0
  match s.entryAt r with
  | none => .next refuse
  | some i =>
    let st := s.rd (Reg.EFH_REGION0_STATE i)
    if st = 2 ∧ s.rd (Reg.EFH_REGION1_OFFER_DEV i) = src.val ∧ s.rd (Reg.EFH_REGION1_OFFER_PART i) = part.val ∧
        s.rd (Reg.EFH_REGION1_EPOCH i) = epoch.toNat then
      let h := s.efh.hand.getD i {}
      .next { s with efh := { s.efh with hand := s.efh.hand.insert i { h with accepts := h.accepts ++ [id.toNat] } } }
    else if st = 1 ∧ s.ownsAt i src.val part.val ((epoch.toNat + 1) % 2 ^ 32) then
      .next (s.grant src.val 1 part.val id.toNat r 0 0)
    else .next refuse

/-- R379, R380, R500: a GRANT: an ownership order completes with its status, INFO the epoch it set; or the receiver's log learns the
outcome (status ST_OK: GRANTED, else RETURNED) of the hand-over that set the epoch given. -/
def execGrant (src : Fin 64) (kind : Fin 4) (part : Fin 16) (id : BitVec 16) (region : Word) (status : Byte) (epoch : Lane)
    (s : State) : Res :=
  if s.deaf 16 then .next s else
  if kind.val = 3 then
    match s.logEntry region.toNat ((epoch.toNat + 2 ^ 32 - 1) % 2 ^ 32) with
    | none => .next s
    | some j =>
      if s.rd (Reg.EFH_OFFER0_STATE j) ≠ 1 ∨ pgaDev region.toNat ≠ src.val then .next s
      else
        let s := s.wr (Reg.EFH_OFFER0_STATE j) (if status = 0 then 2 else 3)
        .next { s with efh := { s.efh with logCue := s.efh.logCue.insert j s.cueNow } }
  else
    match s.ord.list.find? (fun o => o.op == 0x10 + kind.val && o.part == part.val && o.ext == [id.toNat]) with
    | none => .next s
    | some o => .next (s.complete o status.toNat epoch.toNat)

/-- R380: at a TAKE from the fourth cue after that in which entry i was set OFFERED, QUERY goes to the sender and the receiver until the
receiver has replied. -/
def execOfferQuery (i : Fin 4096) (s : State) : Res :=
  if s.halted then .next s else
  let h := s.efh.hand.getD i.val {}
  if s.rd (Reg.EFH_REGION0_STATE i.val) ≠ 2 ∨ s.phase ≠ 0 ∨ s.cueNow < h.cue + 4 ∨ h.reply.isSome then .next s
  else
    let m : List (Nat × Nat) := [(s.regionBase i.val, 8), (s.rd (Reg.EFH_REGION1_EPOCH i.val), 4)]
    .next ((s.fabMsg 0x14 (s.rd (Reg.EFH_REGION1_OWNER_DEV i.val)) 0 m).fabMsg 0x14 (s.rd (Reg.EFH_REGION1_OFFER_DEV i.val)) 0 m)

/-- R380: a party answers a QUERY: LOGGED says whether its offer log holds the region at the epoch. -/
def execQuery (src : Fin 64) (region : Word) (epoch : Lane) (s : State) : Res :=
  if s.deaf 16 then .next s else
  .next (s.fabMsg 0x15 src.val 0 [(region.toNat, 8), (epoch.toNat, 4), (b2n (s.logEntry region.toNat epoch.toNat).isSome, 1)])

/-- R380: the reply of the receiver of an offered region is kept for the next TAKE; the sender's only confirms receipt. -/
def execQueryReply (src : Fin 64) (region : Word) (epoch : Lane) (logged : Bool) (s : State) : Res :=
  if s.deaf 16 then .next s else
  match s.entryAt region.toNat with
  | none => .next s
  | some i =>
    if s.rd (Reg.EFH_REGION0_STATE i) = 2 ∧ s.rd (Reg.EFH_REGION1_OFFER_DEV i) = src.val ∧
        s.rd (Reg.EFH_REGION1_EPOCH i) = epoch.toNat then
      .next { s with efh := { s.efh with hand := s.efh.hand.insert i { s.efh.hand.getD i {} with reply := some logged } } }
    else .next s

/-- R377, R382: a withdrawal of entry i asks every live member to invalidate its cached lines. -/
def State.startWithdraw (s : State) (i dev part id : Nat) : State :=
  match s.efh.withdraw.find? i with
  | some w => { s with efh := { s.efh with withdraw := s.efh.withdraw.insert i { w with orders := w.orders ++ [(dev, part, id)] } } }
  | none =>
    let live := s.rd Reg.RSL_PM_LIVE_LIVE ||| 2 ^ s.device
    let s := { s with efh := { s.efh with withdraw := s.efh.withdraw.insert i { left := live, orders := [(dev, part, id)] } } }
    (List.range 64).foldl (fun s d => if bitOf live d then
      s.fabMsg 0x17 d 0 [(s.regionBase i, 8), (s.rd (Reg.EFH_REGION0_LOG2 i), 1)] else s) s

/-- R382: a PUBLISH at the home: MODE 1 publishes, MODE 0 withdraws. -/
def execPublishMsg (src : Fin 64) (part : Fin 16) (id : BitVec 16) (region : Word) (epoch : Lane) (mode : Byte) (fwd : Bool)
    (s : State) : Res :=
  if s.deaf part.val then .next s else
  let r := region.toNat
  let answer (st : Nat) (s : State) : State := s.grant src.val 2 part.val id.toNat r st 0
  let refuse (s : State) : State := answer 0x21 (s.satAdd Reg.EFH_COUNTS_NOT_OWNER 1)
  match s.entryAt r with
  | none => .next (refuse s)
  | some i =>
    let st := s.rd (Reg.EFH_REGION0_STATE i)
    if st = 4 then
      .next (s.passMsg i fwd 0x16 src.val part.val id.toNat epoch.toNat [(mode.toNat, 1)] refuse)
    else if st = 2 then .next (answer 0x22 (s.countOwner 0x22))
    else if !s.ownsAt i src.val part.val epoch.toNat then .next (refuse s)
    else if 1 < mode.toNat then .next (answer 0x30 s)
    else if mode = 1 then .next (answer 0 (s.wr (Reg.EFH_REGION0_PUB i) 1))
    else if s.is1 (Reg.EFH_REGION0_PUB i) then .next (s.startWithdraw i src.val part.val id.toNat)
    else .next (answer 0 s)

/-- R377: a member invalidates its cached lines of a withdrawn region, and then replies INVAL_ACK. -/
def execRegionInval (src : Fin 64) (region : Word) (log2 : BitVec 6) (s : State) : Res :=
  if s.deaf 16 then .next s else
  let (s, clear) := s.recallRange region.toNat (2 ^ log2.toNat)
  .next (if clear then s.fabMsg 0x18 src.val 0 [(region.toNat, 8)] else s)

/-- R377: the home notes a member's INVAL_ACK; the withdrawal completes at the first TAKE after the last. -/
def execInvalAck (src : Fin 64) (region : Word) (s : State) : Res :=
  if s.deaf 16 then .next s else
  match s.entryAt region.toNat with
  | none => .next s
  | some i =>
    match s.efh.withdraw.find? i with
    | none => .next s
    | some w =>
      let w := if bitOf w.left src.val then { w with left := w.left - 2 ^ src.val } else w
      .next { s with efh := { s.efh with withdraw := s.efh.withdraw.insert i w } }

/-! ### Region commands (R387) -/

/-- R375, R387: whether a field of SET is reserved or out of its range, its base is not aligned, its device is another, or a new entry would leave the own store. -/
def State.regionFormat (s : State) : Bool :=
  let log := s.rd Reg.EFH_REGION_ARG0_LOG2
  let base := s.rd Reg.EFH_REGION_ARG0_PGA * 2 ^ 21
  let free := s.rd (Reg.EFH_REGION0_STATE (s.rd Reg.EFH_REGION_CMD_ENTRY)) == 0
  decide (log < 21) || decide (40 < log) || base % 2 ^ log != 0 || pgaDev base != s.device ||
    (free && (pgaCtl base || decide (65536 * s.rd Reg.STM_SIZE_UNITS < pgaOff base + 2 ^ log)))

/-- R387: GO of EFH_REGION_CMD by requester h, its other fields already written: FORMAT at once, else it waits for the TAKE. -/
def State.goRegion (s : State) (h : Nat) : State :=
  let op := s.rd Reg.EFH_REGION_CMD_OP
  if (h ≠ 16 ∧ h ≠ 17) ∨ s.is1 Reg.EFH_REGION_CMD_BUSY ∨ op = 0 then s
  else if 3 < op ∨ (op = 1 ∧ s.regionFormat) then (s.wr Reg.EFH_REGION_CMD_RESULT 3).raise 94
  else s.wr Reg.EFH_REGION_CMD_BUSY 1

/-- Write EFH_REGION_CMD's fields and GO. -/
def State.regionCmd (s : State) (h entry op : Nat) : State :=
  if h ≠ 16 ∧ h ≠ 17 then s
  else ((s.wr Reg.EFH_REGION_CMD_ENTRY entry).wr Reg.EFH_REGION_CMD_OP op).goRegion h

/-- R387 SET of a region entry: its base and size, its owner. -/
def execRegionSet (h : Fin 18) (entry : Fin 4096) (pga : BitVec 39) (log2 : BitVec 6) (dev : Fin 64) (part : Fin 16) (s : State) : Res :=
  if s.halted then .next s else
  if h.val ≠ 16 ∧ h.val ≠ 17 then .next s
  else
    let s := (s.wr Reg.EFH_REGION_ARG0_PGA pga.toNat).wr Reg.EFH_REGION_ARG0_LOG2 log2.toNat
    let s := (s.wr Reg.EFH_REGION_ARG1_OWNER_PART part.val).wr Reg.EFH_REGION_ARG1_OWNER_DEV dev.val
    .next (s.regionCmd h.val entry.val 1)

/-- R387 CLEAR of a region entry. -/
def execRegionClear (h : Fin 18) (entry : Fin 4096) (s : State) : Res := if s.halted then .next s else .next (s.regionCmd h.val entry.val 2)

/-- R387 FORWARD of a region entry to a target. -/
def execRegionForward (h : Fin 18) (entry : Fin 4096) (target : BitVec 39) (s : State) : Res :=
  if s.halted then .next s else
  if h.val ≠ 16 ∧ h.val ≠ 17 then .next s
  else .next ((s.wr Reg.EFH_REGION_ARG0_PGA target.toNat).regionCmd h.val entry.val 3)

/-- A region entry is FREE: every field reads zero. -/
def State.freeRegion (s : State) (i : Nat) : State :=
  let s := [Reg.EFH_REGION0_BASE i, Reg.EFH_REGION0_LOG2 i, Reg.EFH_REGION0_PUB i, Reg.EFH_REGION0_STATE i, Reg.EFH_REGION1_EPOCH i,
    Reg.EFH_REGION1_OWNER_DEV i, Reg.EFH_REGION1_OWNER_PART i, Reg.EFH_REGION1_OFFER_DEV i, Reg.EFH_REGION1_OFFER_PART i,
    Reg.EFH_REGION1_OFFER_AGE i, Reg.EFH_REGION2_TARGET i].foldl (fun s f => s.wr f 0) s
  { s with efh := { s.efh with hand := s.efh.hand.erase i, withdraw := s.efh.withdraw.erase i, idle := s.efh.idle.erase i } }

/-- R381: a region command decides a hand-over that waits on entry i: the OFFER and the ACCEPTs complete with ST_NOT_OWNER, and so does
a PUBLISH that waits there. -/
def State.endHand (s : State) (i : Nat) : State :=
  let w := s.efh.withdraw.getD i {}
  let s := w.orders.foldl (fun s o => s.grant o.1 2 o.2.1 o.2.2 (s.regionBase i) 0x21 0) s
  let s := { s with efh := { s.efh with withdraw := s.efh.withdraw.erase i } }
  match s.efh.hand.find? i with
  | none => s
  | some h =>
    let base := s.regionBase i
    let rd := s.rd (Reg.EFH_REGION1_OFFER_DEV i)
    let rp := s.rd (Reg.EFH_REGION1_OFFER_PART i)
    let e := (s.rd (Reg.EFH_REGION1_EPOCH i) + 1) % 2 ^ 32
    let s := s.grant (s.rd (Reg.EFH_REGION1_OWNER_DEV i)) 0 (s.rd (Reg.EFH_REGION1_OWNER_PART i)) h.offer base 0x21 0
    let s := h.accepts.foldl (fun s a => s.grant rd 1 rp a base 0x21 0) s
    let s := s.grant rd 3 rp 0 base 0x21 e
    { s with efh := { s.efh with hand := s.efh.hand.erase i } }

/-- R387: a waiting region command takes effect at the TAKE. -/
def State.takeRegionCmd (s : State) : State :=
  if !s.is1 Reg.EFH_REGION_CMD_BUSY then s
  else
    let i := s.rd Reg.EFH_REGION_CMD_ENTRY
    let op := s.rd Reg.EFH_REGION_CMD_OP
    let st := s.rd (Reg.EFH_REGION0_STATE i)
    let base := s.rd Reg.EFH_REGION_ARG0_PGA * 2 ^ 21
    let size := 2 ^ s.rd Reg.EFH_REGION_ARG0_LOG2
    let done (s : State) (r : Nat) : State := ((s.wr Reg.EFH_REGION_CMD_BUSY 0).wr Reg.EFH_REGION_CMD_RESULT r).raise 94
    if op = 0 then s.wr Reg.EFH_REGION_CMD_BUSY 0
    else if 3 < op ∨ (op = 1 ∧ s.regionFormat) then done s 3
    else if op = 1 then
      if st = 0 then
        if s.regions.any (fun j => s.rd (Reg.EFH_REGION0_STATE j) != 0 && decide (s.regionBase j < base + size) &&
            decide (base < s.regionBase j + 2 ^ s.rd (Reg.EFH_REGION0_LOG2 j))) then done s 2
        else
          let s := (s.wr (Reg.EFH_REGION0_BASE i) (base / 2 ^ 21)).wr (Reg.EFH_REGION0_LOG2 i) (s.rd Reg.EFH_REGION_ARG0_LOG2)
          let s := (s.wr (Reg.EFH_REGION0_STATE i) 1).wr (Reg.EFH_REGION1_EPOCH i) 1
          done ((s.wr (Reg.EFH_REGION1_OWNER_DEV i) (s.rd Reg.EFH_REGION_ARG1_OWNER_DEV)).wr (Reg.EFH_REGION1_OWNER_PART i)
            (s.rd Reg.EFH_REGION_ARG1_OWNER_PART)) 1
      else
        let s := s.endHand i
        let s := (s.wr (Reg.EFH_REGION0_STATE i) 1).wrapAdd (Reg.EFH_REGION1_EPOCH i) 1
        done ((s.wr (Reg.EFH_REGION1_OWNER_DEV i) (s.rd Reg.EFH_REGION_ARG1_OWNER_DEV)).wr (Reg.EFH_REGION1_OWNER_PART i)
          (s.rd Reg.EFH_REGION_ARG1_OWNER_PART)) 1
    else if op = 2 then done ((s.endHand i).freeRegion i) 1
    else if st ≠ 1 then done s 4
    else
      let s := (s.wr (Reg.EFH_REGION0_STATE i) 4).wr (Reg.EFH_REGION2_TARGET i) (base / 2 ^ 21)
      done { s with efh := { s.efh with idle := s.efh.idle.insert i s.cueNow } } 1

/-- R379, R380: a hand-over of entry i is decided: to the receiver, or back to the sender; an owner that is lost leaves the entry
ORPHANED. -/
def State.resolve (s : State) (i : Nat) (h : HandOver) (give : Bool) : State :=
  let base := s.regionBase i
  let sd := s.rd (Reg.EFH_REGION1_OWNER_DEV i)
  let sp := s.rd (Reg.EFH_REGION1_OWNER_PART i)
  let rd := s.rd (Reg.EFH_REGION1_OFFER_DEV i)
  let rp := s.rd (Reg.EFH_REGION1_OFFER_PART i)
  let e := (s.rd (Reg.EFH_REGION1_EPOCH i) + 1) % 2 ^ 32
  let s := s.wr (Reg.EFH_REGION1_EPOCH i) e
  let s := if give then (s.wr (Reg.EFH_REGION1_OWNER_DEV i) rd).wr (Reg.EFH_REGION1_OWNER_PART i) rp else s
  let s := s.wr (Reg.EFH_REGION0_STATE i) (if bitOf s.res.lostDevices (if give then rd else sd) then 3 else 1)
  let s := { s with efh := { s.efh with hand := s.efh.hand.erase i } }
  let s := (if give then s else s.countOwner 0x22).grant sd 0 sp h.offer base (if give then 0 else 0x22) e
  let s := h.accepts.foldl (fun s a => s.grant rd 1 rp a base (if give then 0 else 0x21) (if give then e else 0)) s
  s.grant rd 3 rp 0 base (if give then 0 else 0x22) e

/-- R379 to R383, R385: regions at a TAKE: the waiting command first, then hand-overs, withdrawals and the log. A lost device is one whose
verdict has been taken. -/
def State.takeRegions (s : State) : State :=
  let s := s.takeRegionCmd
  let s := s.efh.hand.foldl (fun s e =>
    let i := e.1
    let h := e.2
    let lost := bitOf s.res.lostDevices (s.rd (Reg.EFH_REGION1_OFFER_DEV i))
    let s := s.wr (Reg.EFH_REGION1_OFFER_AGE i) (min 15 (s.cueNow - h.cue))
    if !h.accepts.isEmpty then s.resolve i h true
    else if lost then (s.resolve i h false).raise 90
    else match h.reply with
      | some b => (s.resolve i h b).raise 90
      | none => s) s
  let s := s.efh.withdraw.foldl (fun s e =>
    let live := e.2.left &&& (2 ^ 64 - 1 - s.res.lostDevices)
    if live ≠ 0 then s
    else
      let s := (s.wr (Reg.EFH_REGION0_PUB e.1) 0).wrapAdd (Reg.EFH_REGION1_EPOCH e.1) 1
      let s := { s with efh := { s.efh with withdraw := s.efh.withdraw.erase e.1 } }
      e.2.orders.foldl (fun s o => s.grant o.1 2 o.2.1 o.2.2 (s.regionBase e.1) 0 (s.rd (Reg.EFH_REGION1_EPOCH e.1))) s) s
  s.efh.logCue.foldl (fun s e =>
    if s.cueNow < e.2 + 16 then s
    else
      let s := [Reg.EFH_OFFER0_REGION e.1, Reg.EFH_OFFER0_STATE e.1, Reg.EFH_OFFER1_EPOCH e.1, Reg.EFH_OFFER1_FROM_DEV e.1,
        Reg.EFH_OFFER1_FROM_PART e.1, Reg.EFH_OFFER1_TO_PART e.1].foldl (fun s f => s.wr f 0) s
      { s with efh := { s.efh with logCue := s.efh.logCue.erase e.1 } }) s

/-- R383: at a TAKE, a FORWARD entry that has passed nothing on for 8 whole cues becomes FREE. -/
def execForwardDrained (entry : Fin 4096) (s : State) : Res :=
  if s.halted then .next s else
  let i := entry.val
  if s.phase = 0 ∧ s.rd (Reg.EFH_REGION0_STATE i) = 4 ∧ (s.efh.idle.getD i 0) + 8 ≤ s.cueNow then .next ((s.freeRegion i).raise 91)
  else .next s

/-- R453, R373: a request without a response is sent again with its REQID. -/
def execRequestResendTimeout (id : BitVec 16) (s : State) : Res :=
  if s.halted then .next s else
  match s.efh.out.find? (fun q => q.id == id.toNat && q.ans.isNone) with
  | some q => .next (s.resend q)
  | none => .next s

/-- R385: the verdict on device d has been taken: regions it owns become ORPHANED; ownership orders that wait for it end with
ST_DEAD_LETTER, its offers read DEAD, and the step of each surviving party is aborted. -/
def State.regionsLost (s : State) (d : Nat) : State :=
  let s := s.regions.foldl (fun s i =>
    if s.rd (Reg.EFH_REGION0_STATE i) = 1 ∧ s.rd (Reg.EFH_REGION1_OWNER_DEV i) = d then s.wr (Reg.EFH_REGION0_STATE i) 3 else s) s
  let abort (s : State) (p : Nat) : State := (s.setBit Reg.EFH_PART_STATE_ABORT p).raise 93
  let s := (s.ord.list.filter (fun o => 0x10 ≤ o.op && o.op ≤ 0x12 && o.started && pgaDev (o.by_ 8 8) == d)).foldl (fun s o =>
    let s := s.complete o 0x20 0
    if o.op = 0x12 then s else abort s o.part) s
  (List.range 64).foldl (fun s j =>
    if s.rd (Reg.EFH_OFFER0_STATE j) = 1 ∧ pgaDev (s.rd (Reg.EFH_OFFER0_REGION j) * 2 ^ 21) = d then
      let s := s.wr (Reg.EFH_OFFER0_STATE j) 4
      let s := { s with efh := { s.efh with logCue := s.efh.logCue.insert j s.cueNow } }
      abort s (s.rd (Reg.EFH_OFFER1_TO_PART j))
    else s) s

end Sys2Proof.Machine
end

