-- ==== Sys2Proof/Machine/Stream.lean ====
section
/-!
DEFINITION. Compressed blocks (R283 to R287), and the STRM and XFRM instructions of the courier profile (R205 to R207).
-/

namespace Sys2Proof.Machine

/-! ### rANS blocks (R283 to R287) -/

/-- R284: the frequencies of a table, from its 512 bytes. -/
def freqsOf (bs : List Byte) : List Nat := (List.range 256).map (fun i => leBytes ((bs.drop (2 * i)).take 2))

/-- R284: the symbol with cum(s) <= slot < cum(s) + freq(s), with its cum and freq. -/
def symbolAt : List Nat → Nat → Nat → Nat → Option (Nat × Nat × Nat)
  | [], _, _, _ => none
  | f :: fs, s, cum, slot => if slot < cum + f then some (s, cum, f) else symbolAt fs (s + 1) (cum + f) slot

/-- Little-endian 16 bits of a payload at a byte offset. -/
def u16At (bs : List Byte) (p : Nat) : Nat := leBytes ((bs.drop p).take 2)

/-- Little-endian 32 bits of a payload at a byte offset. -/
def u32At (bs : List Byte) (p : Nat) : Nat := leBytes ((bs.drop p).take 4)

/-- R284, R285: the decoder's loop: `n` bytes still to come; states, read position and output so far, latest first. -/
def ransGo (fs : List Nat) (pay : List Byte) : Nat → Nat → List Nat → Nat → List Byte → Option (List Byte)
  | 0, _, xs, p, out => if p = pay.length ∧ xs.all (· == 65536) then some out.reverse else none
  | n + 1, i, xs, p, out =>
    let k := i % 8
    let x := xs.getD k 0
    match symbolAt fs 0 0 (x % 4096) with
    | none => none
    | some (s, cum, f) =>
      let y := f * (x / 4096) + x % 4096 - cum
      if y < 65536 then
        if pay.length ≤ p then none
        else ransGo fs pay n (i + 1) (xs.set k (y * 65536 + u16At pay p)) (p + 2) (BitVec.ofNat 8 s :: out)
      else ransGo fs pay n (i + 1) (xs.set k y) p (BitVec.ofNat 8 s :: out)

/-- The header of a block, where its fields are legal (R283, R285): output bytes, payload bytes, table, CRC. -/
def blockHead (b : List Byte) : Option (Nat × Nat × Nat × Nat) :=
  let byte (i : Nat) : Nat := (b.getD i 0).toNat
  let outB := u16At b 2
  let inB := u16At b 4
  if byte 0 = 1 ∧ byte 1 = 1 ∧ byte 7 = 0 ∧ outB % 64 = 0 ∧ outB ≤ 4096 ∧ 32 ≤ inB ∧ inB ≤ 4080 ∧ inB % 2 = 0 then
    some (outB, inB, byte 6, leBytes ((b.drop 8).take 8))
  else none

/-- R284, R285: decode a block under the bytes of its frequency table: none where it fails its format; else the output and
whether its CRC matches. -/
def decodeBlock (b tab : List Byte) : Option (List Byte × Bool) :=
  match blockHead b with
  | none => none
  | some (outB, inB, _, crc) =>
    let fs := freqsOf tab
    let pay := (b.drop 16).take inB
    let xs := (List.range 8).map (fun k => u32At pay (4 * k))
    if fs.sum ≠ 4096 ∨ !xs.all (fun x => decide (65536 ≤ x)) then none
    else (ransGo fs pay outB 0 xs 32 []).map (fun out => (out, crc64 out == crc))

/-- R284: cum(s) of a table. -/
def cumOf (fs : List Nat) (s : Nat) : Nat := (fs.take s).sum

/-- R284: the encoder: bytes from the last (position i) to the first; states and words so far. None where a byte's frequency
is zero. -/
def ransEncGo (fs : List Nat) : List Byte → Nat → List Nat → List Byte → Option (List Nat × List Byte)
  | [], _, xs, ws => some (xs, ws)
  | b :: bs, i, xs, ws =>
    let f := fs.getD b.toNat 0
    if f = 0 then none
    else
      let k := (i - 1) % 8
      let x := xs.getD k 0
      let big := decide (2 ^ 20 * f ≤ x)
      let y := if big then x / 65536 else x
      let ws := if big then toLe 2 (x % 65536) ++ ws else ws
      ransEncGo fs bs (i - 1) (xs.set k (y / f * 4096 + y % f + cumOf fs b.toNat)) ws

/-- R283, R287: the block that encodes data under a table; none where a byte has frequency zero, the table does not sum to
4,096, or the block would exceed 4,096 B. -/
def encodeBlock (data tab : List Byte) : Option (List Byte) :=
  let fs := freqsOf tab
  if fs.sum ≠ 4096 then none
  else match ransEncGo fs data.reverse data.length (List.replicate 8 65536) [] with
  | none => none
  | some (xs, ws) =>
    let pay := (xs.flatMap (toLe 4)) ++ ws
    if 4096 < 16 + pay.length then none
    else some ([1, 1] ++ toLe 2 data.length ++ toLe 2 pay.length ++ [0, 0] ++ toLe 8 (crc64 data) ++ pay)

/-! ### Staging slots (R263) -/

/-- The n bytes of staging slot m of context k, as a reader sees them. -/
def State.slotBytes (s : State) (k m n : Nat) : List Byte :=
  let a := 4096 * (4 * k + m)
  maskDead s.cour.slotDead a (Memory.bytes s.cour.slot a n)

/-- Whether a codeword of the n bytes from byte b of a slot is marked. -/
def State.slotMarked (s : State) (k m b n : Nat) : Bool := markedIn s.cour.slotDead (4096 * (4 * k + m) + b) n

/-- Write bytes into slot m of context k from byte b, each with its mark; a codeword with a marked byte becomes marked. -/
def State.slotPut (s : State) (k m b : Nat) (bs : List Byte) (marks : List Bool) : State :=
  let a := 4096 * (4 * k + m) + b
  let d := clearWhole s.cour.slotDead a bs.length
  { s with cour := { s.cour with
      slot := Memory.store s.cour.slot a bs
      slotDead := marks.zipIdx.foldl (fun d (x, i) => if x then d.insert ((a + i) / 8) true else d) d } }

/-! ### Reads and writes of byte ranges by a context -/

/-- The partition a context acts for: its plan's, or that of its work. -/
def State.ctxPart (s : State) (k : Nat) : Nat :=
  if s.is1 (Reg.CRR_CTX_PLAN_EN k) then s.rd (Reg.CRR_CTX_PLAN_PARTITION k) else (s.cxAt (ctxKey k)).part

/-- The first byte of piece i of a range that starts at va: a range is served in pieces that end at line boundaries. -/
def pieceLo (va i : Nat) : Nat := if i = 0 then va else (va / 64 + i) * 64

/-- The end of piece i of a range. -/
def pieceHi (va len i : Nat) : Nat := min (va + len) ((va / 64 + i + 1) * 64)

/-- How a range access ends: it waits, it has been served (with a dead letter or without), or a line ended it with a status. -/
inductive Fetch where
  | wait
  | ok (dead : Bool)
  | stat (code va : Nat)
  deriving DecidableEq, Repr

/-- Note how far a context's access has come. -/
def State.setProg (s : State) (k n : Nat) (dead : Bool) : State := s.setCtx k { s.ctx k with prog := n, progDead := dead }

/-- R199, R205: read len bytes from va for context k, in ascending lines, each piece handed to `put` with its position and its
bytes' marks; it goes on from where it waited. `alloc` says that the lines are allocated in the courier's cache (R292). -/
def State.fetchGo (s : State) (k : Nat) (alloc : Bool) (part va len : Nat) (put : State → Nat → List Byte → List Bool → State) : Nat → State × Fetch
  | 0 => (s, .wait)
  | fuel + 1 =>
    let c := s.ctx k
    let i := c.prog
    let lo := pieceLo va i
    if va + len ≤ lo then (s.setProg k 0 false, .ok c.progDead)
    else
      let n := pieceHi va len i - lo
      let (s, r) := s.readVa (65536 + k) (k / 16) alloc (ctxKey k) part (lo / 64 * 64)
      match r with
      | .wait => (s, .wait)
      | .stat code => (s.setProg k 0 false, .stat code lo)
      | .line x m =>
        let bs := ((seenBytes (x, m)).drop (lo % 64)).take n
        let ms := (List.range n).map (fun j => bitOf m ((lo % 64 + j) / 8))
        let s := (put s (lo - va) bs ms).setProg k (i + 1) (c.progDead || ms.any id)
        State.fetchGo s k alloc part va len put fuel

/-- R292: read len bytes from va for context k, through its courier's cache or past it. -/
def State.fetch (s : State) (k : Nat) (alloc : Bool) (part va len : Nat) (put : State → Nat → List Byte → List Bool → State) : State × Fetch :=
  s.fetchGo k alloc part va len put (len / 64 + 3)

/-- R199, R205: write the bytes that `get` gives for each piece (with their marks) to len bytes from va for context k. -/
def State.storeGo (s : State) (k : Nat) (alloc : Bool) (part va len : Nat) (get : State → Nat → Nat → List Byte × List Bool) : Nat → State × Fetch
  | 0 => (s, .wait)
  | fuel + 1 =>
    let c := s.ctx k
    let i := c.prog
    let lo := pieceLo va i
    if va + len ≤ lo then (s.setProg k 0 false, .ok c.progDead)
    else
      let n := pieceHi va len i - lo
      let (bs, ms) := get s (lo - va) n
      let x := lineOf (List.replicate (lo % 64) 0 ++ bs ++ List.replicate (64 - lo % 64 - n) 0)
      let mask := (2 ^ n - 1) * 2 ^ (lo % 64)
      let marks := (List.range 8).foldl (fun m j =>
        m + b2n ((List.range 8).any (fun b => decide (lo % 64 ≤ 8 * j + b) && ms.getD (8 * j + b - lo % 64) false)) * 2 ^ j) 0
      let (s, r) := s.writeVa (65536 + k) (k / 16) alloc (ctxKey k) part (lo / 64 * 64) x marks mask
      match r with
      | .wait => (s, .wait)
      | .stat code => (s.setProg k 0 false, .stat code lo)
      | .line _ _ => State.storeGo (s.setProg k (i + 1) (c.progDead || marks != 0)) k alloc part va len get fuel

/-- R292: write len bytes at va for context k, through its courier's cache or past it. -/
def State.storeVa (s : State) (k : Nat) (alloc : Bool) (part va len : Nat) (get : State → Nat → Nat → List Byte × List Bool) : State × Fetch :=
  s.storeGo k alloc part va len get (len / 64 + 3)

/-- The number of the context an agent is; only the courier profile runs STRM and XFRM. -/
def ctxOf (u : Agent) : Nat := match u with | .ctx k => k.val | _ => 0

/-- R206: the access of an instruction of a context waits: the register its status goes to is kept for ABANDON. -/
def strmWait (u : Agent) (f : BitVec 52) (s : State) : Body :=
  let s := s.setCtx (ctxOf u) { s.ctx (ctxOf u) with faultD := some (fD f) }
  .wait s (if (s.cx u).st == .run then .hold else (s.cx u).st)

/-- R206, R310: an access of an instruction of context k ends with a status: a translation fault switches the context out with the instruction not executed;
another status completes it. -/
def strmStat (u : Agent) (f : BitVec 52) (write : Bool) (code va : Nat) (s : State) : Body :=
  if code = 0x10 then
    let s := (s.setCtx (ctxOf u) { s.ctx (ctxOf u) with faultD := some (fD f) }).ctxFault (ctxOf u) va write 0x10
    .wait s (s.cx u).st
  else .go ((s.setCtx (ctxOf u) { s.ctx (ctxOf u) with faultD := none }).setCx u ((s.cx u).setS (fD f) code))

/-- R199, R205, R206: how a STRM access of context k completes: it waits, it ends with a status, or with ST_OK, ST_DEAD_LETTER where a line carried a mark. -/
def strmEnd (u : Agent) (f : BitVec 52) (write : Bool) (q : State × Fetch) : Body :=
  let s := q.1
  match q.2 with
  | .wait => strmWait u f s
  | .ok dead => .go ((s.setCtx (ctxOf u) { s.ctx (ctxOf u) with faultD := none }).setCx u ((s.cx u).setS (fD f) (if dead then 0x20 else 0)))
  | .stat code va => strmStat u f write code va s

/-- R205: the length check of STRM: BAD_FORMAT, or ST_OK for a length of zero, before anything else. -/
def strmLen (u : Agent) (f : BitVec 52) (max : Nat) (x : Cx) (s : State) (body : Body) : Body :=
  let n := x.sr (fB f)
  if n % 64 ≠ 0 ∨ max < n then .go (s.setCx u (x.setS (fD f) 0x30))
  else if n = 0 then .go (s.setCx u (x.setS (fD f) 0))
  else body

/-! ### STRM, major 0x13 -/

/-- R205: the encoding of SLOAD. -/
def encSload : Enc := { major := 0x13, minor := 0, d := .s, a := .a, b := .s, modMask := 3 }

/-- R205 SLOAD: slot MOD[1:0] bytes 0 to sB − 1 := the store at aA. -/
def execSload (u : Agent) (f : BitVec 52) (s : State) : Res :=
  .next (issue u encSload f true (fun x s =>
    let k := ctxOf u
    strmLen u f 4096 x s (strmEnd u f false
      (s.fetch k true (s.ctxPart k) (x.ar (fA f)) (x.sr (fB f)) (fun s b bs ms => s.slotPut k (fMOD f % 4) b bs ms)))) s)

/-- R205: the encoding of SSTORE. -/
def encSstore : Enc := { major := 0x13, minor := 1, d := .s, a := .a, b := .s, modMask := 3 }

/-- R205 SSTORE: the store at aA := slot bytes 0 to sB − 1. -/
def execSstore (u : Agent) (f : BitVec 52) (s : State) : Res :=
  .next (issue u encSstore f true (fun x s =>
    let k := ctxOf u
    let m := fMOD f % 4
    strmLen u f 4096 x s (strmEnd u f true
      (s.storeVa k true (s.ctxPart k) (x.ar (fA f)) (x.sr (fB f)) (fun s b n =>
        (Memory.bytes s.cour.slot (4096 * (4 * k + m) + b) n,
         (List.range n).map (fun j => s.slotMarked k m (b + j) 1)))))) s)

/-- R205: the encoding of SDLV. -/
def encSdlv : Enc := { major := 0x13, minor := 2, d := .s, a := .a, b := .s, modMask := 7 }

/-- The credits a context holds for what it delivers itself: those of the entry it runs; without a plan the spec sets no
bound (log entry 18). -/
def State.sdlvCredits (s : State) (k : Nat) : Nat := match (s.ctx k).job with | some j => j.ent.credits | none => 2 ^ 16

/-- R205: the parcels of an SDLV from where it stands; it waits for a credit between parcels. -/
def State.sdlvGo (s : State) (u : Agent) (k m d n : Nat) (last : Bool) : Nat → State × Bool
  | 0 => (s, true)
  | fuel + 1 =>
    let c := s.ctx k
    let i := c.prog
    let stream := bitsOf d 32 6
    if n ≤ 64 * i then (s.setProg k 0 false, true)
    else if s.sdlvCredits k ≤ s.dlvUsed k { stream := stream, troupe := bitsOf d 0 13 } then (s, false)
    else
      let it : DlvItem :=
        { stream := stream, troupe := bitsOf d 0 13, line := bitsOf d 16 13 + i, unit := (s.cx u).unit,
          data := lineOf ((s.slotBytes k m n).drop (64 * i) |>.take 64), poison := s.slotMarked k m (64 * i) 64,
          last := last && n == 64 * (i + 1), part := s.ctxPart k }
      let s := s.injectDlv k it
      State.sdlvGo (s.setProg k (i + 1) false) u k m d n last fuel

/-- R205: whether the descriptor of an SDLV of n bytes is one that is delivered; a reserved TROUPE is not (log entry 108). -/
def sdlvDescOk (d n : Nat) : Bool :=
  bitsOf d 38 26 == 0 && bitsOf d 29 3 == 0 && bitsOf d 13 3 == 0 && decide (bitsOf d 16 13 < 6144) &&
    decide (bitsOf d 16 13 + n / 64 ≤ 6144) && decide (bitsOf d 0 13 < 6250)

/-- R20, R205 SDLV: delivers slot bytes 0 to sB − 1 as DLV parcels under the descriptor in aA. ST_BAD_FORMAT comes before the ST_OK of a
length of zero. -/
def execSdlv (u : Agent) (f : BitVec 52) (s : State) : Res :=
  .next (issueW u encSdlv f true true .credit (fun x s =>
    let k := ctxOf u
    let d := x.ar (fA f)
    let n := x.sr (fB f)
    if !sdlvDescOk d n then .go (s.setCx u (x.setS (fD f) 0x30))
    else strmLen u f 4096 x s
      (let (s, done) := s.sdlvGo u k (fMOD f % 4) d n (bitOf (fMOD f) 2) (n / 64 + 1)
       if done then .go (s.setCx u ((s.cx u).setS (fD f) 0)) else .wait s .credit)) s)

/-- R205: the encoding of SLDV. -/
def encSldv : Enc := { major := 0x13, minor := 3, d := .s, a := .a, b := .s, c := .s }

/-- Write bytes into the v-register buffer of context k from byte b. -/
def State.vbufPut (s : State) (k b : Nat) (bs : List Byte) : State :=
  let x := s.cxAt (ctxKey k)
  s.setCxAt (ctxKey k) (bs.zipIdx.foldl (fun x (y, i) =>
    let p := b + i
    x.setL (p / 64) (p % 64 / 4) (putBits (x.vl (p / 64) (p % 64 / 4)) (8 * (p % 4)) 8 y.toNat)) x)

/-- The n bytes of the v-register buffer of context k from byte b. -/
def State.vbufGet (s : State) (k b n : Nat) : List Byte :=
  let x := s.cxAt (ctxKey k)
  (List.range n).map (fun i => BitVec.ofNat 8 (bitsOf (x.vl ((b + i) / 64) ((b + i) % 64 / 4)) (8 * ((b + i) % 4)) 8))

/-- R205 SLDV: the v-register buffer at byte sC := sB bytes from the store at aA. -/
def execSldv (u : Agent) (f : BitVec 52) (s : State) : Res :=
  .next (issue u encSldv f true (fun x s =>
    let k := ctxOf u
    let b := x.sr (fC f)
    strmLen u f 1024 x s
      (if b % 64 ≠ 0 ∨ 1024 < b + x.sr (fB f) then .exc 4 b
       else strmEnd u f false
        (s.fetch k true (s.ctxPart k) (x.ar (fA f)) (x.sr (fB f)) (fun s i bs _ => s.vbufPut k (b + i) bs)))) s)

/-- R205: the encoding of SSTV. -/
def encSstv : Enc := { major := 0x13, minor := 4, d := .s, a := .a, b := .s, c := .s }

/-- R205 SSTV: the store at aA := sB bytes of the v-register buffer from byte sC. -/
def execSstv (u : Agent) (f : BitVec 52) (s : State) : Res :=
  .next (issue u encSstv f true (fun x s =>
    let k := ctxOf u
    let b := x.sr (fC f)
    strmLen u f 1024 x s
      (if b % 64 ≠ 0 ∨ 1024 < b + x.sr (fB f) then .exc 4 b
       else strmEnd u f true
        (s.storeVa k true (s.ctxPart k) (x.ar (fA f)) (x.sr (fB f)) (fun s i n => (s.vbufGet k (b + i) n, []))))) s)

/-- R205: the encoding of SUNIT. -/
def encSunit : Enc := { major := 0x13, minor := 5, iform := true, imm := 16 }

/-- The unit with an id that a context serves: on the troupe of the entry it runs, else on the lowest troupe of its partition
that defines it. -/
def State.unitFor (s : State) (k id : Nat) : Option UnitDesc :=
  let own := match (s.ctx k).job with
    | some j => (s.physOf j.ent.troupe).bind (fun t => (s.troupe t).unit id)
    | none => none
  match own with
  | some u => some u.desc
  | none => (s.troupesOf (s.ctxPart k)).findSome? (fun t => ((s.troupe t).unit id).map (·.desc))

/-- R205 SUNIT: binds the context to unit IMM[15:0]; UNIT, DLINE and DDEL then report that unit, DLINE and DDEL zero where no
troupe of the partition defines it (log entry 109). -/
def execSunit (u : Agent) (f : BitVec 52) (s : State) : Res :=
  .next (issue u encSunit f true (fun x s =>
    let id := fIMM f
    let d := (s.unitFor (ctxOf u) id).getD {}
    .go (s.setCx u { x with unit := id, dline := d.d, ddel := d.ddel })) s)

/-! ### XFRM, major 0x14 -/

/-- R207, R287: the frequency table set of a context: its plan's TABLES, or that of its work order. -/
def State.tablesOf (s : State) (k : Nat) : Nat :=
  match (s.ctx k).job with
  | some j => j.tables
  | none =>
    if s.is1 (Reg.CRR_CTX_PLAN_EN k) then s.cohNum (pgaOff (s.rd (Reg.CRR_CTX_PLAN_PLAN k) * 64) + 8) 8
    else (s.ctx k).tables

/-- R284: read table t of a context's set into the context's table buffer. -/
def State.fetchTable (s : State) (k part tables t : Nat) : State × Fetch :=
  s.fetch k true part (tables + 512 * t) 512 (fun s b bs _ =>
    s.setCtx k { s.ctx k with tbuf := Memory.store (s.ctx k).tbuf b bs })

/-- The table bytes read last. -/
def State.tableBytes (s : State) (k : Nat) : List Byte := Memory.bytes (s.ctx k).tbuf 0 512

/-- R207, R310: the end of an XFRM that needs a table: the read waits, or its status ends the instruction, or `op` completes it. -/
def xfrmTable (u : Agent) (f : BitVec 52) (q : State × Fetch) (op : State → Body) : Body :=
  let s := q.1
  match q.2 with
  | .wait => strmWait u f s
  | .stat code va => strmStat u f false code va s
  | .ok _ => op s

/-- R207: the encoding of DCMP. -/
def encDcmp : Enc := { major := 0x14, minor := 0, d := .s, modMask := 15 }

/-- R207 DCMP: decompresses the block in slot MOD[1:0] into slot MOD[3:2]; sD[20:8] := the output byte count. -/
def execDcmp (u : Agent) (f : BitVec 52) (s : State) : Res :=
  let m := fMOD f % 4
  let d := fMOD f / 4 % 4
  .next (issue u encDcmp f (m != d) (fun x s =>
    let k := ctxOf u
    let b := s.slotBytes k m 4096
    match blockHead b with
    | none => .go (s.setCx u (x.setS (fD f) 0x30))
    | some (_, _, t, _) => xfrmTable u f (s.fetchTable k (s.ctxPart k) (s.tablesOf k) t) (fun s =>
        match decodeBlock b (s.tableBytes k) with
        | none => .go (s.setCx u ((s.cx u).setS (fD f) 0x30))
        | some (out, good) =>
          let s := s.slotPut k d 0 out (List.replicate out.length (!good))
          let s := s.setCtx k { s.ctx k with outBytes := (s.ctx k).outBytes + out.length }
          .go (s.setCx u ((s.cx u).setS (fD f) ((if good then 0 else 0x20) + 256 * out.length))))) s)

/-- R207: the encoding of ENC. -/
def encEnc : Enc := { major := 0x14, minor := 1, d := .s, b := .s, modMask := 15 }

/-- R207, R287, R452 ENC: compresses sB bytes of slot MOD[1:0] into slot MOD[3:2] with table 0. -/
def execEnc (u : Agent) (f : BitVec 52) (s : State) : Res :=
  let m := fMOD f % 4
  let d := fMOD f / 4 % 4
  .next (issue u encEnc f (m != d) (fun x s =>
    let k := ctxOf u
    let n := x.sr (fB f)
    if n % 64 ≠ 0 ∨ 4096 < n then .go (s.setCx u (x.setS (fD f) 0x30))
    else if n = 0 then .go (s.setCx u (x.setS (fD f) 0))
    else if s.slotMarked k m 0 n then .go (s.setCx u (x.setS (fD f) 0x20))
    else xfrmTable u f (s.fetchTable k (s.ctxPart k) (s.tablesOf k) 0) (fun s =>
      match encodeBlock (s.slotBytes k m n) (s.tableBytes k) with
      | none => .go (s.setCx u ((s.cx u).setS (fD f) 0x30))
      | some b =>
        let s := s.slotPut k d 0 b []
        .go (s.setCx u ((s.cx u).setS (fD f) (256 * b.length))))) s)

/-- R207: the encoding of PTRX. -/
def encPtrx : Enc := { major := 0x14, minor := 2, d := .s, b := .a, modMask := 63 }

/-- R207, R322 PTRX: converts the selected 8 B words of slot MOD[1:0] between host window addresses and PGAs. -/
def execPtrx (u : Agent) (f : BitVec 52) (s : State) : Res :=
  .next (issue u encPtrx f true (fun x s =>
    let k := ctxOf u
    let m := fMOD f % 4
    let base := 512 * (fMOD f / 4 % 8)
    let sel := x.ar (fB f)
    let conv (w : Nat) : Option Nat :=
      if w = 0 then some 0
      else if bitOf (fMOD f) 5 then s.pgaToHost (s.ctxPart k) s.hst.bar2 w else s.hostToPga (s.ctxPart k) s.hst.bar2 w
    let (s, bad) := (List.range 64).foldl (fun (q : State × Bool) i =>
      if !bitOf sel i then q
      else
        let w := leBytes ((q.1.slotBytes k m 4096).drop (base + 8 * i) |>.take 8)
        match conv w with
        | none => (q.1, true)
        | some y => (if y = w then q.1 else q.1.slotPut k m (base + 8 * i) (toLe 8 y) [], q.2)) (s, false)
    .go (s.setCx u ((s.cx u).setS (fD f) (if bad then 0x10 else 0)))) s)

/-- R207: the encoding of CRC64. -/
def encCrc64 : Enc := { major := 0x14, minor := 3, d := .num 15, b := .s, modMask := 3 }

/-- R207 CRC64: aD := the CRC-64 of bytes 0 to sB − 1 of slot MOD[1:0]; with sB zero nothing is done but the status (R15). -/
def execCrc64 (u : Agent) (f : BitVec 52) (s : State) : Res :=
  .next (issue u encCrc64 f true (fun x s =>
    let n := x.sr (fB f)
    if 4096 < n then .go (s.setCx u (x.setS (fD f) 0x30))
    else if n = 0 then .go (s.setCx u (x.setS (fD f) 0))
    else .go (s.setCx u ((x.setA (fD f) (crc64 (s.slotBytes (ctxOf u) (fMOD f % 4) n))).setS (fD f) 0))) s)

end Sys2Proof.Machine
end

