-- ==== Sys2Proof/Machine/Serve.lean ====
section
/-!
DEFINITION. POOL courier contexts that serve work orders: their reads and writes of virtual addresses, and how a fault ends one
(R206, R265, R289, R313, R499).
-/

namespace Sys2Proof.Machine

/-- Whether a POOL context is free to take a work order. -/
def State.poolFree (s : State) (k : Nat) : Bool :=
  (s.cxAt (ctxKey k)).st == .pool && !s.is1 (Reg.CRR_CTX_PLAN_EN k) && !s.halted &&
    (match s.door.arm with | some a => a.kind != 3 || k / 512 != a.die | none => true)

/-- R265: context k serves a work order: the one it is bound to, while it is in RUN, or a new one, if it is free. -/
def State.serving (s : State) (o : Order) (k : Nat) : Option (State × Order) :=
  match o.ctx with
  | some c => if c = k ∧ (s.cxAt (ctxKey k)).st = .run then some (s, o) else none
  | none =>
    if s.poolFree k then
      let o := { o with ctx := some k, started := true }
      let s := s.setCxAt (ctxKey k) { s.cxAt (ctxKey k) with st := .run, part := o.part }
      let s := s.setCtx k { s.ctx k with faultD := none, abandoned := false, prog := 0, progDead := false }
      some (s.setOrder o, o)
    else none

/-- The context that serves a work order is free again. -/
def State.unserve (s : State) (o : Order) : State :=
  match o.ctx with
  | some k => (s.setCtx k { s.ctx k with abandoned := false, prog := 0, progDead := false }).endWork k
  | none => s

/-- A work order completes, and the context that served it is free again. -/
def State.finishOrder (s : State) (o : Order) (status info : Nat) : State := (s.unserve o).complete o status info

/-- R289, R313: whether the fault of the access that context k makes for a work order has been abandoned. -/
def State.gaveUp (s : State) (k : Nat) : Bool := (s.ctx k).abandoned

/-- R206, R499: how an access for a work order goes on: it waits, it faults and its context is switched out, it was served (with a dead letter or
not), or it ended with a status. -/
def State.after (q : State × Fetch) (k : Nat) (write : Bool) (served : State → Bool → State) (ended : State → Nat → State) : State :=
  match q.2 with
  | .wait => q.1
  | .ok dead => served q.1 dead
  | .stat code va => if code = 0x10 then q.1.ctxFault k va write 0x10 else ended q.1 code

/-- Read n bytes at va for context k into its buffer. -/
def State.fetchBuf (s : State) (k part va n : Nat) : State × Fetch :=
  s.fetch k false part va n (fun s b bs _ => s.setCtx k { s.ctx k with tbuf := Memory.store (s.ctx k).tbuf b bs })

/-- The n bytes a context has read last. -/
def State.bufBytes (s : State) (k n : Nat) : List Byte := Memory.bytes (s.ctx k).tbuf 0 n

/-- Write bytes at va for context k, all marked as dead letters or none. -/
def State.storeBytes (s : State) (k part va : Nat) (bs : List Byte) (dead : Bool) : State × Fetch :=
  s.storeVa k false part va bs.length (fun _ b n => ((bs.drop b).take n, List.replicate n dead))

end Sys2Proof.Machine
end

