-- ==== Sys2Proof/Machine/Embed.lean ====
section
/-!
DEFINITION. Embedding tables: GATHER, SCATTER_ADD and ROW_PUT at the front, the row server at the home, DET accumulators, selector flips
and moved rows (R411 to R428).
-/

namespace Sys2Proof.Machine

/-! ### Tables and rows (R411, R412, R425) -/

/-- R412: S, the smallest power of two that is at least 16 times ROW16. -/
def slotSize (row16 : Nat) : Nat :=
  ((List.range 9).map (fun i => 16 * 2 ^ i)).find? (fun x => decide (16 * row16 ≤ x)) |>.getD 4096

/-- R414: E, the elements of a row. -/
def rowElems (ty row16 : Nat) : Nat := 128 * row16 / tyBits ty

/-- R425: the enabled EMB_MOVE entry that names a row. -/
def State.moveOf (s : State) (table row : Nat) : Option Nat :=
  (s.listed (Reg.EMB_MOVE0_EN 0) 0x10 1024).find? (fun k => s.is1 (Reg.EMB_MOVE0_EN k) && s.rd (Reg.EMB_MOVE0_TABLE k) == table &&
    s.rd (Reg.EMB_MOVE0_ROW k) == row)

/-- R412: the shard of a row. -/
def State.shardOf (s : State) (table row : Nat) : Nat := row % max 1 (s.rd (Reg.EMB_TABLE0_SHARDS table))

/-- R412, R425: the device that a row is at home on. -/
def State.rowHome (s : State) (table row : Nat) : Nat :=
  match s.moveOf table row with
  | some k => s.rd (Reg.EMB_MOVE0_NEW_DEV k)
  | none => s.rd (Reg.EMB_TABLE0_FIRST_DEV table) + s.shardOf table row

/-- R412, R425: where a row lies on this device: the store offset of its version slot 0, the distance to slot 1, the offset of its selector byte,
the selector's bit. -/
structure RowAt where
  base : Nat
  stride : Nat
  sel : Nat
  bit : Nat
  deriving DecidableEq, Repr

/-- R412, R425: where a row lies on this device. -/
def State.rowAt (s : State) (table row : Nat) : Option RowAt :=
  if s.rowHome table row ≠ s.device then none
  else match s.moveOf table row with
  | some k =>
    let h := s.rd (Reg.EMB_MOVE1_HOT k)
    let b := 8192 * s.rd Reg.EMB_HOT_BASE
    some { base := b + 8192 * h, stride := 4096, sel := b + 8192 * s.rd Reg.EMB_HOT_SLOTS + h / 8, bit := h % 8 }
  | none =>
    let size := slotSize (s.rd (Reg.EMB_TABLE0_ROW16 table))
    let r := row / max 1 (s.rd (Reg.EMB_TABLE0_SHARDS table))
    some { base := 64 * s.rd (Reg.EMB_TABLE1_DATA table) + 2 * size * r, stride := size,
           sel := 64 * s.rd (Reg.EMB_TABLE2_SEL table) + r / 8, bit := r % 8 }

/-- The row's selector (R412). -/
def State.selector (s : State) (a : RowAt) : Nat := bitsOf (s.cohNum a.sel 1) a.bit 1

/-- The store offset of the row's active slot. -/
def State.activeSlot (s : State) (a : RowAt) : Nat := a.base + a.stride * s.selector a

/-! ### The row cache (R423) -/

/-- R423: the bank of every line of a row, by a hash of the table and the local row that the PB25 fixes and the spec does not give (log
entry 2). -/
def rowBank (table localRow : Nat) : Nat := Config.freeValue (2 ^ 66 + 2 ^ 41 * table + localRow) % 48

/-- R412: the local row of a row index, R423's operand of the bank. -/
def State.rowBankOf (s : State) (table row : Nat) : Nat := rowBank table (row / max 1 (s.rd (Reg.EMB_TABLE0_SHARDS table)))

/-- R423: the set of a line among the 2,048 of its bank, which the PB25 fixes and the spec does not give (log entry 2). -/
def cacheSet (line : Nat) : Nat := Config.freeValue (2 ^ 65 + line) % 2048

/-- R325, R423: the tracked agent that the row cache is. -/
def rowAgent : Nat := 24

/-- The counter of a line that is being filled. -/
def rowFilling : Nat := 16

/-- R423: whether the row cache has a line as a lookup (any copy) or an update (E or M) takes it. -/
def State.rowHas (s : State) (line : Nat) (write : Bool) : Bool :=
  if write then (let c := s.copyAt rowAgent line; c.st == 3 || c.st == 4) else s.holds rowAgent line

/-- The lines that the requests issued at this home need. -/
def State.rowWanted (s : State) : List Nat :=
  s.emb.held.flatMap (fun q => match q.slot with
    | some off => (linesOf off (if 4 ≤ q.kind then q.n else 16 * s.rd (Reg.EMB_TABLE0_ROW16 q.table))).map (fun l => s.lineKey (64 * l))
    | none => [])

/-- R423: a way for a line in its set, a fill evicting the way of lowest count, ties to the least recently used; a line that requests wait for is no victim.
Whether there is one. -/
def State.rowWay (s : State) (bank line : Nat) : State × Bool :=
  let mates := if s.emb.rows.length < 16 then []
    else List.filter (fun (y : Nat × Nat × Nat × Nat) => y.1 != line && y.2.2.2 == bank && cacheSet y.1 == cacheSet line &&
      (let c := s.copyAt rowAgent y.1; c.st != 0 && c.st != 11)) s.emb.rows
  if mates.length < 16 then (s, true)
  else
    let wanted := s.rowWanted
    match mates.filter (fun y => decide (y.2.1 < rowFilling) && !wanted.contains y.1 && (let c := s.copyAt rowAgent y.1; decide (1 ≤ c.st) && decide (c.st ≤ 4))) with
    | [] => (s, false)
    | m :: ms =>
      let v := ms.foldl (fun b y => if y.2.1 < b.2.1 ∨ (y.2.1 = b.2.1 ∧ y.2.2.1 < b.2.2.1) then y else b) m
      (({ s with emb := { s.emb with rows := s.emb.rows.erase v.1 } }).replaceCopy rowAgent v.1, true)

/-- R423: the row cache asks for a line it lacks: a fill, or an upgrade of the copy it has. Whether it has the line as the request takes it, no posted write of the hub
waiting before it. -/
def State.rowLine (s : State) (bank : Nat) (write : Bool) (l : Nat) : State × Bool :=
  let line := s.lineKey (64 * l)
  let ask (s : State) : State := s.agentDo rowAgent line 16 1 (if write then some {} else none)
  if s.hubWaits (64 * l) then (s, false)
  else if s.rowHas line write then (s, true)
  else match (s.copyAt rowAgent line).st with
    | 0 =>
      let (s, ok) := s.rowWay bank line
      if !ok then (s, false)
      else (ask { s with emb := { s.emb with rows := s.emb.rows.insert line (rowFilling, s.emb.stamp, bank), stamp := s.emb.stamp + 1 } }, false)
    | 1 => (ask s, false)
    | 2 => (ask s, false)
    | _ => (s, false)

/-- R423: the row cache asks for every line of a row: whether it has them all. -/
def State.rowLines (s : State) (bank off n : Nat) (write : Bool) : State × Bool :=
  (linesOf off n).foldl (fun (q : State × Bool) l =>
    match q.1.rowLine bank write l with
    | (s, ok) => (s, q.2 && ok)) (s, true)

/-- R423: a lookup or update of a line that the row cache has: a hit adds 1 to its counter; the first after its fill was a miss. -/
def State.rowUsed1 (s : State) (bank line : Nat) : State :=
  let e := s.emb
  let put (c : Nat) (s : State) : State := { s with emb := { s.emb with rows := e.rows.insert line (c, e.stamp, bank), stamp := e.stamp + 1 } }
  match e.rows.find? line with
  | some x => if x.1 = rowFilling then put 1 (s.satAdd Reg.EMB_CACHE_STAT_MISS 1) else put (min 15 (x.1 + 1)) (s.satAdd Reg.EMB_CACHE_STAT_HIT 1)
  | none => put 1 (s.satAdd Reg.EMB_CACHE_STAT_HIT 1)

/-- R423: the lines of a row are used. -/
def State.rowUsed (s : State) (bank off n : Nat) : State := (linesOf off n).foldl (fun s l => s.rowUsed1 bank (s.lineKey (64 * l))) s

/-- R423: bytes are written at a store offset, into lines that the row cache has in E or M. -/
def State.rowWrite (s : State) (off : Nat) (bs : List Byte) (dead : Bool) : State :=
  (linesOf off bs.length).foldl (fun s l =>
    let p := partOf off bs dead l
    s.storeHit rowAgent (s.lineKey (64 * l)) { mask := p.2, data := p.1.1, marks := p.1.2, take := true, tk := 1 }) s

/-- R423: at a TAKE at a multiple of 64 every counter is halved. -/
def State.halveRows (s : State) : State :=
  { s with emb := { s.emb with rows := s.emb.rows.mapVals (fun _ x => (if x.1 = rowFilling then x.1 else x.1 / 2, x.2)) } }

/-! ### Rows and elements -/

/-- The elements of a row's bytes as codes. -/
def elemsOf (w : Nat) (bs : List Byte) : List Nat :=
  (List.range (8 * bs.length / w)).map (fun e => bitsOf (leBytes bs) (w * e) w)

/-- Codes of w bits packed into n bytes. -/
def packElems (w n : Nat) (cs : List Nat) : List Byte := toLe n (cs.foldr (fun c acc => c % 2 ^ w + 2 ^ w * acc) 0)

/-- The magnitude m times 2^e divided by d, floored at scale k, and whether that is exact. -/
def divAt (m : Nat) (e : Int) (d : Nat) (k : Int) : Nat × Bool :=
  let num := m * 2 ^ (e + k).toNat
  let den := d * 2 ^ (-(e + k)).toNat
  (num / den, num % den == 0)

/-- R417 MEAN: a value divided by BAG, rounded once to binary32 under RNE with SAT = 1. -/
def meanOf (v : FV) (bag : Nat) : Nat :=
  match v with
  | .nan => fmt32.nanCode
  | .inf n => fmt32.infCode n
  | .fin n m e =>
    if m = 0 then fmt32.signBit n
    else (roundF fmt32 false 0 true 0 n (divAt m (clampExp m e) bag) (lgOf (divAt m (clampExp m e) bag) 3000)).1

/-- R417: MEAN of a tally lane under DET. -/
def laneMean (b : Int) (x : TLane) (bag : Nat) : Nat :=
  if x.f.toNat &&& (tfNAN ||| tfPINF ||| tfNINF ||| tfBASE) ≠ 0 then (x.toFloat b 2 0 true 0).1
  else meanOf (.fin (x.t.toInt < 0) x.t.toInt.natAbs b) bag

/-- R417 MAX: the larger of two binary32 codes under R181. -/
def maxOf (a b : Nat) : Nat :=
  let x := decodeF fmt32 a
  let y := decodeF fmt32 b
  if x.isNan && y.isNan then fmt32.nanCode else if x.isNan then b else if y.isNan then a else if x.ltz y then b else a

/-! ### The home (R416, R418 to R422, R426) -/

/-- The answer to a row request: its status and, for a lookup, the row with its dead-letter mark. -/
def State.rowAnswer (s : State) (q : EmbReq) (status : Nat) (bs : List Byte) : State :=
  s.send { name := "ROW_RESULT", dest := q.src, args := [s.device, q.id, q.n, status], bytes := bs }

/-- R426: a row request goes on to another home. -/
def State.rowForward (s : State) (q : EmbReq) (dest : Nat) : State :=
  s.send { name := if q.kind = 0 then "ROW_LOOKUP" else "ROW_UPDATE", dest := dest,
           args := [q.src, q.part, q.id, q.n, q.table, q.row, q.kind, unsgn 10 q.base, b2n q.f32, b2n q.dead], bytes := q.data }

/-- R419: a DET contribution enters its row's accumulator, or opens one where lines are free; `none` where none are. -/
def State.detAdd (s : State) (q : EmbReq) : Option State :=
  let ty := s.rd (Reg.EMB_TABLE0_TYPE q.table)
  let w := if q.f32 then 32 else tyBits ty
  let es := (elemsOf w q.data).map (fun c => elemVal (if q.f32 then 2 else ty) c)
  let here (a : DetAcc) : Bool := a.table == q.table && a.row == q.row
  let add (a : DetAcc) : DetAcc :=
    if a.base ≠ q.base then
      { a with lanes := a.lanes.map (fun x => { x with f := x.f ||| BitVec.ofNat 8 tfBASE }), from_ := a.from_ ++ [q] }
    else { a with lanes := a.lanes.zipIdx.map (fun (x, i) => x.addTerms a.base [(es.getD i (.fin false 0 0), false)]), from_ := a.from_ ++ [q] }
  if s.emb.acc.any here then some { s with emb := { s.emb with acc := s.emb.acc.map (fun a => if here a then add a else a) } }
  else
    let n := rowElems ty (s.rd (Reg.EMB_TABLE0_ROW16 q.table))
    let lines := (24 * n + 63) / 64
    if s.rd Reg.EMB_CACHE_DET_LINES < ((s.emb.acc ++ s.emb.due).map (·.lines)).sum + lines then none
    else
      let a : DetAcc := { table := q.table, row := q.row, base := q.base, lanes := List.replicate n {}, lines := lines }
      some { s with emb := { s.emb with acc := s.emb.acc ++ [add a] } }

/-- R416, R421: a lookup reads its row. -/
def State.rowRead (s : State) (q : EmbReq) (off n : Nat) : State :=
  let (bs, dead) := s.cohRead off n
  s.rowAnswer q (if dead then 0x20 else 0) bs

/-- R416, R418: an addition to a row: each element rounded once. -/
def State.rowAdd (s : State) (q : EmbReq) (off n : Nat) : State :=
  let ty := s.rd (Reg.EMB_TABLE0_TYPE q.table)
  let (bs, dead) := s.cohRead off n
  if dead ∨ q.dead then s.rowAnswer q 0x20 []
  else
    let src := (elemsOf (if q.f32 then 32 else tyBits ty) q.data).map (elemVal (if q.f32 then 2 else ty))
    let new := (elemsOf (tyBits ty) bs).zipIdx.map (fun (c, i) =>
      (Machine.finish (fmtOf ty) 0 false 0 (FV.add 0 (elemVal ty c) (src.getD i (.fin false 0 0)))).1)
    (s.rowWrite off (packElems (tyBits ty) n new) false).rowAnswer q 0 []

/-- R420: a put into a row's inactive slot, whose selector flips at the next TAKE. -/
def State.rowPut (s : State) (q : EmbReq) (off n : Nat) : State :=
  let s := s.rowWrite off (q.data.take n) q.dead
  let s := if s.emb.flips.contains (q.table, q.row) then s
           else { s with emb := { s.emb with flips := s.emb.flips ++ [(q.table, q.row)] } }
  s.rowAnswer q 0 []

/-- R419: the DET accumulator that a TAKE closed is converted into its row's slot, and its contributions are answered. -/
def State.detApply (s : State) (q : EmbReq) (off n : Nat) : State :=
  match s.emb.due.find? (fun a => a.table == q.table && a.row == q.row) with
  | none => s
  | some x =>
    let s := { s with emb := { s.emb with due := s.emb.due.erase x } }
    let (bs, dead) := s.cohRead off n
    if dead then x.from_.foldl (fun s q => s.rowAnswer q 0x20 []) s
    else
      let old := elemsOf (tyBits q.id) bs
      let new := x.lanes.zipIdx.map (fun (l, i) => ((l.addTerms x.base [(elemVal q.id (old.getD i 0), false)]).toFloat x.base q.id 0 false 0).1)
      x.from_.foldl (fun s q => s.rowAnswer q 0 []) (s.rowWrite off (packElems (tyBits q.id) n new) false)

/-- R426: the frozen slot of a row sets out for its new home. -/
def State.rowMove (s : State) (q : EmbReq) (off n : Nat) : State :=
  let marks := (List.range (n / 8)).foldl (fun m j => m + b2n (s.cohRead (off + 8 * j) 8).2 * 2 ^ j) 0
  s.send { name := "HOT_ROW", dest := q.id, args := [s.device, q.table, q.row, marks], bytes := (s.cohRead off n).1 }

/-- R416, R418 to R421, R426: a request that has been issued for the slot at a store offset is performed once the row cache has its lines; until then it is held. -/
def State.rowServe (s : State) (q : EmbReq) (off : Nat) : State × Option EmbReq :=
  let n := if 4 ≤ q.kind then q.n else 16 * s.rd (Reg.EMB_TABLE0_ROW16 q.table)
  let bank := s.rowBankOf q.table q.row
  let (s, ok) := s.rowLines bank off n (q.kind == 1 || q.kind == 3 || q.kind == 4)
  if !ok then (s, some { q with slot := some off })
  else
    let s := s.rowUsed bank off n
    (if q.kind = 0 then s.rowRead q off n else if q.kind = 1 then s.rowAdd q off n else if q.kind = 3 then s.rowPut q off n
     else if q.kind = 4 then s.detApply q off n else s.rowMove q off n, none)

/-- R419: a DET contribution enters its row's accumulator, or waits for lines to come free. -/
def State.rowDet (s : State) (q : EmbReq) : State :=
  if q.dead then s.rowAnswer q 0x20 []
  else match s.detAdd q with
    | some s => s
    | none => { s with emb := { s.emb with waiting := s.emb.waiting ++ [q] } }.satAdd Reg.EMB_STAT_DET_WAIT 1

/-- R384, R426: an old home passes a request on to the row's new home; where that home is lost the request completes with ST_TARGET_LOST. -/
def State.rowPass (s : State) (q : EmbReq) (f : EmbFwd) : State :=
  if s.gone f.dest q.part then s.rowAnswer q 0x23 []
  else
    let s := { s with emb := { s.emb with fwd := s.emb.fwd.map (fun g => if g = f then { g with idle := s.cueNow + 1 } else g) } }
    (s.satAdd Reg.EMB_STAT_FWD 1).rowForward q f.dest

/-- R420, R421: a request meets its row, which lies here: it is issued for the slot that the selector names, once no flip of it waits. -/
def State.rowIssue (s : State) (q : EmbReq) (a : RowAt) : State × Option EmbReq :=
  if q.kind = 2 then (s.rowDet q, none)
  else if s.hubWaits a.sel then (s, some q)
  else s.rowServe q (a.base + a.stride * (if q.kind = 3 then 1 - s.selector a else s.selector a))

/-- R426: a request meets its row: one already issued goes on; else an old home passes it on, a new home holds it until the copy has landed, and at a location that holds the
row no more it completes with ST_XLATE_FAULT. It waits behind an earlier request for the row (`behind`). What is still held. -/
def State.rowMeet (s : State) (q : EmbReq) (behind : Bool) : State × Option EmbReq :=
  if behind then (s, some q)
  else match q.slot with
  | some off => s.rowServe q off
  | none =>
    match s.emb.fwd.find? (fun f => f.table == q.table && f.row == q.row) with
    | some f => (s.rowPass q f, none)
    | none =>
      if s.emb.coming.any (fun c => c.2 == (q.table, q.row)) then (s, some q)
      else match s.rowAt q.table q.row with
        | none => ((s.satAdd Reg.EMB_STAT_STALE 1).rowAnswer q 0x10 [], none)
        | some a => s.rowIssue q a

/-- R426: the requests held at this home meet their rows, in the order they arrived. -/
def State.serveHeld (s : State) : State :=
  let r := s.emb.held.foldl (fun (x : State × List EmbReq) q =>
    match x.1.rowMeet q (x.2.any (fun r => r.table == q.table && r.row == q.row)) with
    | (s, some q) => (s, x.2 ++ [q])
    | (s, none) => (s, x.2)) (s, [])
  { r.1 with emb := { r.1.emb with held := r.2 } }

/-- R426: a row request arrives: it meets its row behind the requests still held for it. -/
def State.rowArrive (s : State) (q : EmbReq) : State := ({ s with emb := { s.emb with held := s.emb.held ++ [q] } }).serveHeld

/-- R421 ROW_LOOKUP: index n of order REQID id of partition part of device src reads a row. -/
def execRowLookup (src : Fin 64) (part : Fin 16) (id : BitVec 16) (n : Lane) (table : Fin 64) (row : BitVec 40) (s : State) : Res :=
  if s.deaf part.val then .next s else
  .next (s.rowArrive { src := src.val, part := part.val, id := id.toNat, n := n.toNat, table := table.val, row := row.toNat })

/-- R418 to R420 ROW_UPDATE: an addition (kind 0), an addition under DET with its tally base (1), or a put (2), with the vector's bytes, in binary32
or in TYPE, and whether they are dead-letter data. -/
def execRowUpdate (src : Fin 64) (part : Fin 16) (id : BitVec 16) (n : Lane) (table : Fin 64) (row : BitVec 40) (kind : Fin 3)
    (base : BitVec 10) (f32 : Bool) (data : List Byte) (dead : Bool) (s : State) : Res :=
  if s.deaf part.val then .next s else
  .next (s.rowArrive { src := src.val, part := part.val, id := id.toNat, n := n.toNat, table := table.val, row := row.toNat,
                       kind := kind.val + 1, base := base.toInt, f32 := f32, data := data, dead := dead })

/-- R420, R422: the selectors of the rows put since the last TAKE flip, byte by byte. -/
def State.flipRows (s : State) (old : State) : State :=
  let ats := s.emb.flips.filterMap (fun e => old.rowAt e.1 e.2)
  let s := ((ats.map (·.sel)).dedup).foldl (fun s b =>
    let m := ((ats.filter (fun a => a.sel == b)).map (fun a => 2 ^ a.bit)).sum
    s.hubWrite (pgaOf s.device b) [BitVec.ofNat 8 (s.cohNum b 1 ^^^ m)]) s
  { s with emb := { s.emb with flips := [] } }

/-- R422: the store offset of a row's active slot after the flips of this TAKE, where the row lay before it. -/
def State.slotAfter (old : State) (table row : Nat) (a : RowAt) : Nat :=
  let x := old.selector a
  a.base + a.stride * (if old.emb.flips.contains (table, row) then 1 - x else x)

/-- R419, R422: each DET accumulator is closed: the home's request that applies it. -/
def State.closeDet (s : State) (old : State) : State × List EmbReq :=
  s.emb.acc.foldl (fun (q : State × List EmbReq) x =>
    match old.rowAt x.table x.row with
    | none => (x.from_.foldl (fun s r => s.rowAnswer r 0x10 []) q.1, q.2)
    | some a =>
      let r : EmbReq := { table := x.table, row := x.row, kind := 4, id := old.rd (Reg.EMB_TABLE0_TYPE x.table),
                          n := 16 * old.rd (Reg.EMB_TABLE0_ROW16 x.table), slot := some (old.slotAfter x.table x.row a) }
      ({ q.1 with emb := { q.1.emb with due := q.1.emb.due ++ [x] } }, q.2 ++ [r])) ({ s with emb := { s.emb with acc := [] } }, [])

/-- R426: rows that an EMB_MOVE entry moves at this TAKE: the entry and the row, from the entries before and after it. -/
def State.movedRows (s : State) (old : State) : List (Nat × Nat × Nat) :=
  let ks := ((s.listed (Reg.EMB_MOVE0_EN 0) 0x10 1024) ++ (old.listed (Reg.EMB_MOVE0_EN 0) 0x10 1024)).dedup
  let row (x : State) (k : Nat) : List (Nat × Nat × Nat) :=
    if x.is1 (Reg.EMB_MOVE0_EN k) then [(k, x.rd (Reg.EMB_MOVE0_TABLE k), x.rd (Reg.EMB_MOVE0_ROW k))] else []
  (ks.flatMap (fun k => row s k ++ row old k)).foldl (fun l e => if l.any (fun f => f.2 == e.2) then l else l ++ [e]) []

/-- R426: at a switch cue the old home freezes a moved row, to send its active slot ahead of anything it forwards, and keeps a forwarding record; the new
home holds the row's requests until the copy lands. With the home's requests that send the slots. -/
def State.freezeRows (s : State) (old : State) : State × List EmbReq :=
  (s.movedRows old).foldl (fun (q : State × List EmbReq) e =>
    let s := q.1
    let k := e.1
    let t := e.2.1
    let r := e.2.2
    let now := s.rowHome t r
    let oldAt := old.rowAt t r
    if old.rowHome t r = now ∧ oldAt = s.rowAt t r then q
    else
      let rest := s.emb.fwd.filter (fun g => !(g.table == t && g.row == r))
      let go : List EmbReq := match oldAt with
        | some a => [({ table := t, row := r, kind := 5, id := now, n := 16 * old.rd (Reg.EMB_TABLE0_ROW16 t), slot := some (old.slotAfter t r a) } : EmbReq)]
        | none => []
      let s : State := if oldAt.isSome ∧ now ≠ s.device then
          ({ s with emb := { s.emb with fwd := rest ++ [{ k := k, table := t, row := r, dest := now, idle := s.cueNow }] } } : State).wr (Reg.EMB_MOVE1_STATE k) 2
        else s
      let s : State := if now = s.device then
          ({ s with emb := { s.emb with coming := s.emb.coming ++ [(k, t, r)], fwd := rest } } : State).wr (Reg.EMB_MOVE1_STATE k) 1
        else s
      (s, q.2 ++ go)) (s, [])

/-- R422: the row server at clk 0 of a TAKE, `old` the state before the take's settings: selector flips, DET application, migration
freezes, ahead of every request not yet issued; then the contributions that waited for lines take those freed (R419). -/
def State.takeEmb (s : State) (old : State) : State :=
  let s := s.flipRows old
  let (s, dets) := State.closeDet s old
  let (s, moves) := State.freezeRows s old
  let held : List EmbReq := s.emb.held
  let s := { s with emb := { s.emb with held := held.filter (fun (q : EmbReq) => q.slot.isSome) ++ dets ++ moves ++ held.filter (fun (q : EmbReq) => q.slot.isNone) ++ s.emb.waiting
                                        waiting := [] } }
  let s := s.serveHeld
  if s.cueNow % 64 = 0 then s.halveRows else s

/-- R426 HOT_ROW_LANDED: the copy of a moved row lands at its new home, in the active version slot, and the requests held for it are served in the
order they arrived. -/
def execHotRowLanded (table : Fin 64) (row : BitVec 40) (data : List Byte) (marks : BitVec 512) (s : State) : Res :=
  if s.deaf 16 then .next s else
  match s.emb.coming.find? (fun c => c.2 == (table.val, row.toNat)), s.rowAt table.val row.toNat with
  | some c, some a =>
    let n := 16 * s.rd (Reg.EMB_TABLE0_ROW16 table.val)
    let off := s.activeSlot a
    let s := (linesOf off n).foldl (fun s l =>
      let p := partOf off (data.take n) false l
      let m := (List.range 8).foldl (fun m j =>
        m + b2n (decide (off ≤ 64 * l + 8 * j) && bitOf marks.toNat ((64 * l + 8 * j - off) / 8)) * 2 ^ j) 0
      s.hubPart (64 * l) (p.1.1, m) p.2) s
    let s := s.wr (Reg.EMB_MOVE1_STATE c.1) 0
    .next ({ s with emb := { s.emb with coming := s.emb.coming.erase c } }).serveHeld
  | _, _ => .next s

/-- R426 EMB_FORWARD_DRAINED: at a TAKE, a forwarding record through which nothing has passed for 8 whole cues is freed. -/
def execEmbForwardDrained (k : Fin 1024) (s : State) : Res :=
  if s.halted then .next s else
  match s.emb.fwd.find? (fun f => f.k == k.val) with
  | none => .next s
  | some f =>
    if s.phase = 0 ∧ f.idle + 8 ≤ s.cueNow then
      .next (({ s with emb := { s.emb with fwd := s.emb.fwd.erase f } }.wr (Reg.EMB_MOVE1_STATE k.val) 0).raise 104)
    else .next s

/-! ### The front (R414, R415, R417) -/

/-- R414, R415 order 2: whether the fields of an embedding order are well-formed, its table in use. -/
def State.embFormat (s : State) (o : Order) : Bool :=
  let t := o.by_ 8 1
  let fl := o.by_ 9 1
  let pool := fl % 4
  let count := o.by_ 12 4
  let bag := o.by_ 16 4
  let ty := s.rd (Reg.EMB_TABLE0_TYPE (t % 64))
  decide (t < 64) && o.by_ 11 1 == 0 && o.by_ 20 4 == 0 && o.by_ 40 24 == 0 && s.is1 (Reg.EMB_TABLE0_EN (t % 64)) &&
    (if o.op = 4 then
       decide (fl < 16) && decide (o.by_ 10 1 < 16) && !(bitOf fl 2 && (pool == 0 || pool == 3)) && (pool != 0 || bag == 0) &&
         (bag == 0 || count % bag == 0)
     else if o.op = 5 then
       decide (fl < 4) && decide (o.by_ 10 1 < 16) && bag == 0 && [2, 3, 4].contains ty && !(bitOf fl 0 && s.rd Reg.EMB_CACHE_DET_LINES == 0)
     else fl == 0 && o.by_ 10 1 == 0 && bag == 0)

/-- The job of an embedding order. -/
def State.embJob (s : State) (o : Order) : Option EmbJob := (s.emb.jobs.vals).find? (fun j => j.order == o.id)

/-- Replace a job. -/
def State.setJobE (s : State) (j : EmbJob) : State := { s with emb := { s.emb with jobs := s.emb.jobs.insert j.id j } }

/-- R415: an embedding order completes: with a status, or with ST_TARGET_LOST where a home was found lost, which no status but ST_CURTAIN comes before. -/
def State.embDone (s : State) (o : Order) (status : Nat) : State :=
  let status := match s.embJob o with | some j => if j.lost ∧ status ≠ 0x24 then 0x23 else status | none => status
  ({ s with emb := { s.emb with jobs := s.emb.jobs.filter (fun _ j => j.order != o.id) } }).finishOrder o status 0

/-- R415 orders 6 to 10. -/
def EmbJob.status (j : EmbJob) : Nat :=
  if j.lost then 0x23 else if j.stale then 0x10 else if j.range then 0x30 else if j.dead then 0x20 else 0

/-- R417: the n-th index of a GATHER contributes the elements of its row to its output. -/
def EmbJob.pool (j : EmbJob) (pool : Nat) (det : Bool) (out : Nat) (bs : List Byte) (dead : Bool) : EmbJob :=
  let es := (elemsOf (tyBits j.ty) bs).map (elemVal j.ty)
  let j := if dead then { j with deadOut := j.deadOut.insert out true } else j
  if det then
    let ls := j.tacc.getD out (es.map (fun _ => {}))
    { j with tacc := j.tacc.insert out (ls.zipIdx.map (fun (x, i) => x.addTerms j.base [(es.getD i (.fin false 0 0), false)])) }
  else
    let cs := es.map (fun v => (v.toF fmt32 false 0 false 0).1)
    match j.acc.find? out with
    | none => { j with acc := j.acc.insert out cs }
    | some a =>
      let new := a.zipIdx.map (fun (x, i) =>
        if pool = 3 then maxOf x (cs.getD i 0)
        else (Machine.finish fmt32 0 false 0 (FV.add 0 (decodeF fmt32 x) (decodeF fmt32 (cs.getD i 0)))).1)
      { j with acc := j.acc.insert out new }

/-- R417: the bytes of a pooled output. -/
def EmbJob.output (j : EmbJob) (pool : Nat) (det f32 : Bool) (bag out : Nat) : List Byte :=
  let n := rowElems j.ty j.row16
  let cs : List Nat :=
    if det then (j.tacc.getD out (List.replicate n {})).map (fun x => if pool = 2 then laneMean j.base x bag else (x.toFloat j.base 2 0 true 0).1)
    else (j.acc.getD out (List.replicate n 0)).map (fun c => if pool = 2 then meanOf (decodeF fmt32 c) bag else c)
  if f32 then packElems 32 (4 * n) cs
  else packElems (tyBits j.ty) (16 * j.row16) (cs.map (fun c => (cvtTo j.ty 0 true 0 (decodeF fmt32 c)).1))

/-- R414, R416, R417: the outputs of a GATHER that are complete are written in ascending order, as far as its context goes; then the order
completes. -/
def State.gatherWrite (s : State) (o : Order) (k : Nat) : Nat → State
  | 0 => s
  | fuel + 1 =>
    match s.embJob o with
    | none => s
    | some j =>
      let pool := o.by_ 9 1 % 4
      let det := bitOf (o.by_ 9 1) 2
      let f32 := bitOf (o.by_ 9 1) 3
      let bag := o.by_ 16 4
      let count := o.by_ 12 4
      let total := if pool = 0 then count else count / max 1 bag
      let i := j.written
      if j.next < count then s
      else if total ≤ i then (if j.out.isEmpty then s.embDone o j.status else s)
      else if (if pool = 0 then (j.out.find? i).isSome else j.got.getD i 0 < bag) then s
      else
        let n := if pool = 0 ∨ !f32 then 16 * j.row16 else 4 * rowElems j.ty j.row16
        let skip := pool == 0 && (j.rows.find? i).isNone
        let bs := if pool = 0 then (j.rows.getD i ([], false)).1 else j.output pool det f32 bag i
        let dead := if pool = 0 then (j.rows.getD i ([], false)).2 else j.deadOut.getD i false
        let next (s : State) : State := (s.setJobE { j with written := i + 1, rows := j.rows.erase i }).gatherWrite o k fuel
        if skip then next s
        else State.after (s.storeBytes k o.part (o.by_ 32 8 + n * i) bs dead) k true (fun s _ => next s) (fun s c => s.embDone o c)

/-- Whether an embedding order has nothing left to do but complete: SCATTER_ADD and ROW_PUT, every contribution answered. -/
def State.embSettle (s : State) (o : Order) (k : Nat) : State :=
  match s.embJob o with
  | none => s
  | some j =>
    let count := o.by_ 12 4
    if o.op = 4 then s.gatherWrite o k (count + 1)
    else if j.next < count ∨ !j.out.isEmpty then s
    else s.embDone o j.status

/-- R412, R415, R426: one index of an embedding order goes to its row's home; one read as a dead letter (none) goes nowhere, and its
output is dead-letter data. -/
def State.embSend (s : State) (o : Order) (j : EmbJob) (index : Option Nat) (data : List Byte) (dead : Bool) : State :=
  let t := o.by_ 8 1
  let n := j.next
  let pool := o.by_ 9 1 % 4
  let bag := max 1 (o.by_ 16 4)
  let none' (j : EmbJob) (dead : Bool) : EmbJob :=
    if o.op ≠ 4 then j
    else if pool = 0 then { j with rows := j.rows.insert n (List.replicate (16 * j.row16) 0, dead) }
    else { j with got := j.got.insert (n / bag) (j.got.getD (n / bag) 0 + 1),
                  deadOut := if dead then j.deadOut.insert (n / bag) true else j.deadOut }
  let j1 := { j with next := n + 1 }
  match index with
  | none => s.setJobE (none' { j1 with dead := true } true)
  | some ix =>
  if s.rd (Reg.EMB_TABLE3_ROWS t) ≤ ix then (s.satAdd Reg.EMB_STAT_RANGE 1).setJobE (none' { j1 with range := true } false)
  else
    let d := s.rowHome t ix
    if s.gone d o.part then (s.lostTo o.part 0x23).setJobE (none' { j1 with lost := true } true)
    else
      let q : EmbReq := { src := s.device, part := o.part, id := j.id, n := n, table := t, row := ix,
                          kind := if o.op = 4 then 0 else if o.op = 6 then 3 else if bitOf (o.by_ 9 1) 0 then 2 else 1,
                          base := j.base, f32 := o.op == 5 && bitOf (o.by_ 9 1) 1, data := data, dead := dead }
      (s.rowForward q d).setJobE { j1 with out := j1.out.insert n d }

/-- The indices of an embedding order are read, and for updates their source vectors, and sent to their homes, as far as its context goes. -/
def State.embRead (s : State) (o : Order) (k : Nat) : Nat → State
  | 0 => s
  | fuel + 1 =>
    match s.embJob o with
    | none => s
    | some j =>
      let n := j.next
      if o.by_ 12 4 ≤ n then s.embSettle o k
      else
        let row := o.op == 6 || !bitOf (o.by_ 9 1) 1
        let size := if row then 16 * j.row16 else 4 * rowElems j.ty j.row16
        State.after (s.fetchBuf k o.part (o.by_ 24 8 + 8 * n) 8) k false
          (fun s d1 =>
            let ix := if d1 then none else some (leBytes (s.bufBytes k 8))
            if o.op = 4 then (s.embSend o j ix [] false).embRead o k fuel
            else
              State.after (s.fetchBuf k o.part (o.by_ 32 8 + size * n) size) k false
                (fun s d2 => (s.embSend o j ix (s.bufBytes k size) d2).embRead o k fuel)
                (fun s c => s.embDone o c))
          (fun s c => s.embDone o c)

/-- R414, R415: the n-th outstanding work order, an embedding order of an opcode, is served by POOL context k as far as it goes. -/
def State.embOrder (s : State) (n k op : Nat) : State :=
  match s.orderAt n with
  | none => s
  | some o =>
    if o.op ≠ op ∨ !s.mayStart o then s
    else
      let t := o.by_ 8 1
      let count := o.by_ 12 4
      if (s.embJob o).isNone ∧ (count = 0 ∨ (op = 4 ∧ o.by_ 9 1 % 4 ≠ 0 ∧ o.by_ 16 4 = 0)) then s.embDone o 0
      else if (s.embJob o).isNone ∧ s.rd (Reg.EMB_TABLE0_PARTITION t) ≠ o.part then s.embDone o 0x11
      else if s.curtain o.part then s.embDone o 0x24
      else match s.serving o k with
        | none => s
        | some (s, o) =>
          if s.gaveUp k then s.embDone o 0x10
          else
            let s :=
              if (s.embJob o).isSome then s
              else
                let j : EmbJob := { order := o.id, id := s.efh.nextId, ty := s.rd (Reg.EMB_TABLE0_TYPE t), row16 := s.rd (Reg.EMB_TABLE0_ROW16 t),
                                    base := sgn 10 (s.rd (Reg.PRT_TALLY_BASE_BASE o.part (o.by_ 10 1))) }
                { s with efh := { s.efh with nextId := (s.efh.nextId + 1) % 65536 } }.setJobE j
            s.embRead o k (count + 1)

/-- R414 GATHER: the n-th outstanding work order, where it is one, served by POOL context k. -/
def execGather (n k : Fin 4096) (s : State) : Res := if s.halted then .next s else .next (s.embOrder n.val k.val 4)

/-- R418 SCATTER_ADD: the n-th outstanding work order, where it is one, served by POOL context k. -/
def execScatterAdd (n k : Fin 4096) (s : State) : Res := if s.halted then .next s else .next (s.embOrder n.val k.val 5)

/-- R420 ROW_PUT: the n-th outstanding work order, where it is one, served by POOL context k. -/
def execRowPut (n k : Fin 4096) (s : State) : Res := if s.halted then .next s else .next (s.embOrder n.val k.val 6)

/-- R384, R415: an index of an embedding order comes back lost. -/
def EmbJob.lose (j : EmbJob) (o : Order) (i : Nat) : EmbJob :=
  let bag := max 1 (o.by_ 16 4)
  let j := { j with out := j.out.erase i, lost := true }
  if o.op ≠ 4 then j
  else if o.by_ 9 1 % 4 = 0 then { j with rows := j.rows.insert i (List.replicate (16 * j.row16) 0, true) }
  else { j with got := j.got.insert (i / bag) (j.got.getD (i / bag) 0 + 1), deadOut := j.deadOut.insert (i / bag) true }

/-- R384, R426: an index whose old home found the row's new home lost. -/
def State.lostIndex (s : State) (j : EmbJob) (o : Order) (i : Nat) : State :=
  let s := (s.lostTo o.part 0x23).setJobE (j.lose o i)
  match o.ctx with
  | some k => if (s.cxAt (ctxKey k)).st = .run ∧ !s.gaveUp k then s.embSettle o k else s
  | none => s

/-- R417 ROW_RESULT: the home's answer for index n of the order with REQID id: a row (status ST_OK or ST_DEAD_LETTER), the end of an update,
or a request that came to nothing (ST_XLATE_FAULT, R426; ST_TARGET_LOST, R384). -/
def execRowResult (id : BitVec 16) (n : Lane) (status : Byte) (data : List Byte) (s : State) : Res :=
  if s.deaf 16 then .next s else
  match s.emb.jobs.find? id.toNat with
  | none => .next s
  | some j =>
    match s.ord.list.find? (fun o => o.id == j.order), j.out.find? n.toNat with
    | some o, some _ =>
      if status = 0x23 then .next (s.lostIndex j o n.toNat) else
      let i := n.toNat
      let st := status.toNat
      let pool := o.by_ 9 1 % 4
      let bag := max 1 (o.by_ 16 4)
      let row := data.take (16 * j.row16)
      let j := { j with out := j.out.erase i, dead := j.dead || st == 0x20, stale := j.stale || st == 0x10 }
      let good := st == 0 || st == 0x20
      let j :=
        if o.op ≠ 4 then j
        else if pool = 0 then (if good then { j with rows := j.rows.insert i (row, st == 0x20) } else j)
        else
          let j := { j with got := j.got.insert (i / bag) (j.got.getD (i / bag) 0 + 1) }
          if good then j.pool pool (bitOf (o.by_ 9 1) 2) (i / bag) row (st == 0x20) else j
      let s := s.setJobE j
      (match o.ctx with
       | some k => if (s.cxAt (ctxKey k)).st = .run ∧ !s.gaveUp k then .next (s.embSettle o k) else .next s
       | none => .next s)
    | _, _ => .next s

/-- R384, R415: the verdict on device d: what the orders at this front await from it comes back lost. -/
def State.embLost (s : State) (d : Nat) : State :=
  s.emb.jobs.foldl (fun s e =>
    let j := e.2
    let gone := (j.out.filter (fun _ h => h == d)).keys
    if gone.isEmpty then s
    else match s.ord.list.find? (fun o => o.id == j.order) with
      | none => s
      | some o =>
        let s := s.lostTo o.part 0x23
        s.setJobE (gone.foldl (fun j i => j.lose o i) j)) s

/-! ### Data and grants at an on-device agent (R352) -/

/-- R423: what arrives at the row cache lets the requests held at this home go on. -/
def State.rowServed (s : State) (a : Nat) : State := if a = rowAgent then s.serveHeld else s

/-- R352 DATA_S at agent a. -/
def execDataS (a : Fin 25) (line : BitVec 54) (x : BitVec 512) (marks : Byte) (s : State) : Res :=
  if s.halted then .next s else
  .next ((s.datTaken 0x30 a.val line.toNat x marks.toNat (fun s => s.dataArrive a.val line.toNat 0x30 (x, marks.toNat))).rowServed a.val)

/-- R352 DATA_F at agent a. -/
def execDataF (a : Fin 25) (line : BitVec 54) (x : BitVec 512) (marks : Byte) (s : State) : Res :=
  if s.halted then .next s else
  .next ((s.datTaken 0x31 a.val line.toNat x marks.toNat (fun s => s.dataArrive a.val line.toNat 0x31 (x, marks.toNat))).rowServed a.val)

/-- R352, R335 DATA_E at agent a: the minimum hold starts. -/
def execDataE (a : Fin 25) (line : BitVec 54) (x : BitVec 512) (marks : Byte) (s : State) : Res :=
  if s.halted then .next s else
  .next ((s.datTaken 0x32 a.val line.toNat x marks.toNat (fun s => s.dataArrive a.val line.toNat 0x32 (x, marks.toNat))).rowServed a.val)

/-- R352, R335 DATA_M at agent a: the hold starts and the store completes. -/
def execDataM (a : Fin 25) (line : BitVec 54) (x : BitVec 512) (marks : Byte) (s : State) : Res :=
  if s.halted then .next s else
  .next ((s.datTaken 0x33 a.val line.toNat x marks.toNat (fun s => s.dataMArrive a.val line.toNat (x, marks.toNat))).rowServed a.val)

/-- R352 GNT at agent a: it completes an upgrade or an eviction. -/
def execGnt (a : Fin 25) (line : BitVec 54) (s : State) : Res :=
  if s.halted then .next s else
  .next ((s.datTaken 0x25 a.val line.toNat 0 0 (fun s => s.gntArrive a.val line.toNat)).rowServed a.val)

end Sys2Proof.Machine
end

