-- ==== Sys2Proof/Machine/Sheet.lean ====
section
/-!
DEFINITION. The call sheet's states and staged writes, and the staged copy of the Prompt Book (R50 to R56, R89 to R91,
R226 to R230, R584).
-/

namespace Sys2Proof.Machine

/-! ### Staged writes (R50 to R52) -/

/-- CS_STATUS.STATE: 0 EMPTY, 1 STAGED, 2 CHECKED, 3 ARMED, 4 TAKEN, 5 ABANDONED. -/
def State.sheetState (s : State) : Nat := s.rd Reg.CS_STATUS_STATE

/-- Whether the sheet has no holder (R51). -/
def State.sheetFree (s : State) : Bool := [0, 4, 5].contains s.sheetState

/-- Clear the verdict of the last CHECK (R59, R602). -/
def State.clearFail (s : State) : State :=
  (((s.wr Reg.CS_STATUS_FAIL_CHECK 0).wr Reg.CS_STATUS_FAIL_KIND 0).wr Reg.CS_STATUS_FAIL_ITEM 0).wr Reg.CS_FAIL_UNIT_UNIT 0

/-- R51: a staged write by requester h is judged: whether it is accepted, with its effect on the sheet's state. -/
def State.judge (s : State) (h : Nat) : State × Bool :=
  let refuse := ((s.wr Reg.CS_STATUS_REFUSED 1).satAdd Reg.CS_COUNTS_REFUSED 1, false)
  if s.is1 Reg.CS_STATUS_BUSY then
    if h = s.sheet.checker then ({ s with sheet := { s.sheet with voided := true } }.clearFail, true) else refuse
  else if s.sheetFree then
    (((s.wr Reg.CS_STATUS_STATE 1).wr Reg.CS_STATUS_HOLDER h).clearFail, true)
  else if h = s.rd Reg.CS_STATUS_HOLDER then (((s.wr Reg.CS_STATUS_STATE 1).wr Reg.CS_STATUS_STEP_HELD 0).clearFail, true)
  else refuse

/-- R576, R584: whether the block of a live offset limits its writers to holder codes 16 and 17. A partition stages the Taken
fields of its own Outbox and Inbox windows and its stream table (R511). -/
def limitedBlock (x : Nat) : Bool :=
  decide (x < 0x20000) || (decide (0x40000 ≤ x) && decide (x < 0x200000)) || (decide (0x600000 ≤ x) && decide (x < 0x1000000)) ||
    (decide (0x1800000 ≤ x) && decide (x < 0x1800200)) || (decide (0x1C00000 ≤ x) && decide (x < 0x1F00000))

/-- R584: the partition a register belongs to, where it belongs to one. -/
def State.regOwner (s : State) (x : Nat) : Option Nat :=
  if 0x400000 ≤ x ∧ x < 0x440000 then
    let k := (x - 0x400000) / 0x40
    if s.is1 (Reg.CRR_CTX_PLAN_EN k) then some (s.rd (Reg.CRR_CTX_PLAN_PARTITION k)) else none
  else if 0x1000000 ≤ x ∧ x < 0x1640000 then
    let t := (x - 0x1000000) / 0x400
    if s.trpState t ≤ 1 then some (s.trpPart t) else none
  else if 0x1800200 ≤ x ∧ x < 0x1800280 then some ((x - 0x1800200) / 8)
  else if 0x1810000 ≤ x ∧ x < 0x1818000 then some ((x - 0x1810000) / 0x800)
  else if 0x1820000 ≤ x ∧ x < 0x1828000 then some ((x - 0x1820000) / 0x800)
  else none

/-- R227, R584: whether a pair of requester h that names live offset x is refused; holder codes 16 and 17 write no pairs. -/
def State.pairRefused (s : State) (h x : Nat) : Bool :=
  decide (h < 16) &&
    (if 0x1F00000 ≤ x ∧ x < 0x1F20000 then s.rd (Reg.PBK_FRAME_STAGE_OWNER ((x - 0x1F00000) / 1024)) != h
     else if 0x1F20400 ≤ x ∧ x < 0x1F20800 then s.rd (Reg.PBK_FRAME_STAGE_OWNER ((x - 0x1F20400) / 8)) != h
     else limitedBlock x || (match s.regOwner x with | some p => p != h | none => false))

/-- R584: a refused pair writes nothing, but counts as a staged write, and the sheet records the first. -/
def State.refusePair (s : State) (h x : Nat) : State :=
  let (s, ok) := s.judge h
  if ok ∧ s.sheet.refusedPair.isNone then { s with sheet := { s.sheet with refusedPair := some x } } else s

/-- R10, R11, R51: a staged write of requester h to the register with live offset x, of the bits a mask selects. -/
def State.stageReg (s : State) (h x v mask : Nat) : State :=
  let fs := (Reg.fieldsAt x).filter (fun f => f.taken && bitsOf mask f.lo f.width == 2 ^ f.width - 1)
  if fs.isEmpty then s
  else if s.pairRefused h x then s.refusePair h x
  else
    let (s, ok) := s.judge h
    if ok then fs.foldl (fun s f => s.wrStaged f (bitsOf v f.lo f.width)) s else s

/-- R10: a write of a requester to the staged alias of the register with live offset `off`. -/
def execStagedWrite (h : Fin 18) (off : Fin 0x2000000) (x : Word) (s : State) : Res :=
  if s.halted then .next s else
  .next (s.stageReg h.val (off.val / 8 * 8) x.toNat (2 ^ 64 - 1))

/-- The staged Taken fields whose staged value differs from the live value. -/
def State.changed (s : State) : List Fld :=
  s.staged.filterMap (fun e =>
    match (Reg.fieldsAt (e.1 / 64)).find? (fun f => f.lo == e.1 % 64) with
    | some f => if s.rd f = e.2 then none else some f
    | none => none)

/-- R56: whether the sheet changes a step-only field. -/
def State.stepOnlySheet (s : State) : Bool := s.changed.any (fun f => f.stepOnly)

/-- R51: CS_CHECK.GO by requester h. -/
def State.goCheck (s : State) (h : Nat) : State :=
  if s.is1 Reg.CS_STATUS_BUSY then s
  else if s.sheetFree ∨ (s.sheetState = 1 ∧ s.rd Reg.CS_STATUS_HOLDER = h) then
    let s := (s.wr Reg.CS_STATUS_HOLDER h).wr Reg.CS_STATUS_BUSY 1
    { s with sheet := { s.sheet with checker := h, voided := false } }
  else s

/-- R51: CS_CHECK.GO. -/
def execCsCheckGo (h : Fin 18) (s : State) : Res := if s.halted then .next s else .next (s.goCheck h.val)

/-- R51, R53, R56: a write of CS_TAKE_CUE by requester h. -/
def State.writeTakeCue (s : State) (h : Nat) (step : Bool) (cue : Nat) : State :=
  if s.sheetState ≠ 2 ∨ s.rd Reg.CS_STATUS_HOLDER ≠ h ∨ s.is1 Reg.CS_STATUS_BUSY then s
  else
    let permitted := cue ≠ 0 ∧ (s.cueNow + 2 ≤ cue ∨ (cue = s.cueNow + 1 ∧ s.phase ≠ 2)) ∧ (step ∨ !s.stepOnlySheet)
    if permitted then
      ((s.wr Reg.CS_TAKE_CUE_CUE cue).wr Reg.CS_TAKE_CUE_STEP (b2n step)).wr Reg.CS_STATUS_STATE 3
    else s.wr Reg.CS_STATUS_ARM_ERR 1

/-- R53: a write of CS_TAKE_CUE. -/
def execCsTakeCueWrite (h : Fin 18) (step : Bool) (cue : BitVec 48) (s : State) : Res :=
  if s.halted then .next s else
  .next (s.writeTakeCue h.val step cue.toNat)

/-! ### Prompt Book frames (R226 to R230) -/

/-- R230: the SHEET frames. -/
def State.sheetFrames (s : State) : List Nat := (List.range 128).filter (fun f => s.is1 (Reg.PBK_FRAME_STAGE_COND f))

/-- R230: a SHEET frame of an abandoned sheet takes its live copy and tag, and becomes EMPTY with COND = ANY. -/
def State.restoreFrame (s : State) (f : Nat) : State :=
  let s := { s with book := { s.book with
    staged := Memory.store s.book.staged (1024 * f) (Memory.bytes s.book.live (1024 * f) 1024) } }
  let s := s.wr (Reg.PBK_FRAME_STAGE_TAG f) (s.rd (Reg.PBK_FRAME_LIVE_TAG f))
  (s.wr (Reg.PBK_FRAME_STAGE_STATE f) 0).wr (Reg.PBK_FRAME_STAGE_COND f) 0

/-- R91: the pending retirements end without a take: each spare returns to SPARE. -/
def State.dropRetirements (s : State) : State :=
  let s := s.sheet.retiring.foldl (fun s e =>
    ((s.moveTroupe e.2 3).wr (Reg.TRP_RETIRE_RESULT e.1) 7).wr (Reg.TRP_RETIRE_SPARE e.1) 0xFFFF) s
  { s with sheet := { s.sheet with retiring := [] } }

/-- R50, R51, R230, R91: the sheet is abandoned: its staged values are the live ones again, and event 34 is raised whatever the cause
(log entry 104). -/
def State.abandon (s : State) (cause : Nat) : State :=
  let s := ((s.wr Reg.CS_STATUS_STATE 5).wr Reg.CS_STATUS_HOLDER 31).wr Reg.CS_STATUS_ABANDON_CAUSE cause
  let s := s.wr Reg.CS_STATUS_STEP_HELD 0
  let s := s.sheetFrames.foldl State.restoreFrame { s with staged := [], sheet := { s.sheet with refusedPair := none } }
  s.dropRetirements.raise 34

/-- R51, R514: whether the sheet's holder is a partition whose CALL_SHEET work order is being served. -/
def State.sheetServed (s : State) : Bool :=
  s.ord.list.any (fun o => o.op == 0x20 && o.started && o.part == s.rd Reg.CS_STATUS_HOLDER)

/-- R51: CS_ABANDON.GO by requester h: the holder, or the firmware for a CALL_SHEET work order it can no longer serve. -/
def State.goAbandon (s : State) (h : Nat) : State :=
  if s.sheetState = 4 then s.wr Reg.CS_STATUS_ABANDON_LATE 1
  else if [1, 2, 3].contains s.sheetState ∧ (s.rd Reg.CS_STATUS_HOLDER = h ∨ (h = 17 ∧ s.sheetServed)) then s.abandon 1
  else s

/-- R51: CS_ABANDON.GO. -/
def execCsAbandonGo (h : Fin 18) (s : State) : Res := if s.halted then .next s else .next (s.goAbandon h.val)

/-- R228, R230: requester h writes bytes of the staged data of frame f from byte b. -/
def State.bookWrite (s : State) (h f b : Nat) (bs : List Byte) : State :=
  let x := 0x1F00000 + 1024 * f
  let put (s : State) : State :=
    { s with book := { s.book with staged := Memory.store s.book.staged (1024 * f + b) bs } }.wr (Reg.PBK_FRAME_STAGE_STATE f) 1
  if s.pairRefused h x then s.refusePair h (0x1F20400 + 8 * f)
  else if s.is1 (Reg.PBK_FRAME_STAGE_COND f) then
    let (s, ok) := s.judge h
    if ok then put s else s
  else put s

/-- R228: a write of 8 bytes of a frame's staged data. -/
def execPbStagedDataWrite (h : Fin 18) (f : Fin 128) (word : Fin 128) (x : Word) (s : State) : Res :=
  if s.halted then .next s else
  .next (s.bookWrite h.val f.val (8 * word.val) (toLe 8 x.toNat))

/-- R227, R228, R230: requester h writes PBK_FRAME_STAGE of frame f: OWNER (holder codes 16 and 17 alone), COND, DONE, TAG. -/
def State.frameWrite (s : State) (h f owner : Nat) (cond done : Bool) (tag : Nat) : State :=
  let put (s : State) : State :=
    let s := if 16 ≤ h then s.wr (Reg.PBK_FRAME_STAGE_OWNER f) owner else s
    let new := s.rd (Reg.PBK_FRAME_STAGE_TAG f) != tag
    let s := (s.wr (Reg.PBK_FRAME_STAGE_COND f) (b2n cond)).wr (Reg.PBK_FRAME_STAGE_TAG f) tag
    if done then s.wr (Reg.PBK_FRAME_STAGE_STATE f) 2
    else if new then s.wr (Reg.PBK_FRAME_STAGE_STATE f) 1 else s
  if s.pairRefused h (0x1F20400 + 8 * f) then s.refusePair h (0x1F20400 + 8 * f)
  else if cond ∨ s.is1 (Reg.PBK_FRAME_STAGE_COND f) then
    let (s, ok) := s.judge h
    if ok then put s else s
  else put s

/-- R228: a write of PBK_FRAME_STAGE. -/
def execPbkFrameStageWrite (h : Fin 18) (f : Fin 128) (owner : Fin 16) (cond done : Bool) (tag : Lane) (s : State) : Res :=
  if s.halted then .next s else
  .next (s.frameWrite h.val f.val owner.val cond done tag.toNat)

/-- R229: at clk 0 of a TAKE, after the sheet is taken or held, frames are marked READY and swapped. -/
def State.swapFrames (s : State) (taken : Bool) : State :=
  let sheet := s.sheetFrames
  let any := (List.range 128).filter (fun f => !sheet.contains f && s.rd (Reg.PBK_FRAME_STAGE_STATE f) == 2)
  let byTake := taken && !sheet.isEmpty
  let ready := if byTake then sheet.filter (fun f => s.rd (Reg.PBK_FRAME_STAGE_STATE f) == 2) else any.take 16
  let late := if byTake then any.length else any.length - 16
  let s := if byTake then sheet.foldl (fun s f => s.wr (Reg.PBK_FRAME_STAGE_COND f) 0) s else s
  let s := s.satAdd Reg.PBK_STATUS_DEFERRED late
  let s := ready.foldl (fun s f =>
    let s := { s with book := { s.book with
      live := Memory.store s.book.live (1024 * f) (Memory.bytes s.book.staged (1024 * f) 1024)
      lateFrame := s.book.lateFrame.erase f } }
    (s.wr (Reg.PBK_FRAME_LIVE_TAG f) (s.rd (Reg.PBK_FRAME_STAGE_TAG f))).wr (Reg.PBK_FRAME_STAGE_STATE f) 0) s
  (s.wrapAdd Reg.PBK_STATUS_SWAPPED ready.length).wr Reg.PBK_STATUS_LAST ready.length

/-! ### Retirement (R89, R90) -/

/-- R71: the SRAM and instruction stores of a troupe are zeroed, and its contexts reset. -/
def State.zeroTroupe (s : State) (t : Nat) : State :=
  let inT (k w : Nat) : Bool := decide (w * t ≤ k) && decide (k < w * (t + 1))
  { s with
    trp := { s.trp with
      sram := s.trp.sram.filter (fun e => !inT e.1 393216)
      dead := s.trp.dead.filter (fun k _ => !inT k 49152)
      flips := s.trp.flips.filter (fun k _ => !inT k 49152)
      t := s.trp.t.erase t }
    proc := { s.proc with cx := s.proc.cx.filter (fun k _ => !inT k 48 || decide (307200 ≤ k)) } }

/-- R90: the spare nearest to a troupe, ties to the lower y, then the lower x. -/
def State.spareFor (s : State) (t : Nat) : Option Nat :=
  (List.range 6400).foldl (fun best q =>
    if s.trpState q ≠ 3 then best
    else match best with
      | none => some q
      | some b => if meshDist t q < meshDist t b then some q else some b) none

/-- R89: TRP_RETIRE.GO of troupe t by requester h; the spare takes the troupe's LOGICAL and PARTITION as staged (log entry 107). -/
def State.goRetire (s : State) (h t : Nat) : State :=
  if h ≠ 16 ∧ h ≠ 17 then s
  else if 2 ≤ s.trpState t then s.wr (Reg.TRP_RETIRE_RESULT t) 4
  else if (s.sheet.retiring.find? t).isSome then s.wr (Reg.TRP_RETIRE_RESULT t) 6
  else if (if s.is1 Reg.CS_STATUS_BUSY then h != s.sheet.checker else !s.sheetFree && s.rd Reg.CS_STATUS_HOLDER != h) then
    s.wr (Reg.TRP_RETIRE_RESULT t) 5
  else match s.spareFor t with
  | none => (s.wr (Reg.TRP_RETIRE_RESULT t) 3).raise 43
  | some q =>
    let (s, _) := s.judge h
    let s := ((s.ungate (regionOf q)).zeroTroupe q).moveTroupe q 2
    let s := s.wrStaged (Reg.TRP_STATE_LOGICAL q) (s.rdStaged (Reg.TRP_STATE_LOGICAL t))
    let s := s.wrStaged (Reg.TRP_STATE_PARTITION q) (s.rdStaged (Reg.TRP_STATE_PARTITION t))
    let s := s.wrStaged (Reg.TRP_STATE_LOGICAL t) 0x1FFF
    let s := (s.wr (Reg.TRP_RETIRE_SPARE t) q).wr (Reg.TRP_RETIRE_RESULT t) 1
    { s with sheet := { s.sheet with retiring := s.sheet.retiring.insert t q } }

/-- R89: TRP_RETIRE.GO. -/
def execTrpRetireGo (h : Fin 18) (t : Fin 6400) (s : State) : Res := if s.halted then .next s else .next (s.goRetire h.val t.val)

end Sys2Proof.Machine
end

