-- ==== Sys2Proof/Machine/Courier.lean ====
section
/-!
DEFINITION. Stream plans and their execution: deliveries, understudy copies, frames, faults of contexts (R265 to R290,
R313).
-/

namespace Sys2Proof.Machine

/-! ### Plans (R268 to R272) -/

/-- The store offset of the plan bound to context k. -/
def State.planOff (s : State) (k : Nat) : Nat := pgaOff (s.rd (Reg.CRR_CTX_PLAN_PLAN k) * 64)

/-- R270: the entry in 64 bytes. -/
def planEntryOf (bs : List Byte) : PlanEntry :=
  let n (at_ w : Nat) : Nat := leBytes ((bs.drop at_).take w)
  { op := n 0 1, comp := bitOf (n 1 1) 0, skip := bitOf (n 1 1) 1, unit := n 2 2, start := n 4 4, ddel := n 8 4, length := n 12 4,
    src := n 16 8, troupe := n 24 2, line := n 26 2, statline := n 28 2, stream := n 30 1, ustream := n 31 1, usrc := n 32 8,
    ulen := n 40 4, uline := n 44 2, credits := n 46 2, tag := n 48 4 }

/-- R270, R271, R272: whether an entry in 64 bytes has a listed OP and no reserved field or encoding in use. -/
def planEntryOk (bs : List Byte) : Bool :=
  let e := planEntryOf bs
  let flags := (bs.getD 1 0).toNat
  decide (e.op ≤ 1) && decide (flags < 4) && decide (e.start < 2 ^ 21) && decide (e.ddel < 2 ^ 21) && decide (e.src < 2 ^ 57) &&
    e.src % 64 == 0 && (bs.drop 52).all (· == 0) && decide (e.line < 6144) && decide (e.statline < 6144) &&
    decide (e.uline < 6144) && decide (e.stream < 64) && decide (e.ustream < 64) && e.usrc % 64 == 0 && decide (e.usrc < 2 ^ 60) && e.ulen % 64 == 0 &&
    decide (e.credits ≤ 2048) &&
    (if e.op = 0 then decide (e.troupe < 6250) && e.length % 64 == 0 && decide (e.length ≤ 393216) && e.tag == 0 &&
        (if e.ulen = 0 then e.ustream == 0 && e.usrc == 0 && e.uline == 0 else e.ustream != e.stream)
     else decide (e.troupe < 128) && (e.length == 0 || e.length == 1024) && flags == 0 && e.unit == 0xFFFF)

/-- The 64 bytes of entry i of the plan at a store offset. -/
def State.planBytes (s : State) (off i : Nat) : List Byte := (s.cohRead (off + 64 + 64 * i) 64).1

/-- R269: the entries a plan at a store offset has. -/
def State.planLen (s : State) (off : Nat) : Nat :=
  min 1024 (s.cohNum (off + 2) 2)

/-- R272: whether entry i of the plan at a store offset passes the check that the executor makes again: the LEVEL of the plan, the OP
and the reserved fields of the entry. -/
def State.entryOk (s : State) (off i : Nat) : Bool := s.cohNum off 1 == 1 && planEntryOk (s.planBytes off i)

/-- R270: whether an entry is counted among its unit's deliveries. -/
def PlanEntry.counted (e : PlanEntry) : Bool := e.op == 0 && e.length != 0 && e.credits != 0

/-- The unit an entry serves. -/
def State.servedUnit (s : State) (e : PlanEntry) : Option UnitRt := (s.physOf e.troupe).bind (fun t => (s.troupe t).unit e.unit)

/-- R273: whether the unit an entry serves is carried from an earlier cue: the entry is passed over in this cue. -/
def State.servesCarried (s : State) (e : PlanEntry) : Bool :=
  match s.servedUnit e with
  | some u => u.carried && decide (u.since < s.cueNow)
  | none => false

/-- R281: whether the unit an entry serves was carried in this cue: an entry of it that has not started is a carried entry. -/
def State.justCarried (s : State) (e : PlanEntry) : Bool :=
  match s.servedUnit e with
  | some u => u.carried && decide (s.cueNow ≤ u.since)
  | none => false

/-! ### Delivery (R274 to R276) -/

/-- R276: the status record of an entry. -/
def State.statusItem (s : State) (k : Nat) (j : Job) (status stream bytes : Nat) : DlvItem :=
  { ent := j.idx + (if j.carried then 4096 else 0), stream := stream, troupe := j.ent.troupe, line := j.ent.statline,
    unit := j.ent.unit, last := true, credits := j.ent.credits, part := j.part, closes := true,
    data := BitVec.ofNat 512 (status + j.ent.unit * 2 ^ 16 + s.cueNow % 2 ^ 32 * 2 ^ 32 + bytes * 2 ^ 64 + stream * 2 ^ 96 +
      j.idx * 2 ^ 128 + (k / 16 + k % 16 * 256) * 2 ^ 144) }

/-- Change the entry a context runs. -/
def State.setJobOf (s : State) (k : Nat) (j : Job) : State := s.setCtx k { s.ctx k with job := some j }

/-- R274: a chunk's lines are queued; after the last chunk, the status record. -/
def State.queueChunk (s : State) (k : Nat) (j : Job) (bs : List Byte) (poison : Bool) : State :=
  let base := j.ent.line + 64 * j.chunk
  let items := (List.range (bs.length / 64)).map (fun i =>
    ({ ent := j.idx + (if j.carried then 4096 else 0), stream := j.ent.stream, troupe := j.ent.troupe, line := base + i,
       unit := j.ent.unit, data := lineOf ((bs.drop (64 * i)).take 64), poison := poison, credits := j.ent.credits,
       part := j.part } : DlvItem))
  let last := decide (j.ent.length ≤ 4096 * (j.chunk + 1))
  let j := { j with chunk := j.chunk + 1, phase := 0, index := 0, sent := last, dead := j.dead || poison }
  let st := if last then [s.statusItem k j (if j.dead then 0x20 else 0) j.ent.stream j.ent.length] else []
  let s := (s.setCtx k { s.ctx k with q := (s.ctx k).q ++ items ++ st }).setJobOf k j
  s.pump k

/-- R87, R278: the CANCEL of a delivery, naming its unit, the cue and its stream; its queued parcels are dropped. -/
def State.cancelDelivery (s : State) (k : Nat) (j : Job) : State :=
  let s := s.setCtx k { s.ctx k with q := (s.ctx k).q.filter (fun it => it.ent % 4096 != j.idx || it.stream != j.ent.stream) }
  match s.physOf j.ent.troupe with
  | none => s
  | some t =>
    s.inject { kind := 4, vl := 3, src := gateOf t, srcRoute := 1, dst := t, at_ := gateOf t, inDir := 5, cue := s.cueNow % 256,
               unit := j.ent.unit, pl := .cancel j.ent.stream j.ent.unit (s.cueNow % 256), part := j.part }

/-- R289, R290: the faulting instruction of a context completes with ST_XLATE_FAULT. -/
def State.failFault (s : State) (k : Nat) : State :=
  let x := s.cxAt (ctxKey k)
  let x := match (s.ctx k).faultD with | some d => { x.setS d 0x10 with pc := x.pc + 1 } | none => x
  (s.setCxAt (ctxKey k) { x with st := .run }).setCtx k { s.ctx k with faultD := none, prog := 0, progDead := false }

/-- R288, R290: the fault record of a context in FAULT is passed: its instruction completes with ST_XLATE_FAULT and ABANDONED is set. -/
def State.discardFault (s : State) (k : Nat) : State :=
  match (s.cxAt (ctxKey k)).st with
  | .fault _ => (s.failFault k).wr (Reg.CRR_CTX_FAULT_ABANDONED k) 1
  | _ => s

/-- R281, R288: the entry a context runs stops. One that is carried starts again from its first chunk in the next cue. -/
def State.stopEntry (s : State) (k : Nat) (j : Job) : State :=
  let c := s.ctx k
  let s := if j.carried then
      let again := { j with chunk := 0, phase := 0, sent := false, dead := false, transit := false }
      s.setCtx k { c with carry := c.carry ++ [again], closed := c.closed ++ [j.idx] }
    else s
  s.endWork k

/-- R278, R280, R292: the understudy delivery of an entry: the late stream is cancelled, and the copy in the Stage-only range follows
on USTREAM with its status record, ahead of everything the context has queued. -/
def State.understudy (s : State) (k : Nat) (j : Job) : State :=
  let s := s.cancelDelivery k j
  let s := if (match (s.ctx k).job with | some r => r.idx == j.idx | none => false) then (s.discardFault k).forget (ctxKey k) else s
  let s := (s.satAdd (Reg.CRR_CTX_COUNT_UNDERSTUDY k) 1).satAdd Reg.CRR_MISS_UNDERSTUDY 1
  let n := j.ent.ulen / 64
  let off := pgaOff j.ent.usrc
  let s := s.storeCheck off j.ent.ulen
  let ls := (List.range n).map (fun i => s.lineNow (off + 64 * i))
  let a := dieOfCourier (k / 16)
  let hits := ((List.range n).filter (fun i => s.holds a (s.lineKey (off + 64 * i)))).length
  let s := (s.satAdd (Reg.CRR_CACHE_HIT a) hits).satAdd (Reg.CRR_CACHE_MISS a) (n - hits)
  let items := ls.zipIdx.map (fun (l, i) =>
    ({ ent := j.idx, stream := j.ent.ustream, troupe := j.ent.troupe, line := j.ent.uline + i, unit := j.ent.unit,
       data := lineOf (seenBytes l), poison := l.2 != 0, credits := j.ent.credits, part := j.part } : DlvItem))
  let dead := ls.any (fun l => l.2 != 0)
  let st := s.statusItem k j (if dead then 0x20 else 2) j.ent.ustream j.ent.ulen
  let s := s.setCtx k { s.ctx k with q := items ++ [st] ++ (s.ctx k).q, prog := 0, progDead := false }
  let s := match (s.ctx k).job with
    | some r => if r.idx = j.idx then s.setJobOf k { r with sent := true } else s
    | none => s
  s.pump k

/-- R285, R286: a bad chunk: it is counted, EV_CRR_DATA is raised once per courier and cue, and the understudy delivery begins,
or the chunk's lines are delivered poisoned. -/
def State.badChunk (s : State) (k : Nat) (j : Job) (size : Nat) (format : Bool) : State :=
  let c := k / 16
  let s := s.satAdd (if format then Reg.CRR_ERR_FORMAT c else Reg.CRR_ERR_CRC c) 1
  let s := if s.cour.dataRaised.getD c false then s
           else ({ s with cour := { s.cour with dataRaised := s.cour.dataRaised.insert c true } }).raise 66
  if j.ent.ulen ≠ 0 then s.understudy k j
  else s.queueChunk k j (List.replicate size 0) true

/-- R288: a read of an entry ended with a status other than ST_OK. -/
def State.readEnded (s : State) (k : Nat) (j : Job) (code va : Nat) : State :=
  if code = 0x10 then s.ctxFault k va false 0x10
  else if code = 0x22 then s.setJobOf k { j with transit := true }
  else if code = 0x23 then
    let late := (s.ctx k).q.filter (fun it => it.ent % 4096 == j.idx && it.stream == j.ent.stream)
    let s := s.injectDlv k (s.statusItem k j 0x23 j.ent.stream (4096 * j.chunk - 64 * late.length))
    (s.haltCtx k).raise 65
  else
    let s := (s.wr (Reg.CRR_CTX_FAULT_VALID k) 1).wr (Reg.CRR_CTX_FAULT_ABANDONED k) 0
    let s := (s.wr (Reg.CRR_CTX_FAULT_WRITE k) 0).wr (Reg.CRR_CTX_FAULT_VA k) va
    ((s.satAdd (Reg.CRR_CTX_COUNT_FAULTS k) 1).raise 64).stopEntry k j

/-- The output size of the chunk a delivery reads. -/
def Job.size (j : Job) : Nat := min 4096 (j.ent.length - 4096 * j.chunk)

/-- R292: read bytes into slot m of context k; data, blocks and frames do not allocate, an index does. -/
def State.intoSlot (s : State) (k : Nat) (alloc : Bool) (part va len m : Nat) : State × Fetch :=
  s.fetch k alloc part va len (fun s b bs ms => s.slotPut k m b bs ms)

/-- R284 to R286: the block in slot 0 is decoded under the table read. -/
def State.decodeChunk (s : State) (k : Nat) (j : Job) : State :=
  let b := s.slotBytes k 0 4096
  match blockHead b with
  | none => s.badChunk k j j.size true
  | some (outB, inB, _, _) =>
    if outB ≠ j.size ∨ bitsOf j.index 40 13 ≠ 16 + inB then s.badChunk k j j.size true
    else match decodeBlock b (s.tableBytes k) with
    | none => s.badChunk k j j.size true
    | some (out, good) =>
      let s := s.setCtx k { s.ctx k with outBytes := (s.ctx k).outBytes + out.length }
      if good then s.queueChunk k j out false else s.badChunk k j j.size false

/-- R282, R285: the index entry of a chunk has been read: what it names is read next. -/
def State.indexRead (s : State) (k : Nat) (j : Job) (e : Nat) : State :=
  let kind := bitsOf e 53 2
  let bytes := bitsOf e 40 13
  if e / 2 ^ 55 ≠ 0 ∨ kind = 3 ∨ (kind = 2 ∧ e % 2 ^ 53 ≠ 0) ∨ (kind = 1 ∧ bytes ≠ j.size) ∨ bitsOf e 0 40 % 64 ≠ 0 ∨
      (kind = 0 ∧ 4096 < bytes) then
    s.badChunk k j j.size true
  else if kind = 2 then s.queueChunk k j (List.replicate j.size 0) false
  else s.setJobOf k { j with index := e, phase := 1 }

/-- R274, R288: the read that a DELIVER entry makes next. -/
def State.deliverRead (s : State) (k : Nat) (j : Job) : State :=
  let after (q : State × Fetch) (ok : State → Bool → State) : State :=
    match q.2 with
    | .wait => q.1
    | .stat code va => q.1.readEnded k j code va
    | .ok dead => ok q.1 dead
  if !j.ent.comp then
    after (s.intoSlot k false j.part (j.ent.src + 4096 * j.chunk) j.size 0) (fun s dead =>
      if dead then s.badChunk k j j.size false else s.queueChunk k j (s.slotBytes k 0 j.size) false)
  else if j.phase = 0 then
    after (s.intoSlot k true j.part (j.ent.src + 8 * j.chunk) 8 1) (fun s dead =>
      if dead then s.badChunk k j j.size false else s.indexRead k j (leBytes (s.slotBytes k 1 8)))
  else if j.phase = 1 then
    let raw := bitsOf j.index 53 2 == 1
    after (s.intoSlot k false j.part (j.ent.src + bitsOf j.index 0 40) (bitsOf j.index 40 13) 0) (fun s dead =>
      if dead then s.badChunk k j j.size false
      else if raw then s.queueChunk k j (s.slotBytes k 0 j.size) false
      else s.setJobOf k { j with phase := 2 })
  else
    after (s.fetchTable k j.part j.tables (s.slotBytes k 0 8 |>.getD 6 0).toNat) (fun s dead =>
      if dead then s.badChunk k j j.size false else s.decodeChunk k j)

/-- R130, R273, R281: what a context may start now: an entry carried in an earlier cue, whatever plan is bound, or the next entry of its plan. UNIT, DLINE and DDEL then
report the unit that a DELIVER entry serves. -/
def State.startEntry (s : State) (k : Nat) (frame : Bool) (run : State → Job → State) : State :=
  let x := s.cxAt (ctxKey k)
  let c := s.ctx k
  let carried := match c.carry with | j :: _ => !c.closed.contains j.idx | [] => false
  if !((s.is1 (Reg.CRR_CTX_PLAN_EN k) && x.st == .idle) || (carried && x.st == .pool)) ∨ c.job.isSome then s
  else
    let go (s : State) (j : Job) : State :=
      let s := (s.wr (Reg.CRR_CTX_STATE_ENTRY k) j.idx).setCtx k { s.ctx k with job := some j, faultD := none, prog := 0, progDead := false }
      let x := { s.cxAt (ctxKey k) with st := .run, part := j.part }
      let d := (s.unitFor k j.ent.unit).getD {}
      run (s.setCxAt (ctxKey k) (if j.ent.op = 0 then { x with unit := j.ent.unit, dline := d.d, ddel := d.ddel } else x)) j
    match (if carried then c.carry else []) with
    | j :: rest => if frame then s else go (s.setCtx k { c with carry := rest }) j
    | [] =>
      let off := s.planOff k
      if s.planLen off ≤ c.next then s
      else
        let bs := s.planBytes off c.next
        let e := planEntryOf bs
        let skip (s : State) (closed : Bool) : State :=
          s.setCtx k { s.ctx k with next := c.next + 1, closed := if closed then c.closed ++ [c.next] else c.closed }
        if !s.entryOk off c.next then (if frame then s else (skip s false).satAdd (Reg.CRR_ERR_FORMAT (k / 16)) 1)
        else if (e.op = 1) ≠ (frame = true) then s
        else if e.op = 0 ∧ !e.counted then skip s true
        else if e.op = 0 ∧ s.servesCarried e then skip s true
        else
          let j : Job := { idx := c.next, ent := e, part := s.rd (Reg.CRR_CTX_PLAN_PARTITION k), tables := s.cohNum (off + 8) 8 }
          if e.op = 0 ∧ s.justCarried e ∧ !c.closed.contains c.next then
            let s := skip s true
            s.setCtx k { s.ctx k with carry := c.carry ++ [{ j with carried := true }] }
          else if c.closed.contains c.next then skip s false
          else if s.ofs < e.start ∨ s.phase = 0 then s
          else if s.phase ≠ 1 ∨ e.ddel ≤ s.ofs ∨ s.curtain j.part then skip s false
          else go (skip s false) j

/-- R273, R274: a DELIVER entry of context k becomes due and starts. -/
def execDeliver (k : Fin 4096) (s : State) : Res := if s.halted then .next s else .next (s.startEntry k.val false (fun s _ => s.issued (.ctx k)))

/-- R288: a source read of the DELIVER entry that context k runs completes. -/
def execCourierReadComplete (k : Fin 4096) (s : State) : Res :=
  if s.halted then .next s else
  match (s.ctx k.val).job with
  | none => .next s
  | some j =>
    if (s.cxAt (ctxKey k.val)).st ≠ .run ∨ j.ent.op ≠ 0 ∨ j.sent ∨ j.transit then .next s
    else .next ((s.deliverRead k.val j).issued (.ctx k))

/-- R288: a read that got ST_IN_TRANSIT is made again, and counted. -/
def execInTransitRetry (k : Fin 4096) (s : State) : Res :=
  if s.halted then .next s else
  match (s.ctx k.val).job with
  | none => .next s
  | some j =>
    if (s.cxAt (ctxKey k.val)).st ≠ .run ∨ !j.transit ∨ j.sent then .next s
    else
      let j := { j with transit := false }
      let s := (s.setJobOf k.val j).satAdd (Reg.CRR_ERR_RETRY (k.val / 16)) 1
      .next ((if j.ent.op = 0 then s.deliverRead k.val j else s).issued (.ctx k))

/-- R277: a FRAME entry ends without a fill and is counted. -/
def State.frameFailed (s : State) (k : Nat) : State := (s.satAdd (Reg.CRR_ERR_FORMAT (k / 16)) 1).endWork k

/-- R277: the 1,024 B of a FRAME entry are written to the frame's staged copy with its tag, and the frame is FILLED. -/
def State.fillFrame (s : State) (k : Nat) (j : Job) (bs : List Byte) : State :=
  let f := j.ent.troupe
  let put (s : State) : State :=
    let s := { s with book := { s.book with staged := Memory.store s.book.staged (1024 * f) bs } }
    ((s.wr (Reg.PBK_FRAME_STAGE_TAG f) j.ent.tag).wr (Reg.PBK_FRAME_STAGE_STATE f) 2).endWork k
  if s.rd (Reg.PBK_FRAME_STAGE_OWNER f) ≠ j.part then s.frameFailed k
  else if s.is1 (Reg.PBK_FRAME_STAGE_COND f) then
    let (s, ok) := s.judge j.part
    if ok then put s else s.frameFailed k
  else put s

/-- R277: the read of a FRAME entry. -/
def State.frameRead (s : State) (k : Nat) (j : Job) : State :=
  if j.ent.length = 0 then s.endWork k
  else
    let (s, r) := s.intoSlot k false j.part j.ent.src 1024 0
    match r with
    | .wait => s
    | .ok dead => if dead then (s.satAdd (Reg.CRR_ERR_CRC (k / 16)) 1).endWork k else s.fillFrame k j (s.slotBytes k 0 1024)
    | .stat code va =>
      if code = 0x10 ∨ code = 0x22 then s.readEnded k j code va
      else if code = 0x23 then (s.haltCtx k).raise 65
      else s.frameFailed k

/-- R277: the FRAME entry of context k starts, or goes on with its read. -/
def execFrameEntry (k : Fin 4096) (s : State) : Res :=
  if s.halted then .next s else
  match (s.ctx k.val).job with
  | some j =>
    if (s.cxAt (ctxKey k.val)).st ≠ .run ∨ j.ent.op ≠ 1 ∨ j.transit then .next s else .next ((s.frameRead k.val j).issued (.ctx k))
  | none => .next (s.startEntry k.val true (fun s j => (s.frameRead k.val j).issued (.ctx k)))

/-- R290: a D_DEL of an UNDERSTUDY or SKIP entry passes the fault of its context: a RESUME or ABANDON in the same clk is STALE, whichever comes first. -/
def State.passFault (s : State) (k i : Nat) : State :=
  let c := s.ctx k
  match (s.cxAt (ctxKey k)).st with
  | .fault _ => s.setCtx k { c with passed := some s.ofs }
  | _ =>
    if c.acted = some s.ofs ∧ s.rd (Reg.CRR_CTX_STATE_ENTRY k) = i then
      (s.wr (Reg.CRR_CTX_CTL_RESULT k) 3).wr (Reg.CRR_CTX_FAULT_ABANDONED k) 1
    else s

/-- R278, R281, R288, R290, R295: what the end of D_DEL does with entry i of context k, which is late: j is the entry as it stands. -/
def State.lateEntry (s : State) (k i : Nat) (running : Bool) (j : Job) : State :=
  let c := s.ctx k
  let st := (s.cxAt (ctxKey k)).st
  let stopped : Bool := match st with | .stopped _ => true | _ => false
  let toCarry (s : State) : State := s.setCtx k { s.ctx k with carry := c.carry ++ [{ j with carried := true }], closed := c.closed ++ [i] }
  if !running ∧ !s.entryOk (s.planOff k) i then s
  else if !running ∧ c.next ≤ i ∧ s.justCarried j.ent then toCarry s
  else if stopped ∧ (j.ent.ulen ≠ 0 ∨ j.ent.skip) then s
  else if j.ent.ulen ≠ 0 then
    let s := s.passFault k i
    (if st = .idle then (s.setCxAt (ctxKey k) { s.cxAt (ctxKey k) with st := .run, part := j.part }).setJobOf k { j with sent := true }
     else s).understudy k j
  else if j.ent.skip then
    let s := (s.passFault k i).cancelDelivery k j
    let s := if running then s.discardFault k else s
    let s := s.setCtx k { s.ctx k with closed := (s.ctx k).closed ++ [i] }
    if running then s.endWork k else s
  else if running then s.setJobOf k { j with carried := true }
  else toCarry s

/-- R278: the end of D_DEL of entry i of context k, once in a cue: where it has no status record injected, it is late. An entry passed over in this cue is not; nor is one
whose understudy delivery is under way late again. -/
def State.courierDDel (s : State) (k i : Nat) : State :=
  let c := s.ctx k
  let off := s.planOff k
  let fresh : Job := { idx := i, ent := planEntryOf (s.planBytes off i), part := s.rd (Reg.CRR_CTX_PLAN_PARTITION k), tables := s.cohNum (off + 8) 8 }
  let running := match c.job with | some j => j.idx == i && !j.carried | none => false
  let j := if running then c.job.getD fresh else fresh
  if !s.is1 (Reg.CRR_CTX_PLAN_EN k) ∨ s.planLen off ≤ i ∨ !j.ent.counted ∨ s.ofs ≤ j.ent.ddel ∨ s.servesCarried j.ent ∨ c.late.contains i ∨
      (s.cxAt (ctxKey k)).st = .halted then s
  else
    let carrying := c.carry.any (fun r => r.idx == i) || (match c.job with | some r => r.idx == i && r.carried | none => false)
    let s := s.setCtx k { c with late := c.late ++ [i] }
    if c.closed.contains i ∧ !carrying then s
    else
      let s := s.satAdd Reg.CRR_MISS_LATE 1
      let under := c.q.any (fun it => it.ent == i && it.closes && it.stream == j.ent.ustream && j.ent.ulen != 0)
      if carrying ∨ under then s else s.lateEntry k i running j

/-- R278: the end of D_DEL of entry i of the plan of context k. -/
def execCourierDDel (k : Fin 4096) (i : BitVec 10) (s : State) : Res := if s.halted then .next s else .next (s.courierDDel k.val i.toNat)

/-! ### Actions on a context (R289, R313) -/

/-- R206, R289, R313: ABANDON: the faulting instruction completes with ST_XLATE_FAULT; an entry stops and is late at its D_DEL. -/
def State.abandonFault (s : State) (k : Nat) : State :=
  let s := s.failFault k
  match (s.ctx k).job with
  | some j => s.stopEntry k j
  | none => s.setCtx k { s.ctx k with abandoned := true }

/-- R289, R290: an action on context k: 0 RESUME, 1 ABANDON, 2 RESTART; the RESULT is left in CRR_CTX_CTL. -/
def State.ctxAction (s : State) (k act : Nat) : State :=
  let x := s.cxAt (ctxKey k)
  let stale := s.is1 (Reg.CRR_CTX_FAULT_ABANDONED k)
  let res := Reg.CRR_CTX_CTL_RESULT k
  match x.st with
  | .fault _ =>
    if act = 2 then s.wr res 2
    else if stale then s.wr res 3
    else
      let s := s.setCtx k { s.ctx k with acted := some s.ofs }
      if act = 0 then (s.setCxAt (ctxKey k) { x with st := .run }).wr res 1
      else (s.abandonFault k).wr res 1
  | .stopped _ =>
    if act = 2 then (s.setCtx k { s.ctx k with restart := true }).wr res 1 else s.wr res 2
  | _ => s.wr res (if act ≠ 2 ∧ (s.ctx k).passed = some s.ofs then 3 else 2)

/-- R289: a write of CRR_CTX_CTL of context k by requester h. -/
def State.ctxCtl (s : State) (h k : Nat) (resume abandon restart : Bool) : State :=
  if h ≠ 16 ∧ h ≠ 17 then s
  else match resume, abandon, restart with
  | false, false, false => s
  | true, false, false => s.ctxAction k 0
  | false, true, false => s.ctxAction k 1
  | false, false, true => s.ctxAction k 2
  | _, _, _ => s.wr (Reg.CRR_CTX_CTL_RESULT k) 4

/-- R289 RESUME. -/
def execCrrResume (h : Fin 18) (k : Fin 4096) (s : State) : Res := if s.halted then .next s else .next (s.ctxCtl h.val k.val true false false)

/-- R289 ABANDON. -/
def execCrrAbandon (h : Fin 18) (k : Fin 4096) (s : State) : Res := if s.halted then .next s else .next (s.ctxCtl h.val k.val false true false)

/-- R289 RESTART. -/
def execCrrRestart (h : Fin 18) (k : Fin 4096) (s : State) : Res := if s.halted then .next s else .next (s.ctxCtl h.val k.val false false true)

/-- R313: at a TAKE, the fault of a POOL context that has waited FAULT_CUES whole cues is abandoned: it has waited through one TAKE more. -/
def execPoolFaultTimeout (k : Fin 4096) (s : State) : Res :=
  if s.halted then .next s else
  let lim := s.rd (Reg.PRT_CTL_FAULT_CUES (s.ctxPart k.val))
  match (s.cxAt (ctxKey k.val)).st with
  | .fault _ =>
    if s.phase = 0 ∧ !s.is1 (Reg.CRR_CTX_PLAN_EN k.val) ∧ lim ≠ 0 ∧ lim < (s.ctx k.val).waited then .next (s.abandonFault k.val)
    else .next s
  | _ => .next s

/-! ### What a TAKE does to contexts -/

/-- R265, R273, R289, R290, R293: context k at a TAKE; `planTaken` says that the take wrote its CRR_CTX_PLAN. -/
def State.takeCtx (s : State) (k : Nat) (planTaken : Bool) : State :=
  let c := s.ctx k
  let x := s.cxAt (ctxKey k)
  let s := s.wr (Reg.CRR_CTX_COUNT_DELIVERED k) (min c.bytes (2 ^ 32 - 1))
  let c := { c with next := 0, closed := [], seqs := [], bytes := 0, outBytes := 0, late := [], acted := none, passed := none }
  let home : CxSt := if s.is1 (Reg.CRR_CTX_PLAN_EN k) then .idle else .pool
  let again := c.job.map (fun j => { j with chunk := 0, phase := 0, sent := false, dead := false })
  match x.st with
  | .stopped _ =>
    if c.restart then
      let carry := match again with | some j => if j.carried then j :: c.carry else c.carry | none => c.carry
      (s.setCxAt (ctxKey k) { x with st := home }).setCtx k { c with restart := false, job := none, carry := carry, q := [], prog := 0 }
    else s.setCtx k c
  | .halted => if planTaken then (s.setCxAt (ctxKey k) { x with st := home }).setCtx k c else s.setCtx k c
  | .fault _ =>
    if planTaken ∧ !(match c.job with | some j => j.carried | none => false) then
      ((((s.failFault k).setCtx k { c with job := none, prog := 0, faultD := none }).endWork k)).wr (Reg.CRR_CTX_FAULT_ABANDONED k) 1
    else s.setCtx k { c with waited := c.waited + 1 }
  | .idle => (s.setCxAt (ctxKey k) { x with st := home }).setCtx k c
  | .pool => (s.setCxAt (ctxKey k) { x with st := home }).setCtx k c
  | _ => s.setCtx k c

/-- R294: CRR_LOAD.BYTES of every courier at a TAKE: the DCMP output bytes of its contexts in the cue that ends. -/
def State.takeLoads (s : State) : State :=
  let used := ((s.cour.ctx.filter (fun _ (c : Ctx) => c.outBytes != 0)).keys.map (· / 16)).dedup
  let old := (s.listed (Reg.CRR_LOAD_BYTES 0) 0x40 256)
  let s := old.foldl (fun s c => s.wr (Reg.CRR_LOAD_BYTES c) 0) s
  used.foldl (fun s c => s.wr (Reg.CRR_LOAD_BYTES c)
    (min (2 ^ 32 - 1) (((List.range 16).map (fun i => (s.ctx (16 * c + i)).outBytes)).sum))) s

/-- R276: the counted entries that each unit of a troupe is due, from the plans in force: the N_d of unit u on logical l. -/
def State.countEntries (s : State) (l u : Nat) : Nat :=
  ((s.listed (Reg.CRR_CTX_PLAN_EN 0) 0x40 4096).map (fun k =>
    let off := s.planOff k
    ((List.range (s.planLen off)).filter (fun i =>
      let bs := s.planBytes off i
      let e := planEntryOf bs
      e.counted && e.troupe == l && e.unit == u)).length)).sum

end Sys2Proof.Machine
end

