-- ==== Sys2Proof/Machine/Control.lean ====
section
/-!
DEFINITION. The CTRL instructions (R130, R150 to R153) and the PARCEL instructions (R155 to R158).
-/

namespace Sys2Proof.Machine

/-! ### CTRL, major 0x00 -/

/-- R150: the encoding of NOP. -/
def encNop : Enc := { major := 0, minor := 0 }

/-- R150 NOP: nothing. -/
def execNop (u : Agent) (f : BitVec 52) (s : State) : Res :=
  .next (issueR u encNop f true id s)

/-- R150: the encoding of END. -/
def encEnd : Enc := { major := 0, minor := 1 }

/-- R150 END: ends the unit for this CE; in the other profiles, the current work of the context or core. A core whose work
has ended issues nothing until a signal or a restart (log entry 12). -/
def execEndUnit (u : Agent) (f : BitVec 52) (s : State) : Res :=
  .next (issue u encEnd f true (fun x s => .go (match u with
    | .ce t c => s.endCE t.val c.val x.unit
    | .ctx k => s.endWork k.val
    | .core n => s.setCxAt (coreKey n.val) { s.cxAt (coreKey n.val) with st := .idle })) s)

/-- R150: the encoding of BR. -/
def encBr : Enc := { major := 0, minor := 2, iform := true, imm := 16 }

/-- R150 BR: PC := IMM [15:0]. -/
def execBr (u : Agent) (f : BitVec 52) (s : State) : Res :=
  .next (issue u encBr f true (fun _ s => .br s (fIMM f)) s)

/-- R150: the encoding of BRZ. -/
def encBrz : Enc := { major := 0, minor := 3, iform := true, a := .s, imm := 16 }

/-- R150 BRZ: if s[A] = 0, PC := IMM [15:0]. -/
def execBrz (u : Agent) (f : BitVec 52) (s : State) : Res :=
  .next (issue u encBrz f true (fun x s => if x.sr (fA f) = 0 then .br s (fIMM f) else .go s) s)

/-- R150: the encoding of BRNZ. -/
def encBrnz : Enc := { major := 0, minor := 4, iform := true, a := .s, imm := 16 }

/-- R150 BRNZ: if s[A] is not 0, PC := IMM [15:0]. -/
def execBrnz (u : Agent) (f : BitVec 52) (s : State) : Res :=
  .next (issue u encBrnz f true (fun x s => if x.sr (fA f) = 0 then .go s else .br s (fIMM f)) s)

/-- R129: the depth of a profile's link stack. -/
def linkDepth (prof : Nat) : Nat := if prof = 2 then 16 else 4

/-- R150: the encoding of CALL. -/
def encCall : Enc := { major := 0, minor := 5, iform := true, imm := 16 }

/-- R150, R151 CALL: pushes PC + 1, then PC := IMM [15:0]; STACK where the link stack is full. -/
def execCall (u : Agent) (f : BitVec 52) (s : State) : Res :=
  .next (issue u encCall f true (fun x s =>
    if x.len ≤ fIMM f then .exc 2 (fIMM f)
    else if linkDepth (agentProfile u) ≤ x.link.length then .exc 3 (fIMM f)
    else .br (s.setCx u { x with link := (x.pc + 1) :: x.link }) (fIMM f)) s)

/-- R150: the encoding of RET. -/
def encRet : Enc := { major := 0, minor := 6 }

/-- R523: the RET of core n that pops the entry a signal pushed clears IN_HANDLER. -/
def State.leaveHandler (s : State) (u : Agent) (depth : Nat) : State :=
  match u with
  | .core n =>
    if (s.cxAt (coreKey n.val)).handler = [depth] then
      (s.setCxAt (coreKey n.val) { s.cxAt (coreKey n.val) with handler := [] }).wr (Reg.EVC_CORE_IN_HANDLER n.val) 0
    else s
  | _ => s

/-- R150, R151 RET: PC := pop of the link stack; STACK where it is empty. -/
def execRetn (u : Agent) (f : BitVec 52) (s : State) : Res :=
  .next (issue u encRet f true (fun x s =>
    match x.link with
    | [] => .exc 3 0
    | r :: rest => .br ((s.setCx u { x with link := rest }).leaveHandler u (rest.length + 1)) r) s)

/-- R150: the encoding of LOOP. -/
def encLoop : Enc := { major := 0, minor := 7, iform := true, a := .s, imm := 16 }

/-- R150 LOOP: a non-zero s[A] is decremented, and a non-zero result branches to IMM [15:0]. -/
def execLoop (u : Agent) (f : BitVec 52) (s : State) : Res :=
  .next (issue u encLoop f true (fun x s =>
    if x.sr (fA f) = 0 then .go s
    else
      let s' := s.setCx u (x.setS (fA f) (x.sr (fA f) - 1))
      if x.sr (fA f) = 1 then .go s' else .br s' (fIMM f)) s)

/-- R152: the encoding of WAITCUE. -/
def encWaitcue : Enc := { major := 0, minor := 8, iform := true, imm := 21 }

/-- R152 WAITCUE: waits until the cue offset reaches IMM [20:0]. -/
def execWaitcue (u : Agent) (f : BitVec 52) (s : State) : Res :=
  .next (issue u encWaitcue f true (fun _ s =>
    if fIMM f ≤ s.ofs then .go s else .wait s (.cue (fIMM f))) s)

/-- R152: an agent waiting in WAITCUE goes on once the cue offset has reached its value. -/
def execWaitcueResume (u : Agent) (s : State) : Res :=
  if s.halted then .next s else
  let x := s.cx u
  match x.st with
  | .cue o => if o ≤ s.ofs then .next (s.setCx u { x with st := .run, pc := x.pc + 1 }) else .next s
  | _ => .next s

/-- R153: the encoding of DLBR. -/
def encDlbr : Enc := { major := 0, minor := 9, iform := true, imm := 32 }

/-- R153 DLBR: branches to IMM [15:0] if D - CUEOFS < 16 times IMM [31:16]; never where IMM [31:16] is zero. A core runs
no unit, so its D is a free value (log entry 2). -/
def execDlbr (u : Agent) (f : BitVec 52) (s : State) : Res :=
  .next (issue u encDlbr f true (fun x s =>
    let q := if agentProfile u = 2 then s.fresh 21 else (x.dline, s)
    let n := fIMM f / 2 ^ 16
    if n ≠ 0 ∧ q.1 < s.ofs + 16 * n then .br q.2 (fIMM f % 2 ^ 16) else .go q.2) s)

/-- R130: the profiles that list a special register, by its number. -/
def sprListed (prof n : Nat) : Bool :=
  [0, 1, 2, 6, 8, 10].contains n || ([3, 4, 5, 9].contains n && prof != 2) || (n == 7 && prof == 0)

/-- R130: what a special register holds for an agent. -/
def State.spr (s : State) (u : Agent) (x : Cx) (n : Nat) : Nat :=
  if n = 0 then x.flags
  else if n = 1 then s.ofs
  else if n = 2 then s.cueNow % 2 ^ 32
  else if n = 3 then x.unit
  else if n = 4 then x.dline
  else if n = 5 then x.ddel
  else if n = 6 then
    (match u with
     | .ce t c => s.rd (Reg.TRP_STATE_LOGICAL t.val) + c.val * 2 ^ 16
     | .ctx k => k.val / 16 + k.val % 16 * 2 ^ 8
     | .core c => c.val)
  else if n = 7 then x.rxinfo.toNat
  else if n = 8 then x.level
  else if n = 9 then x.part
  else s.period

/-- R130, R150: the encoding of MFS into an s register, or into an a register. -/
def encMfs (toA : Bool) : Enc :=
  { major := 0, minor := 0x0A, d := if toA then .a else .s, a := .num 63, modMask := 2 }

/-- R130 MFS: special register A is written to s[D], or with MOD [1] to a[D]. -/
def execMfs (u : Agent) (f : BitVec 52) (s : State) : Res :=
  .next (issue u (encMfs (bitOf (fMOD f) 1)) f (sprListed (agentProfile u) (fA f)) (fun x s =>
    let y := s.spr u x (fA f)
    .go (s.setCx u (if bitOf (fMOD f) 1 then x.setA (fD f) y else x.setS (fD f) y))) s)

/-- R130, R150: the encoding of MTS. -/
def encMts : Enc := { major := 0, minor := 0x0A, d := .num 0, a := .s, modMask := 1 }

/-- R130 MTS: special register D := s[A]. FLAGS is the only writable one, and its bits [31:6] are reserved. -/
def execMts (u : Agent) (f : BitVec 52) (s : State) : Res :=
  .next (issueR u encMts f (bitOf (fMOD f) 0) (fun x => { x with flags := x.sr (fA f) % 64 }) s)

/-! ### PARCEL, major 0x10 -/

/-- R220: the TCLASS of the model token that a unit's next parcel on an outbound route completes: every TPP-th parcel, counted from the unit's first
SEND on the route in the cue. -/
def OutRt.tokenOf (o : OutRt) (u : Nat) : Option Nat :=
  if o.desc.tokens ∧ (o.sentBy.getD u 0 + 1) % o.desc.tpp = 0 then some (bitsOf o.desc.tflags 2 3) else none

/-- R221: a model token that a parcel completes is injected. -/
def State.countToken (s : State) (t : Nat) (tok : Option Nat) : State :=
  match tok with
  | some c => s.tokenAdd (s.trpPart t) c (fun l => { l with injected := l.injected + 1 })
  | none => s

/-- R79, R155, R455: form and inject the parcel of a SEND on outbound route r of troupe t. An OUT parcel makes for the
gate nearest to its troupe (R202). -/
def State.sendParcel (s : State) (t r : Nat) (o : OutRt) (x : Cx) (data : BitVec 512) (last : Bool) : State :=
  let out := o.desc.kind == 5
  let p : MParcel :=
    { poison := bitOf x.flags 5 || (o.desc.kind == 2 && tallyPoison data), last := last, cue := s.cueNow % 256,
      unit := x.unit, seq := o.seq % 65536, route := if out then o.desc.rroute else o.desc.dstRoute, kind := o.desc.kind,
      vl := if o.desc.kind = 2 then 2 else 0, src := t, srcRoute := r,
      dst := if out then gateOf t else o.dstPhys.getD t, pl := .data data, at_ := t, part := s.trpPart t, tok := o.tokenOf x.unit,
      out := if out then some { dev := o.desc.rdev, swclass := o.desc.swclass, troupe := o.desc.rtroupe,
                                route := o.desc.rroute } else none }
  let s := s.setTroupe t { s.troupe t with outs := mapAt (s.troupe t).outs r (fun o =>
    { o with cr := o.cr - 1, seq := o.seq + 1, away := if out then o.away + 1 else o.away, sentBy := o.sentBy.setD x.unit 0 (o.sentBy.getD x.unit 0 + 1) }) }
  ((s.countToken t p.tok).inject p).ledgerAdd (fun l => { l with injected := l.injected + 1 })

/-- R155: the encoding of SEND. -/
def encSend : Enc := { major := 0x10, minor := 0, a := .v 1, b := .num 63, modMask := 1 }

/-- R155 SEND: one route credit is consumed and v[A] leaves as one parcel; without a credit it waits; a route whose
credit count is zero sends nothing. -/
def execSend (u : Agent) (f : BitVec 52) (s : State) : Res :=
  .next (issueW u encSend f true true .credit (fun x s =>
    match u with
    | .ce t _ =>
      (match (s.troupe t.val).outs[fB f]? with
       | none => .go s
       | some o =>
         if o.desc.credits = 0 then .go s
         else if o.cr = 0 then .wait s .credit
         else .go (s.sendParcel t.val (fB f) o x (BitVec.ofNat 512 (x.group (fA f) 1)) (bitOf (fMOD f) 0)))
    | _ => .go s) s)

/-- R158: RXINFO of a parcel read on a route. -/
def rxinfoOf (route : Nat) (q : RingSlot) : Nat :=
  b2n q.last + 2 * b2n q.poison + 4 * (route % 64) + 256 * (q.seq % 65536)

/-- R156, R45: mark the head unread slot of an inbound route as read by a unit; where its policy is SKIP the slot is
released at once. -/
def State.readSlot (s : State) (t r unit : Nat) (skip : Bool) : State :=
  let tr := s.troupe t
  match tr.ins[r]? with
  | none => s
  | some ir =>
    let i := ir.q.findIdx (fun q => q.reader.isNone)
    let s := s.setTroupe t { tr with ins := mapAt tr.ins r (fun ir =>
      { ir with q := mapAt ir.q i (fun q => { q with reader := some unit }) }) }
    if skip then s.releaseSlots t unit .read else s

/-- R156: the encoding of RECV. -/
def encRecv : Enc := { major := 0x10, minor := 1, d := .v 1, b := .num 63 }

/-- R156 RECV: the head unread slot of the ring into v[D], with RXINFO; an empty ring waits; a route whose credit count is
zero leaves v[D] and zeroes RXINFO, and so does a route number at or above IN_ROUTES (log entry 95). -/
def execRecv (u : Agent) (f : BitVec 52) (s : State) : Res :=
  .next (issueW u encRecv f true true .recv (fun x s =>
    match u with
    | .ce t _ =>
      (match (s.troupe t.val).ins[fB f]? with
       | none => .go (s.setCx u { x with rxinfo := 0 })
       | some ir =>
         if ir.desc.slots = 0 then .go (s.setCx u { x with rxinfo := 0 })
         else match ir.q.find? (fun q => q.reader.isNone) with
         | none => .wait s .recv
         | some q =>
           let s := s.sramCheck t.val ((List.range 8).map (fun i => 64 * q.line + 8 * i))
           let rd := s.sramRead t.val (64 * q.line) 64
           let x' := ((x.setGroup (fD f) 1 0xFFFF (leBytes rd.1)).orFlags (if q.poison || rd.2 then flDL else 0))
           let x' := { x' with rxinfo := BitVec.ofNat 32 (rxinfoOf (fB f) q), vp := if q.poison then fD f :: x'.vp else x'.vp }
           let skip := match (s.troupe t.val).unit x.unit with | some w => w.desc.policy == 2 | none => false
           .go (((s.setCx u x').readSlot t.val (fB f) x.unit skip).countUE t.val (s.deadWords t.val (wordsAt (64 * q.line) 64))))
    | _ => .go s) s)

/-- R82: the encoding of CREDQ. -/
def encCredq : Enc := { major := 0x10, minor := 2, d := .s, b := .num 63 }

/-- R82 CREDQ: s[D] := the route credits the sender holds now. -/
def execCredq (u : Agent) (f : BitVec 52) (s : State) : Res :=
  .next (issue u encCredq f true (fun x s =>
    .go (s.setCx u (x.setS (fD f) (match u with
      | .ce t _ => (match (s.troupe t.val).outs[fB f]? with | some o => o.cr | none => 0)
      | _ => 0)))) s)

/-- R156: the encoding of RXQ. -/
def encRxq : Enc := { major := 0x10, minor := 3, d := .s, b := .num 63 }

/-- R156, R213 RXQ: s[D] := the slots queued in the ring and not yet read; zero for a route number at or above OUT_ROUTES. -/
def execRxq (u : Agent) (f : BitVec 52) (s : State) : Res :=
  .next (issue u encRxq f true (fun x s =>
    .go (s.setCx u (x.setS (fD f) (match u with
      | .ce t _ => (match (s.troupe t.val).ins[fB f]? with
          | some ir => if fB f < (s.troupe t.val).outs.length then (ir.q.filter (fun q => q.reader.isNone)).length else 0
          | none => 0)
      | _ => 0)))) s)

end Sys2Proof.Machine
end

