-- ==== Sys2Proof/Machine/Tally.lean ====
section
/-!
DEFINITION. The TDOT, TALLY and HAM instructions (R110 to R121, R186 to R192), and the loads, stores and barrier of troupe
SRAM and the Prompt Book reads (R193 to R197).
-/

namespace Sys2Proof.Machine

/-! ### TDOT, major 0x0A -/

/-- R187: the group of a type in the table of TDOT; 0 for a type outside it. -/
def dotGroup (ty : Nat) : Nat :=
  if [8, 9, 14, 16].contains ty then 4
  else if [5, 6, 7, 10, 11, 15].contains ty then 8
  else if ty = 12 ∨ ty = 13 then 6
  else if ty = 3 ∨ ty = 4 then 16
  else if ty = 2 then 32
  else 0

/-- The types of R187. -/
def dotTypes : List Nat := [2, 3, 4, 5, 6, 7, 8, 9, 10, 11, 12, 13, 14, 15, 16]

/-- Whether a type is block-scaled (R134). -/
def blockTy (ty : Nat) : Bool := decide (10 ≤ ty) && decide (ty ≤ 16)

/-- R187: the registers of an operand group. -/
def dotRegs (ty : Nat) : Nat := if dotGroup ty = 6 then 3 else 1

/-- R187: the elements that belong to one lane. -/
def dotPer (ty : Nat) : Nat := if dotGroup ty = 6 then 16 else 32 / tyBits ty

/-- R112, R188: the value of element e of the group from v[n], of type ty, with its scales in a[side]. -/
def Cx.dotElem (x : Cx) (ty n side e : Nat) : FV :=
  let w := tyBits ty
  let code := bitsOf (x.group n (dotRegs ty)) (w * e) w
  if blockTy ty then blockVal ty (x.ar side) e code else elemVal ty code

/-- R186, R188: whether C suits TDOT and TDOTB, the types share a group and both groups lie in the file. -/
def dotOk (f : BitVec 52) : Bool :=
  dotGroup (fTA f) == dotGroup (fTB f) && dotGroup (fTA f) != 0 &&
    decide (fA f + dotRegs (fTA f) ≤ 64) && decide (fB f + dotRegs (fTB f) ≤ 64) &&
    (if blockTy (fTB f) then fC f % 2 == 0 && decide (fC f < 16)
     else if blockTy (fTA f) then decide (fC f < 16) else fC f == 0)

/-- R186: add lane l's products to lane l of tS, for every enabled lane. -/
def Cx.addDots (x : Cx) (f : BitVec 52) (g : Nat → List (FV × Bool)) : Cx :=
  (List.range 16).foldl (fun y l =>
    if bitOf (maskOf x f) l then y.setT (fTS f) l ((y.tlane (fTS f) l).addTerms (x.base (fTS f)) (g l)) else y) x

/-- R186: the encoding of TDOT. -/
def encTdot : Enc := { major := 0x0A, minor := 0, a := .v 1, b := .v 1, c := .num 63, ta := dotTypes, tb := dotTypes, ts := true }

/-- R186 TDOT: element j of lane l of vA times element j of lane l of vB, for every j, into lane l of tS. -/
def execTdot (u : Agent) (f : BitVec 52) (s : State) : Res :=
  .next (issueV u encTdot f (dotOk f) (fun x => x.addDots f (fun l =>
    (List.range (dotPer (fTA f))).map (fun j =>
      let e := dotPer (fTA f) * l + j
      FV.mul (x.dotElem (fTA f) (fA f) (fC f) e) (x.dotElem (fTB f) (fB f) (fC f + 1) e)))) s)

/-- R186: the encoding of TDOTB. -/
def encTdotb : Enc := { major := 0x0A, minor := 1, a := .v 1, b := .v 1, c := .num 63, ta := dotTypes, tb := dotTypes,
                        ts := true, modMask := 15 }

/-- R186 TDOTB: element j of lane l of vA times element j of lane MOD[3:0] of vB. -/
def execTdotb (u : Agent) (f : BitVec 52) (s : State) : Res :=
  .next (issueV u encTdotb f (dotOk f) (fun x => x.addDots f (fun l =>
    (List.range (dotPer (fTA f))).map (fun j =>
      FV.mul (x.dotElem (fTA f) (fA f) (fC f) (dotPer (fTA f) * l + j))
        (x.dotElem (fTB f) (fB f) (fC f + 1) (dotPer (fTB f) * fMOD f + j))))) s)

/-- R186: the encoding of TDOTS. -/
def encTdots : Enc := { major := 0x0A, minor := 2, a := .v 1, b := .s, c := .num 63, ta := dotTypes, tb := [2, 3, 4], ts := true }

/-- R188: TDOTS reads aC alone. -/
def dotsOk (f : BitVec 52) : Bool :=
  decide (fA f + dotRegs (fTA f) ≤ 64) && (if blockTy (fTA f) then decide (fC f < 16) else fC f == 0)

/-- R186 TDOTS: element j of lane l of vA times the scalar in sB. -/
def execTdots (u : Agent) (f : BitVec 52) (s : State) : Res :=
  .next (issueV u encTdots f (dotsOk f) (fun x => x.addDots f (fun l =>
    (List.range (dotPer (fTA f))).map (fun j =>
      FV.mul (x.dotElem (fTA f) (fA f) (fC f) (dotPer (fTA f) * l + j))
        (elemVal (fTB f) (bitsOf (x.sr (fB f)) 0 (tyBits (fTB f))))))) s)

/-- R186: the encoding of TADD. -/
def encTadd : Enc := { major := 0x0A, minor := 3, a := .v 1, ta := [2, 3, 4], ts := true }

/-- R186, R113 TADD: element j of lane l of vA, as a product with the factor 1. -/
def execTadd (u : Agent) (f : BitVec 52) (s : State) : Res :=
  .next (issueV u encTadd f true (fun x => x.addDots f (fun l =>
    (List.range (dotPer (fTA f))).map (fun j =>
      (x.dotElem (fTA f) (fA f) 0 (dotPer (fTA f) * l + j), false)))) s)

/-! ### TALLY, major 0x0B -/

/-- R190: the encoding of TBASE. -/
def encTbase : Enc := { major := 0x0B, minor := 0, ts := true, modMask := 15 }

/-- R190, R111 TBASE: the base of tS from entry MOD[3:0] of the partition's table; T and the flag bytes are cleared. -/
def execTbase (u : Agent) (f : BitVec 52) (s : State) : Res :=
  .next (issue u encTbase f true (fun x s =>
    let b := sgn 10 (s.rd (Reg.PRT_TALLY_BASE_BASE x.part (fMOD f)))
    let y := (List.range 16).foldl (fun y l => y.setT (fTS f) l {}) x
    .go (s.setCx u { y with tb := y.tb.setD (fTS f) 0 b })) s)

/-- R117, R118, R120, R126, R191, R455: merge the TALLY payload in v[n] into the enabled lanes of tS. A contribution that is POISON, by its parcel or by a lane
image that the merge takes in, marks every lane the merge writes. -/
def Cx.mergePayload (x : Cx) (f : BitVec 52) (n : Nat) : Cx :=
  let y := x.group n 1
  if bitsOf y (56 * 8) 32 = 0 then x
  else
    let i0 := laneOfImage (bitsOf y 0 192)
    let i1 := laneOfImage (bitsOf y 192 192)
    let mism := i0.2.1 != i1.2.1
    let l := 2 * (bitsOf y (48 * 8) 32 % 8)
    let m := maskOf x f
    let poison := (if x.vp.contains n then tfPOISON else 0) ||| (if bitOf m l then i0.2.2 &&& tfPOISON else 0) |||
      (if bitOf m (l + 1) then i1.2.2 &&& tfPOISON else 0)
    let put (x : Cx) (l : Nat) (i : BitVec 160 × Int × Nat) : Cx :=
      if bitOf m l then
        x.setT (fTS f) l ((x.tlane (fTS f) l).merge (x.base (fTS f)) i.1 i.2.1 (i.2.2 ||| poison) mism)
      else x
    put (put x l i0) (l + 1) i1

/-- R191: the encoding of TMERGE. -/
def encTmerge : Enc := { major := 0x0B, minor := 1, a := .v 1, ts := true, modMask := 1 }

/-- R191 TMERGE: merges the payload in vA, and with MOD[0] = 0 also the one in v(A + 1). -/
def execTmerge (u : Agent) (f : BitVec 52) (s : State) : Res :=
  .next (issueV u encTmerge f (bitOf (fMOD f) 0 || decide (fA f + 2 ≤ 64)) (fun x =>
    let y := x.mergePayload f (fA f)
    if bitOf (fMOD f) 0 then y else y.mergePayload f (fA f + 1)) s)

/-- R119: the 64-byte TALLY payload of two lanes. -/
def tallyPayload (img0 img1 elem reduce count : Nat) : Nat :=
  img0 + img1 * 2 ^ 192 + elem % 2 ^ 32 * 2 ^ 384 + reduce % 2 ^ 32 * 2 ^ 416 + count % 2 ^ 32 * 2 ^ 448

/-- R190: the encoding of TPACK. -/
def encTpack : Enc := { major := 0x0B, minor := 2, d := .v 1, a := .s, b := .s, ts := true, modMask := 7 }

/-- R190 TPACK: vD := the TALLY payload of lanes 2j and 2j + 1 of tS, j = MOD[2:0]. -/
def execTpack (u : Agent) (f : BitVec 52) (s : State) : Res :=
  .next (issueR u encTpack f true (fun x =>
    let j := fMOD f
    let b := x.base (fTS f)
    x.setGroup (fD f) 1 0xFFFF (tallyPayload ((x.tlane (fTS f) (2 * j)).image b) ((x.tlane (fTS f) (2 * j + 1)).image b)
      (x.sr (fA f) + j) (x.sr (fB f)) 1)) s)

/-- R190: the encoding of TCVT. -/
def encTcvt : Enc := { major := 0x0B, minor := 3, d := .v 1, rm := true, sat := true, tb := [2, 3, 4, 5, 6], ts := true }

/-- R190, R121 TCVT: lane l of vD := lane l of tS converted to TB. -/
def execTcvt (u : Agent) (f : BitVec 52) (s : State) : Res :=
  .next (issueV u encTcvt f true (fun x => x.mapLanes (fD f) (maskOf x f) (fun l =>
    (x.tlane (fTS f) l).toFloat (x.base (fTS f)) (fTB f) (fRM f) (fSAT f) (x.srw f l))) s)

/-- R190: the encoding of TSTORE. -/
def encTstore : Enc := { major := 0x0B, minor := 4, a := .a, ts := true }

/-- R190 TSTORE: the 16 lane images of tS to troupe SRAM at aA. -/
def execTstore (u : Agent) (f : BitVec 52) (s : State) : Res :=
  .next (issue u encTstore f true (fun x s =>
    let a := x.ar (fA f)
    if a % 64 ≠ 0 ∨ 393216 ≤ a + 383 then .exc 4 a
    else
      let bs := (List.range 16).flatMap (fun l => toLe 24 ((x.tlane (fTS f) l).image (x.base (fTS f))))
      match u with
      | .ce t _ => .go (s.sramWrite t.val a bs)
      | _ => .go s) s)

/-! ### HAM, major 0x0C -/

/-- R192: the encoding of XPOPL. -/
def encXpopl : Enc := { major := 0x0C, minor := 0, d := .v 1, a := .v 1, b := .v 1, ta := [17], tb := [17] }

/-- R192 XPOPL: the set bits of vA xor vB, per lane. -/
def execXpopl (u : Agent) (f : BitVec 52) (s : State) : Res :=
  .next (issueV u encXpopl f true (fun x => x.mapLanes (fD f) (maskOf x f) (fun l =>
    (popcount 32 (x.vl (fA f) l ^^^ x.vl (fB f) l), 0))) s)

/-- R192: the registers of a code of HDIST. -/
def hdistRegs (m : Nat) : Nat := if m = 2 then 2 else if m = 3 then 4 else 1

/-- R192: the encoding of HDIST. -/
def encHdist : Enc := { major := 0x0C, minor := 1, d := .s, a := .v 1, b := .v 1, ta := [17], tb := [17], modMask := 3 }

/-- R192: the groups lie in the file, and for 256-bit codes D is at most 30. -/
def hdistOk (f : BitVec 52) : Bool :=
  decide (fA f + hdistRegs (fMOD f) ≤ 64) && decide (fB f + hdistRegs (fMOD f) ≤ 64) &&
    (fMOD f != 0 || decide (fD f ≤ 30))

/-- R192 HDIST: the Hamming distance of the codes in vA and vB; two of them for 256-bit codes. -/
def execHdist (u : Agent) (f : BitVec 52) (s : State) : Res :=
  .next (issueR u encHdist f (hdistOk f) (fun x =>
    let k := hdistRegs (fMOD f)
    let d := (x.group (fA f) k) ^^^ (x.group (fB f) k)
    if fMOD f = 0 then
      (x.setS (fD f) (popcount 256 d)).setS (fD f + 1) (popcount 256 (d / 2 ^ 256))
    else x.setS (fD f) (popcount (512 * k) d)) s)

/-! ### LDS, STS and PBK, majors 0x0D to 0x0F -/

/-- R193, R195: a load of n aligned bytes at address a of the agent's troupe SRAM, its value put into the context. -/
def ldSram (u : Agent) (x : Cx) (s : State) (a n : Nat) (put : Cx → Nat → Cx) : Body :=
  if 393216 ≤ a ∨ a % n ≠ 0 then .exc 4 a
  else match u with
    | .ce t _ =>
      let s := s.sramCheck t.val (wordsAt a n)
      let r := s.sramRead t.val a n
      let y := (put x (leBytes r.1)).orFlags (if r.2 then flDL else 0)
      .go ((s.setCx u y).countUE t.val (s.deadWords t.val (wordsAt a n)))
    | _ => .go s

/-- R68, R70, R194: a store to the SRAM of troupe t that covers part of a codeword reads it first, and that read checks it. -/
def State.sramModify (s : State) (t : Nat) (addrs : List Nat) : State :=
  let s := s.sramCheck t addrs
  s.countUE t (s.deadWords t addrs)

/-- R194: a store of n aligned bytes at address a of the agent's troupe SRAM. -/
def stSram (u : Agent) (s : State) (a n y : Nat) : Body :=
  if 393216 ≤ a ∨ a % n ≠ 0 then .exc 4 a
  else match u with
    | .ce t _ => .go ((if n < 8 then s.sramModify t.val [a] else s).sramWrite t.val a (toLe n y))
    | _ => .go s

/-- R194: one store of several 4 B words to the SRAM of troupe t, a later word over an earlier one: a codeword whose two halves it writes
is written whole, every other is read and modified (R68). -/
def State.sramWords (s : State) (t : Nat) (ws : List (Nat × Nat)) : State :=
  let both (a : Nat) : Bool := ws.any (fun v => v.1 == a / 8 * 8) && ws.any (fun v => v.1 == a / 8 * 8 + 4)
  let s := s.sramModify t ((ws.map (·.1)).filter (fun a => !both a))
  let s := ws.foldl (fun s w => s.sramWrite t w.1 (toLe 4 w.2)) s
  (ws.filter (fun w => w.1 % 8 == 0 && both w.1)).foldl (fun s w =>
    s.sramWrite t w.1 (Memory.bytes s.trp.sram (393216 * t + w.1) 8)) s

/-- The address aA + zext(sB). -/
def addrAB (x : Cx) (f : BitVec 52) : Nat := (x.ar (fA f) + x.sr (fB f)) % 2 ^ 64

/-- The address aA + sext64(IMM). -/
def addrAI (x : Cx) (f : BitVec 52) : Nat := unsgn 64 (x.ar (fA f) + sgn 32 (fIMM f))

/-- The address aA + zext(vB lane l). -/
def addrAV (x : Cx) (f : BitVec 52) (l : Nat) : Nat := (x.ar (fA f) + x.vl (fB f) l) % 2 ^ 64

/-- The enabled lanes. -/
def lanesOn (x : Cx) (f : BitVec 52) : List Nat := (List.range 16).filter (fun l => bitOf (maskOf x f) l)

/-- R140, R193, R195: the enabled lanes of vD from 4 B each at the addresses given, with DL and the count of marked
codewords. -/
def gatherLanes (u : Agent) (x : Cx) (f : BitVec 52) (s : State) (addr : Nat → Nat) : Body :=
  match u with
  | .ce t _ =>
    let ls := lanesOn x f
    let s := s.sramCheck t.val (ls.map addr)
    let y := ls.foldl (fun y l =>
      let r := s.sramRead t.val (addr l) 4
      (y.setL (fD f) l (leBytes r.1)).orFlags (if r.2 then flDL else 0)) x
    .go ((s.setCx u y).countUE t.val (s.deadWords t.val (ls.map addr)))
  | _ => .go s

/-- R193: the load of the enabled lanes of a 64 B line at address a; with no lane enabled nothing is accessed and no address is judged (log
entry 96). -/
def ldLanes (u : Agent) (x : Cx) (f : BitVec 52) (s : State) (a : Nat) : Body :=
  if maskOf x f = 0 then .go s
  else if 393216 ≤ a ∨ a % 64 ≠ 0 then .exc 4 a
  else gatherLanes u x f s (fun l => a + 4 * l)

/-- R193: the encoding of LDV. -/
def encLdv : Enc := { major := 0x0D, minor := 0, d := .v 1, a := .a, b := .s }

/-- R193 LDV: vD := 64 B at aA + zext(sB), in the enabled lanes. -/
def execLdv (u : Agent) (f : BitVec 52) (s : State) : Res :=
  .next (issueL u encLdv f true (fun x s => ldLanes u x f s (addrAB x f)) s)

/-- R193: the encoding of LDVI. -/
def encLdvi : Enc := { major := 0x0D, minor := 1, iform := true, d := .v 1, a := .a, imm := 32 }

/-- R193 LDVI: vD := 64 B at aA + sext64(IMM), in the enabled lanes. -/
def execLdvi (u : Agent) (f : BitVec 52) (s : State) : Res :=
  .next (issueL u encLdvi f true (fun x s => ldLanes u x f s (addrAI x f)) s)

/-- R193: the encoding of LDW. -/
def encLdw : Enc := { major := 0x0D, minor := 2, d := .s, a := .a, b := .s }

/-- R193 LDW: sD := 4 B at aA + zext(sB). -/
def execLdw (u : Agent) (f : BitVec 52) (s : State) : Res :=
  .next (issue u encLdw f true (fun x s => ldSram u x s (addrAB x f) 4 (fun x y => x.setS (fD f) y)) s)

/-- R193: the encoding of LDA. -/
def encLda : Enc := { major := 0x0D, minor := 3, d := .a, a := .a, b := .s }

/-- R193 LDA: aD := 8 B at aA + zext(sB). -/
def execLda (u : Agent) (f : BitVec 52) (s : State) : Res :=
  .next (issue u encLda f true (fun x s => ldSram u x s (addrAB x f) 8 (fun x y => x.setA (fD f) y)) s)

/-- R193: the encoding of LDG. -/
def encLdg : Enc := { major := 0x0D, minor := 4, d := .v 1, a := .a, b := .v 1 }

/-- The first enabled lane's address that is out of range or not aligned to 4 B. -/
def badLane (x : Cx) (f : BitVec 52) (limit : Nat) : Option Nat :=
  ((lanesOn x f).map (addrAV x f)).find? (fun a => decide (limit ≤ a) || a % 4 != 0)

/-- R193 LDG: lane l of vD := 4 B at aA + zext(vB lane l), for every enabled lane. -/
def execLdg (u : Agent) (f : BitVec 52) (s : State) : Res :=
  .next (issueL u encLdg f true (fun x s =>
    match badLane x f 393216 with
    | some a => .exc 4 a
    | none => gatherLanes u x f s (addrAV x f)) s)

/-- R193: the encoding of LDP. -/
def encLdp : Enc := { major := 0x0D, minor := 5, d := .p, a := .a, b := .s }

/-- R193 LDP: pD := 2 B at aA + zext(sB). -/
def execLdp (u : Agent) (f : BitVec 52) (s : State) : Res :=
  .next (issue u encLdp f true (fun x s => ldSram u x s (addrAB x f) 2 (fun x y => x.setP (fD f) y)) s)

/-- R140, R194: the store of a v register's enabled lanes at address a; with no lane enabled no address is judged (log entry 96). -/
def stLanes (u : Agent) (x : Cx) (f : BitVec 52) (s : State) (a n : Nat) : Body :=
  if maskOf x f = 0 then .go s
  else if 393216 ≤ a ∨ a % 64 ≠ 0 then .exc 4 a
  else match u with
    | .ce t _ =>
      if maskOf x f = 0xFFFF then .go (s.sramWrite t.val a (x.vbytes n))
      else .go (s.sramWords t.val ((lanesOn x f).map (fun l => (a + 4 * l, x.vl n l))))
    | _ => .go s

/-- R194: the encoding of STV. -/
def encStv : Enc := { major := 0x0E, minor := 0, a := .a, b := .s, c := .v 1 }

/-- R194 STV: 64 B at aA + zext(sB) := vC, its enabled lanes. -/
def execStv (u : Agent) (f : BitVec 52) (s : State) : Res :=
  .next (issueL u encStv f true (fun x s => stLanes u x f s (addrAB x f) (fC f)) s)

/-- R194: the encoding of STVI. -/
def encStvi : Enc := { major := 0x0E, minor := 1, iform := true, d := .v 1, a := .a, imm := 32 }

/-- R194 STVI: 64 B at aA + sext64(IMM) := vD, its enabled lanes. -/
def execStvi (u : Agent) (f : BitVec 52) (s : State) : Res :=
  .next (issueL u encStvi f true (fun x s => stLanes u x f s (addrAI x f) (fD f)) s)

/-- R194: the encoding of STW. -/
def encStw : Enc := { major := 0x0E, minor := 2, a := .a, b := .s, c := .s }

/-- R194 STW: 4 B at aA + zext(sB) := sC. -/
def execStw (u : Agent) (f : BitVec 52) (s : State) : Res :=
  .next (issue u encStw f true (fun x s => stSram u s (addrAB x f) 4 (x.sr (fC f))) s)

/-- R194: the encoding of STA. -/
def encSta : Enc := { major := 0x0E, minor := 3, a := .a, b := .s, c := .a }

/-- R194 STA: 8 B at aA + zext(sB) := aC. -/
def execSta (u : Agent) (f : BitVec 52) (s : State) : Res :=
  .next (issue u encSta f true (fun x s => stSram u s (addrAB x f) 8 (x.ar (fC f))) s)

/-- R194: the encoding of STSC. -/
def encStsc : Enc := { major := 0x0E, minor := 4, a := .a, b := .v 1, c := .v 1 }

/-- R194 STSC: 4 B at aA + zext(vB lane l) := vC lane l, in lane order: the higher lane's value stays. -/
def execStsc (u : Agent) (f : BitVec 52) (s : State) : Res :=
  .next (issueL u encStsc f true (fun x s =>
    match badLane x f 393216, u with
    | some a, _ => .exc 4 a
    | none, .ce t _ =>
      .go (s.sramWords t.val ((lanesOn x f).map (fun l => (addrAV x f l, x.vl (fC f) l))))
    | none, _ => .go s) s)

/-- R196: the encoding of TBAR. -/
def encTbar : Enc := { major := 0x0E, minor := 5, modMask := 3 }

/-- R145, R196 TBAR: the CE arrives at barrier MOD[1:0] of its unit and waits until every CE of CEMASK that takes part has arrived or ended
(log entry 88). -/
def execTbar (u : Agent) (f : BitVec 52) (s : State) : Res :=
  .next (issue u encTbar f true (fun x s =>
    match u with
    | .ce t c =>
      let id := fMOD f
      let tr := s.troupe t.val
      let s := s.setTroupe t.val (tr.mapUnit x.unit (fun w => { w with bars := w.bars.insert id (w.bars.getD id 0 ||| 2 ^ c.val) }))
      let others := match tr.unit x.unit with
        | some w => ((w.bars.getD id 0 ||| 2 ^ c.val) ||| w.ended) &&& tr.unitMask w.desc == tr.unitMask w.desc
        | none => true
      if others then
        let s := s.setCx u { x with st := .bar id }
        let s := s.settleBarrier t.val x.unit id
        .go (s.setCx u { s.cx u with pc := x.pc, st := .run })
      else .wait s (.bar id)
    | _ => .go s) s)

/-- R197: n bytes of the live Prompt Book at address a; a frame that reads as uncorrectable gives zero (R449). -/
def State.bookRead (s : State) (a n : Nat) : Nat × Nat :=
  if s.book.lateFrame.getD (a / 1024) false then (0, flDL) else (Memory.num s.book.live a n, 0)

/-- R197: a Prompt Book read of n aligned bytes at address a. -/
def ldBook (u : Agent) (x : Cx) (s : State) (a n : Nat) (put : Cx → Nat → Cx) : Body :=
  if 131072 ≤ a ∨ a % n ≠ 0 then .exc 4 a
  else
    let r := s.bookRead a n
    .go (s.setCx u ((put x r.1).orFlags r.2))

/-- R197: the encoding of PBV. -/
def encPbv : Enc := { major := 0x0F, minor := 0, d := .v 1, a := .a, b := .s }

/-- R197 PBV: vD := 64 B of the Prompt Book at aA + zext(sB). -/
def execPbv (u : Agent) (f : BitVec 52) (s : State) : Res :=
  .next (issue u encPbv f true (fun x s => ldBook u x s (addrAB x f) 64 (fun x y => x.setGroup (fD f) 1 0xFFFF y)) s)

/-- R197: the encoding of PBVI. -/
def encPbvi : Enc := { major := 0x0F, minor := 1, iform := true, d := .v 1, a := .a, imm := 32 }

/-- R197 PBVI: vD := 64 B of the Prompt Book at aA + sext64(IMM). -/
def execPbvi (u : Agent) (f : BitVec 52) (s : State) : Res :=
  .next (issue u encPbvi f true (fun x s => ldBook u x s (addrAI x f) 64 (fun x y => x.setGroup (fD f) 1 0xFFFF y)) s)

/-- R197: the encoding of PBW. -/
def encPbw : Enc := { major := 0x0F, minor := 2, d := .s, a := .a, b := .s }

/-- R197 PBW: sD := 4 B of the Prompt Book at aA + zext(sB). -/
def execPbw (u : Agent) (f : BitVec 52) (s : State) : Res :=
  .next (issue u encPbw f true (fun x s => ldBook u x s (addrAB x f) 4 (fun x y => x.setS (fD f) y)) s)

/-- R197: the encoding of PBG. -/
def encPbg : Enc := { major := 0x0F, minor := 3, d := .v 1, a := .a, b := .v 1 }

/-- R197 PBG: lane l of vD := 4 B of the Prompt Book at aA + zext(vB lane l), for every enabled lane. -/
def execPbg (u : Agent) (f : BitVec 52) (s : State) : Res :=
  .next (issueL u encPbg f true (fun x s =>
    match badLane x f 131072 with
    | some a => .exc 4 a
    | none => .go (s.setCx u ((lanesOn x f).foldl (fun y l =>
        let r := s.bookRead (addrAV x f l) 4
        (y.setL (fD f) l r.1).orFlags r.2) x))) s)

end Sys2Proof.Machine
end

