-- ==== Sys2Proof/Machine/Legal.lean ====
section
/-!
DEFINITION. Whether an instruction word is one the compute profile runs: check 2 of R55 decodes every word of a stage program (R135 to R137, R161).
-/

namespace Sys2Proof.Machine

/-- An encoding and the further rules that its fields meet. -/
structure EncRule where
  enc : Enc
  ok : BitVec 52 → Bool := fun _ => true

/-- The encodings of CTRL and PARCEL. -/
def encsControl : List EncRule :=
  [{ enc := encNop }, { enc := encEnd }, { enc := encBr }, { enc := encBrz }, { enc := encBrnz },
   { enc := encCall }, { enc := encRet }, { enc := encLoop }, { enc := encWaitcue }, { enc := encDlbr },
   { enc := encSend }, { enc := encRecv }, { enc := encCredq }, { enc := encRxq }]

/-- The encodings of PRED, SALU, SIMM, AALU and MOVE, part 1. -/
def encsScalar0 : List EncRule :=
  [{ enc := encPand }, { enc := encPor }, { enc := encPxor }, { enc := encPandn }, { enc := encPnot },
   { enc := encPany }, { enc := encPcnt }, { enc := encPfirst }, { enc := encAdd }, { enc := encSub },
   { enc := encMul }, { enc := encMulh }, { enc := encAndS }, { enc := encOrS }, { enc := encXorS },
   { enc := encShl }, { enc := encShr }, { enc := encSra }, { enc := encMin }, { enc := encMax }, { enc := encSlt },
   { enc := encSeq }, { enc := encClz }, { enc := encPopc }, { enc := encAddi }, { enc := encMuli },
   { enc := encAndi }, { enc := encOri }, { enc := encXori }, { enc := encShli }]

/-- The encodings of PRED, SALU, SIMM, AALU and MOVE, part 2. -/
def encsScalar1 : List EncRule :=
  [{ enc := encShri }, { enc := encSrai }, { enc := encSlti }, { enc := encSltiu }, { enc := encSeqi },
   { enc := encLi }, { enc := encAadd }, { enc := encAsub }, { enc := encAadds }, { enc := encAshl },
   { enc := encAshr }, { enc := encAand }, { enc := encAor }, { enc := encAxor }, { enc := encAltu },
   { enc := encAeq }, { enc := encAaddi }, { enc := encAlo }, { enc := encAhi }, { enc := encS2a },
   { enc := encA2s }, { enc := encV2s }, { enc := encS2v }, { enc := encVmov }, { enc := encS2p },
   { enc := encP2s }, { enc := encSmov }, { enc := encAmov }]

/-- The encodings of VINT, VFP, VCVT and VPERM, part 1. -/
def encsVector0 : List EncRule :=
  [{ enc := encVadd }, { enc := encVsub }, { enc := encVmul }, { enc := encVmulh }, { enc := encVmin },
   { enc := encVmax }, { enc := encVand }, { enc := encVor }, { enc := encVxor }, { enc := encVshl },
   { enc := encVshr }, { enc := encVsra }, { enc := encVcmp }, { enc := encVadds }, { enc := encVpopc },
   { enc := encVfadd }, { enc := encVfsub }, { enc := encVfmul }, { enc := encVfma }, { enc := encVfmin },
   { enc := encVfmax }, { enc := encVfabs }, { enc := encVfneg }, { enc := encVfcmp }, { enc := encVfexp2 },
   { enc := encVflog2 }, { enc := encVfrcp }, { enc := encVfrsq }, { enc := encVfsqrt }, { enc := encVfscl }]

/-- The encodings of VINT, VFP, VCVT and VPERM, part 2. -/
def encsVector1 : List EncRule :=
  [⟨encCvt, cvtOk 0⟩, ⟨encDec, decOk 0⟩, ⟨encQmx, qmxOk 0⟩, ⟨encQps4, qps4Ok 0⟩, { enc := encVbcast },
   { enc := encVsplat }, { enc := encVperm }, { enc := encVrot }, { enc := encVminl }, { enc := encVsuml }]

/-- The encodings of TALLY, HAMM, LDS, STS and PBK. -/
def encsTally : List EncRule :=
  [⟨encTdot, dotOk⟩, ⟨encTdotb, dotOk⟩, ⟨encTdots, dotsOk⟩, { enc := encTadd }, { enc := encTbase },
   ⟨encTmerge, (fun f => bitOf (fMOD f) 0 || decide (fA f + 2 ≤ 64))⟩, { enc := encTpack }, { enc := encTcvt },
   { enc := encTstore }, { enc := encXpopl }, ⟨encHdist, hdistOk⟩, { enc := encLdv }, { enc := encLdvi },
   { enc := encLdw }, { enc := encLda }, { enc := encLdg }, { enc := encLdp }, { enc := encStv },
   { enc := encStvi }, { enc := encStw }, { enc := encSta }, { enc := encStsc }, { enc := encTbar },
   { enc := encPbv }, { enc := encPbvi }, { enc := encPbw }, { enc := encPbg }]

/-- The encodings of GMEM. -/
def encsGmem : List EncRule :=
  [{ enc := encGld }, { enc := encGst }, { enc := encGq }]

/-- The encodings of MFS, MTS and ATOM. -/
def encsSpecial : List EncRule :=
  [⟨encMfs false, fun f => fMOD f == 0 && sprListed 0 (fA f)⟩, ⟨encMfs true, fun f => fMOD f == 2 && sprListed 0 (fA f)⟩,
   ⟨encMts, fun f => bitOf (fMOD f) 0⟩,
   ⟨encAtom 0 [0, 1, 2] false, fun f => atomOk f 0⟩, ⟨encAtom 1 [0, 1, 2] false, fun f => atomOk f 1⟩,
   ⟨encAtom 2 [0, 1, 2] false, fun f => atomOk f 2⟩, ⟨encAtom 3 [] false, fun f => atomOk f 3⟩,
   ⟨encAtom 4 [] false, fun f => atomOk f 4⟩, ⟨encAtom 5 [] false, fun f => atomOk f 5⟩, ⟨encAtom 6 [] false, fun f => atomOk f 6⟩,
   ⟨encAtom 7 [] true, fun f => atomOk f 7⟩, ⟨encAtom 8 [] true, fun f => atomOk f 8⟩]

/-- Every encoding of the compute profile. -/
def computeEncs : List EncRule :=
  encsControl ++ encsScalar0 ++ encsScalar1 ++ encsVector0 ++ encsVector1 ++ encsTally ++ encsGmem ++ encsSpecial

/-- R135, R136, R161: whether a word (MAJOR [63:58], MINOR [57:52]) is a legal encoding of the compute profile. -/
def wordLegal (w : Word) : Bool :=
  let major := bitsOf w.toNat 58 6
  let minor := bitsOf w.toNat 52 6
  let f := BitVec.ofNat 52 w.toNat
  computeEncs.any (fun e => e.enc.major == major && e.enc.minor == minor && e.enc.legal 0 f && e.ok f)

end Sys2Proof.Machine
end

