-- ==== Sys2Proof/Machine/Image.lean ====
section
/-!
DEFINITION. Program images and layout tables as bytes of the store (R142 to R147, R210 to R217, R601).
-/

namespace Sys2Proof.Machine

/-- The little-endian number in w bytes of a list from position p. -/
def numIn (bs : List Byte) (p w : Nat) : Nat := leBytes ((bs.drop p).take w)

/-- Whether n bytes of a list from position p are zero. -/
def zeroIn (bs : List Byte) (p n : Nat) : Bool := ((bs.drop p).take n).all (· == 0)

/-- A structure's bytes with its SEAL, in bytes 48 to 51, replaced by zero. -/
def unsealed (bs : List Byte) : List Byte := bs.take 48 ++ [0, 0, 0, 0] ++ bs.drop 52

/-- R142, R269: whether the SEAL of a structure matches. -/
def sealMatches (bs : List Byte) : Bool := numIn bs 48 4 == crc32c (unsealed bs)

/-! ### Images (R142 to R146, R213 to R217) -/

/-- R142: the length of an image, from its header. -/
def imgBytes (h : List Byte) : Nat := if numIn h 4 4 = 0 then 64 else numIn h 4 4

/-- R14, R143: whether a header carries level AL2 or AL3, or ISA O2 or O3. -/
def imgLevelBad (h : List Byte) : Bool :=
  let n (p : Nat) : Bool := decide (numIn h p 1 = 2) || decide (numIn h p 1 = 3)
  n 0 || n 1

/-- R146: the unit descriptor in 32 bytes. -/
def unitOf (b : List Byte) : UnitDesc :=
  { id := numIn b 0 2, policy := numIn b 2 1 % 4, optional := bitOf (numIn b 2 1) 2, d := numIn b 4 4, c := numIn b 8 4,
    ddel := numIn b 12 4, ulead := numIn b 16 4, start := numIn b 20 4, entry := numIn b 24 2, cemask := numIn b 26 6 }

/-- R146, R147: whether a descriptor holds no reserved encoding or bit. -/
def unitOk (b : List Byte) : Bool :=
  let u := unitOf b
  decide (u.policy ≠ 3) && decide (numIn b 2 1 < 8) && zeroIn b 3 1 && decide (u.d < 2 ^ 21) && decide (u.c < 2 ^ 21) &&
    decide (u.ddel < 2 ^ 21) && decide (u.ulead < 2 ^ 21) && decide (u.start < 2 ^ 21) && (u.ulead == 0 || u.policy == 1)

/-- R214: the inbound route entry in 16 bytes. -/
def inOf (b : List Byte) : InDesc :=
  { ring := numIn b 0 2, slots := numIn b 2 2, tflags := numIn b 4 1, tpp := numIn b 5 1, runit := numIn b 6 2 }

/-- R213: TFLAGS and TPP: RESID only with TOKEN, TPP zero without it, no reserved bit. -/
def tflagsOk (tflags tpp : Nat) : Bool :=
  decide (tflags < 32) && (bitOf tflags 0 || (!bitOf tflags 1 && tpp == 0))

/-- R601: whether a unit field of a route names a unit of the image or every unit. -/
def namesUnit (units : List UnitDesc) (u : Nat) : Bool := u == 0xFFFF || units.any (fun d => d.id == u)

/-- R214: whether an inbound route entry holds no reserved encoding or bit. -/
def inOk (units : List UnitDesc) (b : List Byte) : Bool :=
  let r := inOf b
  decide (r.ring < 6144) && decide (r.slots ≤ 6144) && tflagsOk r.tflags r.tpp && zeroIn b 8 8 &&
    namesUnit units r.runit

/-- R213: the outbound route entry in 16 bytes. -/
def outOf (b : List Byte) : OutDesc :=
  { dst := numIn b 0 2 % 2 ^ 13, rel := bitOf (numIn b 0 2) 15, dstRoute := numIn b 2 1, kind := numIn b 3 1,
    credits := numIn b 4 2, tflags := numIn b 6 1, tpp := numIn b 7 1, rdev := numIn b 8 1, swclass := numIn b 9 1,
    rtroupe := numIn b 10 2, rroute := numIn b 12 1, sunit := numIn b 13 2 }

/-- R213: whether an outbound route entry holds no reserved encoding or bit. -/
def outOk (units : List UnitDesc) (b : List Byte) : Bool :=
  let r := outOf b
  bitsOf (numIn b 0 2) 13 2 == 0 && decide (r.dstRoute < 64) && (r.kind == 0 || r.kind == 2 || r.kind == 5) &&
    decide (r.credits ≤ 6144) && tflagsOk r.tflags r.tpp && zeroIn b 15 1 &&
    (if r.kind = 5 then numIn b 0 2 == 0 && decide (r.rdev < 64) && decide (r.swclass < 8) && decide (r.rtroupe < 2 ^ 13) &&
        decide (r.rroute < 64) && r.sunit == 0
     else zeroIn b 8 5 && namesUnit units r.sunit)

/-- R216: the window entry in 16 bytes. -/
def winOf (b : List Byte) : WinDesc := { line := numIn b 0 2, lines := numIn b 2 2, use := numIn b 4 1 }

/-- R216: whether a window entry holds no reserved encoding or bit. -/
def winOk (b : List Byte) : Bool :=
  let w := winOf b
  decide (w.line < 6144) && decide (w.lines ≤ 6144) && decide (w.use ≤ 4) && zeroIn b 5 11

/-- R217: the frame list entry in 8 bytes. -/
def frameOf (b : List Byte) : FrameDesc :=
  { frame := numIn b 0 1, rot := numIn b 1 1, unit := numIn b 2 2, tag := numIn b 4 4 }

/-- The bytes of an image's tables: n entries of w bytes each from an offset. -/
def entriesOf (bs : List Byte) (ofs n w : Nat) : List (List Byte) :=
  (List.range n).map (fun i => (bs.drop (ofs + w * i)).take w)

/-- R144: the sections of an image: the offset and LENGTH of each. -/
def sectionsOf (bs : List Byte) : List (Nat × Nat) :=
  (entriesOf bs (numIn bs 16 4) (numIn bs 8 2) 8).map (fun b => (numIn b 0 4, numIn b 4 4))

/-- The words of a section (R135). -/
def wordsOf (bs : List Byte) (sec : Nat × Nat) : List Word :=
  (entriesOf bs sec.1 sec.2 8).map (fun b => BitVec.ofNat 64 (leBytes b))

/-- R142: an image from its bytes. -/
def imgOf (pga : Nat) (bs : List Byte) : Img :=
  let head : Img := { pga := pga, level := numIn bs 0 1, isa := numIn bs 1 1, profile := numIn bs 2 1 }
  if numIn bs 4 4 = 0 then head
  else
    let ni := numIn bs 12 1
    { head with
      secs := (sectionsOf bs).map (wordsOf bs)
      units := (entriesOf bs (numIn bs 20 4) (numIn bs 10 2) 32).map unitOf
      ins := (entriesOf bs (numIn bs 24 4) ni 16).map inOf
      outs := (entriesOf bs (numIn bs 24 4 + 16 * ni) (numIn bs 13 1) 16).map outOf
      wins := (entriesOf bs (numIn bs 28 4) (numIn bs 14 1) 16).map winOf
      frames := (entriesOf bs (numIn bs 32 4) (numIn bs 15 1) 8).map frameOf
      cemap := if head.profile = 0 then ((bs.drop (numIn bs 36 4)).take 48).map (·.toNat) else [] }

/-- R142, R143: whether the header fields of an image are legal, apart from its SEAL. -/
def headOk (h : List Byte) : Bool :=
  let n := imgBytes h
  let level (p : Nat) : Bool := decide (1 ≤ numIn h p 1) && decide (numIn h p 1 ≤ 3)
  level 0 && level 1 && decide (numIn h 2 1 ≤ 2) && zeroIn h 3 1 && decide (64 ≤ n) && zeroIn h 40 8 && zeroIn h 52 12 &&
    (numIn h 4 4 != 0 || zeroIn h 8 32) && decide (numIn h 12 1 ≤ 64) && decide (numIn h 13 1 ≤ 64) &&
    decide (numIn h 14 1 ≤ 64) && decide (numIn h 15 1 ≤ 128) && (numIn h 2 1 == 0 || numIn h 36 4 == 0)

/-- Whether n entries of w bytes from an offset lie within an image of m bytes. -/
def tableFits (m ofs n w : Nat) : Bool := n == 0 || decide (ofs + n * w ≤ m)

/-- R143: whether an image, all of its bytes given, passes the format check: its SEAL, the places and the entries of its
tables, its CE map, and, in the compute profile, every instruction word (R161). -/
def imgOk (bs : List Byte) : Bool :=
  let m := imgBytes bs
  headOk bs && sealMatches (bs.take m) &&
    (if numIn bs 4 4 = 0 then true
     else
      let ni := numIn bs 12 1
      let x := imgOf 0 bs
      let secs := sectionsOf bs
      tableFits m (numIn bs 16 4) (numIn bs 8 2) 8 && tableFits m (numIn bs 20 4) (numIn bs 10 2) 32 &&
        tableFits m (numIn bs 24 4) (ni + numIn bs 13 1) 16 && tableFits m (numIn bs 28 4) (numIn bs 14 1) 16 &&
        tableFits m (numIn bs 32 4) (numIn bs 15 1) 8 &&
        secs.all (fun q => tableFits m q.1 q.2 8) &&
        (entriesOf bs (numIn bs 20 4) (numIn bs 10 2) 32).all unitOk &&
        (entriesOf bs (numIn bs 24 4) ni 16).all (inOk x.units) &&
        (entriesOf bs (numIn bs 24 4 + 16 * ni) (numIn bs 13 1) 16).all (outOk x.units) &&
        (entriesOf bs (numIn bs 28 4) (numIn bs 14 1) 16).all winOk &&
        x.frames.all (fun f => decide (f.frame < 128)) &&
        (x.profile != 0 ||
          (tableFits m (numIn bs 36 4) 48 1 && x.cemap.all (fun c => decide (c < secs.length) || c == 255) &&
            x.secs.all (fun ws => ws.all wordLegal))))

/-! ### Images and layouts in the store (R210 to R212) -/

/-- A reader of Taken settings: the live value, or the staged one where there is one (R55). -/
abbrev Getter := Fld → Nat

/-- Whether n bytes from a PGA lie in this device's own store, or in its Stage-only range of a size. -/
def State.inStore (s : State) (gib p n : Nat) : Bool :=
  pgaOk p && !pgaCtl p && pgaDev p == s.device && n != 0 &&
    (decide (pgaOff p + n ≤ 65536 * s.rd Reg.STM_SIZE_UNITS) ||
     (decide (0x8000000000000 ≤ pgaOff p) && decide (pgaOff p + n ≤ 0x8000000000000 + 2 ^ 30 * gib)))

/-- Whether n bytes from a PGA lie in this device's Stage-only range of a size (R239). -/
def State.inStage (s : State) (gib p n : Nat) : Bool :=
  pgaOk p && !pgaCtl p && pgaDev p == s.device &&
    decide (0x8000000000000 ≤ pgaOff p) && decide (pgaOff p + n ≤ 0x8000000000000 + 2 ^ 30 * gib)

/-- The bytes of the image at a store offset. -/
def State.imgRaw (s : State) (off : Nat) : List Byte := (s.cohRead off (imgBytes (s.cohRead off 64).1)).1

/-- R210: a layout entry: its partition, IMAGE, FIRST and COUNT, and whether its reserved bits are zero. -/
structure Place where
  part : Nat
  image : Nat
  first : Nat
  count : Nat
  ok : Bool
  deriving DecidableEq, Repr

/-- R210: the layout table of partition p: its PGA and entry count. -/
def layoutTable (g : Getter) (p : Nat) : Nat × Nat := (16 * g (Reg.PRT_LAYOUT_BASE p), g (Reg.PRT_LAYOUT_COUNT_COUNT p))

/-- R210: the layout entry in 16 bytes. -/
def placeOf (p : Nat) (b : List Byte) : Place :=
  { part := p, image := numIn b 0 8, first := numIn b 8 2 % 2 ^ 13, count := numIn b 10 2 % 2 ^ 13,
    ok := decide (numIn b 8 2 < 2 ^ 13) && decide (numIn b 10 2 < 2 ^ 13) && zeroIn b 12 4 }

/-- R210: the entries of the layouts that lie in this device's store. -/
def State.layoutEntries (s : State) (g : Getter) : List Place :=
  (List.range 16).flatMap (fun p =>
    let (base, n) := layoutTable g p
    if n = 0 ∨ !s.inStore (g Reg.STM_STAGE_ONLY_GIB) base (16 * n) then []
    else (entriesOf (s.cohRead (pgaOff base) (16 * n)).1 0 n 16).map (placeOf p))

/-- R210: the entries with a COUNT above zero. -/
def State.places (s : State) (g : Getter) : List Place := (s.layoutEntries g).filter (fun e => e.count != 0)

/-- What is wrong with the image a layout entry names: 1 its level, 2 its place, format or profile, 0 nothing (R55, R143, R210). -/
def State.imageFault (s : State) (g : Getter) (e : Place) : Nat :=
  let gib := g Reg.STM_STAGE_ONLY_GIB
  if !e.ok ∨ e.image % 64 ≠ 0 ∨ !s.inStore gib e.image 64 then 2
  else
    let h := (s.cohRead (pgaOff e.image) 64).1
    if imgLevelBad h then 1
    else if headOk h && s.inStore gib e.image (imgBytes h) && imgOk (s.imgRaw (pgaOff e.image)) && numIn h 2 1 == 0 then 0
    else 2

/-- The image a layout entry names. -/
def State.imageAt (s : State) (e : Place) : Img := imgOf e.image (s.imgRaw (pgaOff e.image))

/-- R215: the logical troupe that a DATA or TALLY route of logical troupe l targets. -/
def targetOf (l : Nat) (r : OutDesc) : Int := if r.rel then (l : Int) + sgn 13 r.dst else r.dst

end Sys2Proof.Machine
end

