-- ==== Sys2Proof/Machine/Check.lean ====
section
/-!
DEFINITION. CHECK: the fifteen checks of a call sheet, the item each reports, and its completion (R55, R602, R51, R91, R212,
R218, R271).
-/

namespace Sys2Proof.Machine

/-- R602: a failing item: FAIL_KIND, FAIL_ITEM, CS_FAIL_UNIT. -/
abbrev Fail := Nat × Nat × Nat

/-- R602: the first failing item, by FAIL_KIND, then FAIL_ITEM, then unit. -/
def firstFail (l : List Fail) : Option Fail :=
  l.foldl (fun best x => match best with
    | none => some x
    | some y =>
      if x.1 < y.1 ∨ (x.1 = y.1 ∧ (x.2.1 < y.2.1 ∨ (x.2.1 = y.2.1 ∧ x.2.2 < y.2.2))) then some x else some y) none

/-- R602: a failing register at a live offset. -/
def failReg (x : Nat) : Fail := (1, x / 8, 0)
/-- R602: a failing troupe, by its logical number. -/
def failTroupe (l : Nat) : Fail := (2, l, 0)
/-- R602: a failing unit of logical troupe l. -/
def failUnit (l u : Nat) : Fail := (3, l, u)
/-- R602: a failing plan of context k. -/
def failPlan (k : Nat) : Fail := (4, (0x400000 + 0x40 * k) / 8, 0)

/-- A failing item where a condition holds. -/
def failIf (b : Bool) (f : Fail) : List Fail := if b then [f] else []

/-! ### What a sheet refers to -/

/-- The indices below n at which an indexed field is listed in a field map. -/
def listedIn (m : SMap Nat) (f0 : Fld) (stride n : Nat) : List Nat :=
  m.filterMap (fun e =>
    let r := e.1 / 64
    if e.1 % 64 = f0.lo ∧ f0.reg ≤ r ∧ (r - f0.reg) % stride = 0 ∧ (r - f0.reg) / stride < n then
      some ((r - f0.reg) / stride)
    else none)

/-- The physical troupes whose LOGICAL has been staged or differs from its reset value. -/
def State.movedTroupes (s : State) : List Nat :=
  (listedIn s.regs (Reg.TRP_STATE_LOGICAL 0) 0x400 6400 ++ listedIn s.staged (Reg.TRP_STATE_LOGICAL 0) 0x400 6400).dedup

/-- R91: the physical troupes that hold logical number l under the staged mapping. -/
def State.holdersOf (s : State) (moved : List Nat) (l : Nat) : List Nat :=
  (if l < 6250 ∧ !moved.contains l then [l] else []) ++ moved.filter (fun t => s.rdStaged (Reg.TRP_STATE_LOGICAL t) == l)

/-- A placement with its image, as CHECK reads them once checks 1 and 2 have passed. -/
structure Laid where
  place : Place
  img : Img
  deriving DecidableEq, Repr

/-- What the fifteen checks read: the staged-or-live values, the placements, the plans bound (context, store offset), the
moved troupes. -/
structure Sheets where
  laid : List Laid := []
  plans : List (Nat × Nat) := []
  moved : List Nat := []
  deriving DecidableEq, Repr

/-- R271: the contexts with EN = 1 under the staged values, with the PGAs of their plans. -/
def State.boundPlans (s : State) : List (Nat × Nat) :=
  let ks := (listedIn s.regs (Reg.CRR_CTX_PLAN_EN 0) 0x40 4096 ++ listedIn s.staged (Reg.CRR_CTX_PLAN_EN 0) 0x40 4096).dedup
  (ks.filter (fun k => s.rdStaged (Reg.CRR_CTX_PLAN_EN k) == 1)).map (fun k => (k, 64 * s.rdStaged (Reg.CRR_CTX_PLAN_PLAN k)))

/-- What CHECK reads. -/
def State.sheets (s : State) : Sheets :=
  { laid := (s.places s.rdStaged).map (fun e => { place := e, img := s.imageAt e })
    plans := s.boundPlans.map (fun q => (q.1, pgaOff q.2))
    moved := s.movedTroupes }

/-- The placement that names logical troupe l. -/
def Sheets.at_ (x : Sheets) (l : Nat) : Option Laid :=
  x.laid.find? (fun q => decide (q.place.first ≤ l) && decide (l < q.place.first + q.place.count))

/-- The placed logical troupes in ascending order, with their placements. -/
def Sheets.troupes (x : Sheets) : List (Nat × Laid) := (List.range 6250).filterMap (fun l => (x.at_ l).map (fun q => (l, q)))

/-- A unit of a logical troupe. -/
def Sheets.unit (x : Sheets) (l u : Nat) : Option UnitDesc := (x.at_ l).bind (fun q => q.img.units.find? (fun d => d.id == u))

/-- R602: the lowest logical troupe on which a unit of a placement stands. -/
def Laid.low (q : Laid) : Nat := q.place.first

/-- R601: the pairs (producer, consumer) that the routes of the placed images declare. -/
def Sheets.deps (x : Sheets) : List ((Nat × Nat) × (Nat × Nat)) :=
  x.troupes.flatMap (fun (l, q) => q.img.outs.flatMap (fun r =>
    if r.kind = 5 ∨ r.credits = 0 ∨ targetOf l r < 0 then []
    else
      let t := (targetOf l r).toNat
      match x.at_ t with
      | none => []
      | some tq =>
        match tq.img.ins[r.dstRoute]? with
        | none => []
        | some i =>
          let ps := if r.sunit = 0xFFFF then q.img.units.map (·.id) else [r.sunit]
          let cs := if i.runit = 0xFFFF then tq.img.units.map (·.id) else [i.runit]
          ps.flatMap (fun p => cs.map (fun c => ((l, p), (t, c))))))

/-! ### Checks 1 and 2 -/

/-- R55, R271: check 1: levels AL2 and AL3, of plans too, ISA O2 and O3. -/
def State.check1 (s : State) : List Fail :=
  (s.places s.rdStaged).flatMap (fun e => failIf (s.imageFault s.rdStaged e == 1) (failTroupe e.first)) ++
    s.boundPlans.flatMap (fun (k, p) => failIf
      (s.isOwn p 64 && (s.cohNum (pgaOff p) 1 == 2 || s.cohNum (pgaOff p) 1 == 3)) (failPlan k))

/-- R13, R34: staged Taken fields that hold a reserved encoding. -/
def State.reservedFields (s : State) : List Fail :=
  s.staged.flatMap (fun e =>
    match (Reg.fieldsAt (e.1 / 64)).find? (fun f => f.lo == e.1 % 64) with
    | some f => failIf (!f.allows e.2) (failReg (e.1 / 64))
    | none => [])

/-- R411: the rows of a table that this device holds. -/
def State.tableRows (s : State) (t : Nat) : Nat :=
  let g := s.rdStaged
  let n := g (Reg.EMB_TABLE0_SHARDS t)
  let first := g (Reg.EMB_TABLE0_FIRST_DEV t)
  if s.device < first ∨ first + n ≤ s.device then 0
  else (g (Reg.EMB_TABLE3_ROWS t) + n - 1 - (s.device - first)) / n

/-- Whether n bytes from an own-store offset lie in this device's own store. -/
def State.ownRange (s : State) (off n : Nat) : Bool := n == 0 || decide (off + n ≤ 65536 * s.rd Reg.STM_SIZE_UNITS)

/-- R411: embedding tables. -/
def State.checkTables (s : State) : List Fail :=
  let g := s.rdStaged
  (List.range 64).flatMap (fun t =>
    let n := s.tableRows t
    let size := slotSize (g (Reg.EMB_TABLE0_ROW16 t))
    let data := 64 * g (Reg.EMB_TABLE1_DATA t)
    if g (Reg.EMB_TABLE0_EN t) = 0 then []
    else
      failIf (decide (64 < g (Reg.EMB_TABLE0_FIRST_DEV t) + g (Reg.EMB_TABLE0_SHARDS t))) (failReg (0xC00100 + 0x20 * t)) ++
        failIf (!s.ownRange data (2 * size * n) || data % (2 * size) != 0) (failReg (0xC00108 + 0x20 * t)) ++
        failIf (!s.ownRange (64 * g (Reg.EMB_TABLE2_SEL t)) ((n + 7) / 8)) (failReg (0xC00110 + 0x20 * t)))

/-- R425: the hot area and the EMB_MOVE entries. -/
def State.checkMoves (s : State) : List Fail :=
  let g := s.rdStaged
  let n := g Reg.EMB_HOT_SLOTS
  let on := (List.range 1024).filter (fun k => g (Reg.EMB_MOVE0_EN k) == 1)
  let row (k : Nat) : Nat × Nat := (g (Reg.EMB_MOVE0_TABLE k), g (Reg.EMB_MOVE0_ROW k))
  failIf (!s.ownRange (8192 * g Reg.EMB_HOT_BASE) (8192 * n + (n + 7) / 8)) (failReg 0xC00018) ++
    on.flatMap (fun k =>
      failIf (on.any (fun j => j != k && row j == row k) ||
        decide (g (Reg.EMB_TABLE3_ROWS (row k).1) ≤ (row k).2)) (failReg (0xC01000 + 0x10 * k)) ++
      failIf (g (Reg.EMB_MOVE0_NEW_DEV k) == s.device && decide (n ≤ g (Reg.EMB_MOVE1_HOT k))) (failReg (0xC01008 + 0x10 * k)))

/-- R429, R432: the Hamming indexes, and the encodings reserved for one kind alone. -/
def State.checkIndexes (s : State) : List Fail :=
  let g := s.rdStaged
  (List.range 64).flatMap (fun i =>
    let x := 0xD00100 + 0x40 * i
    let kind := g (Reg.SRC_INDEX0_KIND i)
    let first := g (Reg.SRC_INDEX0_FIRST_DEV i)
    let n := g (Reg.SRC_INDEX0_SHARDS i)
    let code := 32 * 2 ^ g (Reg.SRC_INDEX0_LEN i)
    let count := g (Reg.SRC_INDEX3_COUNT i)
    let maxdeg := g (Reg.SRC_INDEX0_MAXDEG i)
    let visit := g (Reg.SRC_INDEX7_VISIT_MAX i)
    let here := decide (first ≤ s.device) && decide (s.device < first + n)
    let stride := 64 * ((32 + code + 8 * maxdeg + 63) / 64)
    let lists := g (Reg.SRC_INDEX6_NLIST i)
    if g (Reg.SRC_INDEX0_EN i) = 0 then []
    else
      failIf (decide (64 < first + n) || (here && g Reg.SRC_POOL_COUNT == 0) ||
        (kind == 2 && (maxdeg == 0 || decide (64 < maxdeg)))) (failReg x) ++
      failIf (kind == 1 && lists == 0) (failReg (x + 0x30)) ++
      failIf (kind == 2 && (visit == 0 || decide (2 ^ 24 < visit))) (failReg (x + 0x38)) ++
      (if !here then []
       else
        failIf (!s.ownRange (64 * g (Reg.SRC_INDEX1_CODES i)) (if kind = 2 then stride * count else code * count)) (failReg (x + 8)) ++
        failIf (kind != 2 && !s.ownRange (64 * g (Reg.SRC_INDEX2_META i)) (32 * count)) (failReg (x + 0x10)) ++
        failIf (kind == 1 && !s.ownRange (64 * g (Reg.SRC_INDEX4_CENT i)) (code * lists)) (failReg (x + 0x20)) ++
        failIf (kind == 1 && !s.ownRange (64 * g (Reg.SRC_INDEX5_LISTS i)) (16 * lists)) (failReg (x + 0x28))))

/-- R323, R210, R442, R492, R496, R504, R511: stage-2 roots, layout tables, the spill area, stream tables and Outboxes. -/
def State.checkBases (s : State) : List Fail :=
  let g := s.rdStaged
  let gib := g Reg.STM_STAGE_ONLY_GIB
  (List.range 16).flatMap (fun p =>
    let (base, n) := layoutTable g p
    failIf (g (Reg.PRT_CTL_EN p) == 1 && !s.inStore gib (256 * g (Reg.PRT_S2_ROOT_ROOT p)) 256) (failReg (0x80010 + 0x1000 * p)) ++
    failIf (n != 0 && !s.inStore gib base (16 * n)) (failReg (0x80018 + 0x1000 * p)) ++
    failIf (g (Reg.HST_STREAMS_EN p) == 1 && !s.inStore 0 (65536 * g (Reg.HST_STREAMS_BASE p)) 65536) (failReg (0x1800200 + 8 * p))) ++
  failIf (!s.ownRange (4096 * g Reg.SRC_SPILL_BASE) (67584 * 768 * g Reg.SRC_POOL_COUNT)) (failReg 0xD00008) ++
  (List.range 1024).flatMap (fun b =>
    let x := 0x1810000 + 0x20 * b
    if g (Reg.OBX_TAIL_EN b) = 0 then []
    else
      let both := s.is1 (Reg.OBX_TAIL_EN b)
      let moved (f : Fld) : Bool := both && s.rd f != g f
      failIf (!s.inStore gib (4096 * g (Reg.OBX_RING_BASE b)) (64 * 2 ^ g (Reg.OBX_RING_LOG2 b)) ||
        moved (Reg.OBX_RING_BASE b) || moved (Reg.OBX_RING_LOG2 b)) (failReg x) ++
      failIf (!s.inStore gib (64 * g (Reg.OBX_TAIL_LINE b)) 64 || moved (Reg.OBX_TAIL_LINE b)) (failReg (x + 8)))

/-- R210, R143: layout entries and images. -/
def State.checkImages (s : State) : List Fail :=
  (s.layoutEntries s.rdStaged).flatMap (fun e => failIf
    (if e.count = 0 then !e.ok || e.image % 64 != 0 else s.imageFault s.rdStaged e == 2) (failTroupe e.first))

/-- R269, R271: whether a plan at a PGA lies in the own store, has a legal header and entries, and its SEAL. -/
def State.planOk (s : State) (p : Nat) : Bool :=
  s.isOwn p 64 &&
    (let h := (s.cohRead (pgaOff p) 64).1
     let n := numIn h 2 2
     decide (n ≤ 1024) && s.isOwn p (64 + 64 * n) &&
       (let bs := (s.cohRead (pgaOff p) (64 + 64 * n)).1
        numIn h 0 1 == 1 && zeroIn h 1 1 && zeroIn h 4 4 && numIn h 8 8 % 512 == 0 && decide (numIn h 8 8 < 2 ^ 57) &&
          zeroIn h 16 32 && zeroIn h 52 12 && sealMatches bs && (entriesOf bs 64 n 64).all planEntryOk))

/-- R55, R271: check 2: reserved encodings and structures that break their rules, plans among them. -/
def State.check2 (s : State) : List Fail :=
  s.reservedFields ++ s.checkTables ++ s.checkMoves ++ s.checkIndexes ++ s.checkBases ++ s.checkImages ++
    s.boundPlans.flatMap (fun (k, p) => failIf (!s.planOk p) (failPlan k))

/-! ### Checks 3 to 10 -/

/-- R34: check 3: the cue period. -/
def State.check3 (s : State) : List Fail :=
  failIf (!Reg.CUE_PERIOD_PERIOD.allows (s.rdStaged Reg.CUE_PERIOD_PERIOD)) (failReg 0x20000)

/-- The entries of a plan at a store offset. -/
def State.planEntries (s : State) (off : Nat) : List PlanEntry :=
  (List.range (s.planLen off)).map (fun i => planEntryOf (s.planBytes off i))

/-- R42, R147: whether a unit's values break the deadline rules under period p. -/
def unitLate (img : Img) (u : UnitDesc) (p : Nat) : Bool :=
  decide (u.start < 2000) || decide (u.ddel < u.start) || decide (u.d < u.ddel + u.c) || decide (p < u.d + 6251) ||
    (u.policy == 1 && decide (u.d < u.ddel + u.ulead + u.c)) ||
    (List.range 48).any (fun c => bitOf (partMask img u) c && !(sectionOf img c).isEmpty && decide ((sectionOf img c).length ≤ u.entry))

/-- R55: check 4: deadlines of units, of producers and consumers, and of plan entries (R42, R147, R271). -/
def State.check4 (s : State) (x : Sheets) : List Fail :=
  let p := s.rdStaged Reg.CUE_PERIOD_PERIOD
  x.laid.flatMap (fun q => q.img.units.flatMap (fun u => failIf (unitLate q.img u p) (failUnit q.low u.id))) ++
  x.deps.flatMap (fun (a, b) =>
    match x.unit a.1 a.2, x.unit b.1 b.2, x.at_ b.1 with
    | some pu, some cu, some q => failIf (decide (cu.ddel ≤ pu.d)) (failUnit q.low b.2)
    | _, _, _ => []) ++
  x.plans.flatMap (fun (k, off) => (s.planEntries off).flatMap (fun e =>
    failIf (decide (e.start < 2000) || decide (e.ddel < e.start) ||
      (e.op == 0 &&
        (match x.at_ e.troupe, x.unit e.troupe e.unit with
         | some q, some u =>
           u.ddel != e.ddel || q.place.part != s.rdStaged (Reg.CRR_CTX_PLAN_PARTITION k) ||
             (e.ulen != 0) != (u.policy == 1) || e.skip != (u.policy == 2)
         | _, _ => true))) (failPlan k)))

/-- The units that a list of units reaches along dependences, in at most `fuel` rounds. -/
def reachGo (deps : List ((Nat × Nat) × (Nat × Nat))) : Nat → List (Nat × Nat) → List (Nat × Nat) → List (Nat × Nat)
  | 0, _, acc => acc
  | fuel + 1, front, acc =>
    let nxt := ((deps.filter (fun d => front.contains d.1)).map (·.2)).dedup.filter (fun q => !acc.contains q)
    if nxt.isEmpty then acc else reachGo deps fuel nxt (acc ++ nxt)

/-- R601: the units that depend on a unit, directly or through other units. -/
def dependantsOf (deps : List ((Nat × Nat) × (Nat × Nat))) (q : Nat × Nat) : List (Nat × Nat) :=
  reachGo deps (deps.length + 1) [q] []

/-- The lowest logical troupe on which unit u of logical troupe l is placed. -/
def Sheets.lowOf (x : Sheets) (l : Nat) : Nat := ((x.at_ l).map Laid.low).getD l

/-- R55: check 5: the dependence graph has no cycle. -/
def check5 (x : Sheets) : List Fail :=
  let ds := x.deps
  ((ds.map (·.1)).dedup).flatMap (fun q => failIf ((dependantsOf ds q).contains q) (failUnit (x.lowOf q.1) q.2))

/-- R48: check 6: SKIP units and their dependants are optional. -/
def check6 (x : Sheets) : List Fail :=
  let ds := x.deps
  x.laid.flatMap (fun q => q.img.units.flatMap (fun u => failIf (u.policy == 2 && !u.optional) (failUnit q.low u.id))) ++
  ((ds.map (·.1)).dedup).flatMap (fun q =>
    match x.unit q.1 q.2 with
    | some u =>
      if u.policy ≠ 2 then []
      else (dependantsOf ds q).flatMap (fun c =>
        match x.unit c.1 c.2 with
        | some v => failIf (!v.optional) (failUnit (x.lowOf c.1) c.2)
        | none => [])
    | none => [])

/-- R55: check 7: understudy copies lie in the Stage-only range, every UNDERSTUDY unit is named by an entry with one, and a new
GIB leaves frames enough for the PIN_STAGE units (R239, R271). -/
def State.check7 (s : State) (x : Sheets) : List Fail :=
  let gib := s.rdStaged Reg.STM_STAGE_ONLY_GIB
  let entries := x.plans.flatMap (fun (k, off) => (s.planEntries off).map (fun e => (k, e)))
  failIf (decide (framesFor gib < (s.unitsWhere (fun u => u.hint == 4)).length)) (failReg 0x200008) ++
  x.laid.flatMap (fun q => q.img.units.flatMap (fun u =>
    failIf (u.policy == 1 && !(List.range q.place.count).all (fun i =>
      entries.any (fun (_, e) => e.op == 0 && e.troupe == q.place.first + i && e.unit == u.id && e.ulen != 0)))
      (failUnit q.low u.id))) ++
  entries.flatMap (fun (k, e) => failIf (e.op == 0 && e.ulen != 0 && !s.inStage gib e.usrc e.ulen) (failPlan k))

/-- R55: check 8: placement (R91, R212, R442, R543). -/
def State.check8 (s : State) (x : Sheets) : List Fail :=
  let pool := s.rdStaged Reg.SRC_POOL_FIRST
  let pooled := s.rdStaged Reg.SRC_POOL_COUNT
  let held (l : Nat) : Bool :=
    match s.holdersOf x.moved l with
    | [t] => decide (s.trpState t ≤ 2)
    | _ => false
  let mapping := if x.moved.isEmpty ∧ (listedIn s.regs (Reg.TRP_STATE_STATE 0) 0x400 6400).isEmpty then []
    else (List.range 6250).flatMap (fun l => failIf (!held l) (failTroupe l))
  mapping ++ x.laid.flatMap (fun q =>
    let e := q.place
    failIf (decide (6250 < e.first + e.count)) (failTroupe (max e.first 6250)) ++
    failIf (s.rd Reg.PWR_CTL_STATE != 0) (failTroupe e.first) ++
    (List.range e.count).flatMap (fun i =>
      let l := e.first + i
      let named := (x.laid.filter (fun o => decide (o.place.first ≤ l) && decide (l < o.place.first + o.place.count))).length
      failIf (decide (l < 6250) &&
        (decide (1 < named) || (decide (pool ≤ l) && decide (l < pool + pooled)) ||
          (match s.holdersOf x.moved l with
           | [t] => decide (2 < s.trpState t) || s.rdStaged (Reg.TRP_STATE_PARTITION t) != e.part
           | _ => true))) (failTroupe l)))

/-- Whether two ranges (first line, lines) overlap. -/
def overlap (a b : Nat × Nat) : Bool :=
  a.2 != 0 && b.2 != 0 && decide (a.1 < b.1 + b.2) && decide (b.1 < a.1 + a.2)

/-- Whether two ranges of a list at different places overlap. -/
def anyOverlap : List (Nat × Nat) → Bool
  | [] => false
  | a :: l => l.any (overlap a) || anyOverlap l

/-- Whether a range of lines lies wholly inside one window of a use. -/
def inWindow (img : Img) (use : Nat) (r : Nat × Nat) : Bool :=
  r.2 == 0 || img.wins.any (fun w => w.use == use && decide (w.line ≤ r.1) && decide (r.1 + r.2 ≤ w.line + w.lines))

/-- R55: check 9: windows, rings and the ranges of deliveries (R216, R271). -/
def State.check9 (s : State) (x : Sheets) : List Fail :=
  x.laid.flatMap (fun q =>
    failIf (anyOverlap (q.img.wins.map (fun w => (w.line, w.lines))) ||
      q.img.wins.any (fun w => w.lines != 0 && decide (6144 < w.line + w.lines)) ||
      !q.img.ins.all (fun r => inWindow q.img 3 (r.ring, r.slots))) (failTroupe q.low)) ++
  x.plans.flatMap (fun (k, off) => (s.planEntries off).flatMap (fun e =>
    let rs := [(e.line, e.length / 64), (e.uline, e.ulen / 64), (e.statline, 1)]
    failIf (e.op == 0 &&
      (anyOverlap rs ||
        (match x.at_ e.troupe with
         | some q => !rs.all (inWindow q.img 2)
         | none => true))) (failPlan k)))

/-- R144: check 10: sections fit the instruction store. -/
def check10 (x : Sheets) : List Fail :=
  x.laid.flatMap (fun q => failIf (q.img.secs.any (fun ws => decide (256 < ws.length))) (failTroupe q.low))

/-! ### Check 11 (R84, R215, R218, R271, R394, R398) -/

/-- R74: the mesh links, as (router, output) pairs, on the dimension-order path between two troupes. -/
def linkPath : Nat → Nat → Nat → List (Nat × Nat)
  | 0, _, _ => []
  | fuel + 1, a, b =>
    let dir := routeDir a b
    if dir = 4 then []
    else (a, dir) :: (match neighbour a dir with | some n => linkPath fuel n b | none => [])

/-- R84: the route-credit pool of a lane. -/
def lanePool (vl : Nat) : Nat := if vl = 2 then 1024 else 2048

/-- What check 11 has summed: the credits granted to each inbound route (64 l + route) and on each link and lane. -/
structure Sums where
  rings : SMap Nat := []
  links : SMap Nat := []
  bad : List Fail := []
  deriving DecidableEq, Repr

/-- Add credits on the links of a path, failing an item where a pool is exceeded. -/
def Sums.onLinks (m : Sums) (path : List (Nat × Nat)) (vl credits : Nat) (f : Fail) : Sums :=
  if credits = 0 then m
  else path.foldl (fun m (r, dir) =>
    let k := hopKey r dir vl
    let n := m.links.getD k 0 + credits
    { m with links := m.links.insert k n, bad := m.bad ++ failIf (decide (lanePool vl < n)) f }) m

/-- The troupe that holds logical number l under the staged mapping. -/
def State.holder (s : State) (x : Sheets) (l : Nat) : Option Nat := (s.holdersOf x.moved l).head?

/-- R218: one outbound route of logical troupe l, on placement q. -/
def State.sumRoute (s : State) (x : Sheets) (l : Nat) (q : Laid) (m : Sums) (r : OutDesc) : Sums :=
  let f := failTroupe l
  let src := (s.holder x l).getD 0
  let into (m : Sums) (t rt : Nat) : Sums :=
    let i : InDesc := (((x.at_ t).bind (fun tq => tq.img.ins[rt]?))).getD {}
    let n := m.rings.getD (64 * t + rt) 0 + r.credits
    { m with rings := m.rings.insert (64 * t + rt) n
             bad := m.bad ++ failIf (decide (i.slots < n) ||
               (bitOf r.tflags 0 && (r.tflags != i.tflags || r.tpp != i.tpp))) f }
  if r.kind = 5 then
    let m := { m with bad := m.bad ++ failIf (decide (r.swclass < 5) ||
      (r.swclass == 7 && q.img.units.any (fun u => !u.optional))) f }
    let m := m.onLinks (linkPath 160 src (gateOf src)) 0 r.credits f
    if r.rdev ≠ s.device then m
    else
      let m := into m r.rtroupe r.rroute
      match s.holder x r.rtroupe with
      | some d => m.onLinks (linkPath 160 (gateOf d) d) 0 r.credits f
      | none => m
  else
    let t := targetOf l r
    if t < 0 ∨ 6250 ≤ t then { m with bad := m.bad ++ [f] }
    else
      let m := into m t.toNat r.dstRoute
      match s.holder x t.toNat with
      | some d => m.onLinks (linkPath 160 src d) (if r.kind = 2 then 2 else 0) r.credits f
      | none => m

/-- R271: the delivery streams of the plans, each (context, troupe, stream) once at its largest CREDITS. -/
def State.dlvStreams (s : State) (x : Sheets) : List ((Nat × Nat × Nat) × Nat) :=
  let uses := x.plans.flatMap (fun (k, off) => (s.planEntries off).flatMap (fun e =>
    if e.op ≠ 0 then []
    else ((k, e.stream, e.troupe), e.credits) :: (if e.ulen ≠ 0 then [((k, e.ustream, e.troupe), e.credits)] else [])))
  ((uses.map (·.1)).dedup).map (fun q => (q, ((uses.filter (fun u => u.1 == q)).map (·.2)).foldl max 0))

/-- R55, R271: check 11: the switch's buffer, route credits against rings, and the lane pools of every mesh link. -/
def State.check11 (s : State) (x : Sheets) : List Fail :=
  let g := s.rdStaged
  let res := ((List.range 7).map (fun c => g (Reg.SWX_CLASS_RES c))).sum
  let acc := ((List.range 256).map (fun n => g (Reg.SWX_RED_DEF1_ACC n))).sum
  let m := x.troupes.foldl (fun m (l, q) => q.img.outs.foldl (s.sumRoute x l q) m) ({} : Sums)
  let m := (s.dlvStreams x).foldl (fun m (q, credits) =>
    match s.holder x q.2.2 with
    | some d => m.onLinks (linkPath 160 (gateOf d) d) 1 credits (failPlan q.1)
    | none => m) m
  failIf (decide (262144 < 20 * res + acc)) (failReg 0xA00100) ++ m.bad

/-! ### Checks 12 to 15 -/

/-- R271: check 12: the bytes each courier delivers in one cue. -/
def State.check12 (s : State) (x : Sheets) : List Fail :=
  (((x.plans.map (fun q => q.1 / 16))).dedup).flatMap (fun c =>
    let es := (x.plans.filter (fun q => q.1 / 16 == c)).flatMap (fun q => (s.planEntries q.2).filter (fun e => e.op == 0))
    let last := (es.map (·.ddel)).foldl max 2000
    failIf (decide (128 * (last - 2000) < 10 * ((es.map (·.length)).sum))) (failPlan (16 * c)))

/-- R230: check 13: no more than 16 SHEET frames. -/
def State.check13 (s : State) : List Fail :=
  match s.sheetFrames[16]? with
  | some f => [failReg (0x1F20400 + 8 * f)]
  | none => []

/-- R584: check 14: every staged field and every SHEET frame belongs to the holder's partition, and no pair was refused. -/
def State.check14 (s : State) : List Fail :=
  let h := s.rd Reg.CS_STATUS_HOLDER
  (if 16 ≤ h then []
   else
    s.staged.flatMap (fun e => failIf (limitedBlock (e.1 / 64) ||
      (match s.regOwner (e.1 / 64) with | some p => p != h | none => false)) (failReg (e.1 / 64))) ++
    s.sheetFrames.flatMap (fun f => failIf (s.rd (Reg.PBK_FRAME_STAGE_OWNER f) != h) (failReg (0x1F20400 + 8 * f)))) ++
  (match s.sheet.refusedPair with | some x => [failReg x] | none => [])

/-- R536: whether regions a < b are adjacent. -/
def adjacent (a b : Nat) : Bool :=
  let mesh (r : Nat) : Bool := decide (208 ≤ r) && decide (r < 224)
  let mi (r : Nat) : Bool := decide (160 ≤ r) && decide (r < 184)
  let hub (r : Nat) : Bool := decide (184 ≤ r) && decide (r < 208)
  let edge (m n : Nat) : Bool := (m / 4 == n / 4 && n == m + 1) || n == m + 4
  (decide (a < 160) && b == 208 + a / 10) || (mesh a && mesh b && edge (a - 208) (b - 208)) ||
    (a == 185 && (mesh b || hub b)) || (b == 185 && (mi a || hub a)) ||
    (mi a && mi b && (a - 160) / 3 == (b - 160) / 3) || (hub a && hub b)

/-- R55: check 15: the divisions of adjacent regions differ by no more than a factor of 4. -/
def State.check15 (s : State) : List Fail :=
  let d := (List.range 224).map (fun r => s.rdStaged (Reg.CLK_REG_DIV r))
  if d.all (fun x => decide (x < 3)) then []
  else (List.range 224).flatMap (fun a =>
    failIf ((List.range 224).any (fun b => decide (a < b) && adjacent a b &&
      (decide (d.getD a 0 + 2 < d.getD b 0) || decide (d.getD b 0 + 2 < d.getD a 0)))) (failReg (0x1C01000 + 8 * a)))

/-! ### CHECK (R51, R55) -/

/-- R55, R271: the first check that fails, with its first failing item. -/
def State.verdict (s : State) : Option (Nat × Fail) :=
  let stop (n : Nat) (l : List Fail) (more : Option (Nat × Fail)) : Option (Nat × Fail) :=
    match firstFail l with | some f => some (n, f) | none => more
  let x := s.sheets
  stop 1 s.check1 (stop 2 s.check2 (stop 3 s.check3 (stop 4 (s.check4 x) (stop 5 (check5 x) (stop 6 (check6 x)
    (stop 7 (s.check7 x) (stop 8 (s.check8 x) (stop 9 (s.check9 x) (stop 10 (check10 x) (stop 11 (s.check11 x)
      (stop 12 (s.check12 x) (stop 13 s.check13 (stop 14 s.check14 (stop 15 s.check15 none))))))))))))))

/-- R51, R55, R602: CHECK completes; the verdict on a sheet abandoned meanwhile is dropped (log entry 105). -/
def execCheckDone (s : State) : Res :=
  if s.halted then .next s else
  if !s.is1 Reg.CS_STATUS_BUSY then .next s
  else
    let r := s.verdict
    let s := s.wr Reg.CS_STATUS_BUSY 0
    let voided := s.sheet.voided
    let s := { s with sheet := { s.sheet with voided := false, refusedPair := none } }
    if voided then .next ((((s.wr Reg.CS_STATUS_STATE 1).wr Reg.CS_STATUS_HOLDER s.sheet.checker).clearFail).raise 33)
    else if s.rd Reg.CS_STATUS_HOLDER = 31 then .next (s.raise 33)
    else match r with
      | none => .next (((s.wr Reg.CS_STATUS_STATE 2).clearFail).raise 33)
      | some (n, f) =>
        let s := ((s.wr Reg.CS_STATUS_STATE 1).wr Reg.CS_STATUS_FAIL_CHECK n).wr Reg.CS_STATUS_FAIL_KIND f.1
        .next (((s.wr Reg.CS_STATUS_FAIL_ITEM f.2.1).wr Reg.CS_FAIL_UNIT_UNIT f.2.2).raise 33)

end Sys2Proof.Machine
end

