-- ==== Sys2Proof/Machine/Events.lean ====
section
/-!
DEFINITION. The event controller and the control cores: sources, claims, signals and moderation, restarts, the exception queue, and the
CSYS instructions (R208, R512 to R527, R509).
-/

namespace Sys2Proof.Machine

/-! ### Sources (R516, R517, R526, R527) -/

/-- R527: whether an event id below 1,024 is assigned. -/
def idAssigned (i : Nat) : Bool :=
  [1, 2, 48, 49, 50, 64, 65, 66, 72, 73, 74, 80, 81, 104, 128, 129, 130].contains i ||
    (decide (32 ≤ i) && decide (i ≤ 37)) || (decide (40 ≤ i) && decide (i ≤ 44)) || (decide (56 ≤ i) && decide (i ≤ 61)) ||
    (decide (88 ≤ i) && decide (i ≤ 94)) || (decide (96 ≤ i) && decide (i ≤ 99)) || (decide (112 ≤ i) && decide (i ≤ 121)) ||
    (decide (136 ≤ i) && decide (i ≤ 151))

/-- R516: a rising edge of source id. An id that is not assigned never rises. -/
def execEventEdge (id : BitVec 11) (s : State) : Res :=
  if s.halted then .next s else
  .next (if idAssigned id.toNat || (decide (1024 ≤ id.toNat) && decide (id.toNat ≤ 2046)) then s.raise id.toNat else s)

/-- R517: whether the condition of a retracting source has ended. -/
def State.retractable (s : State) (i : Nat) : Bool :=
  if i = 36 then s.is1 Reg.CUE_SYNC_LOCKED
  else if i = 37 then !s.is1 Reg.CS_STATUS_STEP_HELD
  else if i = 114 then s.rd Reg.RSL_PM_SUSPECT_SUSPECT == 0
  else false

/-- R517: a source whose condition has ended retracts. -/
def execEventRetract (id : BitVec 11) (s : State) : Res :=
  if s.halted then .next s else
  .next (if s.retractable id.toNat then s.unpend id.toNat else s)

/-- R516: requester h writes a mask of ones to EVC_PENDINGw. -/
def State.clearPending (s : State) (h w mask : Nat) : State :=
  if h < 16 then s
  else (s.wr (Reg.EVC_PENDING_BITS w) (s.rd (Reg.EVC_PENDING_BITS w) &&& (2 ^ 64 - 1 - mask % 2 ^ 64))).settleLatches

/-- R516: a W1C write of EVC_PENDINGw. -/
def execEvcPendingClear (h : Fin 18) (w : Fin 32) (mask : Word) (s : State) : Res := if s.halted then .next s else .next (s.clearPending h.val w.val mask.toNat)

/-- R526: a write of EVC_RAISE.ID. -/
def execEvcRaiseWrite (h : Fin 18) (id : BitVec 11) (s : State) : Res :=
  if s.halted then .next s else
  .next (if h.val < 16 then s else s.softRaise id.toNat)

/-! ### Signals (R509, R522 to R525) -/

/-- R486, R509: whether the MSI-X message of vector v may be sent now. -/
def State.msixOpen (s : State) (v : Nat) : Bool :=
  s.hst.msixEn && !s.hst.msixMask && s.is1 Reg.HPT_LINK_UP && !(s.hst.msix.getD v {}).mask

/-- R509: vector v signals: its message leaves, or its Pending Bit Array bit is set. -/
def State.msixSignal (s : State) (v : Nat) : State :=
  if s.msixOpen v then
    let e := s.hst.msix.getD v {}
    s.send { name := "MSIX", dest := v, args := [e.addr.toNat, e.data.toNat] }
  else { s with hst := { s.hst with pba := s.hst.pba.setD v false true } }

/-- R509: the messages that were pending and are now allowed leave. -/
def State.msixFlush (s : State) : State :=
  (s.hst.pba.keys.filter s.msixOpen).foldl (fun s v =>
    { s with hst := { s.hst with pba := s.hst.pba.erase v } }.msixSignal v) s

/-- The latches of target t go. -/
def State.clearLatch (s : State) (t : Nat) : State :=
  { s with ev := { s.ev with latch := s.ev.latch.erase t, signal := s.ev.signal.erase t } }

/-- R522: target t is signalled where its moderation allows it: `gap` says that GAP has passed since its last signal, `old` that its oldest
latch has waited GAP. A core in WAIT is woken instead (R524). -/
def execTargetSignal (t : Fin 528) (gap old : Bool) (s : State) : Res :=
  if s.halted then .next s else
  let a := s.ev.latch.getD t.val 0
  let free := s.rd (Reg.EVC_MOD_GAP t.val) == 0
  if a = 0 ∨ !(gap || free) ∨ !(old || free || decide (s.rd (Reg.EVC_MOD_COUNT t.val) ≤ a)) then .next s
  else if 16 ≤ t.val then .next ((s.clearLatch t.val).msixSignal (t.val - 16))
  else if (s.cxAt (coreKey t.val)).st = .wfe then .next s
  else .next { s with ev := { s.ev with signal := s.ev.signal.insert t.val true } }

/-- R523: at an instruction boundary a waiting signal diverts core c to its handler. -/
def execCoreHandlerEntry (c : Fin 16) (s : State) : Res :=
  if s.halted then .next s else
  let x := s.cxAt (coreKey c.val)
  if !s.ev.signal.getD c.val false then .next s
  else if s.ev.latch.getD c.val 0 = 0 then .next (s.clearLatch c.val)
  else if !(x.st == .run || x.st == .hold || x.st == .idle) ∨ !s.is1 (Reg.EVC_CORE_IE c.val) ∨ s.is1 (Reg.EVC_CORE_IN_HANDLER c.val) ∨
      16 ≤ x.link.length then .next s
  else
    let y := { x with link := x.pc :: x.link, handler := [x.link.length + 1], pc := s.rd (Reg.EVC_CORE_HANDLER c.val), st := .run }
    .next (((s.setCxAt (coreKey c.val) y).wr (Reg.EVC_CORE_IN_HANDLER c.val) 1).clearLatch c.val)

/-! ### Restarts and the exception queue (R514, R515) -/

/-- R514: core c starts at instruction index 0, its registers and link stack cleared, the ACTIVE bits it owns clear;
a work order that it was serving when it stopped is left broken. -/
def State.restartCore (s : State) (c : Nat) : State :=
  let mine := (s.ev.owner.filter (fun _ o => o == c)).keys
  let s := mine.foldl (fun s i => s.clrBit (Reg.EVC_ACTIVE_BITS (i / 64)) (i % 64)) s
  let x := s.cxAt (coreKey c)
  let s := s.setCxAt (coreKey c) { st := .run, len := x.len, level := x.level, part := x.part }
  let s := { s with ev := { s.ev with owner := s.ev.owner.filter (fun _ o => o != c), claims := s.ev.claims.filter (fun q => q.core != c),
                                      signal := s.ev.signal.erase c }
                    ord := { s.ord with list := s.ord.list.map (fun (o : Order) =>
                      if o.core = some c then { o with core := none, broken := true } else o) } }
  s.wr (Reg.EVC_CORE_IN_HANDLER c) 0

/-- R514: requester h writes SMX_COREc.RESTART. -/
def State.goRestart (s : State) (h c : Nat) : State := if 16 ≤ h ∧ s.coreStopped c then s.restartCore c else s

/-- R514: a write of SMX_COREc.RESTART. -/
def execSmCoreRestart (h : Fin 18) (c : Fin 16) (s : State) : Res := if s.halted then .next s else .next (s.goRestart h.val c.val)

/-- R514: the Stage Door restarts every stopped core when none has run or waited for 1 ms. -/
def execStageDoorCoreRestart (s : State) : Res :=
  if s.halted then .next s else
  if (List.range 16).any s.coreUp then .next s
  else .next (((List.range 16).filter s.coreStopped).foldl State.restartCore s)

/-- R515: requester h writes SMX_XQ.RD; an index beyond WR is ignored. -/
def State.writeXqRd (s : State) (h rd : Nat) : State :=
  let old := s.rd Reg.SMX_XQ_RD
  if h < 16 ∨ (s.rd Reg.SMX_XQ_WR + 65536 - old) % 65536 < (rd + 65536 - old) % 65536 then s else s.wr Reg.SMX_XQ_RD rd

/-- R515: a write of SMX_XQ.RD. -/
def execSmxXqRdWrite (h : Fin 18) (rd : BitVec 16) (s : State) : Res := if s.halted then .next s else .next (s.writeXqRd h.val rd.toNat)

/-! ### CSYS, major 0x15 (R208, R519, R520) -/

/-- R208: the encoding of EVCLAIM. -/
def encEvclaim : Enc := { major := 0x15, minor := 0, d := .s }

/-- The core an agent is. -/
def coreOf (u : Agent) : Nat := match u with | .core n => n.val | _ => 0

/-- R208, R519 EVCLAIM: selects an id at issue; sD is written at the commit, or at once with 0 where none is deliverable. -/
def execEvclaim (u : Agent) (f : BitVec 52) (s : State) : Res :=
  .next (issue u encEvclaim f true (fun x s =>
    let i := s.firstId (coreOf u)
    if i = 0 then .go (s.setCx u (x.setS (fD f) 0))
    else
      let s := s.setCx u { x with pend := x.pend ++ [⟨0, fD f⟩] }
      .go { s with ev := { s.ev with claims := s.ev.claims ++ [{ core := coreOf u, id := i, reg := fD f }] } }) s)

/-- R519, R521: the oldest claim of core c commits, 8 hclk after its issue. -/
def execEvclaimCommit (c : Fin 16) (s : State) : Res :=
  if s.halted then .next s else
  match s.ev.claims.find? (fun q => q.core == c.val) with
  | none => .next s
  | some q =>
    let x := s.cxAt (coreKey c.val)
    let done (s : State) (r : Nat) : State :=
      s.setCxAt (coreKey c.val) { x.setS q.reg r with pend := x.pend.erase ⟨0, q.reg⟩ }
    let s := { s with ev := { s.ev with claims := s.ev.claims.erase q } }
    if s.pendingId q.id then
      let s := (s.clrBit (Reg.EVC_PENDING_BITS (q.id / 64)) (q.id % 64)).setBit (Reg.EVC_ACTIVE_BITS (q.id / 64)) (q.id % 64)
      let s := { s with ev := { s.ev with owner := s.ev.owner.insert q.id c.val } }
      .next ((done s q.id).settleLatches)
    else .next (done (s.satAdd Reg.EVC_STAT_SPURIOUS 1) 2047)

/-- R208: the encoding of EVDONE. -/
def encEvdone : Enc := { major := 0x15, minor := 1, a := .s }

/-- R520: EVDONE of an id by core c. A pending id that becomes deliverable again is latched for no core: its edge was counted, if at all,
when it rose. -/
def State.eventDone (s : State) (c i : Nat) : State :=
  if i < 2048 ∧ s.ev.owner.find? i = some c then
    { s.clrBit (Reg.EVC_ACTIVE_BITS (i / 64)) (i % 64) with ev := { s.ev with owner := s.ev.owner.erase i } }
  else s.satAdd Reg.EVC_STAT_DONE_ERR 1

/-- R208, R520 EVDONE: completes the claim of event id sA. -/
def execEvdone (u : Agent) (f : BitVec 52) (s : State) : Res :=
  .next (issue u encEvdone f true (fun x s => .go (s.eventDone (coreOf u) (x.sr (fA f)))) s)

/-- R208: the encoding of WFE. -/
def encWfe : Enc := { major := 0x15, minor := 2, iform := true, imm := 32 }

/-- R208, R524 WFE: waits until an event is pending for this core or IMM issue clocks have passed; IMM = 0 does not wait. -/
def execWfe (u : Agent) (f : BitVec 52) (s : State) : Res :=
  .next (issue u encWfe f true (fun _ s =>
    if fIMM f = 0 ∨ s.firstId (coreOf u) ≠ 0 then .go s else .wait s .wfe) s)

/-- R524: core c leaves WFE: an id is deliverable to it, which counts as a signal, or (`timeout`) its issue clocks have passed. -/
def execWfeWake (c : Fin 16) (timeout : Bool) (s : State) : Res :=
  if s.halted then .next s else
  let x := s.cxAt (coreKey c.val)
  let woken := s.firstId c.val != 0
  if x.st ≠ .wfe ∨ !(woken || timeout) then .next s
  else
    let s := s.setCxAt (coreKey c.val) { x with st := .run, pc := x.pc + 1 }
    .next (if woken then s.clearLatch c.val else s)

/-- R208: the encoding of RAISE. -/
def encRaise : Enc := { major := 0x15, minor := 3, a := .s }

/-- R208, R526 RAISE: raises the software event whose id is sA. -/
def execRaise (u : Agent) (f : BitVec 52) (s : State) : Res :=
  .next (issue u encRaise f true (fun x s => .go (s.softRaise (x.sr (fA f)))) s)

/-- R208: the encoding of FENCE. -/
def encFence : Enc := { major := 0x15, minor := 4 }

/-- R208 FENCE: every earlier CMEM store has taken effect when its instruction completes, so there is nothing left to wait for (log entry 46). -/
def execFence (u : Agent) (f : BitVec 52) (s : State) : Res := .next (issueR u encFence f true id s)

end Sys2Proof.Machine
end

