-- ==== Sys2Proof/Machine/Switch.lean ====
section
/-!
DEFINITION. The switch core and the Efhal link layer (R365 to R368, R389 to R409).
-/

namespace Sys2Proof.Machine

/-! ### The shared buffer (R396 to R399) -/

/-- Replace the switch. -/
def State.setSw (s : State) (w : Switch) : State := { s with sw := w }

/-- The cells that are not FREE. -/
def State.cellsUsed (s : State) : List Nat := s.sw.cells.keys ++ s.sw.acc.map (·.cell)

/-- R399: the number of FREE cells. -/
def State.cellsFree (s : State) : Nat := 262144 - s.cellsUsed.length

/-- R398: the reserve cells of inputs and of accumulators that are unused. -/
def State.unusedReserve (s : State) : Nat :=
  20 * ((List.range 7).map (fun c => s.rd (Reg.SWX_CLASS_RES c))).sum -
      (s.sw.cells.filter (fun _ (c : Cell) => c.reserve)).length +
    (((s.listed (Reg.SWX_RED_DEF1_ACC 0) 0x10 256).map (fun n => s.rd (Reg.SWX_RED_DEF1_ACC n))).sum - s.sw.acc.length)

/-- R398: whether a class may take a shared cell. -/
def State.sharedOk (s : State) (c : Nat) : Bool :=
  decide (s.unusedReserve < s.cellsFree) &&
    decide ((s.sw.cells.filter (fun _ (x : Cell) => x.cls == c && !x.reserve)).length < s.rd (Reg.SWX_CLASS_SHARE_MAX c))

/-- A FREE cell: the lowest numbered (log entry 17). -/
def State.freeCell (s : State) : Nat :=
  let used := s.cellsUsed
  ((List.range (used.length + 1)).find? (fun n => !used.contains n)).getD 0

/-- R397: the cells of a pigeonhole. -/
def State.pigeon (s : State) (port c : Nat) : List Nat := s.sw.pig.getD (8 * port + c) []

/-- Put a parcel into a cell that joins a pigeonhole. -/
def State.enqueue (s : State) (port : Nat) (x : Cell) : State :=
  let n := s.freeCell
  s.setSw { s.sw with cells := s.sw.cells.insert n x, pig := s.sw.pig.setD (8 * port + x.cls) [] (s.pigeon port x.cls ++ [n]) }

/-! ### The link layer (R366, R367) -/

/-- The link of port n. -/
def State.link (s : State) (n : Nat) : Link := s.sw.links.getD n {}

/-- Replace the link of port n. -/
def State.setLink (s : State) (n : Nat) (l : Link) : State := s.setSw { s.sw with links := s.sw.links.setD n {} l }

/-- The state of port n (R368): 0 OFF, 1 TRAIN, 2 ALIGN, 3 NEGOTIATE, 4 UP, 5 FAILED, 6 MISWIRED. -/
def State.portState (s : State) (n : Nat) : Nat := s.rd (Reg.EFH_PORT_STAT_STATE n)

/-- R366: a flit with its CRC, as a number. -/
def flitOf (seq ack nak kind level : Nat) (f : Flit) : Nat :=
  let x := seq + ack * 2 ^ 16 + nak * 2 ^ 32 + kind * 2 ^ 33 + level * 2 ^ 36 + f.cls * 2 ^ 40 + f.count % 65536 * 2 ^ 48 + f.p * 2 ^ 64
  x + crc64 (toLe 248 x) * 2 ^ 1984

/-- R366: a flit leaves on port n under a SEQ: DATA where it carries a parcel, else IDLE. -/
def State.flitOut (s : State) (n seq nak : Nat) (f : Flit) : State :=
  s.send { name := "FLIT", dest := n,
           bytes := toLe 256 (flitOf seq (s.link n).rx nak (b2n (f.p == 0)) (s.rd (Reg.EFH_PORT_STAT_LEVEL n)) f) }

/-- R366, R367: a flit that carries a parcel or credits takes the next SEQ and is kept until it is acknowledged; it waits while 512 are. -/
def State.flitSend (s : State) (n : Nat) (f : Flit) : State :=
  let l := s.link n
  if 512 ≤ l.unacked.length then s.setLink n { l with wait := l.wait ++ [f] }
  else (s.setLink n { l with tx := (l.tx + 1) % 65536, unacked := l.unacked ++ [(l.tx, f)] }).flitOut n l.tx 0 f

/-- R366, R367: an IDLE flit acknowledges what has come, or asks for a replay (nak 1); it repeats the last SEQ and is not kept (log entry 41). -/
def State.idleSend (s : State) (n nak : Nat) : State := s.flitOut n (((s.link n).tx + 65535) % 65536) nak {}

/-- R366, R398: k credits of a class return to what sends to port n, where that is UP. -/
def State.creditSend (s : State) (n c k : Nat) : State :=
  if s.portState n = 4 ∧ k ≠ 0 then s.flitSend n { cls := c, count := k } else s

/-- R398: the hop credit of a lossless parcel returns to what sends on an input; on Efhal it travels in a flit. -/
def State.hopCredit (s : State) (i c : Nat) : State := if i < 18 ∧ c < 7 then s.creditSend i c 1 else s

/-- R365, R367, R368: port n becomes FAILED, with no lane of it in use; what was not acknowledged on it is lost. -/
def State.portFailed (s : State) (n : Nat) : State :=
  (((s.wr (Reg.EFH_PORT_STAT_STATE n) 5).wr (Reg.EFH_PORT_STAT_LANES n) 0).setLink n {}).setSw { (s.setLink n {}).sw with
    credit := s.sw.credit.filter (fun k _ => k / 8 != n) }

/-- Whether port n may send one more parcel of a class: UP, room for it until acknowledged, and a downstream credit. -/
def State.canSend (s : State) (port c taken : Nat) : Bool :=
  if 18 ≤ port then true
  else s.portState port == 4 && decide ((s.link port).unacked.length + (s.link port).wait.length < 512) && (c == 7 || decide (taken < s.sw.credit.getD (8 * port + c) 0))

/-- A parcel leaves the switch at a port: in a flit, or to this device's own logic, a marked one counted (R402). A fenced device sends only
postcards (R467), and a rehearsal of a link fault loses it (R478). -/
def State.depart (s : State) (port c p : Nat) : State :=
  let s := s.setSw { s.sw with sent := s.sw.sent + 1 }
  let q := (parcelOf p).1
  if port < 18 ∧ (s.rhLink port q.part ∨ (q.op ≠ 0x0A ∧ s.is1 Reg.RSL_PM_STATE_FENCED)) then s
  else if port < 18 then
    let s := if c = 7 then s else
      s.setSw { s.sw with credit := s.sw.credit.setD (8 * port + c) 0 (s.sw.credit.getD (8 * port + c) 0 - 1) }
    s.flitSend port { p := p }
  else
    let s := if q.mark then s.satAdd (Reg.SWX_CLASS_STAT_MARKED c) 1 else s
    let s := if q.mark ∧ q.op ≤ 4 then s.setSw { s.sw with marked := s.sw.marked ++ [(q.src, q.tag)] } else s
    s.send { name := "DELIVERED", dest := port, bytes := toLe 80 p }

/-! ### Colours (R401) -/

/-- R401: one step of an input's LFSR with the polynomial x^16 + x^14 + x^13 + x^11 + 1. -/
def lfsrStep (x : Nat) : Nat :=
  x / 2 + (x + x / 4 + x / 8 + x / 32) % 2 * 2 ^ 15

/-- R401: colour a parcel of a class at an input: 0 green, 1 yellow, 2 red, taking its token. The switch's own results (input 20) arrive at none: they are not metered or judged. -/
def State.colour (s : State) (i c : Nat) : State × Nat :=
  let t := s.sw.tok.getD (8 * i + c) (0, 0)
  if 20 ≤ i then (s, 0) else
  let put (g y : Nat) : State := s.setSw { s.sw with tok := s.sw.tok.setD (8 * i + c) (0, 0) (g, y) }
  if 0 < t.1 then (put (t.1 - 1) t.2, 0) else if 0 < t.2 then (put t.1 (t.2 - 1), 1) else (s, 2)

/-- R401: judge a parcel of a class and colour k that would join a port's pigeonhole: whether the switch acts on it. -/
def State.judgeDrop (s : State) (i port c k : Nat) : State × Bool :=
  let q := (s.pigeon port c).length
  let min := s.rd (Reg.SWX_REDP_MIN (3 * c + k))
  let max := s.rd (Reg.SWX_REDP_MAX (3 * c + k))
  let pmax := s.rd (Reg.SWX_REDP_PMAX (3 * c + k))
  let rnd := s.sw.lfsr.getD i (i + 1)
  if 20 ≤ i then (s, false) else
  (s.setSw { s.sw with lfsr := s.sw.lfsr.setD i (i + 1) (lfsrStep rnd) }, if max = 0 then false else if q < min then false else if max ≤ q ∨ max ≤ min then true
      else decide (rnd * (max - min) * 256 < pmax * (q - min) * 65536))

/-- R402: a class 7 parcel is dropped. -/
def State.dropFab (s : State) (p : FabParcel) : State :=
  let s := s.setSw { s.sw with dropped := s.sw.dropped + 1 }
  if p.cls = 7 then
    let s := s.credTo p.src p.dst (bitsOf p.arg 0 13) (bitsOf p.arg 13 6) 1
    (s.satAdd (Reg.SWX_CLASS_STAT_DROPPED 7) 1).ledgerAdd (fun l => { l with cancelled := l.cancelled + 1 })
  else s

/-! ### Arrivals (R393, R398, R403, R404) -/

/-- R370, R389: the output port of a parcel for a device; memory requests and responses leave at COURIER. -/
def State.portFor (s : State) (p : FabParcel) : Option Nat :=
  let here := if p.op ≤ 5 ∨ p.op = 0x0E then 19 else 18
  if p.dst = s.device then some here
  else
    let r := s.rd (Reg.EFH_ROUTE_PORT p.dst)
    if r < 18 then some r else if r = 30 then some here else none

/-- R389: the parcels that a port moves in a cell time. -/
def portRate (port : Nat) : Nat := if port < 18 then 1 else if port = 18 then 8 else 4

/-- R404: whether a parcel may cut through from an input to an output. -/
def State.cutOk (s : State) (i port : Nat) (p : FabParcel) : Bool :=
  s.bit (Reg.SWX_PORT_MODE_CUT i) p.cls && !p.mcast && p.cls != 5 && decide (portRate port ≤ portRate i) &&
    (List.range 8).all (fun c => (s.pigeon port c).isEmpty) && s.canSend port p.cls 0

/-- R398, R401, R404: a checked unicast parcel, or one copy, of colour k is judged and admitted; `credit` says that its hop credit returns. -/
def State.switchAdmit (s : State) (i port k : Nat) (p : FabParcel) (credit : Bool) : State :=
  let (s, act) := s.judgeDrop i port p.cls k
  if p.cls = 7 ∧ (act ∨ !s.sharedOk 7) then s.dropFab p
  else
    let p := if act then { p with mark := true } else p
    if s.cutOk i port p then
      let s := s.depart port p.cls p.num
      if credit then s.hopCredit i p.cls else s
    else
      let shared := s.sharedOk p.cls
      let s := s.enqueue port { p := p.num, input := i, cls := p.cls, reserve := !shared, back := credit && !shared }
      if credit ∧ shared then s.hopCredit i p.cls else s

/-- R398, R401: a checked unicast parcel is coloured, judged and admitted. -/
def State.switchJoin (s : State) (i port : Nat) (p : FabParcel) (credit : Bool) : State :=
  let (s, k) := s.colour i p.cls
  s.switchAdmit i port k p credit

/-- R405: the definition in use for a route of a device. -/
def State.redFor (s : State) (dev troupe route : Nat) : Option Nat :=
  (s.listed (Reg.SWX_RED_DEF0_EN 0) 0x10 256).find? (fun n =>
    s.is1 (Reg.SWX_RED_DEF0_EN n) && s.rd (Reg.SWX_RED_DEF0_DEV n) == dev && s.rd (Reg.SWX_RED_DEF0_TROUPE n) == troupe &&
      s.rd (Reg.SWX_RED_DEF0_ROUTE n) == route)

/-- R405, R406: whether a definition merges anything. -/
def State.redMerges (s : State) (n : Nat) : Bool :=
  s.rd (Reg.SWX_RED_DEF1_ACC n) != 0 && s.rd (Reg.SWX_RED_DEF1_NEED n) != 0

/-- R407: the open accumulators of a definition become VOID. -/
def State.voidRed (s : State) (n : Nat) : State :=
  let k := (s.sw.acc.filter (fun a => a.red == n && !a.void)).length
  if k = 0 then s
  else
    let s := s.setSw { s.sw with acc := s.sw.acc.map (fun a => if a.red = n then { a with void := true } else a) }
    (s.satAdd Reg.SWX_ERR_RED_VOID k).raise 98

/-- R403, R405, R407: a checked parcel at an input goes its way. -/
def State.switchRoute (s : State) (i : Nat) (p : FabParcel) : State :=
  if s.sw.copies.any (fun j => j.input == i && (parcelOf j.p).1.cls == p.cls) ∨
      s.sw.held.any (fun h => h.1 == i && (parcelOf h.2).1.cls == p.cls) then
    s.setSw { s.sw with held := s.sw.held ++ [(i, p.num)] }
  else if p.mcast then
    let mask := s.rd (Reg.SWX_MCAST_MASK p.dst)
    match (List.range 20).filter (fun b => bitOf mask b) with
    | [] => ((s.satAdd Reg.SWX_ERR_MCAST_EMPTY 1).setSw { s.sw with dropped := s.sw.dropped + 1 }).hopCredit i p.cls
    | first :: rest =>
      let (s, k) := s.colour i p.cls
      let s := s.switchAdmit i first k p (rest.isEmpty)
      if rest.isEmpty then s else s.setSw { s.sw with copies := s.sw.copies ++ [{ input := i, p := p.num, ports := rest, colour := k }] }
  else
    let troupe := bitsOf p.arg 0 13
    let route := bitsOf p.arg 13 6
    let kind := bitsOf p.arg 19 2
    let red := if p.op = 8 then s.redFor p.dst troupe route else none
    let s := match red with
      | some n => if kind = 2 ∧ bitsOf p.pl 0 32 ≠ 0 then s.voidRed n else s
      | none => s
    match red with
    | some n => if kind = 1 ∧ s.redMerges n then s.setSw { s.sw with mergeQ := s.sw.mergeQ ++ [(i, p.num)] }
                else match s.portFor p with
                  | some port => s.switchJoin i port p true
                  | none => (s.dropFab p).hopCredit i p.cls
    | none =>
      match s.portFor p with
      | some port => s.switchJoin i port p true
      | none => (s.dropFab p).hopCredit i p.cls

/-- R393: a parcel arrives at an input: its seal and header are checked. A rehearsal of a link fault discards it as a seal failure (R478), and
a fenced device discards all but postcards (R467). -/
def State.switchArrive (s : State) (i raw : Nat) : State :=
  let (p, ok) := parcelOf raw
  if i < 18 ∧ s.rhLink i p.part then ((s.satAdd Reg.SWX_ERR_SEAL 1).raise 99).hopCredit i p.cls
  else if i < 18 ∧ p.op ≠ 0x0A ∧ s.deaf p.part then s.hopCredit i p.cls
  else if !ok then
    let s1 := ((s.satAdd Reg.SWX_ERR_SEAL 1).raise 99).hopCredit i p.cls
    match s.portFor p with
    | some port =>
      if p.wellFormed ∧ s.cutOk i port p then
        let s1 := s1.setSw { s1.sw with arrived := s1.sw.arrived + 1 }
        s1.depart port p.cls (p.header + (2 ^ 32 - 1 - sealOf p.header p.pl) * 2 ^ 96 + p.pl * 2 ^ 128)
      else s1
    | none => s1
  else if !p.wellFormed then (s.satAdd Reg.SWX_ERR_MALFORMED 1).hopCredit i p.cls
  else (s.setSw { s.sw with arrived := s.sw.arrived + 1 }).switchRoute i p

/-- R393: a parcel of 80 bytes arrives at a switch input. -/
def execSwitchInputArrival (i : Fin 20) (p : BitVec 640) (s : State) : Res := if s.halted then .next s else .next (s.switchArrive i.val p.toNat)

/-- R401: every 64 hclk the buckets of every input and class gain their tokens. -/
def execTokenRefill (s : State) : Res :=
  if s.halted then .next s else
  .next (s.setSw { s.sw with tok := (List.range 160).foldl (fun m k =>
    let c := k % 8
    let t := m.getD k (0, 0)
    m.setD k (0, 0) (min (s.rd (Reg.SWX_METER_CBS c)) (t.1 + s.rd (Reg.SWX_METER_CIR c)),
                     min (s.rd (Reg.SWX_METER_PBS c)) (t.2 + s.rd (Reg.SWX_METER_PIR c)))) s.sw.tok })

/-- R403: parcels that waited behind a multicast at an input go on. -/
def State.releaseHeld (s : State) (i c : Nat) : State :=
  let mine := s.sw.held.filter (fun h => h.1 == i && (parcelOf h.2).1.cls == c)
  mine.foldl (fun s h => s.switchRoute i (parcelOf h.2).1)
    (s.setSw { s.sw with held := s.sw.held.filter (fun h => !(h.1 == i && (parcelOf h.2).1.cls == c)) })

/-- R403: the copy engine of an input makes up to four copies of its first multicast parcel, as shared cells allow. -/
def State.copyGo (s : State) (i : Nat) : Nat → State
  | 0 => s
  | fuel + 1 =>
    match s.sw.copies.find? (fun j => j.input == i) with
    | none => s
    | some j =>
      let p := (parcelOf j.p).1
      match j.ports with
      | [] => s
      | port :: rest =>
        if !s.sharedOk p.cls then s
        else
          let (s, act) := s.judgeDrop i port p.cls j.colour
          let s := s.enqueue port { p := (if act then { p with mark := true } else p).num, input := i, cls := p.cls }
          let s := s.setSw { s.sw with
            made := s.sw.made + 1
            copies := if rest.isEmpty then s.sw.copies.erase j
                      else s.sw.copies.map (fun k => if k = j then { j with ports := rest } else k) }
          if rest.isEmpty then (s.hopCredit i p.cls).releaseHeld i p.cls else State.copyGo s i fuel

/-- R403: the copy engine of an input in one cell time. -/
def execMulticastCopy (i : Fin 20) (s : State) : Res := if s.halted then .next s else .next (s.copyGo i.val 4)

/-! ### Matching (R400, R395) -/

/-- R389: the output of a slot: 0 to 17 an Efhal port, 18 to 25 LOCAL, 26 to 29 COURIER. -/
def slotPort (x : Nat) : Nat := if x < 18 then x else if x < 26 then 18 else 19

/-- What one cell time has matched: the class each slot has accepted, the banks that have granted, and the turns. -/
structure Match where
  slots : SMap Nat := []
  banks : List Nat := []
  rr : SMap Nat := []
  turn : SMap (Nat × Nat) := []

/-- How many cells of a pigeonhole are matched. -/
def Match.taken (m : Match) (port c : Nat) : Nat := (m.slots.filter (fun x k => slotPort x == port && k == c)).length

/-- The weighted classes in their cycle (R395). -/
def cycleOf : List Nat := [1, 2, 5, 6, 7]

/-- R395: the class an output serves of those granted, and its turn after. -/
def State.serveClass (s : State) (turn : Nat × Nat) (avail : List Nat) : Option (Nat × (Nat × Nat)) :=
  match [0, 4, 3].find? (fun c => avail.contains c) with
  | some c => some (c, turn)
  | none =>
    let cur := cycleOf.getD turn.1 1
    if avail.contains cur ∧ turn.2 ≠ 0 then some (cur, (turn.1, turn.2 - 1))
    else
      let order := (List.range 5).map (fun k => (turn.1 + 1 + k) % 5)
      match order.find? (fun k => avail.contains (cycleOf.getD k 1) && s.rd (Reg.SWX_CLASS_WEIGHT (cycleOf.getD k 1)) != 0) with
      | some k => some (cycleOf.getD k 1, (k, s.rd (Reg.SWX_CLASS_WEIGHT (cycleOf.getD k 1)) - 1))
      | none => (order.find? (fun k => avail.contains (cycleOf.getD k 1))).map (fun k => (cycleOf.getD k 1, turn))

/-- R400: one round: requests of the unmatched slots, grants of the banks, acceptances. -/
def State.matchRound (s : State) (m : Match) : Match :=
  let reqs := (List.range 30).flatMap (fun x =>
    if (m.slots.find? x).isSome then []
    else
      let port := slotPort x
      (List.range 8).filterMap (fun c =>
        let k := m.taken port c
        match (s.pigeon port c)[k]? with
        | some n => if s.canSend port c k ∧ !m.banks.contains (n % 32) then some (n % 32, x, c) else none
        | none => none))
  let banks := (reqs.map (·.1)).dedup
  let grants := banks.filterMap (fun b =>
    let mine := reqs.filter (fun r => r.1 == b)
    let start := m.rr.getD b 0
    ((List.range 30).map (fun k => (start + k) % 30)).findSome? (fun x => mine.find? (fun r => r.2.1 == x)))
  let m := { m with banks := m.banks ++ grants.map (·.1), rr := grants.foldl (fun r g => r.insert g.1 ((g.2.1 + 1) % 30)) m.rr }
  (List.range 30).foldl (fun m x =>
    let mine := grants.filter (fun g => g.2.1 == x)
    if mine.isEmpty then m
    else
      let port := slotPort x
      let avail := (mine.map (·.2.2)).filter (fun c => s.canSend port c (m.taken port c) && decide (m.taken port c < (s.pigeon port c).length))
      match s.serveClass (m.turn.getD port (4, 0)) avail with
      | some (c, t) => { m with slots := m.slots.insert x c, turn := m.turn.setD port (4, 0) t }
      | none => m) m

/-- The first cell of a pigeonhole leaves it and departs. -/
def State.popCell (s : State) (port c : Nat) : State :=
  match s.pigeon port c with
  | [] => s
  | n :: rest =>
    let x := s.sw.cells.getD n {}
    let s := s.setSw { s.sw with cells := s.sw.cells.erase n, pig := s.sw.pig.setD (8 * port + c) [] rest }
    let s := if x.back then s.hopCredit x.input x.cls else s
    s.depart port c x.p

/-- R400: one cell time: three rounds of matching, and the matched cells leave in slot order. -/
def execCellTimeMatch (s : State) : Res :=
  if s.halted then .next s else
  let m : Match := { rr := s.sw.rr, turn := s.sw.turn }
  let m := s.matchRound (s.matchRound (s.matchRound m))
  .next (m.slots.foldl (fun s e => s.popCell (slotPort e.1) e.2) (s.setSw { s.sw with rr := m.rr, turn := m.turn }))

/-! ### Exact reduction in flight (R405 to R407) -/

/-- R119: the lane image of a lane with a base. -/
def imageOf (x : TLane) (b : Int) : Nat := x.t.toNat + unsgn 10 b * 2 ^ 160 + x.f.toNat * 2 ^ 176

/-- R119: the payload of an accumulator's result. -/
def Accum.payload (a : Accum) : Nat :=
  imageOf a.a a.base + imageOf a.b a.base * 2 ^ 192 + a.elem * 2 ^ 384 + a.reduce * 2 ^ 416 + a.count * 2 ^ 448

/-- R118: merge a payload into an accumulator. -/
def Accum.merge (a : Accum) (x : Nat) (poison : Bool) : Accum :=
  let i0 := laneOfImage (bitsOf x 0 192)
  let i1 := laneOfImage (bitsOf x 192 192)
  let mism := i0.2.1 != i1.2.1
  let f := if poison then tfPOISON else 0
  { a with a := a.a.merge a.base i0.1 i0.2.1 (i0.2.2 ||| f) mism, b := a.b.merge a.base i1.1 i1.2.1 (i1.2.2 ||| f) mism,
           count := a.count + bitsOf x 448 32 }

/-- R405: accumulator a of definition n, complete as b, leaves as one parcel with the source fields of its first contribution, to the route or
to the group; its cell becomes FREE. -/
def State.redResult (s : State) (n : Nat) (a b : Accum) : State :=
  let f := (parcelOf a.first).1
  let r : FabParcel := { f with pl := b.payload, poison := bitOf b.a.f.toNat 6 || bitOf b.b.f.toNat 6 }
  let s := s.setSw { s.sw with acc := s.sw.acc.erase a }
  if s.is1 (Reg.SWX_RED_DEF1_MC n) then s.switchRoute 20 { r with mcast := true, dst := s.rd (Reg.SWX_RED_DEF1_GROUP n) }
  else match s.portFor r with
    | some port => s.enqueue port { p := r.num, input := 20, cls := 5 }
    | none => s.dropFab r

/-- R405, R406: the merge unit takes the class 5 parcel that has waited longest. -/
def execTallyMerge (s : State) : Res :=
  if s.halted then .next s else
  match s.sw.mergeQ with
  | [] => .next s
  | (i, raw) :: rest =>
    let p := (parcelOf raw).1
    let troupe := bitsOf p.arg 0 13
    let route := bitsOf p.arg 13 6
    let s := (s.setSw { s.sw with mergeQ := rest }).hopCredit i 5
    let cred (s : State) : State := s.credTo p.src p.dst troupe route 1
    let absorb (s : State) : State := s.setSw { s.sw with absorbed := s.sw.absorbed + 1 }
    let pass (s : State) : State := match s.portFor p with
      | some port => s.switchJoin i port p false
      | none => s.dropFab p
    match s.redFor p.dst troupe route with
    | none => .next (pass s)
    | some n =>
      let elem := bitsOf p.pl 384 32
      let reduce := bitsOf p.pl 416 32
      let poison := p.poison || tallyPoison (BitVec.ofNat 512 p.pl)
      if bitsOf p.pl 448 32 = 0 then .next (absorb (cred s))
      else if !s.redMerges n then .next (pass s)
      else match s.sw.acc.find? (fun a => a.red == n && a.reduce == reduce && a.elem == elem) with
      | some a =>
        if a.void then .next ((absorb (cred s)).ledgerAdd (fun l => { l with cancelled := l.cancelled + 1 }))
        else
          let b := a.merge p.pl poison
          let s := absorb (cred s)
          if b.count < s.rd (Reg.SWX_RED_DEF1_NEED n) then
            .next (s.setSw { s.sw with acc := s.sw.acc.map (fun x => if x = a then b else x) })
          else
            .next (s.redResult n a b)
      | none =>
        if s.rd (Reg.SWX_RED_DEF1_ACC n) ≤ (s.sw.acc.filter (fun a => a.red == n)).length then .next (pass s)
        else
          let base := (laneOfImage (bitsOf p.pl 0 192)).2.1
          let a : Accum := { cell := s.freeCell, red := n, reduce := reduce, elem := elem, base := base, first := p.num }
          let a := a.merge p.pl poison
          let s := s.setSw { s.sw with acc := s.sw.acc ++ [a], made := s.sw.made + 1, absorbed := s.sw.absorbed + 1 }
          .next (if a.count < s.rd (Reg.SWX_RED_DEF1_NEED n) then s else s.redResult n a a)

/-- R407: at a step-boundary TAKE, VOID accumulators become FREE. -/
def State.freeVoid (s : State) : State :=
  let n := (s.sw.acc.filter (fun a => a.void)).length
  s.setSw { s.sw with acc := s.sw.acc.filter (fun a => !a.void), dropped := s.sw.dropped + n }

/-! ### The audit (R408, R409) -/

/-- R399, R408: the audit of the buffer and of the switch's parcel ledger at clk 0 of a TAKE: whether a check fails; the ledger starts
again from the sampled counts. -/
def State.switchAudit (s : State) : State × Bool :=
  let closing := s.cellsUsed.length + s.sw.mergeQ.length + s.sw.held.length
  let w := s.sw
  let ok := decide (s.cellsUsed.length ≤ 262144) &&
    decide (w.arrived + w.made + w.opening = w.sent + w.dropped + w.absorbed + closing)
  let s := s.setSw { w with arrived := 0, made := 0, sent := 0, dropped := 0, absorbed := 0, opening := closing }
  if ok then (s, false) else (((s.wr Reg.SWX_AUDIT_MISMATCH 1).raise 97), true)

/-- R409: the sweep ends: cells that no pigeonhole holds have leaked, and are reclaimed. -/
def execSweepEnd (s : State) : Res :=
  if s.halted then .next s else
  if !s.is1 Reg.SWX_AUDIT_EN then .next s
  else
    let held := s.sw.pig.vals.flatten
    let lost := s.sw.cells.keys.filter (fun n => !held.contains n)
    if lost.isEmpty then .next s
    else
      let s := s.setSw { s.sw with cells := s.sw.cells.filter (fun n _ => held.contains n), dropped := s.sw.dropped + lost.length }
      let s := (s.satAdd Reg.SWX_AUDIT_LEAKED lost.length).raise 96
      .next (s.ledgerAdd (fun l => { l with cancelled := l.cancelled + lost.length }))

/-! ### Efhal ports (R366 to R368) -/

/-- R368: a write of EFH_PORT_CTL.EN of port n. -/
def State.portEnable (s : State) (n : Nat) (en : Bool) : State :=
  let s := s.wr (Reg.EFH_PORT_CTL_EN n) (b2n en)
  if en then (if s.portState n = 0 then s.wr (Reg.EFH_PORT_STAT_STATE n) 1 else s)
  else if s.portState n = 0 then s
  else
    let s := (s.portFailed n).wr (Reg.EFH_PORT_STAT_STATE n) 0
    ((s.wr (Reg.EFH_PORT_STAT_LANES n) 0).wr (Reg.EFH_PORT_STAT_LEVEL n) 0).wr (Reg.EFH_PORT_STAT_PEER_SEEN n) 0

/-- R368, R386: EFH_PORT_CTL.EN of port n is written by a holder. -/
def execEfhPortEn (h : Fin 18) (n : Fin 18) (en : Bool) (s : State) : Res :=
  if s.halted then .next s else
  .next (if h.val < 16 then s else s.portEnable n.val en)

/-- Move port n from one state to another. -/
def State.portMove (s : State) (n from_ to_ : Nat) : State :=
  if s.portState n = from_ then s.wr (Reg.EFH_PORT_STAT_STATE n) to_ else s

/-- R368: training completes on all four lanes. -/
def execTrainComplete (n : Fin 18) (s : State) : Res :=
  if s.halted then .next s else
  .next (if s.portState n.val = 1 then (s.wr (Reg.EFH_PORT_STAT_LANES n.val) 15).portMove n.val 1 2 else s)

/-- R368: no training within 200 ms. -/
def execTrainTimeout (n : Fin 18) (s : State) : Res := if s.halted then .next s else .next (s.portMove n.val 1 5)

/-- R366, R368: FEC lock and flit alignment; the port sends a NEGOTIATE flit with its level, and its device and port numbers (log entry 41). -/
def execAlignLock (n : Fin 18) (s : State) : Res :=
  if s.halted then .next s else
  .next (if s.portState n.val = 2 then
      (s.portMove n.val 2 3).send { name := "FLIT", dest := n.val, args := [s.device, n.val], bytes := toLe 256 (flitOf 0 0xFFFF 0 2 1 {}) }
    else s)

/-- R368: no lock within 10 ms. -/
def execAlignTimeout (n : Fin 18) (s : State) : Res := if s.halted then .next s else .next (if s.portState n.val = 2 then s.portFailed n.val else s)

/-- R368: a NEGOTIATE flit of the peer: its level and device number. The port goes UP at the first TAKE after. -/
def execNegotiate (n : Fin 18) (level : Fin 16) (dev : Fin 64) (s : State) : Res :=
  if s.halted then .next s else
  if s.portState n.val ≠ 3 then .next s
  else if level.val = 0 ∨ 4 ≤ level.val then .next (s.portFailed n.val)
  else
    let s := s.wr (Reg.EFH_PORT_STAT_PEER_SEEN n.val) dev.val
    if s.is1 (Reg.EFH_PORT_CTL_PEER_CHECK n.val) ∧ s.rd (Reg.EFH_PORT_CTL_PEER n.val) ≠ dev.val then
      .next ((s.wr (Reg.EFH_PORT_STAT_STATE n.val) 6).raise 88)
    else .next (s.wr (Reg.EFH_PORT_STAT_LEVEL n.val) 1)

/-- R368, R398, R461: at a TAKE, a port that has negotiated goes UP; its input advertises its reserves, less what cells of it still hold, and
its credits start at zero. -/
def State.portsUp (s : State) : State :=
  (List.range 18).foldl (fun s n =>
    if s.portState n = 3 ∧ s.rd (Reg.EFH_PORT_STAT_LEVEL n) ≠ 0 then
      let s := (s.wr (Reg.EFH_PORT_STAT_STATE n) 4).setLink n {}
      (List.range 7).foldl (fun s c =>
        s.creditSend n c (s.rd (Reg.SWX_CLASS_RES c) - (s.sw.cells.filter (fun _ (x : Cell) => x.input == n && x.cls == c && x.back)).length)) s
    else s) s

/-- R365, R368: FEC lock is lost for more than 1 us; a lane that fails in NEGOTIATE shows so too. -/
def execFecLockLoss (n : Fin 18) (s : State) : Res :=
  if s.halted then .next s else
  .next (if s.portState n.val = 3 ∨ s.portState n.val = 4 then s.portFailed n.val else s)

/-- R367: the flits up to a SEQ are acknowledged, and those that waited for that leave. -/
def State.linkAck (s : State) (n ack : Nat) : State :=
  let l := s.link n
  let i := l.unacked.findIdx (fun f => f.1 == ack)
  if i < l.unacked.length then
    l.wait.foldl (fun s f => s.flitSend n f) (s.setLink n { l with unacked := l.unacked.drop (i + 1), wait := [], fails := 0 })
  else s

/-- R367: a NAK: the flits after ACK are replayed; a flit whose eighth replay in a row has failed makes the port FAILED. -/
def State.linkNak (s : State) (n ack : Nat) : State :=
  let s := s.linkAck n ack
  let l := s.link n
  if l.unacked.isEmpty then s
  else if l.fails = 8 then (s.portFailed n).raise 88
  else
    let s := (s.setLink n { l with fails := l.fails + 1 }).satAdd (Reg.EFH_PORT_ERR_REPLAY n) l.unacked.length
    l.unacked.foldl (fun s f => s.flitOut n f.1 0 f.2) s

/-- R367: a NAK of port n names the last flit its peer received. -/
def execNak (n : Fin 18) (ack : BitVec 16) (s : State) : Res :=
  if s.halted then .next s else
  .next (if s.portState n.val = 4 then s.linkNak n.val ack.toNat else s)

/-- R368: a slot's parcel is admitted, or dropped for its level, its hop credit returned. -/
def State.slotArrive (s : State) (n raw : Nat) : State :=
  if raw % 2 ^ 128 = 0 then s
  else
    let p := (parcelOf raw).1
    if s.rd (Reg.EFH_PORT_STAT_LEVEL n) < p.level then (s.satAdd (Reg.EFH_PORT_ERR_LEVEL n) 1).hopCredit n p.cls
    else s.switchArrive n raw

/-- R366, R367: a flit of 256 bytes arrives at port n, the FEC having corrected `fec` codewords. One out of order is not taken: a missing one is asked for again, one taken
before acknowledged again. -/
def execFlitReceive (n : Fin 18) (f : BitVec 2048) (fec : BitVec 16) (s : State) : Res :=
  if s.halted then .next s else
  if s.portState n.val ≠ 4 then .next s
  else
    let s := s.satAdd (Reg.EFH_PORT_ERR_FEC_CORR n.val) fec.toNat
    let x := f.toNat
    let l := s.link n.val
    let heard (s : State) : State :=
      let s := s.linkAck n.val (bitsOf x 16 16)
      if bitOf x 32 then s.linkNak n.val (bitsOf x 16 16) else s
    if crc64 (toLe 248 x) ≠ bitsOf x 1984 64 then .next (s.idleSend n.val 1)
    else if bitsOf x 33 3 = 1 ∧ bitsOf x 48 16 = 0 then .next (heard s)
    else if bitsOf x 0 16 ≠ (l.rx + 1) % 65536 then
      .next (s.idleSend n.val (b2n (decide ((bitsOf x 0 16 + 65536 - (l.rx + 1) % 65536) % 65536 < 32768))))
    else
      let s := heard (s.setLink n.val { l with rx := bitsOf x 0 16 })
      let c := bitsOf x 40 3
      let s := if bitsOf x 48 16 = 0 ∨ c = 7 then s else
        s.setSw { s.sw with credit := s.sw.credit.setD (8 * n.val + c) 0 (s.sw.credit.getD (8 * n.val + c) 0 + bitsOf x 48 16) }
      let s := s.idleSend n.val 0
      if bitsOf x 33 3 = 0 then
        .next ([64, 704, 1344].foldl (fun s b => s.slotArrive n.val (bitsOf x b 640)) s)
      else .next s

end Sys2Proof.Machine
end

