-- ==== Sys2Proof/Machine/Search.lean ====
section
/-!
DEFINITION. Hamming search: SEARCH orders at the front, tasks at the home and the search program that runs them, the merge of shard results
(R429 to R447), and the completion of GMEM operations, which the search program's reads are (R443).
-/

namespace Sys2Proof.Machine

/-! ### Records (R430 to R432) -/

/-- R431, R432: a record or node as the search program reads it: ID, GEN, ATTR, TOMB, its code and edges (none: an edge with a reserved bit set),
whether it is malformed, whether it is dead-letter data. -/
structure SrchRec where
  id : Nat := 0
  gen : Nat := 0
  attr : Nat := 0
  tomb : Bool := false
  code : Nat := 0
  edges : List (Option (Nat × Nat)) := []
  bad : Bool := false
  dead : Bool := false

/-- R432: the distance from one node to the next. -/
def SrchCfg.stride (c : SrchCfg) : Nat := 64 * ((32 + c.bytes + 8 * c.maxdeg + 63) / 64)

/-- R432: the ranges (offset, length) that hold record or node r. -/
def SrchCfg.where_ (c : SrchCfg) (r : Nat) : List (Nat × Nat) :=
  if c.kind = 2 then [(c.codes + c.stride * r, c.stride)] else [(c.metas + 32 * r, 32), (c.codes + c.bytes * r, c.bytes)]

/-- R431: the record in its bytes: the meta record, the code, the edges. -/
def SrchCfg.parse (c : SrchCfg) (bs : List Byte) (dead : Bool) : SrchRec :=
  let m := leBytes (bs.take 32)
  let deg := bitsOf m 136 8
  let graph := c.kind == 2
  { id := bitsOf m 0 48, gen := bitsOf m 48 16, attr := bitsOf m 64 64, tomb := bitOf m 128,
    code := leBytes ((bs.drop 32).take c.bytes),
    edges := (List.range (if graph then deg else 0)).map (fun e =>
      let x := leBytes ((bs.drop (32 + c.bytes + 8 * e)).take 8)
      if bitsOf x 48 16 = 0 then some (bitsOf x 0 32, bitsOf x 32 16) else none),
    bad := bitsOf m 129 7 != 0 || bitsOf m 144 112 != 0 || bitsOf m 0 48 == 0xFFFFFFFFFFFF ||
      (if graph then decide (c.maxdeg < deg) else deg != 0),
    dead := dead }

/-- The bytes of the ranges (store offset, length) that lines hold, in order, and whether a codeword of them is marked. -/
def rangeBytes : List (Nat × Nat) → List (BitVec 512 × Nat) → List Byte × Bool
  | [], _ => ([], false)
  | r :: rs, ls =>
    let n := (linesOf r.1 r.2).length
    let rest := rangeBytes rs (ls.drop n)
    let dead := (ls.take n).zipIdx.any (fun (x, i) => (List.range 8).any (fun j =>
      let a := 64 * (r.1 / 64 + i) + 8 * j
      bitOf x.2 j && decide (r.1 < a + 8) && decide (a < r.1 + r.2)))
    ((((ls.take n).flatMap seenBytes).drop (r.1 % 64)).take r.2 ++ rest.1, dead || rest.2)

/-- R202, R292, R433: ranges of the store are read for a CE of troupe t through its courier's cache, the first line before any other, with tickets from tk on. -/
def State.readRanges (s : State) (t tk : Nat) (rs : List (Nat × Nat)) : State × Option (List Byte × Bool) :=
  match s.readAll (dieOfCourier (s.courierNow t)) 16 tk (rs.flatMap (fun r => (linesOf r.1 r.2).map (fun l => s.lineKey (64 * l)))) with
  | (s, none) => (s, none)
  | (s, some ls) => (s, some (rangeBytes rs ls))

/-- The first ticket of the read that lane j of a task waits for. -/
def STask.ticket (x : STask) (j : Nat) : Nat := 2 ^ 46 + 256 * (4 * x.no + j)

/-- R447: index i as it stands on this device. -/
def State.srchCfg (s : State) (i : Nat) : SrchCfg :=
  { kind := s.rd (Reg.SRC_INDEX0_KIND i), bytes := 32 * 2 ^ s.rd (Reg.SRC_INDEX0_LEN i), codes := 64 * s.rd (Reg.SRC_INDEX1_CODES i),
    metas := 64 * s.rd (Reg.SRC_INDEX2_META i), count := s.rd (Reg.SRC_INDEX3_COUNT i), cent := 64 * s.rd (Reg.SRC_INDEX4_CENT i),
    lists := 64 * s.rd (Reg.SRC_INDEX5_LISTS i), nlist := s.rd (Reg.SRC_INDEX6_NLIST i), entry := s.rd (Reg.SRC_INDEX6_ENTRY i),
    maxdeg := s.rd (Reg.SRC_INDEX0_MAXDEG i), visitMax := s.rd (Reg.SRC_INDEX7_VISIT_MAX i) }

/-! ### The search program (R437 to R441) -/

/-- R430: the distance of a code from a task's query. -/
def STask.dist (x : STask) (code : Nat) : Nat := popcount (8 * x.cfg.bytes) (x.code ^^^ code)

/-- R434, R437: whether a record that is neither malformed nor dead letter is returned. -/
def STask.passes (x : STask) (r : SrchRec) : Bool :=
  !r.tomb && (r.attr &&& x.require) == x.require && (r.attr &&& x.exclude) == 0

/-- Put an element into a list kept in the order of a test. -/
def insertBy {α : Type} (lt : α → α → Bool) (a : α) : List α → List α
  | [] => [a]
  | b :: l => if lt a b then a :: b :: l else b :: insertBy lt a l

/-- The order (DIST, ID, slot) of R437 within one shard. -/
def resLt (a b : Nat × Nat × Nat) : Bool :=
  decide (a.1 < b.1) || (a.1 == b.1 && (decide (a.2.1 < b.2.1) || (a.2.1 == b.2.1 && decide (a.2.2 < b.2.2))))

/-- The order (DIST, ID) of a beam (R439). -/
def beamLt (a b : BeamEnt) : Bool := decide (a.dist < b.dist) || (a.dist == b.dist && decide (a.id < b.id))

/-- The counts a step of a task adds: MALFORMED, SKIPPED, DEAD. -/
abbrev SCnt := Nat × Nat × Nat

/-- R439: lane i follows edges and takes unexpanded entries until it needs a read, or has nothing to do. -/
def STask.laneGo (x : STask) (i : Nat) : Nat → Nat × Nat → STask × (Nat × Nat)
  | 0, n => (x, n)
  | fuel + 1, n =>
    let l := x.lanes.getD i {}
    let put (l : SrchLane) (x : STask) : STask := { x with lanes := mapAt x.lanes i (fun _ => l) }
    if x.stopped ∨ l.wait.isSome then (x, n)
    else match l.edges with
    | [] =>
      (match x.beam.find? (fun b => !b.expanded) with
       | none => (x, n)
       | some b =>
         let x := { x with beam := x.beam.map (fun (c : BeamEnt) => if c.slot = b.slot then { c with expanded := true } else c) }
         (put { l with edges := b.edges } x).laneGo i fuel n)
    | none :: es => (put { l with edges := es } x).laneGo i fuel (n.1 + 1, n.2)
    | some (t, g) :: es =>
      let x := put { l with edges := es } x
      if x.cfg.count ≤ t then x.laneGo i fuel (n.1 + 1, n.2)
      else match x.beam.find? (fun b => b.slot == t) with
      | some b => if b.gen = g then x.laneGo i fuel n else { x with skipped := x.skipped + 1 }.laneGo i fuel (n.1, n.2 + 1)
      | none =>
        if x.visited = x.cfg.visitMax then ({ x with stopped := true }, n)
        else ({ put { edges := es, wait := some (t, some g) } x with visited := x.visited + 1 }, n)

/-- Edges and entries that a task's lanes may still go through without a read. -/
def STask.fuel (x : STask) : Nat := (x.beam.map (fun b => b.edges.length + 1)).sum + (x.lanes.map (fun l => l.edges.length)).sum + 2

/-- R438, R439: a task goes on until each of its lanes waits for a read or has nothing to do. -/
def STask.advance (x : STask) : STask × (Nat × Nat) :=
  let one (w : Nat) (x : STask) : STask := { x with lanes := [{ wait := some (w, none) }] }
  let idle (x : STask) : STask := { x with lanes := [{}] }
  if x.ph = 3 then
    (List.range x.lanes.length).foldl (fun (y : STask × (Nat × Nat)) i => y.1.laneGo i y.1.fuel y.2) (x, (0, 0))
  else
    let x := if x.ph = 0 ∧ x.cfg.nlist ≤ x.pos then { x with ph := 1, pos := 0, cents := x.cents.take x.probes } else x
    if x.ph = 0 then (one x.pos x, (0, 0))
    else
      let x := if x.ph = 1 ∧ x.cents.length ≤ x.pos then { x with ph := 2, pos := 0 } else x
      if x.ph = 1 then (one (x.cents.getD x.pos (0, 0)).2 x, (0, 0))
      else
        let x := { x with ranges := x.ranges.filter (fun r => r.2 != 0) }
        match x.ranges with
        | [] => (idle x, (0, 0))
        | r :: _ => ({ one r.1 x with visited := x.visited + 1 }, (0, 0))

/-- Whether a task has ended. -/
def STask.over (x : STask) : Bool := x.lanes.all (fun l => l.wait.isNone)

/-- R438, R439: the read that lane i of a task waits for has returned; the counts it adds. -/
def STask.got (x : STask) (i : Nat) (bs : List Byte) (dead : Bool) : STask × SCnt :=
  let l := x.lanes.getD i {}
  let x := { x with lanes := mapAt x.lanes i (fun l => { l with wait := none }) }
  match l.wait with
  | none => (x, (0, 0, 0))
  | some (w, g) =>
    if x.ph = 0 then
      let x := { x with pos := x.pos + 1, dead := x.dead || dead }
      if dead then (x, (0, 0, 0))
      else ({ x with cents := insertBy (fun a b => decide (a.1 < b.1) || (a.1 == b.1 && decide (a.2 < b.2))) (x.dist (leBytes bs), w) x.cents }, (0, 0, 0))
    else if x.ph = 1 then
      let y := leBytes bs
      let first := bitsOf y 0 32
      let n := bitsOf y 32 32
      let x := { x with pos := x.pos + 1, dead := x.dead || dead }
      if dead then (x, (0, 0, 0))
      else if bitsOf y 64 64 ≠ 0 then (x, (1, 0, 0))
      else ({ x with ranges := x.ranges ++ [(first, min n (x.cfg.count - first))] }, (0, 0, 0))
    else
      let r := x.cfg.parse bs dead
      let x := if x.ph = 2 then { x with ranges := match x.ranges with | q :: qs => (q.1 + 1, q.2 - 1) :: qs | [] => [] } else x
      if r.dead then ({ x with dead := true }, (0, 0, 1))
      else if r.bad then (x, (1, 0, 0))
      else if x.ph = 2 then
        (if x.passes r then { x with res := (insertBy resLt (x.dist r.code, r.id, w) x.res).take x.k } else x, (0, 0, 0))
      else if (match g with | some g => decide (g ≠ r.gen) | none => false) then ({ x with skipped := x.skipped + 1 }, (0, 1, 0))
      else
        let b : BeamEnt := { slot := w, gen := r.gen, dist := x.dist r.code, id := r.id, returned := x.passes r, edges := r.edges }
        if x.beam.any (fun c => c.slot == w) then (x, (0, 0, 0))
        else if decide (x.beam.length < x.w) || (match x.beam.getLast? with | some z => beamLt b z | none => true) then
          ({ x with beam := (insertBy beamLt b x.beam).take x.w }, (0, 0, 0))
        else (x, (0, 0, 0))

/-- R437: the list a task returns. -/
def STask.result (x : STask) : List (Nat × Nat × Nat) :=
  if x.ph = 3 then ((x.beam.filter (fun b => b.returned)).take x.k).map (fun b => (b.dist, b.id, b.slot)) else x.res

/-! ### Tasks at the home (R442 to R446) -/

/-- R442: the physical troupes of this device's pool. -/
def State.poolTroupes (s : State) : List Nat :=
  (List.range (s.rd Reg.SRC_POOL_COUNT)).filterMap (fun i => s.physOf (s.rd Reg.SRC_POOL_FIRST + i))

/-- Count what a step of a task has met. -/
def State.srchCount (s : State) (c : SCnt) : State :=
  ((s.satAdd Reg.SRC_STAT_MALFORMED c.1).satAdd Reg.SRC_STAT_SKIPPED c.2.1).satAdd Reg.SRC_STAT_DEAD c.2.2

/-- R442: a task has ended: its result returns to its front. -/
def State.taskDone (s : State) (x : STask) : State :=
  let args := [s.device, x.id, x.q, x.shard, b2n x.dead, x.visited, x.skipped] ++ x.result.flatMap (fun r => [r.1, r.2.1, r.2.2])
  (s.wrapAdd Reg.SRC_COUNT_TASKS 1).send { name := "SHARD_RESULT", dest := x.src, args := args }

/-- R438, R439: a task starts, on the index as it stands now. -/
def State.taskStart (s : State) (x : STask) (ce free : Nat) : State :=
  let c := s.srchCfg x.index
  let held := s.is1 (Reg.SRC_INDEX0_EN x.index) && s.rd (Reg.SRC_INDEX0_FIRST_DEV x.index) + x.shard == s.device
  let n := if c.kind = 2 ∧ x.clsR then min 4 (max 1 free) else 1
  let x := { x with cfg := c, ce := ce, ctxs := n, pos := 0, cents := [], res := [], beam := [], visited := 0, skipped := 0, dead := false,
                    stopped := false, no := s.srch.next, lanes := [{}], ranges := [], ph := if c.kind = 2 then 3 else if c.kind = 1 then 0 else 2 }
  let s := { s with srch := { s.srch with next := s.srch.next + 1 } }
  if !held then s.taskDone x
  else
    let (x, m) :=
      if c.kind = 2 then
        (if c.count ≤ c.entry ∨ c.visitMax = 0 then x
         else { x with visited := 1, lanes := { wait := some (c.entry, none) } :: List.replicate (n - 1) {} }, (0, 0))
      else { x with ranges := if c.kind = 0 then [(0, c.count)] else [] }.advance
    let s := s.srchCount (m.1, m.2, 0)
    if x.over then s.taskDone x else { s with srch := { s.srch with run := s.srch.run ++ [x] } }

/-- R443: the contexts of a CE that no task holds. -/
def State.ctxsFree (s : State) (ce : Nat) : Nat :=
  16 - ((s.srch.run.filter (fun x => x.ce == ce)).map (·.ctxs)).sum

/-- R442: free pool contexts take tasks from the queue in order; the lowest CE first (log entry 17). -/
def State.takeTasks (s : State) : Nat → State
  | 0 => s
  | fuel + 1 =>
    match s.srch.queue with
    | [] => s
    | x :: rest =>
      match s.srch.live.keys.findSome? (fun t => ((List.range 48).map (fun c => ceKey t c)).find? (fun ce => decide (0 < s.ctxsFree ce))) with
      | none => s
      | some ce => ({ s with srch := { s.srch with queue := rest } }.taskStart x ce (s.ctxsFree ce)).takeTasks fuel

/-- Take as many tasks as there are contexts for. -/
def State.pumpTasks (s : State) : State := s.takeTasks s.srch.queue.length

/-- R442 SEARCH_TASK: a task of query q of order REQID id of partition part of device src arrives for a shard of an index. -/
def execSearchTask (src : Fin 64) (part : Fin 16) (id : BitVec 16) (q : Lane) (index shard : Fin 64) (clsR : Bool) (k : BitVec 11)
    (w : BitVec 13) (probes : BitVec 17) (require exclude : Word) (code : BitVec 2048) (s : State) : Res :=
  if s.deaf part.val then .next s else
  let x : STask := { src := src.val, part := part.val, id := id.toNat, q := q.toNat, index := index.val, shard := shard.val, clsR := clsR,
                     k := k.toNat, w := w.toNat, probes := probes.toNat, require := require.toNat, exclude := exclude.toNat, code := code.toNat }
  if s.curtain part.val then .next s
  else .next { s with srch := { s.srch with queue := s.srch.queue ++ [x] } }.pumpTasks

/-- The reads that CE ce has outstanding, at most four (R443): a task's place among the running ones and a lane of it. -/
def State.srchReads (s : State) (ce : Nat) : List (Nat × Nat) :=
  (s.srch.run.zipIdx.flatMap (fun (x, i) =>
    if x.ce = ce then (x.lanes.zipIdx.filter (fun (l, _) => l.wait.isSome)).map (fun (_, j) => (i, j)) else [])).take 4

/-- R439, R443: read n outstanding at CE ce returns, and its task goes on. -/
def State.srchRead (s : State) (ce n : Nat) : State :=
  match (s.srchReads ce)[n]? with
  | none => s
  | some (i, j) =>
    match s.srch.run[i]? with
    | none => s
    | some x =>
      match (x.lanes.getD j {}).wait with
      | none => s
      | some (w, _) =>
        let c := x.cfg
        let (s, r) := s.readRanges (ce / 48) (x.ticket j) (if x.ph = 0 then [(c.cent + c.bytes * w, c.bytes)] else if x.ph = 1 then [(c.lists + 16 * w, 16)] else c.where_ w)
        match r with
        | none => s
        | some (bs, dead) =>
          let (x, m) := x.got j bs dead
          let s := s.srchCount m
          let (x, m) := x.advance
          let s := s.srchCount (m.1, m.2, 0)
          if x.over then ({ s with srch := { s.srch with run := s.srch.run.eraseIdx i } }.taskDone x).pumpTasks
          else { s with srch := { s.srch with run := mapAt s.srch.run i (fun _ => x) } }

/-- R199 to R202, R443: the n-th outstanding GLD or GST of CE c of troupe t is served as far as it can be; on a troupe whose search unit runs, the
n-th read of its search contexts. -/
def execGmemComplete (t : Fin 6400) (c : Fin 48) (n : Fin 8) (s : State) : Res :=
  if s.halted then .next s else
  if s.srch.live.getD t.val false then .next (s.srchRead (ceKey t.val c.val) n.val)
  else .next (s.gmemNext t.val c.val n.val)

/-- R446: a task whose troupe is gone goes on, from its state in the spill area, in a free context of the remaining pool; where none is free it
waits at the front of the queue and starts again. -/
def State.rehomeTask (s : State) (x : STask) : State :=
  match s.srch.live.keys.findSome? (fun t => ((List.range 48).map (fun c => ceKey t c)).find? (fun ce => decide (x.ctxs ≤ s.ctxsFree ce))) with
  | some ce => { s with srch := { s.srch with run := s.srch.run ++ [{ x with ce := ce }] } }
  | none => { s with srch := { s.srch with queue := x :: s.srch.queue } }.satAdd Reg.SRC_COUNT_RESTARTED 1

/-- R444: at offset 2,000 the search unit of each pool troupe starts. -/
def State.startSearch (s : State) : State :=
  let ts := (s.poolTroupes ++ s.srch.run.map (fun (x : STask) => x.ce / 48)).filter (fun t => s.trpState t == 0)
  let live : SMap Bool := ts.foldl (fun m t => m.insert t true) []
  let gone := s.srch.run.filter (fun (x : STask) => !live.getD (x.ce / 48) false)
  let s := { s with srch := { s.srch with live := live, run := s.srch.run.filter (fun (x : STask) => live.getD (x.ce / 48) false) } }
  (gone.foldl State.rehomeTask s).pumpTasks

/-- R444: 67,584 bytes of the spill area, whose form the spec does not give (log entry 2). -/
def State.spillBytes (s : State) : List Byte × State :=
  ((List.range 67584).map (fun i => BitVec.ofNat 8 (Config.freeValue (2 ^ 66 + 67584 * s.free + i))), { s with free := s.free + 1 })

/-- R444: whether a search unit may spill: from D minus 2,048 to D, which is P minus 6,251. -/
def State.spillTime (s : State) : Bool := s.phase == 1 && decide (s.period ≤ s.ofs + 8299) && decide (s.ofs + 6251 ≤ s.period)

/-- R444: at D minus 2,048 the search contexts of troupe t write their tasks' state to their parts of the spill area, and the unit ends. -/
def execSearchSpill (t : Fin 6400) (s : State) : Res :=
  if s.halted then .next s else
  if !s.spillTime || !s.srch.live.getD t.val false then .next s
  else
    let base := 4096 * s.rd Reg.SRC_SPILL_BASE
    let i := (s.poolTroupes.findIdx? (fun u => u == t.val)).getD 0
    let s := (List.range 48).foldl (fun s c =>
      (s.srch.run.filter (fun x => x.ce == ceKey t.val c)).zipIdx.foldl (fun s (_, j) =>
        let (bs, s) := s.spillBytes
        s.hubBytes 1057 (base + 67584 * (768 * i + 16 * c + j)) bs) s) s
    .next { s with srch := { s.srch with live := s.srch.live.erase t.val } }

/-- R444: at a TAKE, tasks of a search unit that missed start again from the beginning. -/
def State.restartTasks (s : State) (lost : Nat → Bool) : State :=
  let gone := s.srch.run.filter (fun x => lost (x.ce / 48))
  let s := s.satAdd Reg.SRC_COUNT_RESTARTED gone.length
  { s with srch := { s.srch with run := s.srch.run.filter (fun x => !lost (x.ce / 48)), queue := gone ++ s.srch.queue } }

/-- R44, R444 at a TAKE: search units that still run have missed, and were skipped. -/
def State.takeSearch (s : State) : State :=
  let s := s.satAdd Reg.CUE_MISS_COUNT_SKIPPED s.srch.live.length
  let s := s.restartTasks (fun t => s.srch.live.getD t false)
  { s with srch := { s.srch with live := [] } }

/-- R446: the Curtain falls on a partition: its tasks are dropped here. -/
def State.dropTasks (s : State) (p : Nat) : State :=
  { s with srch := { s.srch with queue := s.srch.queue.filter (fun x => x.part != p), run := s.srch.run.filter (fun x => x.part != p) } }

/-! ### The front (R434 to R437, R441) -/

/-- R434, R435 order 2: whether the fields of a SEARCH are well-formed, its index in use. -/
def State.srchFormat (s : State) (o : Order) : Bool :=
  let i := o.by_ 8 1
  let mode := o.by_ 9 1
  let k := o.by_ 10 2
  let kind := s.rd (Reg.SRC_INDEX0_KIND (i % 64))
  let beam := o.by_ 16 2
  let probe := o.by_ 18 2
  decide (i < 64) && decide (mode < 4) && o.by_ 20 4 == 0 && o.by_ 56 8 == 0 && decide (0 < k) && decide (k ≤ 1024) &&
    decide (k + beam ≤ 4096) && !(bitOf mode 1 && !bitOf mode 0) && (kind == 2 || beam == 0) && (kind == 1 || probe == 0) &&
    o.by_ 24 8 % 64 == 0 && o.by_ 32 8 % 64 == 0 && s.is1 (Reg.SRC_INDEX0_EN (i % 64))

/-- The job of a SEARCH. -/
def State.srchJob (s : State) (o : Order) : Option SJob := (s.srch.jobs.vals).find? (fun j => j.order == o.id)

/-- Replace a job. -/
def State.setJobS (s : State) (j : SJob) : State := { s with srch := { s.srch with jobs := s.srch.jobs.insert j.id j } }

/-- R435: a SEARCH completes: with a status, or with ST_TARGET_LOST where a home was found lost, which no status but ST_CURTAIN comes before. -/
def State.srchDone (s : State) (o : Order) (status : Nat) : State :=
  let status := match s.srchJob o with | some j => if j.lost ∧ status ≠ 0x24 then 0x23 else status | none => status
  ({ s with srch := { s.srch with jobs := s.srch.jobs.filter (fun _ j => j.order != o.id) } }).finishOrder o status 0

/-- R436: the bytes of a query's record. -/
def SQuery.record (q : SQuery) (k : Nat) : List Byte :=
  let n := 64 * ((16 + 8 * k + 63) / 64)
  let c := min k q.res.length
  let st := if q.dead then 0x20 else if c < k then 1 else 0
  let head := st + q.rounds * 2 ^ 8 + c * 2 ^ 16 + min q.skipped (2 ^ 32 - 1) * 2 ^ 32 + min q.visited (2 ^ 32 - 1) * 2 ^ 64
  let ent (i : Nat) : Nat := match q.res[i]? with | some r => if i < k then r.2.1 + r.1 * 2 ^ 48 else 2 ^ 64 - 1 | none => 2 ^ 64 - 1
  (toLe 16 head ++ (List.range k).flatMap (fun i => toLe 8 (ent i)) ++ List.replicate n 0).take n

/-- The lowest set bits of a mask over 64 devices as a list. -/
def maskList (n m : Nat) : List Nat := (List.range n).filter (fun d => bitOf m d)

/-- R442: the tasks of query q go to the shards of a mask. A lost home's shard answers nothing (R384). -/
def State.sendTasks (s : State) (o : Order) (j : SJob) (q : Nat) (x : SQuery) : State × SJob :=
  let r := (maskList 64 (2 ^ j.shards - 1)).foldl (fun (a : State × Nat × Bool) sh =>
    let d := j.first + sh
    if s.gone d o.part then (a.1, a.2.1, true)
    else (a.1.send { name := "SEARCH_TASK", dest := d,
                     args := [s.device, o.part, j.id, q, o.by_ 8 1 % 64, sh, o.by_ 9 1 % 2, o.by_ 10 2, x.w, x.probes, o.by_ 40 8, o.by_ 48 8, x.code] },
          a.2.1 + 2 ^ sh, a.2.2)) (s, 0, false)
  let s := if r.2.2 then r.1.lostTo o.part 0x23 else r.1
  (s, { j with qs := j.qs.insert q { x with left := r.2.1, ready := r.2.1 == 0 }, lost := j.lost || r.2.2 })

/-- R436: the records of queries that are ready are written in ascending order, as far as the order's context goes; then the order completes. -/
def State.srchWrite (s : State) (o : Order) (c : Nat) : Nat → State
  | 0 => s
  | fuel + 1 =>
    match s.srchJob o with
    | none => s
    | some j =>
      let i := j.written
      let k := o.by_ 10 2
      if o.by_ 12 4 ≤ i then
        s.srchDone o (if j.dead then 0x20 else if j.fewer then 1 else 0)
      else match j.qs.find? i with
      | none => s
      | some x =>
        if !x.ready then s
        else
          let bs := x.record k
          let few := decide (x.res.length < k)
          State.after (s.storeBytes c o.part (o.by_ 32 8 + bs.length * i) bs false) c true
            (fun s _ =>
              let s := if few then s.satAdd Reg.SRC_STAT_FEWER 1 else s
              (s.setJobS { j with written := i + 1, qs := j.qs.erase i, dead := j.dead || x.dead, fewer := j.fewer || (few && !x.dead) }).srchWrite o c fuel)
            (fun s code => s.srchDone o code)

/-- R434, R442: the queries of a SEARCH are read and their tasks sent, as far as its context goes. -/
def State.srchSend (s : State) (o : Order) (c : Nat) : Nat → State
  | 0 => s
  | fuel + 1 =>
    match s.srchJob o with
    | none => s
    | some j =>
      let q := j.next
      if o.by_ 12 4 ≤ q then s.srchWrite o c (o.by_ 12 4 + 1)
      else
        State.after (s.fetchBuf c o.part (o.by_ 24 8 + j.bytes * q) j.bytes) c false
          (fun s dead =>
            let x : SQuery := { code := leBytes (s.bufBytes c j.bytes), w := o.by_ 10 2 + o.by_ 16 2, probes := min (1 + o.by_ 18 2) j.nlist }
            let j := { j with next := q + 1 }
            if dead then (s.setJobS { j with qs := j.qs.insert q { x with dead := true, ready := true } }).srchSend o c fuel
            else
              let (s, j) := s.sendTasks o j q x
              (s.setJobS j).srchSend o c fuel)
          (fun s code => s.srchDone o code)

/-- R434, R435 SEARCH: the n-th outstanding work order, where it is one, served by POOL context c as far as it goes. -/
def execSearchOrder (n k : Fin 4096) (s : State) : Res :=
  if s.halted then .next s else
  match s.orderAt n.val with
  | none => .next s
  | some o =>
    let c := k.val
    if o.op ≠ 7 ∨ !s.mayStart o then .next s
    else
      let i := o.by_ 8 1
      if (s.srchJob o).isNone ∧ o.by_ 12 4 = 0 then .next (s.srchDone o 0)
      else if (s.srchJob o).isNone ∧ s.rd (Reg.SRC_INDEX0_PARTITION i) ≠ o.part then .next (s.srchDone o 0x11)
      else if s.curtain o.part then .next (s.srchDone o 0x24)
      else match s.serving o c with
        | none => .next s
        | some (s, o) =>
          if s.gaveUp c then .next (s.srchDone o 0x10)
          else
            let s :=
              if (s.srchJob o).isSome then s
              else
                let j : SJob := { order := o.id, id := s.efh.nextId, kind := s.rd (Reg.SRC_INDEX0_KIND i), bytes := 32 * 2 ^ s.rd (Reg.SRC_INDEX0_LEN i),
                                  shards := s.rd (Reg.SRC_INDEX0_SHARDS i), first := s.rd (Reg.SRC_INDEX0_FIRST_DEV i),
                                  widenMax := s.rd (Reg.SRC_INDEX0_WIDEN_MAX i), nlist := s.rd (Reg.SRC_INDEX6_NLIST i) }
                { s with efh := { s.efh with nextId := (s.efh.nextId + 1) % 65536 } }.setJobS j
            .next (s.srchSend o c (o.by_ 12 4 + 1))

/-- The order (DIST, ID, shard, slot) of R437. -/
def mergeLt (a b : Nat × Nat × Nat × Nat) : Bool :=
  decide (a.1 < b.1) || (a.1 == b.1 && (decide (a.2.1 < b.2.1) || (a.2.1 == b.2.1 &&
    (decide (a.2.2.1 < b.2.2.1) || (a.2.2.1 == b.2.2.1 && decide (a.2.2.2 < b.2.2.2))))))

/-- R441: a query whose shards have all returned: it is searched again where WIDEN asks for it, or its record may be written. -/
def State.queryEnd (s : State) (o : Order) (j : SJob) (q : Nat) (x : SQuery) : State × SJob :=
  let w := if j.kind = 2 then min 4096 (2 * x.w) else x.w
  let p := if j.kind = 1 then min j.nlist (2 * x.probes) else x.probes
  if x.left ≠ 0 then (s, { j with qs := j.qs.insert q x })
  else if bitOf (o.by_ 9 1) 1 ∧ x.res.length < o.by_ 10 2 ∧ x.rounds < j.widenMax ∧ (w ≠ x.w ∨ p ≠ x.probes) then
    s.sendTasks o j q { x with w := w, probes := p, rounds := x.rounds + 1, res := [] }
  else (s, { j with qs := j.qs.insert q { x with ready := true } })

/-- R437 SHARD_RESULT: the list of a shard for query q of the order with REQID id joins the query's: entries (DIST, ID, slot), the counts, whether
a dead letter was met. -/
def execShardResult (id : BitVec 16) (q : Lane) (shard : Fin 64) (dead : Bool) (visited skipped : Lane)
    (list : List (BitVec 16 × BitVec 48 × Lane)) (s : State) : Res :=
  if s.deaf 16 then .next s else
  match s.srch.jobs.find? id.toNat with
  | none => .next s
  | some j =>
    match s.ord.list.find? (fun o => o.id == j.order), j.qs.find? q.toNat with
    | some o, some x =>
      if !bitOf x.left shard.val then .next s
      else
        let res := (list.foldl (fun l e => insertBy mergeLt (e.1.toNat, e.2.1.toNat, shard.val, e.2.2.toNat) l) x.res).take (o.by_ 10 2)
        let x := { x with left := x.left - 2 ^ shard.val, res := res, visited := x.visited + visited.toNat, skipped := x.skipped + skipped.toNat,
                          dead := x.dead || dead }
        let (s, j) := s.queryEnd o j q.toNat x
        let s := s.setJobS j
        (match o.ctx with
         | some c => if (s.cxAt (ctxKey c)).st = .run ∧ !s.gaveUp c ∧ o.by_ 12 4 ≤ j.next then .next (s.srchWrite o c (o.by_ 12 4 + 1)) else .next s
         | none => .next s)
    | _, _ => .next s

/-- R384, R435: the verdict on device d: the shards it holds of the searches at this front come back lost. -/
def State.srchLost (s : State) (d : Nat) : State :=
  s.srch.jobs.foldl (fun s e =>
    let j := e.2
    let sh := d - j.first
    if d < j.first ∨ j.shards ≤ sh ∨ !j.qs.any (fun q => bitOf q.2.left sh) then s
    else match s.ord.list.find? (fun o => o.id == j.order) with
      | none => s
      | some o =>
        let s := s.lostTo o.part 0x23
        let j := { j with lost := true, qs := j.qs.mapVals (fun _ (x : SQuery) =>
          if bitOf x.left sh then { x with left := x.left - 2 ^ sh, ready := x.left == 2 ^ sh } else x) }
        s.setJobS j) s

end Sys2Proof.Machine
end

