-- ==== Sys2Proof/Machine/UnitCmds.lean ====
section
/-!
DEFINITION. The commands that act on units and on the mesh: starts, misses, parcel arrivals, credits, cancellations, logic
faults, clock gating (R43, R44, R78 to R88, R148, R276, R541).
-/

namespace Sys2Proof.Machine

/-- R148: a unit of a troupe reaches its start: its idle CEs take it where its inputs are present. -/
def execUnitStart (t : Fin 6400) (unit : BitVec 16) (s : State) : Res :=
  if s.halted then .next s else
  let s1 := s.startUnit t.val unit.toNat
  .next (if s1 = s then s else s1.ungate (regionOf t.val))

/-- R43, R44: the end of offset D_del with the unit's deliveries not present. -/
def execDeliveryMiss (t : Fin 6400) (unit : BitVec 16) (s : State) : Res :=
  if s.halted then .next s else
  match (s.troupe t.val).unit unit.toNat with
  | none => .next s
  | some x =>
    if x.st = .waiting ∧ x.desc.ddel < s.ofs ∧ !x.understudy ∧ !x.present then .next (s.missUnit t.val unit.toNat .delivery)
    else .next s

/-- R43, R44: the end of offset D with the unit not complete. -/
def execCompletionMiss (t : Fin 6400) (unit : BitVec 16) (s : State) : Res :=
  if s.halted then .next s else
  match (s.troupe t.val).unit unit.toNat with
  | none => .next s
  | some x => if x.desc.d < s.ofs then .next (s.missUnit t.val unit.toNat .completion) else .next s

/-- R278: the end of offset D_del + U_lead with the understudy's status record not arrived: the unit is carried. -/
def execUnderstudyLeadMiss (t : Fin 6400) (unit : BitVec 16) (s : State) : Res :=
  if s.halted then .next s else
  match (s.troupe t.val).unit unit.toNat with
  | none => .next s
  | some x =>
    if x.st = .waiting ∧ x.understudy ∧ !x.carried ∧ !x.present ∧ x.desc.ddel + x.desc.ulead < s.ofs then .next (s.missUnit t.val unit.toNat .completion)
    else .next s

/-- R77, R78: the next parcel of the link into router t from input dir arrives, with some bits of its header flit and its payload changed; dir 4 is t's local
output. -/
def execMeshParcelArrival (t : Fin 6400) (dir : Fin 5) (head : BitVec 128) (body : BitVec 512) (s : State) : Res :=
  if s.halted then .next s else
  .next (s.meshArrive t.val dir.val (body ++ head).toNat)

/-- R81: a hop credit of an output and lane comes back to router t. -/
def execHopCreditReturn (t : Fin 6400) (dir : Fin 6) (vl : Fin 4) (s : State) : Res :=
  if s.halted then .next s else
  .next (s.hopReturn t.val dir.val vl.val)

/-- R83: a CRED parcel brings credits of routes to troupe t. -/
def execCredParcel (t : Fin 6400) (pairs : List (Fin 64 × BitVec 13)) (s : State) : Res :=
  if s.halted then .next s else
  .next (s.credArrive t.val (pairs.map (fun q => (q.1.val, q.2.toNat))))

/-- R87: a CANCEL for an inbound route of troupe t, or for a delivery stream. -/
def execCancelParcel (t : Fin 6400) (route : Fin 64) (unit : BitVec 16) (cue : Byte) (delivery : Bool) (s : State) : Res :=
  if s.halted then .next s else
  .next (s.cancelArrive t.val route.val unit.toNat cue.toNat delivery)

/-- R276: a status record for a unit of troupe t arrives. -/
def execStatusRecordArrival (t : Fin 6400) (unit : BitVec 16) (status : Byte) (s : State) : Res :=
  if s.halted then .next s else
  .next (s.statusArrive t.val unit.toNat status.toNat)

/-- R88: a logic fault in a CE or the unit control of troupe t. -/
def execCeLogicFault (t : Fin 6400) (s : State) : Res := if s.halted then .next s else .next (s.logicFault t.val)

/-- The troupes of a region below 160. -/
def troupesIn (r : Nat) : List Nat := (List.range 6400).filter (fun t => regionOf t == r)

/-- R541: a troupe domain whose CEs have all been IDLE or HALT for 256 clk is gated; one with no troupe in use is powered
off. -/
def execClockGate (r : Fin 160) (s : State) : Res :=
  if s.halted then .next s else
  let ts := troupesIn r.val
  if s.rd (Reg.CLK_REG_POWER r.val) ≠ 0 then .next s
  else if ts.all (fun t => decide (3 ≤ s.trpState t)) then .next (s.wr (Reg.CLK_REG_POWER r.val) 2)
  else if ts.all (fun t => (List.range 48).all (fun c =>
      let st := (s.cxAt (ceKey t c)).st
      st == .idle || st == .halt)) then .next (s.wr (Reg.CLK_REG_POWER r.val) 1)
  else .next s

end Sys2Proof.Machine
end

