-- ==== Sys2Proof/Machine/Work.lean ====
section
/-!
DEFINITION. Outboxes and Inboxes, the fetch of work orders and their checks, RUN_PLAN and its streams, COPY and FILL, CALL_SHEET,
RESUME and ADMIT (R492 to R510, R52, R457).
-/

namespace Sys2Proof.Machine

/-! ### Outboxes and Inboxes (R492 to R496, R508) -/

/-- TAIL as the tail line of an Outbox holds it. -/
def State.tailLine (s : State) (q : Nat) : Nat := s.cohNum (pgaOff (64 * s.rd (Reg.OBX_TAIL_LINE q))) 4

/-- HEAD as the head line of an Inbox holds it. -/
def State.headLine (s : State) (q : Nat) : Nat := s.cohNum (pgaOff (64 * s.rd (Reg.IBX_HEAD_LINE q))) 4

/-- Set the last accepted TAIL of Outbox q. -/
def State.setTail (s : State) (q x : Nat) : State := { s with ord := { s.ord with tail := s.ord.tail.setD q 0 x } }

/-- R493: a write that has reached the tail line of Outbox i of partition p is noticed. -/
def execOutboxNotice (p : Fin 16) (i : Fin 64) (s : State) : Res :=
  if s.halted then .next s else
  let q := boxNo p.val i.val
  let x := s.tailLine q
  if !s.is1 (Reg.OBX_TAIL_EN q) then .next s
  else if 2 ^ s.rd (Reg.OBX_RING_LOG2 q) < (x + 2 ^ 32 - s.rd (Reg.OBX_STATE_HEAD q)) % 2 ^ 32 then
    let s := s.satAdd (Reg.OBX_STATE_BAD_TAIL q) 1
    if s.ord.badRaised then .next s else .next (({ s with ord := { s.ord with badRaised := true } }).raise 130)
  else .next (s.setTail q x)

/-- R508: a write that has reached the head line of Inbox j of partition p frees slots. -/
def execInboxHeadWrite (p : Fin 16) (j : Fin 64) (s : State) : Res :=
  if s.halted then .next s else
  let q := boxNo p.val j.val
  let x := s.headLine q
  if (s.rd (Reg.IBX_STATE_WRITTEN q) + 2 ^ 32 - x) % 2 ^ 32 ≤ 2 ^ s.rd (Reg.IBX_RING_LOG2 q) then .next (s.setTail (1024 + q) x) else .next s

/-- A fetch or a feed that waits for a slot of Inbox q counts once a cue. -/
def State.stall (s : State) (q : Nat) : State :=
  if s.ord.stalled.contains q then s
  else ({ s with ord := { s.ord with stalled := s.ord.stalled ++ [q] } }).satAdd (Reg.IBX_STATE_STALLED q) 1

/-- Whether n bytes from b of a work order are zero. -/
def Order.zero (o : Order) (b n : Nat) : Bool := o.by_ b n == 0

/-- R499: whether the fields of a COPY are well-formed. -/
def Order.copyOk (o : Order) : Bool :=
  let a := o.by_ 8 8
  let b := o.by_ 16 8
  let n := o.by_ 24 8
  a % 64 == 0 && b % 64 == 0 && n % 64 == 0 && decide (n < 2 ^ 40) && (decide (a + n ≤ b) || decide (b + n ≤ a) || n == 0) && o.zero 32 32

/-- R499: whether the fields of a FILL are well-formed. -/
def Order.fillOk (o : Order) : Bool :=
  o.by_ 8 8 % 64 == 0 && o.by_ 16 8 % 64 == 0 && decide (o.by_ 16 8 < 2 ^ 40) && o.zero 32 32

/-- R14, R297, R497 to R505: the status with which a fetched work order is rejected; 0 for none. -/
def State.orderBad (s : State) (o : Order) : Nat :=
  let level := o.by_ 0 1
  if level = 2 ∨ level = 3 then 0x31
  else
    let ok := level == 1 && decide (o.by_ 2 1 < 2) && o.zero 3 1 &&
      (if o.op = 1 then decide (o.by_ 8 2 < 4096) && decide (o.by_ 10 1 < 2) && o.zero 11 1 && o.zero 24 40
       else if o.op = 2 then o.copyOk
       else if o.op = 3 then o.fillOk
       else if o.op = 4 ∨ o.op = 5 ∨ o.op = 6 then s.embFormat o
       else if o.op = 7 then s.srchFormat o
       else if o.op = 0x10 then pgaOk (o.by_ 8 8) && decide (o.by_ 20 1 < 64) && decide (o.by_ 21 1 < 16) && o.zero 22 42
       else if o.op = 0x11 then pgaOk (o.by_ 8 8) && o.zero 20 44
       else if o.op = 0x12 then pgaOk (o.by_ 8 8) && decide (o.by_ 20 1 < 2) && o.zero 21 43
       else if o.op = 0x20 then decide (o.by_ 16 4 ≤ 4096) && decide (o.by_ 20 1 < 2) && o.zero 21 3 && decide (o.by_ 24 8 < 2 ^ 48) && o.zero 32 32
       else if o.op = 0x21 then decide (o.by_ 8 2 < 4096) && decide (o.by_ 10 1 < 3) && o.zero 11 53
       else if o.op = 0x22 then decide (o.by_ 8 1 < 64) && o.zero 9 55
       else false)
    if ok then 0 else 0x30

/-- R495: whether Outbox q has a posted entry and its Inbox a slot for its record, so that fetching does not pause for it. -/
def State.fetchable (s : State) (q : Nat) : Bool :=
  let x := boxNo (q / 64) (s.rd (Reg.OBX_RING_INBOX q))
  s.is1 (Reg.OBX_TAIL_EN q) && s.ord.tail.getD q 0 != s.rd (Reg.OBX_STATE_HEAD q) && s.is1 (Reg.IBX_RING_EN x) && decide (0 < s.freeSlots x)

/-- R495: whether it is Outbox q's turn: round-robin in ascending (p, i), no fetchable Outbox stands between the one served last and it. -/
def State.boxTurn (s : State) (q : Nat) : Bool :=
  let d (x : Nat) : Nat := (x + 1023 - s.ord.last) % 1024
  !(List.range 1024).any (fun x => decide (d x < d q) && s.fetchable x)

/-- R495: the Outbox engine fetches and checks the next posted entry of Outbox i of partition p, where it is that Outbox's turn; it waits while the line's home holds its read. -/
def execWorkOrderFetch (p : Fin 16) (i : Fin 64) (s : State) : Res :=
  let q := boxNo p.val i.val
  let head := s.rd (Reg.OBX_STATE_HEAD q)
  if !s.is1 (Reg.OBX_TAIL_EN q) ∨ s.ord.tail.getD q 0 = head ∨ 4096 ≤ s.ord.list.length ∨ s.halted then .next s
  else
    let inbox := s.rd (Reg.OBX_RING_INBOX q)
    if (s.reserveSlot (boxNo p.val inbox)).isNone then .next (s.stall (boxNo p.val inbox))
    else if !s.boxTurn q then .next s
    else
    let a := s.rd (Reg.OBX_RING_BASE q) * 4096 + 64 * (head % 2 ^ s.rd (Reg.OBX_RING_LOG2 q))
    let (s, r) := s.access (a / 64) { kind := 4, r := 33, part := 16, tk := 2 ^ 45 + q }
    match r, s.reserveSlot (boxNo p.val inbox) with
    | none, _ => .next s
    | _, none => .next s
    | some r, some s =>
      let s := { s with ord := { s.ord with last := q } }
      let x := leBytes (seenBytes (r.data, r.marks))
      let o : Order := { id := s.ord.next, part := p.val, box := i.val, inbox := inbox, fence := bitOf x 16, op := bitsOf x 8 8,
                         tag := bitsOf x 32 32, words := x, feed := s.cueNow + if s.phase = 2 then 2 else 1 }
      let s := s.wr (Reg.OBX_STATE_HEAD q) (head + 1)
      let s := { s with ord := { s.ord with next := s.ord.next + 1, list := s.ord.list ++ [o] } }
      let bad := s.orderBad o
      if bad = 0 then .next s else .next (s.complete o bad 0)

/-- R496, R508: the Outboxes and Inboxes that a take enables, from the fields the take changes. -/
def State.takeBoxes (s : State) (ch : List Fld) : State :=
  ch.foldl (fun s f =>
    if 0x1810000 ≤ f.reg ∧ f.reg < 0x1818000 ∧ f.reg % 0x20 = 8 ∧ f.lo = 0 ∧ s.is1 f then
      let q := (f.reg - 0x1810000) / 0x20
      let x := s.tailLine q
      (s.wr (Reg.OBX_STATE_HEAD q) x).setTail q x
    else if 0x1820000 ≤ f.reg ∧ f.reg < 0x1828000 ∧ f.reg % 0x20 = 0 ∧ f.lo = 7 ∧ s.is1 f then
      let q := (f.reg - 0x1820000) / 0x20
      ((s.wr (Reg.IBX_STATE_WRITTEN q) 0).wr (Reg.IBX_STATE_RESERVED q) 0).setTail (1024 + q) 0
    else s) s

/-! ### Streams (R504 to R506) -/

/-- The PGA of an entry of the stream table. -/
def State.streamAt (s : State) (key : Nat) : Nat := s.rd (Reg.HST_STREAMS_BASE (key / 4096)) * 65536 + 16 * (key % 4096)

/-- The work order of a running stream. -/
def State.streamOrder (s : State) (x : RunStream) : Option Order := s.ord.list.find? (fun o => o.id == x.order)

/-- Replace a running stream. -/
def State.setStream (s : State) (key : Nat) (x : RunStream) : State := { s with ord := { s.ord with streams := s.ord.streams.insert key x } }

/-- A stream ends, and its RUN_PLAN is no longer outstanding. -/
def State.dropStream (s : State) (key : Nat) (o : Order) : State :=
  let s := s.dropOrder o
  { s with ord := { s.ord with streams := s.ord.streams.erase key } }

/-- R505: whether a RUN_PLAN completes with ST_BAD_FORMAT: its partition has no streams, or its stream is already running. -/
def State.planRefused (s : State) (o : Order) : Bool :=
  !s.is1 (Reg.HST_STREAMS_EN o.part) || (s.ord.streams.find? (4096 * o.part + o.by_ 8 2)).isSome

/-- R505 RUN_PLAN: the n-th outstanding work order, where it is one, starts its stream. -/
def execRunPlan (n : Fin 4096) (s : State) : Res :=
  if s.halted then .next s else
  match s.orderAt n.val with
  | none => .next s
  | some o =>
    let key := 4096 * o.part + o.by_ 8 2
    if o.op ≠ 1 ∨ o.started ∨ !s.mayStart o then .next s
    else if s.planRefused o then .next (s.complete o 0x30 0)
    else if o.by_ 12 4 = 0 then .next (s.complete o 0 0)
    else if s.curtain o.part then .next (s.complete o 0x24 0)
    else .next ((s.setOrder { o with started := true }).setStream key { order := o.id, part := o.part, input := o.by_ 16 4 })

/-- R506 2: at a TAKE the hub feeds a running stream with no model token in flight. The slot of its first token was reserved at the fetch. -/
def State.feedStream (s : State) (key : Nat) (x : RunStream) : State :=
  match s.streamOrder x with
  | none => s
  | some o =>
    if x.flying ∨ s.cueNow < o.feed then s
    else
      match (if x.pos = 0 then some s else s.reserveSlot (boxNo o.part o.inbox)) with
      | none => s.stall (boxNo o.part o.inbox)
      | some s =>
        (s.hubWrite (s.streamAt key) (toLe 4 x.input ++ toLe 4 x.pos ++ [1])).setStream key { x with flying := true, since := s.cueNow, conds := 0 }

/-- R506 2: every stream is fed. -/
def State.feedStreams (s : State) : State := s.ord.streams.foldl (fun s e => s.feedStream e.1 e.2) s

/-- R44, R457: the status of a model token from the conditions met while it was in flight, and whether it was for more than one cue. A unit that took
SKIP shows as ST_SKIPPED where no status of R457 before ST_OK applies (log entry 92). -/
def condStatus (c : Nat) (late : Bool) : Nat :=
  if bitOf c 0 then 0x24 else if bitOf c 1 then 0x23 else if bitOf c 2 then 0x3F else if bitOf c 3 then 0x30
  else if bitOf c 4 then 0x20 else if bitOf c 5 || late then 0x03 else if bitOf c 6 then 0x02 else if bitOf c 7 then 0x04 else 0

/-- R506 5, R510: a stream ends at once with a record of ST_CURTAIN or ST_TARGET_LOST, which fills the slot its model token reserved, or one
free now. -/
def State.endStream (s : State) (key : Nat) (x : RunStream) (status : Nat) : State :=
  match s.streamOrder x with
  | none => s
  | some o =>
    match (if x.flying ∨ x.pos = 0 then some s else s.reserveSlot (boxNo o.part o.inbox)) with
    | none => s.stall (boxNo o.part o.inbox)
    | some s => (s.dropStream key o).record o status (s.cohNum (pgaOff (s.streamAt key) + 12) 4) x.pos true

/-- R506 4, 5: at offset P - 6,250 the entry of a stream is read. -/
def State.recordStream (s : State) (key : Nat) (x : RunStream) : State :=
  let p := x.part
  let x := { x with conds := if x.flying then x.conds ||| s.res.cond.getD p 0 else x.conds }
  if s.curtain p then s.endStream key x 0x24
  else if s.bit Reg.EFH_PART_STATE_TEARDOWN p then s.endStream key x 0x23
  else if !x.flying then s
  else
    let a := s.streamAt key
    let s := s.setStream key x
    if s.cohNum (pgaOff a + 8) 1 ≠ 2 then s
    else match s.streamOrder x with
      | none => s
      | some o =>
        let out := s.cohNum (pgaOff a + 12) 4
        let status := condStatus x.conds (decide (x.since < s.cueNow))
        let final := decide (o.by_ 12 4 ≤ x.pos + 1) || (bitOf (o.by_ 10 1) 0 && out == o.by_ 20 4) || status == 0x24 || status == 0x23
        let s := s.hubWrite (a + 8) [0]
        let s := if final then s.dropStream key o else s.setStream key { x with pos := x.pos + 1, input := out, flying := false, conds := 0 }
        s.record o status out x.pos final

/-- R506 4: every stream's entry is read. -/
def State.recordStreams (s : State) : State := s.ord.streams.foldl (fun s e => s.recordStream e.1 e.2) s

/-! ### COPY and FILL (R499) -/

/-- An order of lines ends with a status at line i. -/
def State.linesEnd (s : State) (o : Order) (status i : Nat) : State := s.finishOrder o status (min i (2 ^ 32 - 1))

/-- R499: COPY's lines from the one its order has come to. `o.ext` holds the line at which the source's device was found lost. -/
def State.copyLines (s : State) (k : Nat) : Nat → Order → State
  | 0, _ => s
  | fuel + 1, o =>
    let i := o.done
    if o.by_ 24 8 ≤ 64 * i then
      (if o.lost then s.linesEnd o 0x23 (o.ext.headD i) else s.linesEnd o (if o.dead then 0x20 else 0) i)
    else
      let src := o.by_ 8 8 + 64 * i
      let dst := o.by_ 16 8 + 64 * i
      let put (s : State) (o : Order) (x : BitVec 512) (m : Nat) : State :=
        let (s, r) := s.writeVa (65536 + k) (k / 16) false (ctxKey k) o.part dst x m (2 ^ 64 - 1)
        match r with
        | .wait => s.setOrder { o with held := some (x, m) }
        | .stat code =>
          if code = 0x10 then (s.setOrder { o with held := some (x, m) }).ctxFault k dst true 0x10
          else if o.lost then s.linesEnd o 0x23 (o.ext.headD i) else s.linesEnd o code i
        | .line _ _ =>
          let o := { o with held := none, done := i + 1, dead := o.dead || m != 0 }
          (s.setOrder o).copyLines k fuel o
      match o.held with
      | some (x, m) => put s o x m
      | none =>
        if o.lost then put s o 0 0xFF
        else
          let (s, r) := s.readVa (65536 + k) (k / 16) false (ctxKey k) o.part src
          match r with
          | .wait => s
          | .stat code =>
            if code = 0x10 then s.ctxFault k src false 0x10
            else if code = 0x23 then
              let o := { o with lost := true, ext := [i] }
              put (s.setOrder o) o 0 0xFF
            else s.linesEnd o code i
          | .line x m => put s o x m

/-- R499: FILL's lines from the one its order has come to. -/
def State.fillLines (s : State) (k : Nat) : Nat → Order → State
  | 0, _ => s
  | fuel + 1, o =>
    let i := o.done
    if o.by_ 16 8 ≤ 64 * i then s.linesEnd o 0 i
    else
      let dst := o.by_ 8 8 + 64 * i
      let x := lineOf ((List.replicate 8 (toLe 8 (o.by_ 24 8))).flatten)
      let (s, r) := s.writeVa (65536 + k) (k / 16) false (ctxKey k) o.part dst x 0 (2 ^ 64 - 1)
      match r with
      | .wait => s
      | .stat code => if code = 0x10 then s.ctxFault k dst true 0x10 else s.linesEnd o code i
      | .line _ _ =>
        let o := { o with done := i + 1 }
        (s.setOrder o).fillLines k fuel o

/-- R499: the n-th outstanding work order, a COPY or FILL of a length, is served by POOL context k as far as it goes. -/
def State.linesOrder (s : State) (n k op : Nat) (len : Order → Nat) (go : State → Order → State) : State :=
  match s.orderAt n with
  | none => s
  | some o =>
    if o.op ≠ op ∨ !s.mayStart o then s
    else if len o = 0 then s.complete o 0 0
    else if s.curtain o.part then s.finishOrder o 0x24 0
    else match s.serving o k with
      | none => s
      | some (s, o) => if s.gaveUp k then s.linesEnd o 0x10 o.done else go s o

/-- R499 COPY: the n-th outstanding work order, where it is one, served by POOL context k. -/
def execCopyOrder (n k : Fin 4096) (s : State) : Res :=
  if s.halted then .next s else
  .next (s.linesOrder n.val k.val 2 (fun o => o.by_ 24 8) (fun s o => s.copyLines k.val (o.by_ 24 8 / 64 + 1) o))

/-- R499 FILL: the n-th outstanding work order, where it is one, served by POOL context k. -/
def execFillOrder (n k : Fin 4096) (s : State) : Res :=
  if s.halted then .next s else
  .next (s.linesOrder n.val k.val 3 (fun o => o.by_ 16 8) (fun s o => s.fillLines k.val (o.by_ 16 8 / 64 + 1) o))

/-! ### Control orders (R501 to R503) -/

/-- R501: whether a pair's offset names what a CALL_SHEET may stage. -/
def pairOk (x : Nat) : Bool :=
  x % 8 == 0 && ((decide (0x1F00000 ≤ x) && decide (x < 0x1F20000)) || (decide (0x1F20400 ≤ x) && decide (x < 0x1F20800)) ||
    (decide (x < 0x2000000) && (Reg.fieldsAt x).any (fun f => f.taken)))

/-- R501: partition p writes one pair. -/
def State.stagePair (s : State) (p x v : Nat) : State :=
  if 0x1F00000 ≤ x ∧ x < 0x1F20000 then s.bookWrite p ((x - 0x1F00000) / 1024) (x % 1024) (toLe 8 v)
  else if 0x1F20400 ≤ x ∧ x < 0x1F20800 then
    let f := (x - 0x1F20400) / 8
    let at_ (r : Fld) : Nat := bitsOf v r.lo r.width
    s.frameWrite p f (at_ (Reg.PBK_FRAME_STAGE_OWNER f)) (at_ (Reg.PBK_FRAME_STAGE_COND f) == 1) (at_ (Reg.PBK_FRAME_STAGE_DONE f) == 1)
      (at_ (Reg.PBK_FRAME_STAGE_TAG f))
  else s.stageReg p x v (2 ^ 64 - 1)

/-- R52: whether the sheet is free for partition p. -/
def State.sheetOpen (s : State) (p : Nat) : Bool :=
  if s.is1 Reg.CS_STATUS_BUSY then false else s.sheetFree || s.rd Reg.CS_STATUS_HOLDER == p

/-- R501: the pairs of a CALL_SHEET once read: they are checked, and staged when the sheet is free, and CHECK starts. -/
def State.stagePairs (s : State) (o : Order) (k : Nat) : State :=
  let n := o.by_ 16 4
  let bs := s.bufBytes k (16 * n)
  let pairs := (List.range n).map (fun i => (leBytes ((bs.drop (16 * i)).take 8), leBytes ((bs.drop (16 * i + 8)).take 8)))
  if pairs.any (fun q => !pairOk q.1) then s.finishOrder o 0x30 0
  else if !s.sheetOpen o.part then s.setOrder { o with ext := [1] }
  else
    let s := s.unserve o
    let s := pairs.foldl (fun s q => s.stagePair o.part q.1 q.2) s
    (s.goCheck o.part).setOrder { o with ctx := none, ext := [2] }

/-- R52: the status of a CALL_SHEET whose sheet has been abandoned. -/
def State.abandonedStatus (s : State) : Nat :=
  let c := s.rd Reg.CS_STATUS_ABANDON_CAUSE
  if c = 3 then 0x24 else if c = 2 then 0x30 else 0x3F

/-- R513: the core that serves CALL_SHEET work orders: SM0, and while it is stopped the lowest of SM3 to SM15 that is not. -/
def State.dutyCore (s : State) : Option Nat := (0 :: (List.range 13).map (· + 3)).find? (fun c => !s.coreStopped c)

/-- R514: a CALL_SHEET whose core has stopped and started again completes with ST_DEVICE_FAULT, and a sheet staged for it is abandoned with cause
SOFTWARE. -/
def State.breakSheet (s : State) (o : Order) : State :=
  let staged := (o.ext == [2] || o.ext == [3]) && s.rd Reg.CS_STATUS_HOLDER == o.part && [1, 2, 3].contains s.sheetState
  (if staged then s.abandon 1 else s).finishOrder o 0x3F 0

/-- R52, R501 CALL_SHEET: the n-th outstanding work order, where it is one, its LIST read by POOL context k (log entry 43);
those of several partitions in the order of their fetch (log entry 106). -/
def execCallSheet (n k : Fin 4096) (s : State) : Res :=
  if s.halted then .next s else
  match s.orderAt n.val with
  | none => .next s
  | some o =>
    let p := o.part
    let held := s.rd Reg.CS_STATUS_HOLDER == p
    if o.op ≠ 0x20 ∨ !s.mayStart o ∨ s.ord.list.any (fun x => x.op == 0x20 && decide (x.id < o.id)) then .next s
    else if o.by_ 16 4 = 0 then .next (s.complete o 0 0)
    else if o.broken then .next (s.breakSheet o)
    else match (match o.core with | some c => some c | none => s.dutyCore) with
    | none => .next s
    | some c =>
    if s.coreStopped c then .next s else
    let (s, o) := if o.core.isNone then (s.setOrder { o with core := some c }, { o with core := some c }) else (s, o)
    if o.ext = [3] then
      (if s.sheetState = 3 ∧ held then .next s else .next (s.complete o s.abandonedStatus 0))
    else if o.ext = [2] then
      (if s.is1 Reg.CS_STATUS_BUSY then .next s
       else if s.sheetState = 2 ∧ held then
         let s := s.writeTakeCue p (bitOf (o.by_ 20 1) 0) (o.by_ 24 8)
         if s.sheetState = 3 then .next (s.setOrder { o with ext := [3] }) else .next (s.complete o 0x30 0)
       else if s.sheetState = 1 ∧ held then
         let f := s.rd Reg.CS_STATUS_FAIL_CHECK
         .next (s.complete o (if f = 14 then 0x11 else 0x30) f)
       else .next (s.complete o s.abandonedStatus 0))
    else if s.curtain p then .next (s.finishOrder o 0x24 0)
    else
      match o.ctx, (s.cxAt (ctxKey (o.ctx.getD 0))).st with
      | some _, .fault _ => .next (s.finishOrder o 0x10 0)
      | _, _ =>
        match s.serving o k.val with
        | none => .next s
        | some (s, o) =>
          if o.ext = [1] then .next (s.stagePairs o k.val)
          else
            let (s, r) := s.fetchBuf k.val p (o.by_ 8 8) (16 * o.by_ 16 4)
            match r with
            | .wait => .next s
            | .stat code _ => .next (s.finishOrder o code 0)
            | .ok _ => .next (s.stagePairs o k.val)

/-- R501: at the take of a sheet the CALL_SHEET that armed it completes. -/
def State.sheetTaken (s : State) : State :=
  match s.ord.list.find? (fun o => o.op == 0x20 && o.ext == [3]) with
  | none => s
  | some o => s.complete o 0 (s.cueNow % 2 ^ 32)

/-- R502 RESUME: the n-th outstanding work order, where it is one. -/
def execResumeOrder (n : Fin 4096) (s : State) : Res :=
  if s.halted then .next s else
  match s.orderAt n.val with
  | none => .next s
  | some o =>
    if o.op ≠ 0x21 ∨ !s.mayStart o then .next s
    else
      let k := o.by_ 8 2
      let x := s.cxAt (ctxKey k)
      let bound := if s.is1 (Reg.CRR_CTX_PLAN_EN k) then s.rd (Reg.CRR_CTX_PLAN_PARTITION k) == o.part else x.st != .pool && x.part == o.part
      if !bound then .next (s.complete o 0x11 0)
      else
        let s := s.ctxAction k (o.by_ 10 1)
        let r := s.rd (Reg.CRR_CTX_CTL_RESULT k)
        .next (s.complete o (if r = 1 then 0 else 0x30) r)

/-- R503 ADMIT: the n-th outstanding work order, where it is one; `failed` says that the newcomer's TEST reads FAIL. The take that admits the
device completes it (admitDone). ST_BAD_FORMAT comes before ST_PERM (R20). -/
def execAdmitOrder (n : Fin 4096) (failed : Bool) (s : State) : Res :=
  if s.halted then .next s else
  match s.orderAt n.val with
  | none => .next s
  | some o =>
    if o.op ≠ 0x22 ∨ !s.mayStart o then .next s
    else if !o.started ∧ s.bit Reg.RSL_PM_LIVE_LIVE (o.by_ 8 1) then .next (s.complete o 0x30 0)
    else if !s.is1 (Reg.OBX_RING_PRIV (boxNo o.part o.box)) ∨ s.device ≠ s.rd Reg.EFH_CTL_FM_DEVICE then .next (s.complete o 0x11 0)
    else if failed then .next (s.complete o 0x3F 0)
    else .next (s.setOrder { o with started := true })

/-- R475, R503: the ADMITs of device d complete at the take that admits it. -/
def State.admitDone (s : State) (d : Nat) : State :=
  (s.ord.list.filter (fun o => o.op == 0x22 && o.started && o.by_ 8 1 == d)).foldl (fun s o => s.complete o 0 0) s

/-! ### The Curtain (R470) -/

/-- R15: whether an outstanding work order does nothing. -/
def Order.nothing (o : Order) : Bool :=
  if o.op = 1 then o.zero 12 4 else if o.op = 2 then o.zero 24 8 else if o.op = 3 then o.zero 16 8
  else if o.op = 4 then o.zero 12 4 || (o.by_ 9 1 % 4 != 0 && o.zero 16 4)
  else if o.op = 5 ∨ o.op = 6 ∨ o.op = 7 then o.zero 12 4
  else if o.op = 0x20 then o.zero 16 4 else false

/-- R470, R510: every work order of partition p that is outstanding completes with ST_CURTAIN, except OFFER, ACCEPT, PUBLISH, RESUME and
ADMIT; its running streams end. -/
def State.curtainOrders (s : State) (p : Nat) : State :=
  let s := (s.ord.streams.filter (fun k _ => k / 4096 == p)).foldl (fun s e => s.endStream e.1 e.2 0x24) s
  (s.ord.list.filter (fun o => o.part == p && !(decide (0x10 ≤ o.op) && o.op != 0x20) && !(o.op == 1 && o.started))).foldl (fun s o =>
    if o.op = 1 ∧ s.planRefused o then s.finishOrder o 0x30 0
    else if o.nothing then s.finishOrder o 0 0
    else if o.op = 7 then s.srchDone o 0x24
    else if o.op = 4 ∨ o.op = 5 ∨ o.op = 6 then s.embDone o 0x24
    else s.finishOrder o 0x24 0) s

end Sys2Proof.Machine
end

