-- ==== Sys2Proof/Machine/Resil.lean ====
section
/-!
DEFINITION. Ledgers and their audit, Postmark and its verdicts, fencing, the Curtain, restores, admission and rehearsal (R454 to R479).
-/

namespace Sys2Proof.Machine

/-! ### Ledgers (R458 to R461) -/

/-- Whether a mesh parcel counts in the parcel ledger: it carries data, and no Curtain has taken it out of the ledgers. -/
def State.ledgered (s : State) (p : MParcel) : Bool :=
  (match p.pl with | .data _ => true | _ => false) && !s.beforeCurtain p

/-- R46: the closing balance: parcels in the mesh and in receive rings. -/
def State.parcelsHeld (s : State) : Nat :=
  (s.trp.mesh.filter s.ledgered).length + (s.trp.t.map (fun e => (e.2.ins.map (fun (x : InRt) => x.q.length)).sum)).sum

/-- R85: by how much outbound route i of troupe t misses its credit identity. For an OUT route the parcels sent whose credit has not come back
stand for those in flight, queued or returning (log entry 44). -/
def State.routeDiff (s : State) (t i : Nat) (o : OutRt) : Int :=
  if o.desc.kind = 5 then (if o.desc.credits = 0 then 0 else (o.desc.credits : Int) - (o.cr + o.away : Nat))
  else match o.dstPhys with
  | none => 0
  | some d =>
    if o.desc.credits = 0 then 0
    else
      let flight := (s.trp.mesh.filter (fun p => p.src == t && p.srcRoute == i && (p.kind == 0 || p.kind == 2) && s.ledgered p)).length
      let queued := match (s.troupe d).ins[o.desc.dstRoute]? with
        | some ir => (ir.q.filter (fun q => q.src == t && q.srcRoute == i)).length
        | none => 0
      let back := (s.trp.mesh.map (fun p => match p.pl with
        | .cred pairs none => if p.dst = t then ((pairs.filter (fun q => q.1 == i)).map (·.2)).sum else 0
        | _ => 0)).sum
      (o.desc.credits : Int) - (o.cr + flight + queued + back : Nat)

/-- The routes that miss their identity: partition, key 64 t + i, difference. -/
def State.routeDiffs (s : State) : List (Nat × Nat × Int) :=
  (s.trp.t.flatMap (fun e => e.2.outs.zipIdx.map (fun (o, i) => (s.trpPart e.1, 64 * e.1 + i, s.routeDiff e.1 i o)))).filter (fun x => x.2.2 != 0)

/-- R221: the model tokens of a partition and class whose last parcel is in the mesh or in a ring, or has been read by a unit that has not
ended. -/
def State.tokensHeld (s : State) (p c : Nat) : Nat :=
  (s.trp.mesh.filter (fun q => q.part == p && q.tok == some c && s.ledgered q)).length +
    (s.trp.t.map (fun e =>
      if s.trpPart e.1 ≠ p then 0
      else (e.2.ins.map (fun (x : InRt) => (x.q.filter (fun q => q.tok == some c)).length)).sum +
        (e.2.units.map (fun (x : UnitRt) => (x.toks.filter (fun k => k.1 == c)).length)).sum)).sum

/-- R460: a difference in a ledger of partition p. -/
def State.imbalance (s : State) (p n : Nat) : State :=
  ((s.setBit Reg.RSL_LEDGER_IMBAL p).raise 113).satAdd Reg.RSL_LEDGER_LOST n

/-- R46, R221: by how much a model-token ledger misses its identity: opening + injected = delivered + cancelled + closing. -/
def Ledger.miss (l : Ledger) (held : Nat) : Int := l.opening + l.injected - l.delivered - l.cancelled - held

/-- R459 to R461: the audit at a TAKE: every identity is compared, differences are added to the lost sub-counts, and every ledger is
carried forward; the partitions that differ. A partial model token is a difference too (R220). -/
def State.auditLedgers (s : State) : State × List Nat :=
  let routes := s.routeDiffs
  let l := s.res.parcel
  let held : Nat := s.parcelsHeld
  let d := l.miss held
  let toks : List (Nat × Ledger × Nat) := List.map (fun e => (e.1, e.2, s.tokensHeld (e.1 / 8) (e.1 % 8))) s.res.token
  let off (x : Nat × Ledger × Nat) : Nat := (x.2.1.miss x.2.2).natAbs + x.2.1.partials.natAbs
  let bad := toks.filter (fun (x : Nat × Ledger × Nat) => off x != 0)
  let s := { s with res := { s.res with
    parcel := { opening := held, lost := d }
    token := (toks.filter (fun (x : Nat × Ledger × Nat) => x.2.2 != 0 || off x != 0)).map (fun (x : Nat × Ledger × Nat) => (x.1, { opening := x.2.2, lost := x.2.1.miss x.2.2 }))
    resetRoutes := routes.foldl (fun (m : SMap Bool) (x : Nat × Nat × Int) => m.insert x.2.1 true) [] } }
  let s := s.satAdd Reg.RSL_LEDGER_LOST d.natAbs
  let s := routes.foldl (fun s x => s.imbalance x.1 x.2.2.natAbs) s
  let s := bad.foldl (fun s (x : Nat × Ledger × Nat) => s.imbalance (x.1 / 8) (off x)) s
  (s, (routes.map (·.1) ++ bad.map (fun (x : Nat × Ledger × Nat) => x.1 / 8)).dedup)

/-- R385, R460: the step of partition p is aborted. -/
def State.abortStep (s : State) (p : Nat) : State := (s.setBit Reg.EFH_PART_STATE_ABORT p).raise 93

/-- Whether a carried unit holds the slots of an inbound route of troupe t (log entry 44). -/
def Troupe.heldByCarried (tr : Troupe) (ir : InRt) : Bool :=
  tr.units.any (fun u => u.carried && (ir.desc.runit == u.desc.id || ir.desc.runit == 0xFFFF))

/-- R460 2: one route that differs is reset. -/
def State.resetRoute (s : State) (t i : Nat) : State :=
  match (s.troupe t).outs[i]? with
  | none => s
  | some o =>
    if o.desc.kind = 5 then
      s.setTroupe t { s.troupe t with outs := mapAt (s.troupe t).outs i (fun o => { o with cr := o.desc.credits, away := 0 }) }
    else match o.dstPhys with
    | none => s
    | some d =>
      let mine (q : RingSlot) : Bool := q.src == t && q.srcRoute == i
      let tr := s.troupe d
      match tr.ins[o.desc.dstRoute]? with
      | none => s
      | some ir =>
        let keep := tr.heldByCarried ir
        let held := if keep then (ir.q.filter mine).length else 0
        let gone := if keep then 0 else (ir.q.filter mine).length
        let s := if keep then s else
          s.setTroupe d { tr with ins := mapAt tr.ins o.desc.dstRoute (fun r => { r with q := r.q.filter (fun q => !mine q) }) }
        let s := if keep then s else (ir.q.filter mine).foldl (fun s q => s.dropTok (s.trpPart d) q.tok) s
        let s := s.ledgerAdd (fun l => { l with cancelled := l.cancelled + gone, lost := l.lost + gone })
        s.setTroupe t { s.troupe t with outs := mapAt (s.troupe t).outs i (fun o => { o with cr := o.desc.credits - held }) }

/-- R460: at clk 1,999 of a TAKE the routes of partition p that differ are reset. -/
def execLedgerRouteReset (p : Fin 16) (s : State) : Res :=
  if s.halted then .next s else
  if s.phase = 0 ∧ s.ofs < 1999 then .next s else
  let mine := s.res.resetRoutes.keys.filter (fun k => s.trpPart (k / 64) == p.val)
  let s := mine.foldl (fun s k => s.resetRoute (k / 64) (k % 64)) s
  .next { s with res := { s.res with resetRoutes := s.res.resetRoutes.filter (fun k _ => s.trpPart (k / 64) != p.val) } }

/-- R461: the ledgers of partition p are re-established: slots dropped, credits reset, openings zero; parcels of p still in the mesh stand for no
model token any more. -/
def State.reestablish (s : State) (p : Nat) : State :=
  let ts := s.troupesOf p
  let n := (ts.map (fun t => ((s.troupe t).ins.map (fun (x : InRt) => x.q.length)).sum)).sum
  let s := ts.foldl (fun s t =>
    let tr := s.troupe t
    s.setTroupe t { tr with ins := tr.ins.map (fun r => { r with q := [] }), units := tr.units.map (fun u => { u with toks := [] }),
                            outs := tr.outs.map (fun o => { o with cr := o.desc.credits, away := 0 }) }) s
  let s := s.ledgerAdd (fun l => { l with cancelled := l.cancelled + n, aborted := l.aborted + n })
  { s with trp := { s.trp with mesh := s.trp.mesh.map (fun q => if q.part = p then { q with tok := none } else q) }
           res := { s.res with token := s.res.token.filter (fun k _ => k / 8 != p),
                               resetRoutes := s.res.resetRoutes.filter (fun k _ => s.trpPart (k / 64) != p) } }

/-! ### The Curtain (R469 to R471) -/

/-- R288, R290, R470: the entry a context of the partition runs stops, with its CANCEL; a fault record is kept ABANDONED. -/
def State.curtainCtx (s : State) (k : Nat) : State :=
  let s := match (s.ctx k).job with
    | some j => if j.ent.op = 0 then s.cancelDelivery k j else s
    | none => s
  let s := (s.discardFault k).setCtx k { (s.discardFault k).ctx k with job := none, carry := [], q := [] }
  match (s.cxAt (ctxKey k)).st with
  | .stopped _ => s
  | .halted => s
  | _ => s.endWork k

/-- R199, R470: the GMEM and ATOM operations of a partition of which no line request is under way complete with ST_CURTAIN. -/
def State.curtainGops (s : State) (p : Nat) : State :=
  (s.trp.gops.filter (fun g => g.part == p && !s.underway g)).foldl (fun s g =>
    if g.kind < 2 then s.endGop g 0x24 id [⟨0, g.sd⟩] else s.endAtom g 0x24 0) s

/-- R407, R470: accumulators whose destination troupe belongs to partition p become VOID. -/
def State.curtainReds (s : State) (p : Nat) : State :=
  (s.sw.acc.map (fun (a : Accum) => a.red)).dedup.foldl (fun s n =>
    match s.physOf (s.rd (Reg.SWX_RED_DEF0_TROUPE n)) with
    | some t => if s.rd (Reg.SWX_RED_DEF0_DEV n) = s.device ∧ s.trpPart t = p then s.voidRed n else s
    | none => s) s

/-- R49, R458, R469, R470: the Curtain falls on partition p: what it cancels counts as aborted. -/
def State.lowerCurtain (s : State) (p : Nat) : State :=
  let s := ((s.setBit Reg.RSL_CURTAIN_DOWN p).satAdd Reg.RSL_CURTAIN_COUNT 1).raise 117
  let before := s.res.parcel.cancelled
  let s := (s.troupesOf p).foldl (fun s t => (s.troupe t).units.foldl (fun s x => s.cancelUnit t x.desc.id 0) s) s
  let s := s.ledgerAdd (fun l => { l with aborted := l.aborted + (l.cancelled - before) })
  let s := (s.ctxsOf p).foldl State.curtainCtx s
  let s := ((s.curtainGops p).curtainOrders p).dropTasks p
  let s := if [1, 2, 3].contains s.sheetState ∧ s.rd Reg.CS_STATUS_HOLDER = p then s.abandon 3 else s
  let s := s.curtainReds p
  let flight := (s.trp.mesh.filter (fun q => q.part == p && s.ledgered q)).length
  let s := { s with res := { s.res with curtainCue := s.res.curtainCue.insert p s.cueNow } }
  (s.ledgerAdd (fun l => { l with cancelled := l.cancelled + flight, aborted := l.aborted + flight })).reestablish p

/-- R471: at the take of a step sheet the Curtain rises on the partitions whose SET names no lost device. -/
def State.liftCurtains (s : State) : State :=
  if s.is1 Reg.RSL_PM_STATE_FENCED then s
  else (List.range 16).foldl (fun s p =>
    let set := s.rd (Reg.RSL_CURTAIN_SET_SET p)
    let lost := s.res.lostDevices ||| (if s.bit Reg.RSL_RH_CTL_PARTS p then s.res.rhLost else 0)
    if s.curtain p ∧ set &&& lost = 0 ∧ !(s.res.rh.fenced ∧ s.bit Reg.RSL_RH_CTL_PARTS p) then s.clrBit Reg.RSL_CURTAIN_DOWN p else s) s

/-! ### Postmark (R462 to R468) -/

/-- R464: whether a set of devices has a quorum among the live ones. -/
def quorum (live set : Nat) : Bool :=
  let n := popcount 64 live
  let c := popcount 64 (set &&& live)
  decide (n < 2 * c) || (2 * c == n && bitOf set (lowestBit 64 live))

/-- The live members. -/
def State.live (s : State) : Nat := s.rd Reg.RSL_PM_LIVE_LIVE

/-- R465: this device's coordinator: the lowest live member it does not suspect. -/
def State.coordOf (_ : State) (live suspect self : Nat) : Nat :=
  let ok := (List.range 64).filter (fun j => bitOf live j && !bitOf suspect j)
  ok.headD self

/-- R384: what is outstanding to a lost device ends with ST_TARGET_LOST: window writes, the proxy home's reads and writes, mirror writes, initial
copies; a requester that waits for its own answer takes it by `State.fabric`. -/
def State.fabricLost (s : State) (d : Nat) : State :=
  (s.efh.out.filter (fun q => q.dest == d && q.ans.isNone)).foldl (fun s q =>
    let drop := { s with efh := { s.efh with out := s.efh.out.erase q } }
    if q.own = hostWrite then (drop.lostTo q.part 0x23).winErr Reg.XLT_WIN_ERR_REMOTE
    else if q.own = 2 ^ 40 then drop
    else if 2 ^ 41 ≤ q.own ∧ q.own < 2 ^ 42 then drop.copyAnswered (q.own - 2 ^ 41) true
    else if 2 ^ 60 ≤ q.own ∧ q.kind ≠ 1 then
      (if 2 ^ 61 ≤ q.own then drop.winErr Reg.XLT_WIN_ERR_REMOTE else drop).lostTo q.part 0x23
    else if 2 ^ 60 ≤ q.own then
      { s with efh := { s.efh with out := s.efh.out.map (fun r => if r = q then { r with ans := some { status := 0x23 } } else r) } }
    else s) s

/-- R467: the device fences itself. -/
def State.fence (s : State) : State :=
  if s.is1 Reg.RSL_PM_STATE_FENCED then s
  else
    let s := (s.wr Reg.RSL_PM_STATE_FENCED 1).raise 116
    let s := (List.range 16).foldl State.lowerCurtain s
    let s := (List.range 16).foldl State.teardown s
    (List.range 64).foldl State.fabricLost s

/-- R37, R38: the leader is the lowest live member; a device that leads reads LOCKED, and one that comes under another leader reads LOCKED 0 until
that leader's cue-sync has aligned it. -/
def State.settleLeader (s : State) : State :=
  let others := s.rd Reg.RSL_PM_MEMBERS_MEMBERS &&& (2 ^ 64 - 1 - (if bitOf (s.rd Reg.RSL_PM_MEMBERS_MEMBERS) s.device then 2 ^ s.device else 0))
  let leader := if others = 0 ∨ s.live = 0 then s.device else lowestBit 64 s.live
  let was := s.rd Reg.CUE_SYNC_LEADER
  let s := s.wr Reg.CUE_SYNC_LEADER leader
  if leader = s.device then
    ({ s with res := { s.res with skewed := false, skew := 0 } }.wr Reg.CUE_SYNC_LOCKED (b2n (s.phase != 3))).wr Reg.CUE_SYNC_SKEW_NS 0
  else if leader ≠ was then { s with res := { s.res with skewed := false } }.wr Reg.CUE_SYNC_LOCKED 0
  else s

/-- R257: the loans lent to a lost device end. -/
def State.endLoansTo (s : State) (d : Nat) : State :=
  (List.range 16).foldl (fun s i =>
    if (s.rd (Reg.STM_LEND_STATE i) = 1 ∨ s.rd (Reg.STM_LEND_STATE i) = 2) ∧ s.rd (Reg.STM_LEND_BORROWER i) = d then s.endLend i else s) s

/-- Device d is declared lost. -/
def State.noteLost (s : State) (d : Nat) : State :=
  let r := s.res
  { s with res := { r with lostDevices := r.lostDevices ||| 2 ^ d, rhLost := if bitOf r.rhLost d then r.rhLost - 2 ^ d else r.rhLost } }

/-- R466: a verdict on device d is taken. -/
def State.takeVerdict (s : State) (d : Nat) : State :=
  let s := ((s.clrBit Reg.RSL_PM_LIVE_LIVE d).wrapAdd Reg.RSL_PM_STATE_VERDICTS 1).raise 115
  if d = s.device then s.fence
  else
    let s := s.clrBit Reg.RSL_PM_SUSPECT_SUSPECT d
    let s := (((s.noteLost d).fabricLost d).settleLeader).endLoansTo d
    let s := ((s.regionsLost d).embLost d).srchLost d
    let s := if s.is1 Reg.STM_MIRROR_EN ∧ s.rd Reg.STM_MIRROR_PARTNER = d then s.raise 61 else s
    (List.range 16).foldl (fun s p => if bitOf (s.rd (Reg.RSL_CURTAIN_SET_SET p)) d then s.lowerCurtain p else s) s

/-- R477: a rehearsal verdict on device d is taken: it acts on the rehearsal partitions alone. -/
def State.takeRhVerdict (s : State) (d : Nat) : State :=
  let parts := (List.range 16).filter (fun p => s.bit Reg.RSL_RH_CTL_PARTS p)
  if d = s.device then
    let s := { s with res := { s.res with rh := { s.res.rh with fenced := true } } }
    (parts.foldl State.lowerCurtain s)
  else
    let s := { s with res := { s.res with rhLost := s.res.rhLost ||| 2 ^ d } }
    (parts.filter (fun p => bitOf (s.rd (Reg.RSL_CURTAIN_SET_SET p)) d)).foldl State.lowerCurtain s

/-- R463, R464: at clk 0 the postcards heard for the cue that ended are counted. -/
def Postmark.count (m : Postmark) (live self : Nat) : Postmark :=
  let all := (List.range 64).filter (fun j => bitOf live j && j != self)
  { m with missed := all.foldl (fun (x : SMap Nat) j => x.setD j 0 (if bitOf m.heard j then 0 else m.missed.getD j 0 + 1)) []
           heard := 0
           heardLast := m.heard
           noQuorum := if quorum live (m.heard ||| 2 ^ self) then 0 else m.noQuorum + 1 }

/-- R465: the members a coordinator declares lost: a quorum of those it heard for the last cue, and itself, suspects them. -/
def Postmark.declare (m : Postmark) (live self coord : Nat) (suspects : Nat → Nat) : Nat :=
  if coord ≠ self then 0
  else ((List.range 64).filter (fun j => bitOf live j &&
    quorum live (((List.range 64).filter (fun i => (bitOf m.heardLast i && bitOf (suspects i) j) || (i == self && bitOf m.suspect j))).map (2 ^ ·)).sum)).map
      (2 ^ ·) |>.sum

/-- R463 to R468: Postmark at clk 0 of a TAKE: postcards counted, verdicts declared and taken. -/
def State.takePostmark (s : State) : State :=
  if s.rd Reg.RSL_PM_MEMBERS_MEMBERS = 0 ∨ s.is1 Reg.RSL_PM_STATE_FENCED then s
  else
    let live := s.live
    let me := s.device
    let m := s.res.pm.count live me
    let m := { m with suspect := s.rd Reg.RSL_PM_SUSPECT_SUSPECT }
    let taken := m.toTake &&& live
    let coord := s.coordOf live m.suspect me
    let declared := m.declare live me coord (fun i => (s.res.cards.getD i {}).suspect)
    let declared := declared - (declared &&& taken)
    let m := { m with verdict := declared ||| taken, toTake := declared }
    let r := s.res.rh.count live me
    let r := { r with suspect := ((List.range 64).filter (fun j => bitOf live j && decide (8 ≤ r.missed.getD j 0))).map (2 ^ ·) |>.sum }
    let rlive := live - (live &&& s.res.rhLost)
    let rtaken := r.toTake &&& rlive
    let rcoord := s.coordOf rlive r.suspect me
    let rdecl := r.declare rlive me rcoord (fun i => (s.res.cards.getD i {}).rhSuspect)
    let rdecl := rdecl - (rdecl &&& rtaken)
    let r := { r with verdict := rdecl ||| rtaken, toTake := rdecl }
    let s := { s with res := { s.res with pm := m, rh := r } }
    let s := (s.wr Reg.RSL_PM_STATE_QUORUM (b2n (m.noQuorum == 0))).wr Reg.RSL_PM_STATE_COORD coord
    let s := if bitOf taken me then s.takeVerdict me
             else ((List.range 64).filter (fun d => bitOf taken d)).foldl State.takeVerdict s
    if s.is1 Reg.RSL_PM_STATE_FENCED then s
    else ((List.range 64).filter (fun d => bitOf rtaken d && !bitOf taken d)).foldl State.takeRhVerdict s

/-- Whether an injection makes this device's postcards carry RH_ALIVE = 0 (R478). -/
def State.rhSilent (s : State) : Bool :=
  match s.res.rhKind with
  | some (0, _) => true
  | some (3, _) => true
  | _ => false

/-- R463, R465, R37, R38, R466, R477: a postcard arrives, with the skew measured from it where its sender leads the cue: by how many ps
this device's cue phase stands behind the leader's, as a signed number. -/
def execPostcard (src : Fin 64) (cue : BitVec 48) (ofs : BitVec 21) (flags : Byte) (coord : Fin 64)
    (heard suspect verdict rhSuspect rhVerdict : Word) (skewPs : BitVec 32) (s : State) : Res :=
  if s.halted then .next s else
  let j := src.val
  let fl := flags.toNat
  if bitOf s.res.lostDevices j ∧ !bitOf fl 2 then .next (s.satAdd Reg.RSL_PM_STATE_LATE 1)
  else
    let c : Card := { cue := cue.toNat, ofs := ofs.toNat, stepHold := bitOf fl 0, fenced := bitOf fl 1, joining := bitOf fl 2, ready := bitOf fl 3,
                      rhAlive := bitOf fl 4, coord := coord.val, heard := heard.toNat, suspect := suspect.toNat, verdict := verdict.toNat,
                      rhSuspect := rhSuspect.toNat, rhVerdict := rhVerdict.toNat }
    let s := { s with res := { s.res with cards := s.res.cards.insert j c } }
    if !bitOf s.live j then .next s
    else
      let skew := skewPs.toInt
      let s :=
        if s.rd Reg.CUE_SYNC_LEADER ≠ j ∨ j = s.device then s
        else
          let s := { s with res := { s.res with skew := skew } }.wr Reg.CUE_SYNC_SKEW_NS (min 65535 (skew.natAbs / 1000))
          if 50000 < skew.natAbs ∧ s.is1 Reg.CUE_SYNC_LOCKED then ({ s with res := { s.res with skewed := true } }.wr Reg.CUE_SYNC_LOCKED 0).raise 36 else s
      if cue.toNat ≠ s.cueNow then .next s
      else
        let m := s.res.pm
        let m := { m with heard := m.heard ||| 2 ^ j, toTake := m.toTake ||| verdict.toNat }
        let r := s.res.rh
        let r := { r with heard := if c.rhAlive then r.heard ||| 2 ^ j else r.heard, toTake := r.toTake ||| rhVerdict.toNat }
        let s := { s with res := { s.res with pm := m, rh := r } }
        if s.bit Reg.RSL_PM_SUSPECT_SUSPECT j then
          let s := s.clrBit Reg.RSL_PM_SUSPECT_SUSPECT j
          .next (if s.rd Reg.RSL_PM_SUSPECT_SUSPECT = 0 then s.unpend 114 else s)
        else .next s

/-- R463: the device suspects member j, of which it has heard nothing for 8 cues. -/
def execSuspect (j : Fin 64) (s : State) : Res :=
  if s.halted then .next s else
  if bitOf s.live j.val ∧ 8 ≤ s.res.pm.missed.getD j.val 0 ∧ !s.bit Reg.RSL_PM_SUSPECT_SUSPECT j.val ∧ j.val ≠ s.device then
    .next ((s.setBit Reg.RSL_PM_SUSPECT_SUSPECT j.val).raise 114)
  else .next s

/-- R467: the device fences itself at the eighth TAKE in a row without a quorum. -/
def execQuorumLoss (s : State) : Res :=
  if s.halted then .next s else
  if s.rd Reg.RSL_PM_MEMBERS_MEMBERS ≠ 0 ∧ 8 ≤ s.res.pm.noQuorum ∧ s.phase = 0 then .next s.fence else .next s

/-! ### Restores (R473) -/

/-- R473: a unit takes the bytes and marks of its mirror slot, by full-line writes that are not forwarded. -/
def State.restoreUnit (s : State) (u : Nat) (lines : List (BitVec 512 × Byte)) : State :=
  let s := lines.zipIdx.foldl (fun s (x, i) => s.hubLine (65536 * u + 64 * i) (x.1, x.2.toNat)) s
  { s with res := { s.res with restored := s.res.restored.insert u true } }

/-- R473: a unit with no slot is marked dead letter. -/
def State.missingUnit (s : State) (u : Nat) : State :=
  ((List.range 1024).foldl (fun s i => s.hubLine (65536 * u + 64 * i) (0, 255)) s).satAdd Reg.RSL_RESTORE_CMD_MISSING 1

/-- R473: the lines of a unit's mirror slot of the greatest stamp below a step, where this device is the partner; the other slot takes them. -/
def State.chooseSlot (s : State) (u step : Nat) : Option (List (BitVec 512 × Byte)) × State :=
  let a := s.slotOf u 0
  let b := s.slotOf u 1
  let okA := a.valid && decide (a.stamp < step)
  let okB := b.valid && decide (b.stamp < step)
  let pick := if okA && (!okB || decide (b.stamp ≤ a.stamp)) then some a else if okB then some b else none
  match pick with
  | none => (none, s)
  | some m =>
    (some ((List.range 1024).map (fun i =>
        (lineOf (Memory.bytes m.bytes (64 * i) 64),
         BitVec.ofNat 8 (((List.range 8).filter (fun j => m.dead.getD (8 * i + j) false)).map (2 ^ ·)).sum))),
     { s with store := { s.store with mirrors := (s.store.mirrors.insert (2 * u) m).insert (2 * u + 1) m } })

/-- A restore command ends. -/
def State.restoreEnd (s : State) (r : Nat) : State :=
  ((s.wr Reg.RSL_RESTORE_CMD_BUSY 0).wr Reg.RSL_RESTORE_CMD_RESULT r).raise 120

/-- R474 5: READY becomes 1 when TEST is PASS and no restore is BUSY; units that no restore wrote are marked. -/
def State.settleReady (s : State) : State :=
  if !s.is1 Reg.RSL_PM_STATE_JOINING ∨ s.rd Reg.RSL_ADMIT_TEST ≠ 2 ∨ s.is1 Reg.RSL_RESTORE_CMD_BUSY then s
  else
    let spared := s.res.restored.keys.map (fun u => (65536 * u, 65536))
    let kept (c : Nat) : Bool := !s.inOwn (8 * c) || s.res.restored.getD (8 * c / 65536) false
    let loss (g : Nat) : Loss := { group := g, chans := 0xFFFF, rows := 3, spared := spared }
    { s with store := { s.store with dead := s.store.dead.filter (fun c _ => kept c), losses := s.store.losses ++ [loss 0, loss 1] } }.wr
      Reg.RSL_PM_STATE_READY 1

/-- R473: requester h writes RSL_RESTORE_CMD.GO. `slots` is what SOURCE's mirror holds for the units in order (a unit with no slot below STEP:
none); where SOURCE is this device its own slots answer. A list shorter than COUNT is as far as the restore comes before it ends. -/
def State.goRestore (s : State) (h : Nat) (slots : List (Option (List (BitVec 512 × Byte)))) : State :=
  if h < 16 ∨ s.is1 Reg.RSL_RESTORE_CMD_BUSY then s
  else
    let first := s.rd Reg.RSL_RESTORE_UNIT_FIRST
    let n := s.rd Reg.RSL_RESTORE_UNIT_COUNT
    let step := s.rd Reg.RSL_RESTORE_CMD_STEP
    let d := s.rd Reg.RSL_RESTORE_CMD_SOURCE
    if step = 0 ∨ (n ≠ 0 ∧ s.rd Reg.STM_SIZE_UNITS < first + n) then s.restoreEnd 2
    else if n = 0 then s.restoreEnd 1
    else
      let s := (s.wr Reg.RSL_RESTORE_CMD_BUSY 1).wr Reg.RSL_PM_STATE_READY 0
      let put (s : State) (u : Nat) (x : Option (List (BitVec 512 × Byte))) : State :=
        match x with
        | some ls => s.restoreUnit u (ls.take 1024)
        | none => s.missingUnit u
      if d = s.device then
        (List.range n).foldl (fun s i => let (x, s) := s.chooseSlot (first + i) step; put s (first + i) x) s
      else if bitOf s.res.lostDevices d then s
      else
        let s := s.send { name := "RESTORE", dest := d, args := [s.device, first, n, step] }
        (slots.take n).zipIdx.foldl (fun s (x, i) => put s (first + i) x) s

/-- R473: RSL_RESTORE_CMD.GO; `slots` is what SOURCE's mirror holds. -/
def execRestoreGo (h : Fin 18) (slots : List (Option (List (BitVec 512 × Byte)))) (s : State) : Res := if s.halted then .next s else .next (s.goRestore h.val slots)

/-- R473: a restore command ends. -/
def execRestoreDone (s : State) : Res :=
  if s.halted then .next s else
  if !s.is1 Reg.RSL_RESTORE_CMD_BUSY then .next s
  else .next (s.restoreEnd (if bitOf s.res.lostDevices (s.rd Reg.RSL_RESTORE_CMD_SOURCE) then 3 else 1)).settleReady

/-! ### Admission (R474, R475) -/

/-- R474: RSL_ADMIT.GO starts the self-test. -/
def execRslAdmitGo (h : Fin 18) (s : State) : Res :=
  if s.halted then .next s else
  if h.val < 16 ∨ !s.is1 Reg.RSL_PM_STATE_JOINING then .next s else .next (s.wr Reg.RSL_ADMIT_TEST 1)

/-- R474: the self-test ends. -/
def execSelftestDone (pass : Bool) (s : State) : Res :=
  if s.halted then .next s else
  if s.rd Reg.RSL_ADMIT_TEST ≠ 1 then .next s
  else .next ((s.wr Reg.RSL_ADMIT_TEST (if pass then 2 else 3)).raise 121).settleReady

/-- R475: what the take of a step sheet whose MEMBERS adds devices does on this device: `added` are the devices that MEMBERS adds or that were lost. -/
def State.admitDevices (s : State) (added : Nat) : State :=
  if added = 0 then s
  else
    let me := s.device
    let m := s.res.pm
    let s := s.wr Reg.RSL_PM_LIVE_LIVE ((s.live ||| added) &&& s.rd Reg.RSL_PM_MEMBERS_MEMBERS)
    let s := { s with res := { s.res with
      pm := { m with missed := m.missed.filter (fun j _ => !bitOf added j), noQuorum := if bitOf added me then 0 else m.noQuorum,
                     toTake := m.toTake - (m.toTake &&& added) }
      lostDevices := s.res.lostDevices - (s.res.lostDevices &&& added)
      rhLost := s.res.rhLost - (s.res.rhLost &&& added) } }
    let s := if bitOf added me then ((s.wr Reg.RSL_PM_STATE_JOINING 0).wr Reg.RSL_PM_STATE_FENCED 0).wr Reg.RSL_PM_STATE_READY 0 else s
    let s := ((List.range 16).foldl State.reestablish s).raise 119
    (((List.range 64).filter (fun d => bitOf added d)).foldl State.admitDone s).settleLeader

/-- R472: at a step-boundary TAKE the aborted partitions whose ABORT bit has been cleared start again, with their ledgers re-established. -/
def State.resumeParts (s : State) : State :=
  ((List.range 16).filter (fun p => bitOf s.res.resume p && !s.bit Reg.EFH_PART_STATE_ABORT p && !s.curtain p)).foldl (fun s p =>
    { s.reestablish p with res := { (s.reestablish p).res with resume := s.res.resume - 2 ^ p } }) s

/-! ### Rehearsal (R478) -/

/-- R478: a running injection at the end of a cue. -/
def State.ageInjection (s : State) : State :=
  match s.res.rhKind with
  | some (2, _) => if s.res.rhBits = 0 then { s with res := { s.res with rhKind := none } }.wr Reg.RSL_RH_STAT_ACTIVE 0 else s
  | some (k, n + 1) =>
    if n = 0 then { s with res := { s.res with rhKind := none } }.wr Reg.RSL_RH_STAT_ACTIVE 0
    else { s with res := { s.res with rhKind := some (k, n) } }
  | some (_, 0) => { s with res := { s.res with rhKind := none } }.wr Reg.RSL_RH_STAT_ACTIVE 0
  | none => s

/-- R478: at a TAKE at a multiple of INTERVAL the next kind is injected. -/
def execRehearsalInjection (s : State) : Res :=
  if s.halted then .next s else
  let iv := s.rd Reg.RSL_RH_CTL_INTERVAL
  let kinds := s.rd Reg.RSL_RH_CTL_KINDS
  if !s.is1 Reg.RSL_RH_CTL_EN ∨ iv = 0 ∨ s.phase ≠ 0 ∨ s.cueNow % iv ≠ 0 ∨ s.res.rhKind.isSome ∨ kinds = 0 then .next s
  else
    match ((List.range 4).map (fun i => (s.res.rhNext + i) % 4)).find? (fun k => bitOf kinds k) with
    | none => .next s
    | some k =>
      let cues := s.rd Reg.RSL_RH_CTL_CUES
      let up := (List.range 18).filter (fun n => s.rd (Reg.EFH_PORT_STAT_STATE n) == 4)
      let last := s.rd Reg.RSL_RH_STAT_PORT
      let before := decide (s.rd Reg.RSL_RH_STAT_INJECTED = 0)
      let port := ((up.filter (fun n => if before then true else decide (last < n))) ++ up).headD last
      let left := if k = 0 then min cues 7 else if k = 3 then max cues 16 else cues
      let runs := if k = 2 then s.rd Reg.RSL_RH_RANGE_UNITS != 0 else left != 0
      let bits := s.res.rhCycle % 3 + 1
      let s := { s with res := { s.res with
        rhNext := (k + 1) % 4
        rhKind := if runs then some (k, left) else none
        rhBits := if k = 2 ∧ runs then bits else s.res.rhBits
        rhCycle := if k = 2 ∧ runs then bits else s.res.rhCycle } }
      let s := (s.wrapAdd Reg.RSL_RH_STAT_INJECTED 1).wr Reg.RSL_RH_STAT_LAST_KIND k
      let s := (if k = 1 then s.wr Reg.RSL_RH_STAT_PORT port else s).wr Reg.RSL_RH_STAT_ACTIVE (b2n runs)
      .next (s.raise 118)

/-- R478: at a step-boundary TAKE the devices that rehearsal verdicts have taken out come back, once they are alive again. -/
def State.rhRejoin (s : State) : State :=
  let back := (List.range 64).filter (fun d => bitOf s.res.rhLost d && (s.res.cards.getD d {}).rhAlive && bitOf s.res.rh.heardLast d)
  let s := { s with res := { s.res with
    rhLost := back.foldl (fun m d => m - 2 ^ d) s.res.rhLost
    rh := { s.res.rh with missed := s.res.rh.missed.filter (fun j _ => !back.contains j), fenced := s.res.rh.fenced && s.rhSilent } } }
  s

/-! ### Codewords with wrong bits (R449, R450) -/

/-- R449: a corrected codeword of an array other than the store is counted and written back. -/
def State.corrected (s : State) : State := s.satAdd Reg.RSL_CODE_CORR 1

/-- R449: an uncorrectable codeword of agent a's copy of a line: a clean line is dropped and fetched again, a dirty one is written home with the codeword marked. -/
def State.cacheError (s : State) (a line cw : Nat) : State :=
  let c := s.copyAt a line
  if 1 ≤ c.st ∧ c.st ≤ 3 then ((s.noteUE false).replaceCopy a line).agentDo a line c.part 1 none
  else if c.st = 4 then ((s.noteUE true).setCopy a line { c with marks := c.marks ||| 2 ^ cw }).replaceCopy a line
  else s

/-- R286, R449: an uncorrectable codeword of the chunk that context k holds: a bad chunk. -/
def State.slotError (s : State) (k : Nat) : State :=
  match (s.ctx k).job with
  | some j => if j.ent.op = 0 ∧ !j.sent ∧ (s.cxAt (ctxKey k)).st = .run then (s.noteUE false).badChunk k j j.size false else s
  | none => s

/-- R393, R449: an uncorrectable codeword of a switch buffer cell in use: its parcel is discarded as one whose seal fails, its hop credit goes back where it is
still owed, and a reduction that the cell accumulates is given up (log entry 84). -/
def State.cellError (s : State) (n : Nat) : State :=
  let x := s.sw.cells.getD n {}
  let s1 := s.setSw { s.sw with
    cells := s.sw.cells.erase n, pig := (s.sw.pig.mapVals (fun _ l => l.filter (· != n))).filter (fun _ l => l != [])
    acc := s.sw.acc.filter (·.cell != n), dropped := s.sw.dropped + 1 }
  let s1 := (s1.satAdd Reg.SWX_ERR_SEAL 1).raise 99
  if x.back then s1.hopCredit x.input x.cls else s1

/-- R449, R450: wrong bits in a codeword of an array, beyond those already known (log entry 13). Those of the store are met now, by a read or the scrub; those of a
directory entry at the next lookup of its line; those of troupe SRAM at the next read (R70). -/
def execScrub (arr : Arr) (cw : Fin 8) (bits : Fin 4) (s : State) : Res :=
  if s.halted then .next s else
  .next (match arr with
  | .store off => s.scrubStore off.toNat cw.val bits.val
  | .dir line =>
    if bits.val = 0 ∨ (s.dirAt line.toNat).st = 0 then s
    else if bits.val ≤ 2 then s.corrected
    else
      let s := s.noteUE false
      if s.coh.bad.contains line.toNat then s else { s with coh := { s.coh with bad := line.toNat :: s.coh.bad } }
  | .cache a line =>
    let c := s.copyAt a.val line.toNat
    if bits.val = 0 ∨ c.st = 0 ∨ 4 < c.st then s
    else if bits.val ≤ 2 then s.corrected
    else s.cacheError a.val line.toNat cw.val
  | .sram addr =>
    let w := addr.toNat / 8
    if 49152 * 6400 ≤ w then s
    else { s with trp := { s.trp with flips := s.trp.flips.setD w 0 (min 3 (s.trp.flips.getD w 0 + bits.val)) } }
  | .book f =>
    if bits.val = 0 then s
    else if bits.val ≤ 2 then s.corrected
    else ({ s with book := { s.book with lateFrame := s.book.lateFrame.insert f.val true } }).noteUE false
  | .slot k =>
    if bits.val = 0 then s
    else if bits.val ≤ 2 then s.corrected
    else s.slotError k.val
  | .cell n =>
    if bits.val = 0 ∨ !(s.cellsUsed.contains n.val) then s
    else if bits.val ≤ 2 then s.corrected
    else (s.noteUE false).cellError n.val
  | .code t =>
    if bits.val = 0 then s
    else if bits.val ≤ 2 then s.corrected
    else (s.noteUE false).logicFault t.val)

end Sys2Proof.Machine
end

