-- ==== Sys2Proof/Machine/Shake.lean ====
section
/-!
DEFINITION. SHAKE256 and SHA3-512 of FIPS 202, with which the security engine measures images and keys and hashes SPDM messages
(R555, R557, R560 to R562).
-/

namespace Sys2Proof.Machine

/-- A 64-bit lane rotated left. -/
def rotl64 (x n : Nat) : Nat := (x * 2 ^ n) % 2 ^ 64 + x / 2 ^ (64 - n)

/-- The rotation of lane x + 5y. -/
def keccakRot : List Nat :=
  [0, 1, 62, 28, 27, 36, 44, 6, 55, 20, 3, 10, 43, 25, 39, 41, 45, 15, 21, 8, 18, 2, 61, 56, 14]

/-- The round constants. -/
def keccakRc : List Nat :=
  [0x0000000000000001, 0x0000000000008082, 0x800000000000808A, 0x8000000080008000, 0x000000000000808B, 0x0000000080000001,
   0x8000000080008081, 0x8000000000008009, 0x000000000000008A, 0x0000000000000088, 0x0000000080008009, 0x000000008000000A] ++
  [0x000000008000808B, 0x800000000000008B, 0x8000000000008089, 0x8000000000008003, 0x8000000000008002, 0x8000000000000080,
   0x000000000000800A, 0x800000008000000A, 0x8000000080008081, 0x8000000000008080, 0x0000000080000001, 0x8000000080008008]

/-- One round of Keccak-f[1600] on 25 lanes, lane x + 5y at that place. -/
def keccakRound (a : List Nat) (rc : Nat) : List Nat :=
  let l (a : List Nat) (i : Nat) : Nat := a.getD i 0
  let c := (List.range 5).map (fun x => l a x ^^^ l a (x + 5) ^^^ l a (x + 10) ^^^ l a (x + 15) ^^^ l a (x + 20))
  let d := (List.range 5).map (fun x => l c ((x + 4) % 5) ^^^ rotl64 (l c ((x + 1) % 5)) 1)
  let a := a.zipIdx.map (fun (v, i) => v ^^^ l d (i % 5))
  let b := (List.range 25).map (fun i =>
    let x := i % 5
    let y := i / 5
    let j := (x + 3 * y) % 5 + 5 * x
    rotl64 (l a j) (l keccakRot j))
  let a := (List.range 25).map (fun i =>
    let y := i / 5 * 5
    let x := i % 5
    l b i ^^^ ((2 ^ 64 - 1 - l b (y + (x + 1) % 5)) &&& l b (y + (x + 2) % 5)))
  match a with
  | v :: rest => (v ^^^ rc) :: rest
  | [] => []

/-- Keccak-f[1600]. -/
def keccakF (a : List Nat) : List Nat := keccakRc.foldl keccakRound a

/-- XOR the bytes of a block into the first lanes. -/
def absorb (a : List Nat) (bs : List Byte) : List Nat :=
  a.zipIdx.map (fun (v, i) => v ^^^ leBytes ((bs.drop (8 * i)).take 8))

/-- Absorb the blocks of a padded message at a rate in bytes, at most `fuel` of them. -/
def absorbAll (rate : Nat) : Nat → List Nat → List Byte → List Nat
  | 0, a, _ => a
  | fuel + 1, a, bs => if bs.isEmpty then a else absorbAll rate fuel (keccakF (absorb a (bs.take rate))) (bs.drop rate)

/-- The sponge: a domain byte, zeros, and 0x80 in the last byte of the block pad the message; n bytes come out, n at most the rate. -/
def sponge (rate dom : Nat) (bs : List Byte) (n : Nat) : List Byte :=
  let k := rate - bs.length % rate
  let m := bs ++ toLe k (dom + 0x80 * 256 ^ (k - 1))
  let a := absorbAll rate (m.length / rate) (List.replicate 25 0) m
  ((a.take (rate / 8)).flatMap (toLe 8)).take n

/-- SHAKE256 of a message: n bytes of output, n at most 136, as a little-endian number. -/
def shake256 (bs : List Byte) (n : Nat) : Nat := leBytes (sponge 136 0x1F bs n)

/-- SHA3-512 of a message, with which the SPDM responder hashes (R562). -/
def sha3 (bs : List Byte) : List Byte := sponge 72 0x06 bs 64

end Sys2Proof.Machine
end

