-- ==== Sys2Proof/Machine/Boot.lean ====
section
/-!
DEFINITION. Resets, boot, measurements, live update, recalibration, module service and the SPDM responder (R550 to R569,
R574).
-/

namespace Sys2Proof.Machine

/-- Change the Stage Door's record. -/
def State.onDoor (s : State) (f : Door → Door) : State := { s with door := f s.door }

/-! ### Resets (R550, R554, R559, R563) -/

/-- The fused fields, which no reset changes (R557, R558, R574). -/
def isFused (k : Nat) : Bool := k / 64 == 0x1E00010

/-- R9, R550: the register fields that a warm reset keeps: the RWS ones, and the states of the Wings channels, whose contents it keeps (log entry 99). -/
def State.keptRegs (s : State) : SMap Nat :=
  s.regs.filter (fun k _ => isFused k || k / 64 == 0x200030 || k / 64 == 0x200038 || (Reg.fieldsAt (k / 64)).any (fun f => f.lo == k % 64 && f.acc == .RWS))

/-- R550: what a reset keeps of the Stage Door: the non-volatile store, the flash and the test port. -/
def Door.kept (d : Door) : Door :=
  { bar2 := d.bar2, retired := d.retired, prefer := d.prefer, cal := d.cal, digests := d.digests, svns := d.svns, flash := d.flash,
    wrote := d.wrote, jtag := d.jtag, cells := d.cells }

/-- R550: what a warm reset keeps of the store: contents, marks, losses, hints, mirror slots, and which units of the Wings lie in spares (log entry 99). -/
def Store.kept (m : Store) : Store :=
  { mem := m.mem, dead := m.dead, flips := m.flips, units := m.units.mapVals (fun _ (u : SUnit) => { u with moving := none }),
    losses := m.losses, mirrors := m.mirrors, fails := m.fails, rebuilds := m.rebuilds, modules := m.modules }

/-- R550, R552, R563, R569: a reset of either kind, with its SEC_BOOT.CAUSE: an armed update is dropped, and an update in trial
reverts to the preferred slot. -/
def State.deviceReset (s : State) (warm : Bool) (cause : Nat) : State :=
  let base : State :=
    { pending := s.pending
      regs := if warm then s.keptRegs else s.regs.filter (fun k _ => isFused k)
      store := if warm then s.store.kept else { modules := s.store.modules }
      hst := { perst := s.hst.perst, bar2Log2 := if warm then s.hst.bar2Log2 else s.door.bar2 }
      door := s.door.kept
      sent := s.sent
      free := s.free }
  let r := base.wr Reg.SEC_BOOT_CAUSE cause
  let r := if warm then r.satAdd Reg.SEC_BOOT_WARM 1 else r.wr Reg.HPT_CFG_BAR2_LOG2 s.door.bar2
  let r := r.wr Reg.SEC_BOOT_SLOT s.door.prefer
  let r := if s.door.trial.isEmpty then r else r.raise 148
  if cause = 4 then r.raise 140 else r

/-- R550, R592, R598: the input reaches 46 V with refclk present, for the first time since it fell below 40 V. The test port starts in
Test-Logic-Reset. -/
def execColdReset (s : State) : Res := .next ((s.deviceReset false 0).onDoor (fun d => { d with jtag := 0xFE }))

/-- R550: a warm reset with its cause as SEC_BOOT codes it. -/
def execWarmReset (cause : Fin 8) (s : State) : Res :=
  if 2 ≤ cause.val ∧ cause.val ≤ 6 ∧ s.door.halt < 3 then .next (s.deviceReset true cause.val) else .next s

/-- R550: requester h writes SEC_RESET with GO. -/
def State.goReset (s : State) (h : Nat) (warm : Bool) : State :=
  if h < 16 ∨ s.door.halt = 1 ∨ 3 ≤ s.door.halt then s else s.deviceReset warm (if warm then 6 else 1)

/-- R550: SEC_RESET with KIND 0. -/
def execSecResetCold (h : Fin 18) (s : State) : Res := .next (s.goReset h.val false)

/-- R550: SEC_RESET with KIND 1. -/
def execSecResetWarm (h : Fin 18) (s : State) : Res := .next (s.goReset h.val true)

/-! ### Measurements (R561) -/

/-- Measurement register k as a number. -/
def State.meas (s : State) (k : Nat) : Nat :=
  ((List.range 8).map (fun w => s.rd (Reg.SEC_MEAS_VALUE (8 * k + w)) * 2 ^ (64 * w))).sum

/-- Replace measurement register k. -/
def State.setMeas (s : State) (k m : Nat) : State :=
  (List.range 8).foldl (fun s w => s.wr (Reg.SEC_MEAS_VALUE (8 * k + w)) (bitsOf m (64 * w) 64)) s

/-- R561: measurement register k is extended with a value. -/
def State.extend (s : State) (k : Nat) (value : List Byte) : State :=
  s.setMeas k (shake256 (toLe 64 (s.meas k) ++ value) 64)

/-- R561: measurement register k is extended with a value whose byte encoding the spec does not give: what it then holds is free. -/
def State.extendFree (s : State) (k : Nat) : State :=
  let (m, s) := s.fresh 512
  s.setMeas k m

/-- The DIGEST of the image of a kind in a slot; that of the image the part came with is free until it is first read. -/
def State.digestOf (s : State) (kind slot : Nat) : Nat × State :=
  match s.door.digests.find? (2 * kind + slot) with
  | some d => (d, s)
  | none =>
    let (d, s) := s.fresh 512
    (d, s.onDoor (fun x => { x with digests := x.digests.insert (2 * kind + slot) d }))

/-- The SVN of the image of a kind in a slot, free for the image the part came with (0 to 64, R555). -/
def State.svnOf (s : State) (kind slot : Nat) : Nat × State :=
  match s.door.svns.find? (2 * kind + slot) with
  | some d => (d, s)
  | none =>
    let (d, s) := s.fresh 7
    (d % 65, s.onDoor (fun x => { x with svns := x.svns.insert (2 * kind + slot) (d % 65) }))

/-- The running slot of a kind (SEC_BOOT.SLOT). -/
def State.slotOfKind (s : State) (kind : Nat) : Nat := b2n (s.bit Reg.SEC_BOOT_SLOT (kind - 1))

/-! ### Boot (R553, R554, R559, R91) -/

/-- R530, R534, R538: every PLL is locked, and every region runs on its root input with a clean monitor window. -/
def State.clocksUp (s : State) : State :=
  let s := (s.wr Reg.CLK_ROOT_LOCK (2 ^ 25 - 1)).wr Reg.CLK_ROOT_REF_OK 1
  (List.range 224).foldl (fun s r =>
    (s.wr (Reg.CLK_REG_LIVE r) 1).wr (Reg.CLK_REG_COUNT r) (6400 / s.rd (Reg.CLK_REG_BASE r))) s

/-- R559: kind k is taken from its preferred slot, else from its other slot; `fails` has bit 2 (k - 1) + slot set where that slot's image
fails R556. Whether both failed. -/
def State.bootKind (s : State) (fails : Nat) (kind : Nat) : State × Bool :=
  let pref := b2n (bitOf s.door.prefer (kind - 1))
  let bad (slot : Nat) : Bool := bitOf fails (2 * (kind - 1) + slot)
  if !bad pref then (s, false)
  else
    let s := s.raise 145
    if bad (1 - pref) then (s.raise 145, true)
    else
      let s := (s.wr Reg.SEC_BOOT_FALLBACK 1).raise 146
      (s.wr Reg.SEC_BOOT_SLOT (s.rd Reg.SEC_BOOT_SLOT ^^^ 2 ^ (kind - 1)), false)

/-- R561: the measurements of a boot. -/
def State.measureBoot (s : State) : State :=
  let s := [1, 2, 3].foldl (fun s kind =>
    let (d, s) := s.digestOf kind (s.slotOfKind kind)
    s.extend (kind - 1) (toLe 64 d)) s
  ((s.extendFree 3).extendFree 4).extendFree 5

/-- The flash key of a byte of the image of a kind in a slot. -/
def flashKey (kind slot i : Nat) : Nat := 2 ^ 32 * (2 * kind + slot) + i

/-- The bytes of the payload in a flash slot that an image header and signature precede. -/
def State.payload (s : State) (kind slot : Nat) : List Byte :=
  let n := leBytes (Memory.bytes s.door.flash (flashKey kind slot 12) 4)
  Memory.bytes s.door.flash (flashKey kind slot 29984) n

/-- The LENGTH of section 0 of the first image of a payload, which couriers and cores run. -/
def firstLength (bs : List Byte) : Nat := ((sectionsOf bs).headD (0, 0)).2

/-- The instructions of section 0 of the first image of a payload. -/
def firstWords (bs : List Byte) : List Word := wordsOf bs ((sectionsOf bs).headD (0, 0))

/-- R128, R564, R565: instruction stores are loaded with a program. -/
def State.loadCode (s : State) (stores : List Nat) (ws : List Word) : State :=
  { s with proc := { s.proc with code := stores.foldl (fun (m : SMap (List Word)) k => m.insert k ws) s.proc.code } }

/-- The couriers of MI die m. -/
def couriersOf (m : Nat) : List Nat := (List.range 32).map (fun i => 32 * m + i)

/-- The instruction stores of the cores. -/
def coreStores : List Nat := (List.range 16).map (fun c => 256 + c)

/-- R553 step 3: boot loads the running images of kinds 2 and 3 where an update has written them. -/
def State.loadBoot (s : State) : State :=
  let p2 := s.payload 2 (s.slotOfKind 2)
  let p3 := s.payload 3 (s.slotOfKind 3)
  let s := if p2.isEmpty then s
    else (List.range 16).foldl (fun s c => s.setCxAt (coreKey c) { s.cxAt (coreKey c) with len := firstLength p2 }) (s.loadCode coreStores (firstWords p2))
  if p3.isEmpty then s
  else (List.range 4096).foldl (fun s k => s.setCxAt (ctxKey k) { s.cxAt (ctxKey k) with len := firstLength p3 })
    (s.loadCode (List.range 256) (firstWords p3))

/-- R553, R559: steps 1 to 4 of boot are done; `fails` says which stored images fail R556. -/
def execBootDone (fails : BitVec 6) (s : State) : Res :=
  if s.halted ∨ s.is1 Reg.SEC_BOOT_DONE then .next s
  else
    let s := s.clocksUp
    let (s, rec_) := [1, 2, 3].foldl (fun (q : State × Bool) kind =>
      let (s, bad) := q.1.bootKind fails.toNat kind
      (s, q.2 || bad)) (s, false)
    let s := if rec_ then s.wr Reg.SEC_BOOT_RECOVERY 1
             else (List.range 16).foldl State.restartCore s.measureBoot.loadBoot
    .next ((s.wr Reg.SEC_BOOT_DONE 1).raise 144)

/-- R91, R553: the retirement record is applied to the manufacturing map. -/
def State.applyRetired (s : State) : State :=
  s.door.retired.foldl (fun s (t, q) =>
    let s := (s.moveTroupe t 4).moveTroupe q 0
    let s := s.wr (Reg.TRP_STATE_LOGICAL q) (s.rd (Reg.TRP_STATE_LOGICAL t))
    s.wr (Reg.TRP_STATE_LOGICAL t) 0x1FFF) s

/-- R236, R246: the units of the own store: 14 of 16 channels of each group hold data. -/
def State.ownUnits (s : State) : Nat :=
  28 * 16384 * s.rd Reg.STM_WINGS_MODULE_GIB * (if s.rd Reg.STM_WINGS_POP = 2 then 2 else 1)

/-- R246: what a Wings channel holds, as its modules say: POP and GIB; unless its sockets are listed otherwise what STM_WINGS says. -/
def State.popOf (s : State) (c : Nat) : Nat × Nat := s.store.modules.getD c (s.rd Reg.STM_WINGS_POP, s.rd Reg.STM_WINGS_MODULE_GIB)

/-- R246: the population that most channels share: the lowest channel's of those that as many share (log entry 99). -/
def majority (pops : List (Nat × Nat)) : Nat × Nat :=
  pops.foldl (fun b x => if pops.count b < pops.count x then x else b) (pops.headD (0, 0))

/-- R246: the Wings come up: the population that most channels share becomes the reference; a channel that differs is FAILED and rebuilt; a
group in which more than one differs is not brought up. A rebuild or copyback that a warm reset met goes on. -/
def State.wingsUp (s : State) : State :=
  let pops := (List.range 32).map (s.popOf)
  let ref := majority pops
  let odd (g : Nat) : List Nat := (List.range 32).filter (fun c => c % 2 == g && pops.getD c (0, 0) != ref)
  let s := (s.wr Reg.STM_WINGS_POP ref.1).wr Reg.STM_WINGS_MODULE_GIB ref.2
  let s := s.wr Reg.STM_SIZE_UNITS (if 1 < (odd 0).length ∨ 1 < (odd 1).length then 0 else s.ownUnits)
  let s := [0, 1].foldl (fun s g =>
    if 1 < (odd g).length then s.setBit Reg.STM_WINGS_LOST g
    else (odd g).foldl (fun s c => if s.chState c = 0 then s.channelFailed c 3 0 else s) s) s
  (List.range 32).foldl (fun s c => if (s.chState c = 2 ∨ s.chState c = 4) ∧ !s.is1 Reg.STM_REBUILD_ACTIVE then
    ((s.wr Reg.STM_REBUILD_ACTIVE 1).wr Reg.STM_REBUILD_CHANNEL c).showRebuild c else s) s

/-- R246, R553, R554: steps 5 and 6: the store is ready and the cue generator starts at cue 0. -/
def execStoreReady (s : State) : Res :=
  if s.halted ∨ !s.is1 Reg.SEC_BOOT_DONE ∨ s.is1 Reg.SEC_BOOT_RECOVERY ∨ s.is1 Reg.SEC_BOOT_STORE_READY then .next s
  else
    let s := s.applyRetired
    let s := (s.wingsUp).wr Reg.STM_SIZE_FRAMES (framesFor (s.rd Reg.STM_STAGE_ONLY_GIB))
    let s := ((s.wr Reg.SEC_BOOT_STORE_READY 1).wr Reg.CUE_PHASE_PHASE 0).wr Reg.CUE_PHASE_OFFSET 0
    .next (((s.wr Reg.CUE_COUNT_COUNT 0).settleLeader).raise 1)

/-! ### Signed images (R555 to R558) -/

/-- What R556 finds in an image: its RESULT, SVN, DIGEST and bytes. -/
structure Judged where
  result : Nat
  svn : Nat := 0
  digest : Nat := 0
  bytes : List Byte := []
  deriving DecidableEq, Repr

/-- R128, R143: whether an Oahan image of a profile passes the load checks and fits its instruction stores. -/
def loadable (profile words : Nat) (bs : List Byte) : Bool :=
  decide (64 ≤ bs.length) && decide (imgBytes bs ≤ bs.length) && !imgLevelBad bs && imgOk bs && numIn bs 2 1 == profile &&
    (sectionsOf bs).all (fun q => decide (q.2 ≤ words))

/-- R556: whether a payload of a kind passes order 6. A firmware payload is its control-profile image and then the search program. -/
def payloadOk (kind : Nat) (bs : List Byte) : Bool :=
  if kind = 2 then loadable 2 16384 bs && loadable 0 256 (bs.drop (imgBytes bs))
  else if kind = 3 then loadable 1 1024 bs else true

/-- The n bytes at a PGA, in recovery those of the Stage-only range as R559 opens it. -/
def State.srcBytes (s : State) (p n : Nat) : Option (List Byte) :=
  let gib := if s.is1 Reg.SEC_BOOT_RECOVERY then max 1 (s.rd Reg.STM_STAGE_ONLY_GIB) else s.rd Reg.STM_STAGE_ONLY_GIB
  if s.inStore gib p n then some (if s.is1 Reg.SEC_BOOT_RECOVERY then (s.storeRead (pgaOff p) n).1 else (s.cohRead (pgaOff p) n).1)
  else none

/-- R557, R558: the fused SVN of a kind. -/
def fusedSvn (kind : Nat) : Fld :=
  if kind = 1 then Reg.SEC_FUSE_SVN1 else if kind = 2 then Reg.SEC_FUSE_SVN2 else Reg.SEC_FUSE_SVN3

/-- R555, R556, R589: the image of a kind at a PGA, checked in order. -/
def State.judgeImage (s : State) (kind p : Nat) : Judged :=
  match s.srcBytes p 192 with
  | none => { result := 2 }
  | some h =>
    let n := numIn h 12 4
    let key := numIn h 6 1
    let svn := numIn h 7 1
    if numIn h 4 1 = 2 ∨ numIn h 4 1 = 3 then { result := 6 }
    else if numIn h 0 4 ≠ 0x31425051 ∨ numIn h 4 1 ≠ 1 ∨ kind = 0 ∨ numIn h 5 1 ≠ kind ∨ 3 < key ∨ 64 < svn ∨ !zeroIn h 144 48 ∨
        (kind ≠ 1 ∧ 2 ^ 25 < 29984 + n) then
      { result := 2 }
    else if n = 0 then { result := 1 }
    else match s.srcBytes p (29984 + n) with
      | none => { result := 2 }
      | some bs =>
        let pub := (bs.drop 16).take 64
        let body := bs.drop 29984
        let digest := numIn bs 80 64
        if s.bit Reg.SEC_FUSE_REVOKED key || shake256 pub 32 != Config.keyDigest key ||
            !Config.sigValid (leBytes pub) (leBytes h) (numIn bs 192 29792) || shake256 body 64 != digest then { result := 3 }
        else if svn < s.rd (fusedSvn kind) then { result := 4 }
        else if !payloadOk kind body then { result := 2 }
        else { result := 1, svn := svn, digest := digest, bytes := bs }

/-- R563: OP WRITE: the image passes R556 and is written to the slot not running. -/
def State.imgWrite (s : State) (kind : Nat) : State :=
  let j := s.judgeImage kind (64 * s.rd Reg.SEC_IMG_SRC_PGA)
  let s := s.wr Reg.SEC_IMG_CMD_RESULT j.result
  if j.result ≠ 1 then s.raise 145
  else if j.bytes.isEmpty then s
  else
    let slot := 1 - s.slotOfKind kind
    let key := 2 * kind + slot
    s.onDoor (fun d => { d with
      digests := d.digests.insert key j.digest
      svns := d.svns.insert key j.svn
      flash := Memory.store (d.flash.filter (fun k _ => k / 2 ^ 32 != key)) (flashKey kind slot 0) j.bytes
      wrote := kind :: d.wrote.erase kind })

/-- R53, R563: OP ARM. -/
def State.imgArm (s : State) (kind cue : Nat) : State :=
  let permitted := cue ≠ 0 ∧ (s.cueNow + 2 ≤ cue ∨ (cue = s.cueNow + 1 ∧ s.phase ≠ 2))
  if s.door.arm.isSome ∨ !s.door.wrote.contains kind ∨ ¬permitted then s.wr Reg.SEC_IMG_CMD_RESULT 5
  else
    let a : UpdArm := { kind := kind, cue := cue, die := if kind = 3 then s.door.dieNext else 0 }
    (((s.onDoor (fun d => { d with arm := some a })).wr Reg.SEC_IMG_CMD_BUSY 1).wr Reg.SEC_IMG_CMD_RESULT 0)

/-- R563: OP COMMIT. -/
def State.imgCommit (s : State) (kind : Nat) : State :=
  if !s.door.trial.contains kind then s.wr Reg.SEC_IMG_CMD_RESULT 5
  else
    let b := 2 ^ (kind - 1)
    let slot := s.slotOfKind kind
    let s := s.onDoor (fun d => { d with trial := d.trial.erase kind
                                         prefer := (if bitOf d.prefer (kind - 1) then d.prefer - b else d.prefer) + slot * b })
    (s.wr Reg.SEC_BOOT_TRIAL (b2n (!s.door.trial.isEmpty))).wr Reg.SEC_IMG_CMD_RESULT 1

/-- R558: OP SVN. -/
def State.imgSvn (s : State) (kind : Nat) : State :=
  if s.door.trial.contains kind then s.wr Reg.SEC_IMG_CMD_RESULT 5
  else
    let (svn, s) := s.svnOf kind (s.slotOfKind kind)
    let s := s.wr Reg.SEC_IMG_CMD_RESULT 1
    if s.rd (fusedSvn kind) < svn then (s.wr (fusedSvn kind) svn).raise 149 else s

/-- R563, R574: requester h writes SEC_IMG_CMD with GO; its other fields have been written. A GO written while BUSY = 1 is ignored, but an
ARM while another arm is pending gives STATE. -/
def State.goImg (s : State) (h : Nat) : State :=
  let op := s.rd Reg.SEC_IMG_CMD_OP
  let kind := s.rd Reg.SEC_IMG_CMD_KIND
  if h < 16 ∨ op = 0 then s
  else if s.is1 Reg.SEC_IMG_CMD_BUSY then (if op = 2 then s.wr Reg.SEC_IMG_CMD_RESULT 5 else s)
  else if kind = 0 then s.wr Reg.SEC_IMG_CMD_RESULT 2
  else if op = 1 then s.imgWrite kind
  else if op = 2 then s.imgArm kind (s.rd Reg.SEC_IMG_CMD_CUE)
  else if op = 3 then s.imgCommit kind
  else if op = 4 then s.imgSvn kind
  else s

/-- R574: a write of SEC_IMG_CMD by requester h with an OP, a KIND and, for ARM, a CUE. -/
def State.imgCmd (s : State) (h op kind : Nat) (cue : Option Nat) : State :=
  if h < 16 then s
  else
    let s := (s.wr Reg.SEC_IMG_CMD_OP op).wr Reg.SEC_IMG_CMD_KIND kind
    (match cue with | some c => s.wr Reg.SEC_IMG_CMD_CUE c | none => s).goImg h

/-- R563: OP WRITE. -/
def execImgWrite (h : Fin 18) (kind : Fin 4) (s : State) : Res := if s.halted then .next s else .next (s.imgCmd h.val 1 kind.val none)

/-- R563: OP ARM. -/
def execImgArm (h : Fin 18) (kind : Fin 4) (cue : BitVec 48) (s : State) : Res := if s.halted then .next s else .next (s.imgCmd h.val 2 kind.val (some cue.toNat))

/-- R563: OP COMMIT. -/
def execImgCommit (h : Fin 18) (kind : Fin 4) (s : State) : Res := if s.halted then .next s else .next (s.imgCmd h.val 3 kind.val none)

/-- R558: OP SVN. -/
def execImgSvn (h : Fin 18) (kind : Fin 4) (s : State) : Res := if s.halted then .next s else .next (s.imgCmd h.val 4 kind.val none)

/-! ### Taking an update (R561, R563 to R566) -/

/-- R561, R563: the armed image of a kind has been taken: it runs, in trial, from the slot it was written to. -/
def State.updateTaken (s : State) (kind : Nat) : State :=
  let s := s.wr Reg.SEC_BOOT_SLOT (s.rd Reg.SEC_BOOT_SLOT ^^^ 2 ^ (kind - 1))
  let (d, s) := s.digestOf kind (s.slotOfKind kind)
  let s := ((s.setMeas (kind - 1) 0).extend (kind - 1) (toLe 64 d)).extend 6 (toLe 1 kind ++ toLe 64 d)
  let s := s.onDoor (fun x => { x with arm := none, wrote := x.wrote.erase kind, trial := kind :: x.trial.erase kind, dieNext := 0 })
  (((s.wr Reg.SEC_BOOT_TRIAL 1).wr Reg.SEC_IMG_CMD_BUSY 0).wr Reg.SEC_IMG_CMD_RESULT 1).raise 147

/-- R557: the revoke fuses of the key slots that the running kind 1 image names are blown (log entry 50). -/
def State.revokeKeys (s : State) : State :=
  let (d, s) := s.digestOf 1 (s.slotOfKind 1)
  s.wr Reg.SEC_FUSE_REVOKED (s.rd Reg.SEC_FUSE_REVOKED ||| Config.revokes d % 16)

/-- R564: the firmware is taken: every core restarts with the new program, its LOCAL memory kept. -/
def State.takeFirmware (s : State) : State :=
  let p := s.payload 2 (1 - s.slotOfKind 2)
  let s := (List.range 16).foldl (fun s c =>
    (s.setCxAt (coreKey c) { s.cxAt (coreKey c) with len := firstLength p }).restartCore c) (s.loadCode coreStores (firstWords p))
  s.updateTaken 2

/-- R564: whether a control order (CALL_SHEET, RESUME, ADMIT) is being served. -/
def State.controlServed (s : State) : Bool := s.ord.list.any (fun o => decide (0x20 ≤ o.op) && o.started)

/-- R565: whether die m may be taken: none of its contexts is RUN or FAULT, or has a carried entry. -/
def State.dieQuiet (s : State) (m : Nat) : Bool :=
  (List.range 512).all (fun i =>
    let k := 512 * m + i
    let c := s.ctx k
    (match (s.cxAt (ctxKey k)).st with
     | .idle => true | .pool => true | .halted => true | .stopped _ => true | _ => false) &&
      c.carry.isEmpty && !(match c.job with | some j => j.carried | none => false))

/-- R565: die m is taken: every register of its contexts is zero, and each keeps its state code. -/
def State.takeDie (s : State) (m : Nat) : State :=
  let p := s.payload 3 (1 - s.slotOfKind 3)
  (List.range 512).foldl (fun s i =>
    let k := ctxKey (512 * m + i)
    let x := s.cxAt k
    s.setCxAt k { st := x.st, len := firstLength p, unit := x.unit, level := x.level, part := x.part })
    (s.loadCode (couriersOf m) (firstWords p))

/-- R564, R565: at clk 0 of a TAKE, the firmware or the next die of the microcode is taken where it may be. -/
def State.takeUpdates (s : State) : State :=
  match s.door.arm with
  | none => s
  | some a =>
    if s.cueNow < a.cue then s
    else if a.kind = 2 then (if s.sheetFree ∧ !s.controlServed then s.takeFirmware else s)
    else if a.kind = 3 then
      if s.dieQuiet a.die then
        let s := s.takeDie a.die
        if a.die = 7 then s.updateTaken 3
        else s.onDoor (fun d => { d with arm := some { a with die := a.die + 1, takes := 0 } })
      else if 63 ≤ a.takes then
        ((s.onDoor (fun d => { d with arm := none, dieNext := a.die })).wr Reg.SEC_IMG_CMD_BUSY 0).wr Reg.SEC_IMG_CMD_RESULT 5
      else s.onDoor (fun d => { d with arm := some { a with takes := a.takes + 1 } })
    else s

/-! ### Recalibration and module service (R567, R568) -/

/-- R567: requester h writes SEC_CAL_CMD with GO; PORT and LANES have been written. -/
def State.goCal (s : State) (h : Nat) : State :=
  let p := s.rd Reg.SEC_CAL_CMD_PORT
  if h < 16 ∨ s.is1 Reg.SEC_CAL_CMD_BUSY then s
  else if s.rd Reg.SEC_CAL_CMD_LANES = 0 then s.wr Reg.SEC_CAL_CMD_RESULT 1
  else if s.portState p ≠ 4 then s.wr Reg.SEC_CAL_CMD_RESULT 5
  else (s.wr Reg.SEC_CAL_CMD_BUSY 1).wr Reg.SEC_CAL_CMD_RESULT 0

/-- R567: SEC_CAL_CMD with GO. -/
def execSecCalGo (h : Fin 18) (port : Fin 18) (lanes : BitVec 4) (s : State) : Res :=
  if s.halted then .next s else
  if h.val < 16 then .next s
  else .next (((s.wr Reg.SEC_CAL_CMD_PORT port.val).wr Reg.SEC_CAL_CMD_LANES lanes.toNat).goCal h.val)

/-- R561, R567: every lane is done: the new tables are stored and measured. -/
def execCalDone (s : State) : Res :=
  if s.halted then .next s else
  if !s.is1 Reg.SEC_CAL_CMD_BUSY then .next s
  else
    let (t, s) := s.fresh 64
    let s := ((s.onDoor (fun d => { d with cal := t })).wr Reg.SEC_CAL_CMD_BUSY 0).wr Reg.SEC_CAL_CMD_RESULT 1
    .next ((s.extendFree 5).raise 150)

/-- R568: OP DRAIN of a channel, where the rebuild that runs has done its first `done` stripes. -/
def State.wcDrain (s : State) (ch done : Nat) : State :=
  if (List.range 32).any (fun c => c % 2 == ch % 2 && s.chState c != 0) then (s.wr Reg.SEC_WC_CMD_RESULT 5).raise 151
  else ((s.channelFailed ch 3 done).wr Reg.SEC_WC_CMD_RESULT 1).raise 151

/-- R568: OP POWER_OFF of a channel. -/
def State.wcPowerOff (s : State) (ch : Nat) : State :=
  if s.chState ch ≠ 3 then (s.wr Reg.SEC_WC_CMD_RESULT 5).raise 151
  else ((s.onDoor (fun d => { d with wcOff := ch :: d.wcOff.erase ch })).wr Reg.SEC_WC_CMD_RESULT 1).raise 151

/-- R568: OP RETRAIN of a channel, which trains or fails to. -/
def State.wcRetrain (s : State) (ch : Nat) (ok : Bool) : State :=
  if s.chState ch ≠ 3 then (s.wr Reg.SEC_WC_CMD_RESULT 5).raise 151
  else
    let s := s.onDoor (fun d => { d with wcOff := d.wcOff.erase ch })
    if ok then ((s.startCopyback ch).wr Reg.SEC_WC_CMD_RESULT 1).raise 151 else (s.wr Reg.SEC_WC_CMD_RESULT 6).raise 151

/-- R568: requester h writes SEC_WC_CMD with GO; OP and CHANNEL have been written. -/
def State.goWc (s : State) (h : Nat) (ok : Bool) (done : Nat) : State :=
  let ch := s.rd Reg.SEC_WC_CMD_CHANNEL
  let op := s.rd Reg.SEC_WC_CMD_OP
  if h < 16 then s
  else if op = 1 then s.wcDrain ch done
  else if op = 2 then s.wcPowerOff ch
  else if op = 3 then s.wcRetrain ch ok
  else s

/-- A write of SEC_WC_CMD by requester h with an OP and a CHANNEL. -/
def State.wcCmd (s : State) (h op ch : Nat) (ok : Bool) (done : Nat) : State :=
  if h < 16 then s
  else ((s.wr Reg.SEC_WC_CMD_OP op).wr Reg.SEC_WC_CMD_CHANNEL ch).goWc h ok done

/-- R568: OP DRAIN; `done` is the number of stripes a running rebuild has done. -/
def execWcDrain (h : Fin 18) (ch : Fin 32) (done : Lane) (s : State) : Res := if s.halted then .next s else .next (s.wcCmd h.val 1 ch.val true done.toNat)

/-- R568: OP POWER_OFF. -/
def execWcPowerOff (h : Fin 18) (ch : Fin 32) (s : State) : Res := if s.halted then .next s else .next (s.wcCmd h.val 2 ch.val true 0)

/-- R568: OP RETRAIN; `ok` says that the module trains. -/
def execWcRetrain (h : Fin 18) (ch : Fin 32) (ok : Bool) (s : State) : Res := if s.halted then .next s else .next (s.wcCmd h.val 3 ch.val ok 0)

/-! ### The SPDM responder (R562) -/

/-- R562: an answer to the requester on a transport (0 port H, 1 to 8 an edge agent, 9 MCTP). -/
def State.spdm (s : State) (via : Nat) (name : String) (args : List Nat) (bytes : List Byte) : Res :=
  .next (s.send { name := name, dest := via, args := args, bytes := bytes })

/-- R553: whether the responder answers: from step 4 of boot, while the device is not standing still. -/
def State.spdmUp (s : State) : Bool := s.is1 Reg.SEC_BOOT_DONE && !s.halted

/-- The certificate chain of slot 0. -/
def certChain : List Byte := Config.certChain.map (BitVec.ofNat 8)

/-- An answer that carries a signature of 49,856 B made with the identity key (R560), whose secret the spec does not give: free. A
requester that has not offered the algorithm gets ERROR. -/
def State.signed (s : State) (via : Nat) (name : String) (args : List Nat) (bytes : List Byte) : Res :=
  if !s.door.algs.contains via then s.spdm via "SPDM_ERROR" [7] []
  else
    let (sig, s) := s.fresh (8 * 49856)
    s.spdm via name (args ++ [sig]) bytes

/-- R562: GET_VERSION: SPDM 1.3. -/
def execGetVersion (via : Fin 10) (s : State) : Res :=
  if s.spdmUp then s.spdm via.val "SPDM_VERSION" [0x13] [] else .next s

/-- R562: GET_CAPABILITIES. -/
def execGetCapabilities (via : Fin 10) (s : State) : Res :=
  if s.spdmUp then s.spdm via.val "SPDM_CAPABILITIES" [] [] else .next s

/-- R562: NEGOTIATE_ALGORITHMS; `offered` says that the requester offers SLH-DSA-SHAKE-256f. -/
def execNegotiateAlgorithms (via : Fin 10) (offered : Bool) (s : State) : Res :=
  if !s.spdmUp then .next s
  else
    let rest := s.door.algs.filter (fun v => v != via.val)
    let s := s.onDoor (fun d => { d with algs := if offered then via.val :: rest else rest })
    s.spdm via.val "SPDM_ALGORITHMS" [b2n offered] []

/-- R562: GET_DIGESTS: SHA3-512 of the chain of slot 0. -/
def execGetDigests (via : Fin 10) (s : State) : Res :=
  if s.spdmUp then s.spdm via.val "SPDM_DIGESTS" [1] (sha3 certChain) else .next s

/-- R562: GET_CERTIFICATE: a part of the chain of slot 0; no other slot holds one. -/
def execGetCertificate (via : Fin 10) (slot : Fin 8) (offset length : BitVec 16) (s : State) : Res :=
  if !s.spdmUp then .next s
  else if slot.val ≠ 0 ∨ certChain.length ≤ offset.toNat then s.spdm via.val "SPDM_ERROR" [1] []
  else
    let part := (certChain.drop offset.toNat).take length.toNat
    s.spdm via.val "SPDM_CERTIFICATE" [0, part.length, certChain.length - offset.toNat - part.length] part

/-- R562: CHALLENGE with a 32 B nonce. -/
def execChallenge (via : Fin 10) (slot : Fin 8) (nonce : BitVec 256) (s : State) : Res :=
  if !s.spdmUp then .next s
  else if slot.val ≠ 0 then s.spdm via.val "SPDM_ERROR" [1] []
  else s.signed via.val "SPDM_CHALLENGE_AUTH" [0, nonce.toNat] (sha3 certChain)

/-- R561, R562: GET_MEASUREMENTS: index k + 1 is SEC_MEASk, index 0 their number, 0xFF all of them. -/
def execGetMeasurements (via : Fin 10) (index : Byte) (sign : Bool) (s : State) : Res :=
  if !s.spdmUp then .next s
  else
    let i := index.toNat
    if 8 ≤ i ∧ i ≠ 255 then s.spdm via.val "SPDM_ERROR" [1] []
    else
      let ks := if i = 0 then [] else if i = 255 then List.range 7 else [i - 1]
      let bs := ks.flatMap (fun k => toLe 64 (s.meas k))
      let args := [i, if i = 0 then 7 else ks.length]
      if sign then s.signed via.val "SPDM_MEASUREMENTS" args bs else s.spdm via.val "SPDM_MEASUREMENTS" args bs

/-- R562: KEY_EXCHANGE on P-384: a session begins its handshake; its id, the responder's share and its signature are free. -/
def execKeyExchange (via : Fin 10) (share : BitVec 768) (s : State) : Res :=
  if !s.spdmUp then .next s
  else if !s.door.algs.contains via.val then s.spdm via.val "SPDM_ERROR" [7] []
  else
    let (id, s) := s.fresh 32
    let (own, s) := s.fresh 768
    let s := s.onDoor (fun d => { d with sessions := d.sessions.filter (fun x => x.via != via.val || x.id != id) ++ [{ via := via.val, id := id }] })
    s.signed via.val "SPDM_KEY_EXCHANGE_RSP" [id, own, share.toNat] []

/-- The session of a transport with an id. -/
def State.session (s : State) (via id : Nat) : Option Session := s.door.sessions.find? (fun x => x.via == via && x.id == id)

/-- R562: FINISH of a handshake; `good` says that the requester's check value is right. -/
def execFinish (via : Fin 10) (id : Lane) (good : Bool) (s : State) : Res :=
  match (if s.spdmUp then s.session via.val id.toNat else none) with
  | none => if s.spdmUp then s.spdm via.val "SPDM_ERROR" [2] [] else .next s
  | some x =>
    if x.up ∨ !good then
      (s.onDoor (fun d => { d with sessions := if x.up then d.sessions else d.sessions.erase x })).spdm via.val "SPDM_ERROR" [6] []
    else (s.onDoor (fun d => { d with sessions := d.sessions.map (fun y => if y = x then { x with up := true } else y) })).spdm via.val
      "SPDM_FINISH_RSP" [id.toNat] []

/-- A request within an established session. -/
def State.inSession (s : State) (via id : Nat) (name : String) (f : Door → Session → Door) : Res :=
  if !s.spdmUp then .next s
  else match s.session via id with
    | some x => if x.up then (s.onDoor (fun d => f d x)).spdm via name [id] [] else s.spdm via "SPDM_ERROR" [2] []
    | none => s.spdm via "SPDM_ERROR" [2] []

/-- R562: HEARTBEAT. -/
def execHeartbeat (via : Fin 10) (id : Lane) (s : State) : Res := s.inSession via.val id.toNat "SPDM_HEARTBEAT_ACK" (fun d _ => d)

/-- R562: KEY_UPDATE: the session's AES-256-GCM keys are renewed. -/
def execKeyUpdate (via : Fin 10) (id : Lane) (s : State) : Res :=
  s.inSession via.val id.toNat "SPDM_KEY_UPDATE_ACK" (fun d x =>
    { d with sessions := d.sessions.map (fun y => if y = x then { x with keys := x.keys + 1 } else y) })

/-- R562: END_SESSION. -/
def execEndSession (via : Fin 10) (id : Lane) (s : State) : Res :=
  s.inSession via.val id.toNat "SPDM_END_SESSION_ACK" (fun d x => { d with sessions := d.sessions.erase x })

end Sys2Proof.Machine
end

