-- ==== Sys2Proof/Machine/Clocks.lean ====
section
/-!
DEFINITION. Clocks, clock regions, power states and the Stage Door's rounds (R529 to R548, R591 to R593).
-/

namespace Sys2Proof.Machine

/-! ### Refclk and the root PLLs (R531, R532, R593) -/

/-- R531: no refclk edge for 100 ns: the memories enter self-refresh and every clock stops. -/
def execRefclkLoss (s : State) : Res :=
  if s.door.halt = 1 ∨ s.door.halt = 3 ∨ s.door.halt = 4 then .next s
  else .next (((s.onDoor (fun d => { d with halt := 1 })).satAdd Reg.CLK_ROOT_LOSS 1).wr Reg.CLK_ROOT_REF_OK 0)

/-- R531, R593: refclk returns, with the input at `volts` (10 mV): a warm reset, which waits for the input to reach 46 V. -/
def execRefclkReturn (volts : BitVec 16) (s : State) : Res :=
  if s.door.halt ≠ 1 ∨ volts.toNat < 4600 then .next s
  else .next ((s.wr Reg.SDR_STAT_CAUSE 4).deviceReset true 2)

/-- R532: the root PLL of a die (LOCK's bit) loses lock while refclk is present: EV_CLK_PLL, and the device acts as fenced. -/
def execPllLockLoss (die : Fin 25) (s : State) : Res :=
  if s.halted ∨ !s.bit Reg.CLK_ROOT_LOCK die.val then .next s
  else .next (((s.clrBit Reg.CLK_ROOT_LOCK die.val).raise 137).fence)

/-- R532: the Stage Door has locked the PLL again: a warm reset. -/
def execPllRelock (s : State) : Res :=
  if s.halted ∨ !s.is1 Reg.CLK_ROOT_REF_OK ∨ s.rd Reg.CLK_ROOT_LOCK = 2 ^ 25 - 1 then .next s
  else .next ((s.wr Reg.SDR_STAT_CAUSE 3).deviceReset true 3)

/-! ### The clock multiplexer (R534 to R540) -/

/-- R530: the bit of CLK_ROOT.LOCK for the die of a region. -/
def dieOfRegion (r : Nat) : Nat :=
  if r < 160 then 1 + r / 10 else if r < 184 then 17 + (r - 160) / 3 else if r < 208 then 0 else 1 + (r - 208)

/-- R538: the edges a monitor window of region r counts on an input (0 to 3 the root at ×1 to ×8, 4 REF). -/
def State.expected (s : State) (r inp : Nat) : Nat :=
  if inp = 4 then 32 else 6400 / (s.rd (Reg.CLK_REG_BASE r) * 2 ^ inp)

/-- The input region r runs on. -/
def State.inputOf (s : State) (r : Nat) : Nat := if s.door.onRef.contains r then 4 else s.rd (Reg.CLK_REG_E r)

/-- R534: the division that DIV and T ask of region r. -/
def State.wanted (s : State) (r : Nat) : Nat := max (s.rd (Reg.CLK_REG_DIV r)) (s.rd (Reg.CLK_REG_T r))

/-- R538: region r passes the check of a switch to an input, on the count of its last monitor window; a failed count clears LIVE. -/
def State.muxCheck (s : State) (r inp count : Nat) : State × Bool :=
  let want := s.expected r (s.inputOf r)
  let s := s.wr (Reg.CLK_REG_COUNT r) count
  if want + 1 < count ∨ count + 1 < want then (s.wr (Reg.CLK_REG_LIVE r) 0, false)
  else (s.wr (Reg.CLK_REG_LIVE r) 1, inp == 4 || s.bit Reg.CLK_ROOT_LOCK (dieOfRegion r))

/-- R537: region r has switched to an input. -/
def State.muxTo (s : State) (r inp : Nat) : State :=
  let s := if inp = 4 then s.onDoor (fun d => { d with onRef := r :: d.onRef.erase r })
           else (s.onDoor (fun d => { d with onRef := d.onRef.erase r })).wr (Reg.CLK_REG_E r) inp
  s.wr (Reg.CLK_REG_COUNT r) (s.expected r inp)

/-- R534, R538: region r switches to the division that DIV and T ask, where its last window passes; whether it was refused. A region with
no clock running takes the division for when it is on again. -/
def State.reclock (s : State) (r : Nat) : State × Bool :=
  let e := s.wanted r
  if s.rd (Reg.CLK_REG_POWER r) = 2 ∨ s.rd (Reg.CLK_REG_POWER r) = 3 then (s.wr (Reg.CLK_REG_E r) e, false)
  else
    let (s, ok) := s.muxCheck r e (s.rd (Reg.CLK_REG_COUNT r))
    if ok then (s.muxTo r e, false) else (s, true)

/-- R535: at a take every region whose root division is not the one asked switches to it. -/
def State.takeDivisions (s : State) : State :=
  (List.range 224).foldl (fun s r =>
    if s.rd (Reg.CLK_REG_E r) = s.wanted r then s
    else
      let (s, refused) := s.reclock r
      if refused then s.raise 138 else s) s

/-- R538: requester h writes CLK_MUX_CMD with GO; REGION and INPUT have been written. `window` is the count of the region's last monitor
window where that ended within 640 ns; `hang` says that the clock then stops while high. -/
def State.goMux (s : State) (h : Nat) (window : Option Nat) (hang : Bool) : State :=
  let r := s.rd Reg.CLK_MUX_CMD_REGION
  let inp := s.rd Reg.CLK_MUX_CMD_INPUT
  let refuse (s : State) : State := (s.wr Reg.CLK_MUX_CMD_RESULT 2).raise 138
  if h < 16 ∨ s.halted then s
  else match window with
    | none => refuse s
    | some w =>
      let (s, ok) := s.muxCheck r inp w
      if !ok then refuse s
      else if hang then ((s.onDoor (fun d => { d with muxCmd := some r })).wr (Reg.CLK_REG_MUX r) 1).wr Reg.CLK_MUX_CMD_RESULT 0
      else (s.muxTo r inp).wr Reg.CLK_MUX_CMD_RESULT 1

/-- R538: CLK_MUX_CMD with GO. -/
def execClkMuxCmdGo (h : Fin 18) (region : Fin 224) (inp : Fin 5) (window : Option (BitVec 10)) (hang : Bool) (s : State) : Res :=
  if s.halted then .next s else
  if h.val < 16 then .next s
  else .next (((s.wr Reg.CLK_MUX_CMD_REGION region.val).wr Reg.CLK_MUX_CMD_INPUT inp.val).goMux h.val (window.map BitVec.toNat) hang)

/-- R539, R540: a switch of region r is HUNG: the region is power-cycled; the units of a troupe domain and their dependants are cancelled, and
for any other region the device acts as fenced. -/
def execMuxHung (r : Fin 224) (s : State) : Res :=
  if s.halted ∨ s.rd (Reg.CLK_REG_POWER r.val) = 3 ∨ s.rd (Reg.CLK_REG_POWER r.val) = 2 then .next s
  else
    let s := (s.wr (Reg.CLK_REG_MUX r.val) 2).raise 136
    let s := if s.door.muxCmd = some r.val then (s.onDoor (fun d => { d with muxCmd := none })).wr Reg.CLK_MUX_CMD_RESULT 3 else s
    let s := s.wr (Reg.CLK_REG_POWER r.val) 3
    if r.val < 160 then
      .next ((troupesIn r.val).foldl (fun s t => (s.troupe t).units.foldl (fun s x => s.cancelUnit t x.desc.id 2) s) s)
    else .next s.fence

/-- R71, R539: a troupe of a cycled domain: its SRAM is zero and its contexts are reset; its program stays loaded. -/
def State.cycleTroupe (s : State) (t : Nat) : State := (s.zeroTroupe t).setTroupe t (s.troupe t)

/-- R539: the power cycle of region r completes. -/
def execDomainCycleComplete (r : Fin 224) (s : State) : Res :=
  if s.halted ∨ s.rd (Reg.CLK_REG_POWER r.val) ≠ 3 then .next s
  else
    let s := if r.val < 160 then (troupesIn r.val).foldl State.cycleTroupe s else s
    let s := (s.wr (Reg.CLK_REG_POWER r.val) 0).wr (Reg.CLK_REG_MUX r.val) 0
    let s := (s.muxTo r.val (s.wanted r.val)).wr (Reg.CLK_REG_LIVE r.val) 1
    let s := s.onDoor (fun d => { d with cycled := if r.val < 160 then r.val :: d.cycled.erase r.val else d.cycled })
    .next ((s.satAdd Reg.SDR_STAT_CYCLES 1).raise 143)

/-! ### The frequency counter (R549) -/

/-- R549: requester h writes CLK_FCNT with GO; its other fields have been written. -/
def State.goFcnt (s : State) (h : Nat) : State :=
  if h < 16 ∨ s.halted ∨ s.is1 Reg.CLK_FCNT_BUSY then s
  else if s.rd Reg.CLK_FCNT_WINDOW = 0 then s.wr Reg.CLK_FCNT_COUNT 0
  else s.wr Reg.CLK_FCNT_BUSY 1

/-- R549: CLK_FCNT with GO. -/
def execClkFcntGo (h : Fin 18) (window : BitVec 16) (region : Fin 224) (inp : Fin 6) (s : State) : Res :=
  if s.halted then .next s else
  if h.val < 16 then .next s
  else .next ((((s.wr Reg.CLK_FCNT_WINDOW window.toNat).wr Reg.CLK_FCNT_REGION region.val).wr Reg.CLK_FCNT_INPUT inp.val).goFcnt h.val)

/-- R549: the measurement ends with its count. -/
def execClkFcntDone (count : BitVec 24) (s : State) : Res :=
  if s.halted ∨ !s.is1 Reg.CLK_FCNT_BUSY then .next s
  else .next ((s.wr Reg.CLK_FCNT_BUSY 0).wr Reg.CLK_FCNT_COUNT count.toNat)

/-! ### Power states (R542, R543) -/

/-- R543: the device enters REST: the cue stops, work in flight is discarded, the ports go down and every region is switched off. STATE has
no code for REST: it is free. -/
def State.goRest (s : State) : State :=
  let (code, s) := s.fresh 3
  let s := { s with proc := {}, trp := {}, cour := {}, xlt := {}, coh := {}, efh := {}, sw := {}, ord := {}, emb := {}, srch := {} }
  let s := (List.range 18).foldl (fun s n => s.wr (Reg.EFH_PORT_STAT_STATE n) 0) s
  let s := [Reg.HPT_LINK_UP, Reg.HPT_LINK_WIDTH, Reg.HPT_LINK_RATE, Reg.HPT_LINK_SLOW].foldl (fun s f => s.wr f 0) s
  let s := (List.range 4).foldl (fun s k => (s.wr (Reg.EDG_PORT_HALF0 k) 0).wr (Reg.EDG_PORT_HALF1 k) 0) s
  let s := (List.range 208).foldl (fun s r => s.wr (Reg.CLK_REG_POWER r) 2) s
  let s := (s.wr Reg.CUE_PHASE_PHASE 3).wr Reg.CUE_PHASE_OFFSET 0
  (s.onDoor (fun d => { d with halt := 2, req := none })).wr Reg.PWR_CTL_STATE code

/-- R543: whether placements or the search pool keep the device from IDLE and DOZE. -/
def State.placed (s : State) : Bool :=
  (List.range 16).any (fun p => s.rd (Reg.PRT_LAYOUT_COUNT_COUNT p) != 0) || s.rd Reg.SRC_POOL_COUNT != 0

/-- R543: requester h requests a power state: 0 ACTIVE, 1 IDLE, 2 DOZE, 3 REST. -/
def State.goPower (s : State) (h req : Nat) : State :=
  let now := s.rd Reg.PWR_CTL_STATE
  if h < 16 ∨ s.door.halt = 1 ∨ 3 ≤ s.door.halt then s
  else if s.door.halt = 2 then
    (if req = 3 then (s.wr Reg.PWR_CTL_RESULT 1).raise 142 else s.deviceReset true 5)
  else if now = 4 then s
  else if req = now then (s.wr Reg.PWR_CTL_RESULT 1).raise 142
  else if (req = 1 ∨ req = 2) ∧ s.placed then s.wr Reg.PWR_CTL_RESULT 2
  else
    let s := s.onDoor (fun d => { d with req := some (req + 4 * now, if req = 0 ∧ now = 2 then 250000 + s.ofs else 0) })
    (s.wr Reg.PWR_CTL_STATE 4).wr Reg.PWR_CTL_RESULT 0

/-- R543: a request for ACTIVE. -/
def execPwrActive (h : Fin 18) (s : State) : Res := .next (s.goPower h.val 0)

/-- R543: a request for IDLE. -/
def execPwrIdle (h : Fin 18) (s : State) : Res := .next (s.goPower h.val 1)

/-- R543: a request for DOZE. -/
def execPwrDoze (h : Fin 18) (s : State) : Res := .next (s.goPower h.val 2)

/-- R543: a request for REST. -/
def execPwrRest (h : Fin 18) (s : State) : Res := .next (s.goPower h.val 3)

/-- R542: the troupe and COURIER domains as a power state holds them, from the state that was. -/
def State.powerTo (s : State) (req was : Nat) : State :=
  let s := (List.range 160).foldl (fun s r =>
    let p : Nat := s.rd (Reg.CLK_REG_POWER r)
    let unused : Bool := (troupesIn r).all (fun t => decide (3 ≤ s.trpState t))
    if p = 3 ∨ (p = 2 ∧ unused) then s
    else
      let s := if was = 2 then (troupesIn r).foldl State.cycleTroupe s else s
      s.wr (Reg.CLK_REG_POWER r) req) s
  (List.range 8).foldl (fun s m =>
    if s.rd (Reg.CLK_REG_POWER (160 + 3 * m)) = 3 then s else s.wr (Reg.CLK_REG_POWER (160 + 3 * m)) (if req = 2 then 1 else 0)) s

/-- R543: at clk 0 of a TAKE that ends a cue of `p` clk, a power request that is due is carried out. -/
def State.takePower (s : State) (p : Nat) : State :=
  match s.door.req with
  | none => s
  | some (q, wait) =>
    if p < wait then s.onDoor (fun d => { d with req := some (q, wait - p) })
    else
      let s := s.onDoor (fun d => { d with req := none })
      let s := if q % 4 = 3 then s.goRest else (s.powerTo (q % 4) (q / 4)).wr Reg.PWR_CTL_STATE (q % 4)
      (s.wr Reg.PWR_CTL_RESULT 1).raise 142

/-! ### The Stage Door's rounds (R544 to R547) -/

/-- A mean as its sum and count; no sample counts as zero. -/
abbrev Mean := Nat × Nat

/-- The mean of a list of samples. -/
def filtOf (l : List Nat) : Mean := (l.sum, max 1 l.length)

/-- Whether the first mean exceeds the second by more than d. -/
def Mean.above (a b : Mean) (d : Nat) : Bool := decide ((b.1 + d * b.2) * a.2 < a.1 * b.2)

/-- A mean as a register shows it; where it is no whole number the rounding is free. -/
def State.shown (s : State) (m : Mean) : Nat × State :=
  if m.1 % m.2 = 0 then (m.1 / m.2, s)
  else
    let (b, s) := s.fresh 1
    (m.1 / m.2 + b, s)

/-- The filtered temperature of region r, in TEMP's units (R544). -/
def State.tempOf (s : State) (r : Nat) : Mean := filtOf (s.door.temps.getD r [])

/-- The filtered core voltage of region r, in VOLT's units (R544). -/
def State.voltOf (s : State) (r : Nat) : Mean := filtOf (s.door.volts.getD r [])

/-- R544: the samples of a round enter the filters, and the registers show them. -/
def State.sampleRound (s : State) (temps volts : List Nat) (input amps : Nat) : State :=
  let s := s.onDoor (fun d => { d with
    temps := (List.range 224).map (fun r => (r, (temps.getD r 0 :: d.temps.getD r []).take 8))
    volts := (List.range 224).map (fun r => (r, (volts.getD r 0 :: d.volts.getD r []).take 4))
    powers := (input * amps :: d.powers).take 782 })
  let (w, s) := s.shown (input * amps, 10000)
  let s := (s.wr Reg.SDR_INPUT_VOLT input).wr Reg.SDR_INPUT_POWER w
  (List.range 224).foldl (fun s r =>
    let (t, s) := s.shown (s.tempOf r)
    let (v, s) := s.shown (s.voltOf r)
    (s.wr (Reg.CLK_REG_TEMP r) t).wr (Reg.CLK_REG_VOLT r) v) s

/-- The pairs of adjacent regions (R536), the lower number first. -/
def adjacentPairs : List (Nat × Nat) :=
  (List.range 224).flatMap (fun a => ((List.range 224).filter (fun b => decide (a < b) && adjacent a b)).map (fun b => (a, b)))

/-- The key of a demand: its rule, the region it raises, the other region of a pair. -/
def demandKey (rule r other : Nat) : Nat := rule * 65536 + r * 256 + other

/-- The region that one demand raises; rules 3 and 4 raise every troupe domain. -/
def demandHits (k r : Nat) : Bool :=
  if k / 65536 = 3 ∨ k / 65536 = 4 then decide (r < 160) else k / 256 % 256 == r

/-- R545: the demands that rules 3 to 8 make at the end of a round: key and throttle code, one step above the current T for rules 5 to 8. -/
def State.demands (s : State) : List (Nat × Nat) :=
  let v := s.rd Reg.SDR_INPUT_VOLT
  let mean := filtOf s.door.powers
  let step (r : Nat) : Nat := min 2 (s.rd (Reg.CLK_REG_T r) + 1)
  let r3 : List (Nat × Nat) := if 4400 ≤ v ∧ v < 4600 then [(demandKey 3 0 0, 2)] else []
  let r4 : List (Nat × Nat) := if 42000000 < s.door.powers.headD 0 then [(demandKey 4 0 0, 2)] else []
  let r5 : List (Nat × Nat) := if 36000000 * mean.2 < mean.1 then (List.range 160).map (fun r => (demandKey 5 r 0, step r)) else []
  let r6 : List (Nat × Nat) := ((List.range 224).filter (fun r => decide (164 * (s.tempOf r).2 < (s.tempOf r).1))).map (fun r => (demandKey 6 r 0, step r))
  let r7 : List (Nat × Nat) := adjacentPairs.flatMap (fun (a, b) =>
    let x := s.tempOf a
    let y := s.tempOf b
    if x.above y 25 then [(demandKey 7 a b, step a)] else if y.above x 25 then [(demandKey 7 b a, step b)] else [])
  let r8 : List (Nat × Nat) := adjacentPairs.flatMap (fun (a, b) =>
    let x := s.voltOf a
    let y := s.voltOf b
    if x.1 = 0 ∨ y.1 = 0 then [] else if y.above x 20 then [(demandKey 8 a b, step a)] else if x.above y 20 then [(demandKey 8 b a, step b)] else [])
  r3 ++ r4 ++ r5 ++ r6 ++ r7 ++ r8

/-- R546: whether the condition of a demand is clear with its margin. -/
def State.demandClear (s : State) (k : Nat) : Bool :=
  let rule := k / 65536
  let r := k / 256 % 256
  let o := k % 256
  let mean := filtOf s.door.powers
  if rule = 3 then decide (4700 ≤ s.rd Reg.SDR_INPUT_VOLT)
  else if rule = 4 ∨ rule = 5 then decide (mean.1 ≤ 34000000 * mean.2)
  else if rule = 6 then decide ((s.tempOf r).1 ≤ 159 * (s.tempOf r).2)
  else if rule = 7 then !(s.tempOf r).above (s.tempOf o) 20 && !(s.tempOf o).above (s.tempOf r) 20
  else (s.voltOf r).1 == 0 || (s.voltOf o).1 == 0 || !(s.voltOf r).above (s.voltOf o) 15 && !(s.voltOf o).above (s.voltOf r) 15

/-- R546: a demand held after one more round: after 128 clear rounds it falls by one step. -/
def State.ageDemand (s : State) (k : Nat) (x : Nat × Nat) : Option (Nat × Nat) :=
  if !s.demandClear k then some (x.1, 0)
  else if x.2 + 1 < 128 then some (x.1, x.2 + 1)
  else if x.1 ≤ 1 then none else some (x.1 - 1, 0)

/-- R545, R546: the demands held after a round. -/
def State.nextDemands (s : State) : SMap (Nat × Nat) :=
  let new := s.demands
  let kept : SMap (Nat × Nat) := s.door.demand.filterMap (fun (e : Nat × (Nat × Nat)) => (s.ageDemand e.1 e.2).map (fun y => (e.1, y)))
  new.foldl (fun (m : SMap (Nat × Nat)) (q : Nat × Nat) => m.insert q.1 (max q.2 (s.door.demand.getD q.1 (0, 0)).1, 0)) kept

/-- R534, R545: region r's throttle becomes the largest demanded; whether it changed. -/
def State.throttle (s : State) (r : Nat) : State × Bool :=
  let t := (s.door.demand.filter (fun k _ => demandHits k r)).foldl (fun (m : Nat) (e : Nat × (Nat × Nat)) => max m e.2.1) 0
  if t = s.rd (Reg.CLK_REG_T r) then (s, false)
  else
    let s := (s.wr (Reg.CLK_REG_T r) t).satAdd Reg.SDR_STAT_THROTTLES 1
    (if s.rd (Reg.CLK_REG_E r) = s.wanted r then s else (s.reclock r).1, true)

/-- R547: a trip: the cause is written, the trip counted, and the device goes to REST at once. -/
def State.tripNow (s : State) (cause : Nat) : State :=
  let s := ((s.wr Reg.SDR_STAT_CAUSE cause).satAdd Reg.SDR_STAT_TRIPS 1).raise 140
  s.goRest.onDoor (fun d => { d with trip := true })

/-- R545: rule 1: a region at 115 °C, or at 110 °C with T at ×4 for 10 rounds. -/
def State.hotTrip (s : State) : Bool :=
  (List.range 224).any (fun r => decide (179 * (s.tempOf r).2 ≤ (s.tempOf r).1) || decide (10 ≤ s.door.hot.getD r 0))

/-- R545: the rounds that rules 1 and 2 count. -/
def State.countRounds (s : State) : State :=
  let hot : SMap Nat := (List.range 224).filterMap (fun r =>
    if 174 * (s.tempOf r).2 ≤ (s.tempOf r).1 ∧ s.rd (Reg.CLK_REG_T r) = 2 then some (r, s.door.hot.getD r 0 + 1) else none)
  s.onDoor (fun d => { d with hot := hot, lowVolt := if s.rd Reg.SDR_INPUT_VOLT < 4400 then d.lowVolt + 1 else 0 })

/-- R545: whether rules 3 or 4, or an input above 60 V, hold on an input voltage and power. -/
def inputAlarm (volt power : Nat) : Bool :=
  (decide (4400 ≤ volt) && decide (volt < 4600)) || decide (42000000 < power) || decide (6000 < volt)

/-- R557, R566: a Stage Door program that is due runs from this round's boundary; its filters refill and every T is held. -/
def State.takeDoorProgram (s : State) : State :=
  match s.door.arm with
  | some a =>
    if a.kind = 1 ∧ a.cue ≤ s.cueNow then
      (s.updateTaken 1).revokeKeys.onDoor (fun d => { d with temps := [], volts := [], powers := [], hot := [], lowVolt := 0 })
    else s
  | none => s

/-- R545, R546: rules 1 to 8 at the end of a round. -/
def State.roundRules (s : State) (alarmed : Bool) : State :=
  let s := if inputAlarm (s.rd Reg.SDR_INPUT_VOLT) (s.door.powers.headD 0) ∧ !alarmed then s.raise 141 else s
  let s := s.countRounds
  if s.hotTrip then s.tripNow 1
  else if 10 ≤ s.door.lowVolt then s.tripNow 2
  else
    let limit := s.demands.any (fun q => decide (5 ≤ q.1 / 65536) && s.rd (Reg.CLK_REG_T (q.1 / 256 % 256)) == 2)
    let s := s.onDoor (fun d => { d with demand := s.nextDemands })
    let (s, moved) := (List.range 224).foldl (fun (q : State × Bool) r =>
      let (s, c) := q.1.throttle r
      (s, q.2 || c)) (s, false)
    (if moved ∨ limit then s.raise 139 else s).takeDoorProgram

/-- R544: a round ends with its samples: temperature (TEMP's units) and voltage (VOLT's units) of each region, input voltage (10 mV) and
current (10 mA). In REST the Stage Door samples alone; without refclk or input nothing runs. -/
def execStageDoorRound (temps volts : List Byte) (input amps : BitVec 16) (s : State) : Res :=
  if s.door.halt = 1 ∨ 3 ≤ s.door.halt then .next s
  else
    let alarmed := inputAlarm (s.rd Reg.SDR_INPUT_VOLT) (s.door.powers.headD 0)
    let s := s.sampleRound (temps.map BitVec.toNat) (volts.map BitVec.toNat) input.toNat amps.toNat
    .next (if s.door.halt = 2 then s else s.roundRules alarmed)

/-- R547: 100 ms after a trip: with every region at or below 95 °C and the input at 46 V, the warm reset. -/
def execTripRecovery (s : State) : Res :=
  let cool := (List.range 224).all (fun r => decide ((s.tempOf r).1 ≤ 159 * (s.tempOf r).2))
  if s.door.halt = 2 ∧ s.door.trip ∧ cool ∧ 4600 ≤ s.rd Reg.SDR_INPUT_VOLT then .next (s.deviceReset true 4) else .next s

/-! ### Output pins (R568, R588) -/

/-- R588: TRIP# is low from a trip until the warm reset that follows it. -/
def State.tripLow (s : State) : Bool := s.door.trip

/-- R568, R588: WC_PWREN of a channel is high from step 5 of boot, but for a channel that POWER_OFF has switched off. -/
def State.modulePower (s : State) (ch : Nat) : Bool :=
  s.is1 Reg.SEC_BOOT_DONE && !s.is1 Reg.SEC_BOOT_RECOVERY && !s.door.wcOff.contains ch

/-- R588: ALERT# is low while an event forwarded to the Stage Door's MCTP endpoint is pending (log entry 90). -/
def State.alertLow (s : State) : Bool := s.pendingIds.any Config.alerts

/-- R489, R595: REFCLK_Xk of port k (both halves share it) is driven whenever refclk is present, in REST too, and stops on its loss; without input, or with the pins taken by the
test port (R599), it does not run. -/
def State.refclkOut (s : State) (_k : Fin 4) : Bool := s.door.halt == 0 || s.door.halt == 2

/-- R591, R593: the power assembly disconnects the input: the contents of the Stage are lost; what the Wings keep no later command can read,
since a cold reset follows. -/
def State.disconnect (s : State) : State :=
  { s.goRest with store := { modules := s.store.modules } }.onDoor (fun d => { d with halt := 3, trip := false })

/-- R591, R593: the input exceeds 63 V. -/
def execInputOvervoltageDisconnect (s : State) : Res := .next s.disconnect

/-- R591: the input falls to 40 V. -/
def execUndervoltageLockout (s : State) : Res := .next s.disconnect

end Sys2Proof.Machine
end

