-- ==== Sys2Proof/Machine/CtrlSpace.lean ====
section
/-!
DEFINITION. The control space: reads and writes of registers, of Prompt Book data and of exception records, by port H, the board management
controller, a control core and the command device (R7 to R13, R372, R576 to R584).
-/

namespace Sys2Proof.Machine

/-! ### What software reads (R10 to R12, R579) -/

/-- R92: the WAIT code of a CE; a CE at a barrier, in FENCE or held at issue counts as running. -/
def waitCode : CxSt → Nat
  | .recv => 1 | .credit => 2 | .cue _ => 5 | .idle => 6 | .halt => 7 | _ => 0

/-- R514: the STATE and CAUSE of a control core. -/
def coreCode : CxSt → Nat × Nat
  | .off => (0, 0) | .run => (1, 0) | .stopped c => (3, c) | _ => (2, 0)

/-- R265: the STATE and CAUSE of a courier context. -/
def ctxCode : CxSt → Nat × Nat
  | .pool => (0, 0) | .idle => (1, 0) | .fault c => (3, c) | .stopped c => (4, c) | .halted => (5, 0) | _ => (2, 0)

/-- R86: the unit that an idle CE takes next, where its start offset has not yet been reached. -/
def State.startAhead (s : State) (t c : Nat) : Option Nat :=
  match (s.troupe t).img with
  | none => none
  | some img =>
    match (s.troupe t).nextUnit img c with
    | none => none
    | some u =>
      match (s.troupe t).unit u with
      | none => none
      | some x => if s.phase = 0 ∨ (s.phase = 1 ∧ !x.carried ∧ s.ofs < x.desc.start) then some u else none

/-- The value of a field that follows from other state: the name of its register and its lowest bit decide. -/
def State.derived (s : State) (name : String) (x lo : Nat) : Option Nat :=
  if name = "TRP_CE_STATE" then
    let t := (x - 0x1000000) / 0x400
    let i := (x % 0x400 - 0x100) / 8
    let c := s.cxAt (ceKey t i)
    let next := if c.st = .idle then s.startAhead t i else none
    some (if lo = 48 then next.getD c.unit else if lo = 32 then c.pc
      else if s.trpState t = 5 then 7 else if next.isSome then 5 else waitCode c.st)
  else if name = "SMX_CORE" then
    let c := s.cxAt (coreKey ((x - 0x46200) / 8))
    some (if lo = 24 then (coreCode c.st).2 else if lo = 8 then c.pc else (coreCode c.st).1)
  else if name = "CRR_CTX_STATE" ∧ lo ≠ 32 then
    let c := s.cxAt (ctxKey ((x - 0x400000) / 0x40))
    some (if lo = 48 then c.unit else if lo = 16 then c.pc else if lo = 8 then (ctxCode c.st).2 else (ctxCode c.st).1)
  else if name = "COH_SLICE" then
    let sl := (x - 0x600040) / 8
    let n (p : DirEnt → Bool) : Nat := (s.coh.dir.filter (fun k d => sliceOf k == sl && p d)).length
    some (if lo = 32 then n (fun d => d.st != 0) else if lo = 16 then n (fun d => d.st == 4) else (s.buffered sl).length)
  else if name = "COH_AGENT" ∧ lo = 32 then some (s.coh.dir.filter (fun _ d => d.lists ((x - 0x600100) / 8))).length
  else if name = "COH_AGENT" ∧ lo = 0 ∧ x < 0x600100 + 8 * 25 then some 1
  else if name = "SWX_BUF" then
    some (if lo = 0 then s.cellsFree else if lo = 20 then s.sw.cells.length else s.sw.acc.length)
  else if name = "CLK_REG" ∧ lo = 45 ∧ 0x1C01000 + 8 * 208 ≤ x ∧ s.rd (Reg.CLK_REG_POWER ((x - 0x1C01000) / 8)) = 0 then some 4
  else none

/-- R7: what a live field reads as. -/
def State.readFld (s : State) (name : String) (f : Fld) : Nat :=
  if f.acc = .WO then 0 else ((s.derived name f.reg f.lo).getD (s.rd f)) % 2 ^ f.width

/-- R579: the register at a live offset, read whole. -/
def State.readReg (s : State) (x : Nat) : Nat :=
  let name := Reg.nameAt x
  ((Reg.fieldsAt x).map (fun f => s.readFld name f * 2 ^ f.lo)).sum

/-- R10, R11: the staged copy of the register at a live offset. -/
def State.readStaged (s : State) (x : Nat) : Nat :=
  (((Reg.fieldsAt x).filter (·.taken)).map (fun f => s.rdStaged f * 2 ^ f.lo)).sum

/-- R515: 8 bytes of the exception queue's memory. -/
def State.readXq (s : State) (x : Nat) : Nat :=
  let r := s.proc.xq.getD ((x - 0x47000) / 16) {}
  bitsOf (if (s.proc.xq.find? ((x - 0x47000) / 16)).isSome then r.num else 0) (64 * (x / 8 % 2)) 64

/-- R578, R583: whether an offset answers: in recovery only the identification and security blocks do, and for the board management
controller also the clocks block; in REST those three answer it alone. Nothing answers a device that stands still otherwise. -/
def State.answers (s : State) (bmc : Bool) (x : Nat) : Bool :=
  let few := decide (x < 0x10000) || (decide (0x1E00000 ≤ x) && decide (x < 0x1F00000)) || (bmc && decide (0x1C00000 ≤ x) && decide (x < 0x1E00000))
  if s.door.halt = 2 then bmc && few
  else !s.halted && (!s.is1 Reg.SEC_BOOT_RECOVERY || few)

/-- R541: a register access to a troupe's window ungates its domain. -/
def State.touch (s : State) (x : Nat) : State :=
  let y := x % 0x2000000
  if 0x1000000 ≤ y ∧ y < 0x1640000 then
    let r := regionOf ((y - 0x1000000) / 0x400)
    if s.rd (Reg.CLK_REG_POWER r) = 1 then s.ungate r else s
  else s

/-- R576, R577: the 8 bytes at an aligned control-space offset. -/
def State.ctrlRead (s : State) (bmc : Bool) (off : Nat) : Nat :=
  let x := off / 8 * 8
  if !s.answers bmc x then 0
  else if x < 0x2000000 then
    if 0x1F00000 ≤ x ∧ x < 0x1F20000 then Memory.num s.book.live (x - 0x1F00000) 8
    else if 0x47000 ≤ x ∧ x < 0x48000 then s.readXq x
    else s.readReg x
  else if 0x3F00000 ≤ x ∧ x < 0x3F20000 then Memory.num s.book.staged (x - 0x3F00000) 8
  else if x < 0x4000000 then s.readStaged (x - 0x2000000)
  else 0

/-! ### What software writes (R7, R13, R579, R582) -/

/-- A write of one register: its live offset, the value, and the bits it acts on (R579). -/
structure RegWrite where
  x : Nat
  v : Nat
  mask : Nat
  deriving DecidableEq, Repr

/-- R579: whether a write acts on a field: the field lies whole in the half it addresses. -/
def RegWrite.covers (w : RegWrite) (f : Fld) : Bool := bitsOf w.mask f.lo f.width == 2 ^ f.width - 1

/-- The value a write gives a field; none where it does not act on it or writes a reserved encoding (R13). -/
def RegWrite.given (w : RegWrite) (f : Fld) : Option Nat :=
  let v := bitsOf w.v f.lo f.width
  if w.covers f && f.allows v then some v else none

/-- The value a field has after a write: the one given, else the one it holds. -/
def State.after_ (s : State) (w : RegWrite) (f : Fld) : Nat := (w.given f).getD (s.rd f)

/-- Whether a write sets a command bit. -/
def RegWrite.sets (w : RegWrite) (f : Fld) : Bool := w.given f == some 1

/-- R7, R13: a write acts on one live field by its access code; a Taken field ignores it (R10). -/
def State.writeFld (s : State) (w : RegWrite) (f : Fld) : State :=
  match w.given f with
  | none => s
  | some v =>
    if f.taken then s
    else match f.acc with
    | .RW => s.wr f v
    | .RWS => s.wr f v
    | .W1C => s.wr f (s.rd f &&& (2 ^ f.width - 1 - v))
    | .W1S => s.wr f (s.rd f ||| v)
    | .RO => s
    | .WO => s

/-- R7: a write acts on every field of a register that has no behaviour of its own. -/
def State.writePlain (s : State) (w : RegWrite) : State := (Reg.fieldsAt w.x).foldl (fun s f => s.writeFld w f) s

/-- What SOURCE's mirror holds for n units when the write of a register alone starts a restore: free. -/
def State.freeSlots_ (s : State) (n : Nat) : List (Option (List (BitVec 512 × Byte))) × State :=
  ((List.range n).map (fun i =>
      let b := s.free + 2049 * i
      if Config.freeValue b % 2 = 0 then none
      else some ((List.range 1024).map (fun j => (BitVec.ofNat 512 (Config.freeValue (b + 1 + 2 * j)), BitVec.ofNat 8 (Config.freeValue (b + 2 + 2 * j)))))),
   { s with free := s.free + 2049 * n })

/-- R368, R386: a write of EFH_PORT_CTL. -/
def State.portCtlWrite (s : State) (w : RegWrite) (n : Nat) : State :=
  let s := (s.writeFld w (Reg.EFH_PORT_CTL_PEER n)).writeFld w (Reg.EFH_PORT_CTL_PEER_CHECK n)
  match w.given (Reg.EFH_PORT_CTL_EN n) with
  | some e => s.portEnable n (e == 1)
  | none => s

/-- R317, R511: EDG_PORTk.EN: a port held down ends its agents' links. -/
def State.edgeEnable (s : State) (k : Nat) (en : Bool) : State :=
  let s := s.wr (Reg.EDG_PORT_EN k) (b2n en)
  if en then s
  else ((((s.edgeLost (2 * k)).edgeLost (2 * k + 1)).wr (Reg.EDG_PORT_HALF0 k) 0).wr (Reg.EDG_PORT_HALF1 k) 0)

/-- R485: HPT_CFG.BAR2_LOG2 and the non-volatile value. -/
def State.writeBar2 (s : State) (v : Nat) : State :=
  if Reg.HPT_CFG_BAR2_LOG2.allows v then (s.wr Reg.HPT_CFG_BAR2_LOG2 v).onDoor (fun d => { d with bar2 := v }) else s

/-- R472: an ABORT bit that software clears makes the partition start again at a step-boundary TAKE. -/
def State.partStateWrite (s : State) (w : RegWrite) : State :=
  let old := s.rd Reg.EFH_PART_STATE_ABORT
  let s := s.writePlain w
  { s with res := { s.res with resume := s.res.resume ||| (old &&& (2 ^ 16 - 1 - s.rd Reg.EFH_PART_STATE_ABORT)) } }

/-- Registers of the call sheet, the event controller and the Stage Manager whose writes have a behaviour of their own. -/
def State.writeSm (s : State) (h : Nat) (w : RegWrite) (name : String) (i : Nat) : Option State :=
  if name = "CS_TAKE_CUE" then some (s.writeTakeCue h (s.after_ w Reg.CS_TAKE_CUE_STEP == 1) (s.after_ w Reg.CS_TAKE_CUE_CUE))
  else if name = "CS_CHECK" then some (if w.sets Reg.CS_CHECK_GO then s.goCheck h else s)
  else if name = "CS_ABANDON" then some (if w.sets Reg.CS_ABANDON_GO then s.goAbandon h else s)
  else if name = "EVC_PENDING" ∨ name = "EVC_SRC" ∨ name = "EVC_CORE" then some (s.writePlain w).settleLatches
  else if name = "EVC_RAISE" then some (match w.given Reg.EVC_RAISE_ID with | some id => s.softRaise id | none => s)
  else if name = "SMX_CORE" then some (if w.sets (Reg.SMX_CORE_RESTART i) then s.goRestart h i else s)
  else if name = "SMX_XQ" then
    let s := s.writeFld w Reg.SMX_XQ_LOST
    some (match w.given Reg.SMX_XQ_RD with | some r => s.writeXqRd h r | none => s)
  else none

/-- Registers of translation, the store, couriers, coherence and Efhal whose writes have a behaviour of their own. -/
def State.writeMem (s : State) (h : Nat) (w : RegWrite) (name : String) (i : Nat) : Option State :=
  if name = "XLT_TLBI_CTL" then
    some (if w.sets Reg.XLT_TLBI_CTL_GO then
        s.tlbi h (s.after_ w Reg.XLT_TLBI_CTL_OP) (s.after_ w Reg.XLT_TLBI_CTL_PARTITION) (s.after_ w Reg.XLT_TLBI_CTL_COUNT)
      else s.writePlain w)
  else if name = "STM_HINT_CMD" then
    some (if w.sets Reg.STM_HINT_CMD_GO then (s.writePlain w).goHint h else s.writePlain w)
  else if name = "STM_LOFT_CMD" then
    some (match w.given Reg.STM_LOFT_CMD_OP with
      | some op => s.loftCmd h op ((w.given Reg.STM_LOFT_CMD_ENTRY).getD 0) ((w.given Reg.STM_LOFT_CMD_END_CUE).getD 0)
      | none => s)
  else if name = "STM_LEND" then
    some (if s.rd (Reg.STM_LEND_STATE i) = 0 then s.writePlain w
      else (s.writeFld w (Reg.STM_LEND_LOG2 i)).writeFld w (Reg.STM_LEND_BORROWER i))
  else if name = "CRR_CTX_CTL" then
    some (s.ctxCtl h i (w.sets (Reg.CRR_CTX_CTL_RESUME i)) (w.sets (Reg.CRR_CTX_CTL_ABANDON i)) (w.sets (Reg.CRR_CTX_CTL_RESTART i)))
  else if name = "COH_AGENT" then
    let s := s.writePlain w
    some (if w.sets (Reg.COH_AGENT_REARM i) then s.cohRearm h i else s)
  else if name = "EFH_REGION_CMD" then
    some (if w.sets Reg.EFH_REGION_CMD_GO then (s.writePlain w).goRegion h else s.writePlain w)
  else if name = "EFH_PART_STATE" then some (s.partStateWrite w)
  else if name = "EFH_PORT_CTL" then some (s.portCtlWrite w i)
  else none

/-- Registers of resilience, troupes, hosts and edge agents whose writes have a behaviour of their own. -/
def State.writeRes (s : State) (h : Nat) (w : RegWrite) (name : String) (i : Nat) : Option State :=
  if name = "RSL_ADMIT" then
    some (if w.sets Reg.RSL_ADMIT_GO ∧ s.is1 Reg.RSL_PM_STATE_JOINING then s.wr Reg.RSL_ADMIT_TEST 1 else s)
  else if name = "RSL_RESTORE_CMD" then
    let s := s.writePlain w
    if w.sets Reg.RSL_RESTORE_CMD_GO then
      let (slots, s) := s.freeSlots_ (s.rd Reg.RSL_RESTORE_UNIT_COUNT)
      some (s.goRestore h slots)
    else some s
  else if name = "TRP_RETIRE" then some (if w.sets (Reg.TRP_RETIRE_GO i) then s.goRetire h i else s)
  else if name = "HPT_CFG" then some (match w.given Reg.HPT_CFG_BAR2_LOG2 with | some v => s.writeBar2 v | none => s)
  else if name = "EDG_PORT" then
    let s := (s.writeFld w (Reg.EDG_PORT_BIF i)).writeFld w (Reg.EDG_PORT_SRIS i)
    some (match w.given (Reg.EDG_PORT_EN i) with | some e => s.edgeEnable i (e == 1) | none => s)
  else if name = "PBK_FRAME_STAGE" then
    some (s.frameWrite h i (s.after_ w (Reg.PBK_FRAME_STAGE_OWNER i)) (s.after_ w (Reg.PBK_FRAME_STAGE_COND i) == 1)
      (w.sets (Reg.PBK_FRAME_STAGE_DONE i)) (s.after_ w (Reg.PBK_FRAME_STAGE_TAG i)))
  else none

/-- Registers of the clocks, power and security blocks whose writes have a behaviour of their own. What only the hardware knows when
such a command starts (a monitor window, a stopped clock, a module's training) is free here. -/
def State.writeDoor (s : State) (h : Nat) (w : RegWrite) (name : String) : Option State :=
  if name = "CLK_FCNT" then some (if w.sets Reg.CLK_FCNT_GO then (s.writePlain w).goFcnt h else s.writePlain w)
  else if name = "CLK_MUX_CMD" then
    let s := s.writePlain w
    if w.sets Reg.CLK_MUX_CMD_GO then
      let (fresh, s) := s.fresh 1
      let (count, s) := s.fresh 10
      let (hang, s) := s.fresh 1
      some (s.goMux h (if fresh = 1 then some count else none) (hang == 1))
    else some s
  else if name = "PWR_CTL" then
    some (if w.sets Reg.PWR_CTL_GO then s.goPower h ((w.given Reg.PWR_CTL_REQ).getD 0) else s)
  else if name = "SEC_RESET" then
    some (if w.sets Reg.SEC_RESET_GO then s.goReset h (w.sets Reg.SEC_RESET_KIND) else s)
  else if name = "SEC_IMG_CMD" then some (if w.sets Reg.SEC_IMG_CMD_GO then (s.writePlain w).goImg h else s.writePlain w)
  else if name = "SEC_CAL_CMD" then some (if w.sets Reg.SEC_CAL_CMD_GO then (s.writePlain w).goCal h else s.writePlain w)
  else if name = "SEC_WC_CMD" then
    let s := s.writePlain w
    if w.sets Reg.SEC_WC_CMD_GO then
      let (ok, s) := s.fresh 1
      let (done, s) := s.fresh 32
      some (s.goWc h (ok == 1) done)
    else some s
  else none

/-- R582, R584: a write of requester h (16 or 17) to a live register: its fields, and the command it starts. -/
def State.writeReg (s : State) (h : Nat) (w : RegWrite) : State :=
  let name := Reg.nameAt w.x
  let i := Reg.indexAt w.x
  match s.writeSm h w name i with
  | some s => s
  | none => match s.writeMem h w name i with
    | some s => s
    | none => match s.writeRes h w name i with
      | some s => s
      | none => (s.writeDoor h w name).getD (s.writePlain w)

/-- R576, R577, R579: a write of requester h of the bits `mask` selects of the 8 bytes at an aligned control-space offset. -/
def State.ctrlWrite (s : State) (h : Nat) (bmc : Bool) (off v mask : Nat) : State :=
  let x := off / 8 * 8
  if h < 16 ∨ !s.answers bmc x then s
  else
    let s := s.touch x
    if x < 0x2000000 then
      (if (0x1F00000 ≤ x ∧ x < 0x1F20000) ∨ (0x47000 ≤ x ∧ x < 0x48000) then s else s.writeReg h ⟨x, v, mask⟩)
    else if 0x3F00000 ≤ x ∧ x < 0x3F20000 then
      let b := x - 0x3F00000 + (if bitOf mask 0 then 0 else 4)
      let bs := if mask = 2 ^ 64 - 1 then toLe 8 v else toLe 4 (if bitOf mask 0 then v else v / 2 ^ 32)
      s.bookWrite h (b / 1024) (b % 1024) bs
    else if x < 0x4000000 then s.stageReg h (x - 0x2000000) v mask
    else s

/-- The bits of a register that a 4-byte or 8-byte access selects. -/
def halfMask (off n : Nat) : Nat := if n = 8 then 2 ^ 64 - 1 else if off % 8 = 0 then 2 ^ 32 - 1 else 2 ^ 64 - 2 ^ 32

/-- R579: a read of 4 or 8 bytes. -/
def State.ctrlLoad (s : State) (bmc : Bool) (off n : Nat) : Nat := bitsOf (s.ctrlRead bmc off) (if n = 8 then 0 else 8 * (off % 8)) (8 * n)

/-- R579: a write of 4 or 8 bytes. -/
def State.ctrlStore (s : State) (h : Nat) (bmc : Bool) (off n v : Nat) : State :=
  s.ctrlWrite h bmc off (if n = 8 then v else v * 2 ^ (8 * (off % 8))) (halfMask off n)

/-! ### Commands -/

/-- R7, R13: a write by requester h (16 port H, 17 a control core) of the live register at an 8 B-aligned offset. -/
def execRegisterWrite (h : Fin 18) (off : Fin 0x2000000) (x : Word) (s : State) : Res :=
  if s.halted then .next s else
  .next (s.ctrlWrite h.val false (off.val / 8 * 8) x.toNat (2 ^ 64 - 1))

/-- R485: a write of HPT_CFG.BAR2_LOG2. -/
def execHptCfgBar2Write (h : Fin 18) (v : BitVec 6) (s : State) : Res := if s.halted then .next s else .next (if h.val < 16 then s else s.writeBar2 v.toNat)

/-- R583: the board management controller reads (none) or writes the 8 bytes at an offset. -/
def execMctpControlAccess (word : Fin 0x800000) (x : Option Word) (s : State) : Res :=
  if s.halted ∧ s.door.halt ≠ 2 then .next s
  else
    let off := 8 * word.val
    match x with
    | none => .next ((s.touch off).send { name := "MCTP_READ", args := [off, s.ctrlRead true off] })
    | some v => .next ((s.ctrlWrite 16 true off v.toNat (2 ^ 64 - 1)).send { name := "MCTP_DONE", args := [off] })

/-- R372: a CTRL_RD of 8 bytes, or 4, from a device: served only for the command device. -/
def execCtrlRd (src : Fin 64) (id : BitVec 16) (off : Fin 0x4000000) (wide8 : Bool) (s : State) : Res :=
  if s.deaf 16 then .next s
  else if s.rd Reg.EFH_CTL_FM_DEVICE ≠ src.val then .next (s.respond src.val id.toNat { status := 0x11 } false)
  else
    let n := if wide8 then 8 else 4
    let o := off.val / n * n
    .next ((s.touch o).respond src.val id.toNat { data := BitVec.ofNat 512 (s.ctrlLoad false o n) } false)

/-- R372, R584: a CTRL_WR of 8 bytes, or 4: the command device's is performed with holder code 16. -/
def execCtrlWr (src : Fin 64) (id : BitVec 16) (off : Fin 0x4000000) (wide8 : Bool) (x : Word) (s : State) : Res :=
  if s.deaf 16 then .next s
  else if s.rd Reg.EFH_CTL_FM_DEVICE ≠ src.val then .next (s.respond src.val id.toNat { status := 0x11 } false)
  else
    let n := if wide8 then 8 else 4
    let o := off.val / n * n
    .next ((s.ctrlStore 16 false o n x.toNat).respond src.val id.toNat {} false)

/-- R511: a write of EDG_PORTk.EN by requester h. -/
def execEdgePortEn (h : Fin 18) (k : Fin 4) (en : Bool) (s : State) : Res := if s.halted then .next s else .next (if h.val < 16 then s else s.edgeEnable k.val en)

end Sys2Proof.Machine
end

