-- ==== Sys2Proof/Machine/Cmem.lean ====
section
/-!
DEFINITION. CMEM, major 0x16: the loads and stores of a control core in its LOCAL memory, the control space and the store (R209).
-/

namespace Sys2Proof.Machine

/-- What a CMEM access answers: it waits at issue, it raises ADDR, or it has a status and, for a load, a value. -/
inductive CRes where
  | wait (s : State)
  | addr
  | done (s : State) (status value : Nat)

/-- The tracked agent of core c's data cache (R325). -/
def coreAgent (c : Nat) : Nat := 8 + c

/-- The key of core n's LOCAL byte a. -/
def localKey (n a : Nat) : Nat := 262144 * n + a

/-- R209: a load of n bytes by core c from an address of a space (0 LOCAL, 1 CTRL, 2 STORE). What a load that a status stops
gives is a free value, but for zero from a lost target, whose data is a dead letter (R384, R448). -/
def State.cmemLoad (s : State) (c space a n : Nat) : CRes :=
  if a % n ≠ 0 then .addr
  else if space = 0 then
    if 262144 ≤ a then .addr else .done s 0 (Memory.num s.proc.loc (localKey c a) n)
  else if space = 1 then
    if 0x4000000 ≤ a then .addr else .done (s.touch a) 0 (s.ctrlLoad false a n)
  else
    let (s, r) := s.readPga (coreAgent c) (coreKey c) 16 a
    match r with
    | .wait => .wait s
    | .stat code =>
      if code = 0x23 then .done s code 0
      else
        let (v, s) := s.fresh 64
        .done s code v
    | .line x marks =>
      let marked := (List.range 8).any (fun j => bitOf marks j && decide (a % 64 < 8 * j + 8) && decide (8 * j < a % 64 + n))
      .done s (if marked then 0x20 else 0) (leBytes (((seenBytes (x, marks)).drop (a % 64)).take n))

/-- R209: a store of n bytes by core c to an address of a space. -/
def State.cmemStore (s : State) (c space a n v : Nat) : CRes :=
  if a % n ≠ 0 then .addr
  else if space = 0 then
    if 262144 ≤ a then .addr
    else .done { s with proc := { s.proc with loc := Memory.store s.proc.loc (localKey c a) (toLe n v) } } 0 0
  else if space = 1 then
    if 0x4000000 ≤ a then .addr else .done (s.ctrlStore 17 false a n (v % 2 ^ (8 * n))) 0 0
  else
    let i := a % 64
    let (s, r) := s.writePga (coreAgent c) (coreKey c) 16 (a - i) (BitVec.ofNat 512 (v % 2 ^ (8 * n) * 2 ^ (8 * i))) 0 ((2 ^ n - 1) * 2 ^ i)
    match r with
    | .wait => .wait s
    | .stat code => .done s code 0
    | .line _ _ => .done s 0 0

/-- The encoding of an R-form load of CMEM. -/
def encCld (minor : Nat) : Enc := { major := 0x16, minor := minor, d := .a, a := .a, b := .a, modMask := 3 }

/-- The encoding of an R-form store of CMEM. -/
def encCst (minor : Nat) : Enc := { major := 0x16, minor := minor, d := .s, a := .a, b := .a, c := .a, modMask := 3 }

/-- R138: sD, which every R-form minor writes, holds the instruction while a write of it is pending. -/
def sdPending (x : Cx) (f : BitVec 52) : Bool := x.pend.contains ⟨0, fD f⟩

/-- The issue of an R-form load of n bytes. -/
def cmemLd (u : Agent) (minor n : Nat) (f : BitVec 52) (s : State) : Res :=
  .next (issue u (encCld minor) f (fMOD f != 3) (fun x s =>
    if sdPending x f then .wait s .hold
    else
      let a := (x.ar (fA f) + x.ar (fB f)) % 2 ^ 64
      match s.cmemLoad (coreOf u) (fMOD f) a n with
      | .wait s => .wait s .hold
      | .addr => .exc 4 a
      | .done s status v => .go (s.setCx u (((s.cx u).setA (fD f) v).setS (fD f) status))) s)

/-- The issue of an R-form store of n bytes; a store that resets the device ends there. -/
def cmemSt (u : Agent) (minor n : Nat) (f : BitVec 52) (s : State) : Res :=
  .next (issue u (encCst minor) f (fMOD f != 3) (fun x s =>
    let a := (x.ar (fA f) + x.ar (fB f)) % 2 ^ 64
    match s.cmemStore (coreOf u) (fMOD f) a n (x.ar (fC f)) with
    | .wait s => .wait s .hold
    | .addr => .exc 4 a
    | .done s status _ => if (s.cx u).st = .off then .wait s .off else .go (s.setCx u ((s.cx u).setS (fD f) status))) s)

/-- R209 LD64: aD := 8 B. -/
def execLd64 (u : Agent) (f : BitVec 52) (s : State) : Res := cmemLd u 0 8 f s

/-- R209 ST64: 8 B := aC. -/
def execSt64 (u : Agent) (f : BitVec 52) (s : State) : Res := cmemSt u 1 8 f s

/-- R209 LD32: aD := 4 B, zero-extended. -/
def execLd32 (u : Agent) (f : BitVec 52) (s : State) : Res := cmemLd u 2 4 f s

/-- R209 ST32: 4 B := aC[31:0]. -/
def execSt32 (u : Agent) (f : BitVec 52) (s : State) : Res := cmemSt u 3 4 f s

/-- The encoding of an I-form minor of CMEM. -/
def encCi (minor : Nat) : Enc := { major := 0x16, minor := minor, iform := true, d := .a, a := .a, imm := 32 }

/-- R209: the LOCAL address of an I-form minor. -/
def localAddr (x : Cx) (f : BitVec 52) : Nat := unsgn 64 ((x.ar (fA f) : Int) + sgn 32 (fIMM f))

/-- R209 LDL: aD := 8 B of LOCAL. -/
def execLdl (u : Agent) (f : BitVec 52) (s : State) : Res :=
  .next (issue u (encCi 4) f true (fun x s =>
    match s.cmemLoad (coreOf u) 0 (localAddr x f) 8 with
    | .done s _ v => .go (s.setCx u ((s.cx u).setA (fD f) v))
    | .wait s => .wait s .hold
    | .addr => .exc 4 (localAddr x f)) s)

/-- R209 STL: 8 B of LOCAL := aD. -/
def execStl (u : Agent) (f : BitVec 52) (s : State) : Res :=
  .next (issue u (encCi 5) f true (fun x s =>
    match s.cmemStore (coreOf u) 0 (localAddr x f) 8 (x.ar (fD f)) with
    | .done s _ _ => .go s
    | .wait s => .wait s .hold
    | .addr => .exc 4 (localAddr x f)) s)

end Sys2Proof.Machine
end

