-- ==== Sys2Proof/Machine/Cue.lean ====
section
/-!
DEFINITION. The cue: the take of a call sheet, what clk 0 of TAKE does, the starts of WORK and GUARD, and the leader's cue-sync (R33 to R41, R45,
R57, R91, R211, R462).
-/

namespace Sys2Proof.Machine

/-! ### What the take of a sheet changes (R40, R51, R91) -/

/-- The fields that the sheet stages, changed or not. -/
def State.stagedFields (s : State) : List Fld :=
  s.staged.filterMap (fun e => (Reg.fieldsAt (e.1 / 64)).find? (fun f => f.lo == e.1 % 64))

/-- R50, R51: live takes the staged values, and the sheet is TAKEN. -/
def State.takeFields (s : State) : State :=
  let held := s.is1 Reg.CS_STATUS_STEP_HELD
  let s := s.stagedFields.foldl (fun s f => s.wr f (s.rdStaged f)) s
  let s := { s with staged := [], sheet := { s.sheet with refusedPair := none } }
  let s := ((s.wr Reg.CS_STATUS_STATE 4).wr Reg.CS_STATUS_HOLDER 31).wr Reg.CS_STATUS_STEP_HELD 0
  let s := (s.wr Reg.CS_TAKE_CUE_CUE s.cueNow).wrapAdd Reg.CS_COUNTS_TAKEN 1
  (if held then s.unpend 37 else s).raise 32

/-- R61: the CEs of a RETIRED troupe are idle, whatever halted them. -/
def State.idleCEs (s : State) (t : Nat) : State :=
  (List.range 48).foldl (fun s c => s.setCxAt (ceKey t c) { s.cxAt (ceKey t c) with st := .idle }) s

/-- R61, R91: the pending retirements are taken. -/
def State.takeRetirements (s : State) : State :=
  let s := s.sheet.retiring.foldl (fun s e =>
    let s := ((((s.moveTroupe e.2 0).moveTroupe e.1 4).setTroupe e.1 {}).idleCEs e.1)
    ((s.onDoor (fun d => { d with retired := d.retired ++ [(e.1, e.2)] })).wr (Reg.TRP_RETIRE_RESULT e.1) 2).raise 42) s
  { s with sheet := { s.sheet with retiring := [] } }

/-- R316: a take that changes the translation roots of a partition removes its TLB entries. -/
def State.flushTaken (s : State) (ch : List Fld) : State :=
  (List.range 16).foldl (fun s p =>
    if ch.any (fun f => f = Reg.PRT_CTL_EN p || f = Reg.PRT_CTL_S1_EN p || f = Reg.PRT_S1_ROOT_ROOT p || f = Reg.PRT_S2_ROOT_ROOT p) then
      s.dropTlb (fun e => e.part == p)
    else s) s

/-- R370, R373: the outstanding requests of the routes that a take changes are sent again. -/
def State.rerouteTaken (s : State) (ch : List Fld) : State :=
  (List.range 64).foldl (fun s d => if ch.contains (Reg.EFH_ROUTE_PORT d) then s.resendTo d else s) s

/-- R407: a take that changes or disables a reduction definition voids its open accumulators. -/
def State.voidTaken (s : State) (ch : List Fld) : State :=
  ((s.sw.acc.map (fun (a : Accum) => a.red)).dedup.filter (fun n => ch.any (fun f =>
    f.reg == (Reg.SWX_RED_DEF0_DEV n).reg || f.reg == (Reg.SWX_RED_DEF1_ACC n).reg))).foldl State.voidRed s

/-- R398: the inputs of the ports that are UP advertise the reserve cells that a take adds. -/
def State.reservesTaken (s old : State) : State :=
  (List.range 7).foldl (fun s c =>
    let was := old.rd (Reg.SWX_CLASS_RES c)
    let now := s.rd (Reg.SWX_CLASS_RES c)
    if now ≤ was then s
    else ((List.range 18).filter (fun n => s.portState n == 4)).foldl (fun s n =>
      s.creditSend n c (now - was)) s) s

/-- R71: the SRAM of a troupe whose assignment changes, which does not keep its contents: its bytes are free (log entry 2). -/
def State.looseSram (s : State) (t : Nat) : State :=
  let z := s.zeroTroupe t
  let bs : List Byte := (List.range 393216).map (fun i => BitVec.ofNat 8 (Config.freeValue (2 ^ 67 + 393216 * s.free + i)))
  { z with trp := { z.trp with sram := Memory.store z.trp.sram (393216 * t) bs }, free := s.free + 1,
           proc := { z.proc with cx := s.proc.cx } }

/-- R63, R71: the troupes whose assignment a take changes lose their SRAM contents, but for spares, which were zeroed when they became
RESERVED. -/
def State.reassigned (s old : State) (ch : List Fld) : State :=
  ((List.range 6400).filter (fun t =>
    (ch.contains (Reg.TRP_STATE_LOGICAL t) || ch.contains (Reg.TRP_STATE_PARTITION t)) && decide (old.trpState t ≤ 1) &&
      decide (s.trpState t ≤ 1))).foldl State.looseSram s

/-! ### Stage programs (R63, R82, R211) -/

/-- R211: a troupe with an image placed on it, before its first unit. -/
def placeTroupe (img : Img) (first : Nat) : Troupe :=
  { img := some img, first := first, units := img.units.map (fun d => { desc := d }), ins := img.ins.map (fun d => { desc := d }),
    outs := img.outs.map (fun d => { desc := d, cr := d.credits }) }

/-- R211: the program of a layout entry is loaded on its troupes: on all of them where the take takes the layout, else on those that
hold no program of the entry. -/
def State.loadPlace (s : State) (taken : Nat → Bool) (e : Place) : State :=
  let img := s.imageAt e
  (List.range e.count).foldl (fun s i =>
    match s.physOf (e.first + i) with
    | none => s
    | some t =>
      let had := match (s.troupe t).img with | some x => x.pga == e.image && (s.troupe t).first == e.first | none => false
      if had && !taken e.part then s else s.setTroupe t (placeTroupe img e.first)) s

/-- R63, R211: the programs that a step take loads, with the partitions whose layout it takes; a troupe that no layout names any more holds
none. -/
def State.loadPrograms (s : State) (taken : Nat → Bool) : State :=
  let places := s.places s.rd
  let stays (t : Nat) : Bool :=
    let l := s.rd (Reg.TRP_STATE_LOGICAL t)
    places.any (fun e => decide (e.first ≤ l) && decide (l < e.first + e.count))
  let s := { s with trp := { s.trp with t := s.trp.t.filter (fun t _ => stays t) } }
  places.foldl (fun s e => s.loadPlace taken e) s

/-- R63: the routes of a troupe resolve their destinations from the live mapping. -/
def State.resolveRoutes (s : State) (t : Nat) : State :=
  let tr := s.troupe t
  let l := s.rd (Reg.TRP_STATE_LOGICAL t)
  s.setTroupe t { tr with outs := tr.outs.map (fun o =>
    let g := targetOf l o.desc
    { o with dstPhys := if o.desc.kind = 5 ∨ g < 0 then none else s.physOf g.toNat }) }

/-! ### Step boundaries (R38, R57, R259, R475) -/

/-- R475: the devices that a sheet adds: those that the MEMBERS it stages names and that are not live. -/
def State.addedDevices (s : State) : Nat :=
  if (s.staged.find? Reg.RSL_PM_MEMBERS_MEMBERS.key).isSome then
    let m := s.rdStaged Reg.RSL_PM_MEMBERS_MEMBERS
    m - (m &&& s.live)
  else 0

/-- R57: whether the step sheet is held: this device or a live member sent STEP_HOLD, or a live member was not heard. -/
def State.stepHeld (s : State) : Bool :=
  let me := s.device
  (s.res.cards.getD me {}).stepHold ||
    (List.range 64).any (fun j => bitOf s.live j && j != me &&
      (!bitOf s.res.pm.heardLast j || (s.res.cards.getD j {}).stepHold))

/-- R37, R475: the leader sends its cue-sync on each Efhal port that is UP, with STM_MIRROR.STEP: a class 0 parcel for the port's own pigeonhole. -/
def State.sendCueSync (s : State) : State :=
  if s.rd Reg.CUE_SYNC_LEADER ≠ s.device then s
  else ((List.range 18).filter (fun n => s.portState n == 4)).foldl (fun s n =>
    let p : FabParcel := { op := 0x0B, src := s.device, dst := s.rd (Reg.EFH_PORT_STAT_PEER_SEEN n),
                           pl := fieldsNum [(s.cueNow, 6), (s.ofs, 3), (s.rd Reg.STM_MIRROR_STEP, 4)] }
    (s.setSw { s.sw with arrived := s.sw.arrived + 1 }).enqueue n { input := 18, p := p.num }) s

/-- R37: in steady operation the cue phase moves toward the leader's by no more than one root period (50 ps) in a cue. -/
def State.trimPhase (s : State) : State :=
  { s with res := { s.res with skew := if 50 ≤ s.res.skew then s.res.skew - 50 else if s.res.skew ≤ -50 then s.res.skew + 50 else 0 } }

/-- R38: the cue phase steps to the leader's value in one move: a device that stands behind by n clk of 800 ps goes on at offset n, as far as
TAKE reaches, and one that stands ahead stays at offset 0 meanwhile (log entry 71); then LOCKED is set again. -/
def State.stepPhase (s : State) : State :=
  let n := min 1999 (s.res.skew / 800).toNat
  let s := { s with res := { s.res with skewed := false, skew := 0 } }
  (((s.wr Reg.CUE_PHASE_OFFSET n).wr Reg.CUE_SYNC_SKEW_NS 0).wr Reg.CUE_SYNC_LOCKED 1).unpend 36

/-- R38, R57, R259, R407, R471, R472, R475, R478: what the take of a step sheet does; `added` are the devices that it adds. -/
def State.takeStep (s : State) (added : Nat) : State :=
  let s := (s.wrapAdd Reg.STM_MIRROR_STEP 1).freeVoid
  let s := (s.liftCurtains.resumeParts).rhRejoin
  let s := s.admitDevices added
  let s := (s.wr Reg.RSL_PM_LIVE_LIVE (s.live &&& s.rd Reg.RSL_PM_MEMBERS_MEMBERS)).settleLeader
  let s := if added = 0 then s else s.sendCueSync
  if s.res.skewed then s.stepPhase else s

/-- R40, R51: an armed sheet is taken at clk 0; `old` is the state before. -/
def State.takeSheet (s old : State) : State :=
  let step := s.is1 Reg.CS_TAKE_CUE_STEP
  let ch := s.changed
  let added := s.addedDevices
  let layouts := (List.range 16).filter (fun p =>
    (s.staged.find? (Reg.PRT_LAYOUT_BASE p).key).isSome || (s.staged.find? (Reg.PRT_LAYOUT_COUNT_COUNT p).key).isSome)
  let s := s.takeFields.takeRetirements
  let s := ((s.flushTaken ch).rerouteTaken ch).voidTaken ch
  let s := s.reservesTaken old
  let s := (s.takeGib (old.rd Reg.STM_STAGE_ONLY_GIB)).takeMirror (old.rd Reg.STM_MIRROR_EN) (old.rd Reg.STM_MIRROR_PARTNER)
  let s := s.takeBoxes ch
  let s := if step then ((s.reassigned old ch).loadPrograms layouts.contains).takeStep added else s
  s.sheetTaken

/-- R51, R53, R57: the armed sheet at clk 0 of a cue: whether it is taken; a fence at this TAKE takes nothing else (R476). -/
def State.sheetAtTake (s old : State) : State × Bool :=
  if s.sheetState ≠ 3 then (s, false)
  else if s.is1 Reg.RSL_PM_STATE_FENCED ∧ !old.is1 Reg.RSL_PM_STATE_FENCED then (s, false)
  else
    let cue := s.rd Reg.CS_TAKE_CUE_CUE
    let held := s.is1 Reg.CS_STATUS_STEP_HELD
    if s.cueNow = cue ∨ held then
      if s.is1 Reg.CS_TAKE_CUE_STEP ∧ s.stepHeld then
        ((if held then s else (s.wr Reg.CS_STATUS_STEP_HELD 1).raise 37), false)
      else (s.takeSheet old, true)
    else if cue < s.cueNow then (s.abandon 2, false)
    else (s, false)

/-! ### Units and contexts at a TAKE (R44, R87, R162, R276) -/

/-- R44, R45, R276: a unit of logical troupe l at clk 0: one that is carried waits with what it has, every other waits anew. -/
def State.freshUnit (s : State) (l : Nat) (x : UnitRt) : UnitRt :=
  if x.carried then { x with st := if x.st = .missed then .waiting else x.st }
  else if x.st = .running then x
  else { desc := x.desc, nd := s.countEntries l x.desc.id }

/-- R40, R87, R276: troupe t at clk 0: its units, routes, and the cancelled pairs of the cue before the last, which it releases. -/
def State.freshTroupe (s : State) (t : Nat) : State :=
  let tr := s.troupe t
  let l := s.rd (Reg.TRP_STATE_LOGICAL t)
  let keep (c : Nat) : Bool := c == s.cueNow % 256 || c == (s.cueNow + 255) % 256
  (s.setTroupe t { tr with
    units := tr.units.map (s.freshUnit l)
    ins := tr.ins.map (fun r => { r with cancelled := r.cancelled.filter (fun q => keep q.2), got := [] })
    outs := tr.outs.map (fun o => { o with seq := 0, sentBy := [] })
    dlv := tr.dlv.filter (fun q => keep q.2.2) }).resolveRoutes t

/-- R162: the CEs that an exception halted are IDLE again, but for those of troupes that are not ACTIVE. -/
def State.wakeCEs (s : State) : State :=
  (s.proc.cx.filter (fun k (x : Cx) => decide (k < 307200) && x.st == .halt)).keys.foldl (fun s k =>
    if s.trpState (k / 48) = 0 then s.setCxAt k { s.cxAt k with st := .idle } else s) s

/-- What counts or happens once a cue starts anew at clk 0. -/
def State.freshCue (s : State) : State :=
  let o := s.ord
  let streams := o.streams.mapVals (fun _ (x : RunStream) => if x.flying then { x with conds := x.conds ||| s.res.cond.getD x.part 0 } else x)
  { s with
    ord := { o with badRaised := false, stalled := [], streams := streams }
    res := { s.res with cond := [] }
    store := { s.store with memUeRaised := false }
    cour := { s.cour with dataRaised := [] }
    xlt := { s.xlt with winRaised := false }
    door := { s.door with cycled := [] } }

/-! ### The phases (R39, R40) -/

/-- R459, R460, R408: the audits at clk 0 of the ledgers that were frozen at the end of the cue: the partitions whose step a difference aborts. -/
def State.audits (s : State) : State × List Nat :=
  let (s, diff) := s.auditLedgers
  let (s, mismatch) := s.switchAudit
  (s, (List.range 16).filter (fun p => (mismatch || diff.contains p) && s.bit Reg.RSL_LEDGER_ABORT_EN p))

/-- R460, R476: the steps of the partitions that differ are aborted, unless the Curtain is down on them. -/
def State.abortDiffering (s : State) (ps : List Nat) : State :=
  ps.foldl (fun s p => if s.curtain p then s else s.abortStep p) s

/-- R40: what follows the sheet at clk 0; `old` is the state before this TAKE, `plans` are the contexts whose plan the take writes. -/
def State.restOfTake (s old : State) (taken : Bool) (plans : List Nat) : State :=
  let s := (s.swapFrames taken).takeLoans
  let s := (s.takeRegions.takeEmb old).takeSearch
  let s := s.portsUp
  let s := s.takeLoads
  let s := (List.range 4096).foldl (fun s k => s.takeCtx k (plans.contains k)) s
  let s := s.trp.t.keys.foldl State.freshTroupe s
  let s := s.wakeCEs.freshCue
  let s := s.feedStreams.takeDivisions
  (s.takeUpdates).takePower old.period

/-- R33, R40: clk 0 of a cue, at the end of GUARD. -/
def execCueStart (s : State) : Res :=
  if s.halted ∨ s.phase ≠ 2 then .next s
  else
    let old := s
    let (s, diff) := s.audits
    let s := ((s.wrapAdd Reg.CUE_COUNT_COUNT 1).wr Reg.CUE_PHASE_PHASE 0).wr Reg.CUE_PHASE_OFFSET 0
    let s := (s.raise 1).rebuildCue.trimPhase.takePostmark
    let s := (s.abortDiffering diff).ageInjection
    let plans := (s.stagedFields.filter (fun f => decide (0x400000 ≤ f.reg) && decide (f.reg < 0x440000) && f.reg % 0x40 == 0)).map
      (fun f => (f.reg - 0x400000) / 0x40)
    let (s, taken) := s.sheetAtTake old
    .next (s.restOfTake old taken (if taken then plans else []))

/-- R39, R40, R45, R444: offset 2,000: carried units start before the others, and the search units start. -/
def execWorkStart (s : State) : Res :=
  if s.halted ∨ s.phase ≠ 0 then .next s
  else
    let s := (s.wr Reg.CUE_PHASE_PHASE 1).wr Reg.CUE_PHASE_OFFSET 2000
    let s := s.trp.t.foldl (fun s e =>
      (e.2.units.filter (fun x => x.carried)).foldl (fun s x => s.startUnit e.1 x.desc.id) s) s
    .next s.startSearch

/-- R260: whether an outstanding GST has a line to write in a MIRROR unit. -/
def State.storesMirror (s : State) : Bool :=
  s.trp.gops.any (fun g => g.kind == 1 && (List.range (g.len / 64 - g.done)).any (fun i =>
    let va := g.addr + 64 * (g.done + i)
    match s.walkNow g.part va 64 [] with
    | .ok e => let p := e.pga + (va - e.va); s.isOwn p 64 && s.mirrored (pgaOff p)
    | .error _ => false))

/-- R57, R260, R475: whether this device's postcard carries STEP_HOLD: it carries a unit into the next cue, a mirror write or initial copy is
unacknowledged, or its armed step sheet adds a device whose postcard of the cue before was not READY. -/
def State.mustHold (s : State) : Bool :=
  let carries := s.trp.t.any (fun e => e.2.units.any (fun x => x.carried))
  let mirror := s.efh.out.any (fun q => decide (2 ^ 40 ≤ q.own) && decide (q.own < 2 ^ 42) && q.ans.isNone) || s.storesMirror
  let armed := s.sheetState == 3 && s.is1 Reg.CS_TAKE_CUE_STEP && !s.is1 Reg.RSL_PM_STATE_JOINING
  let added := s.addedDevices
  carries || mirror || (armed && (List.range 64).any (fun d => bitOf added d && d != s.device &&
    !((s.res.cards.getD d {}).ready && (s.res.cards.getD d {}).cue + 1 == s.cueNow)))

/-- R462: the postcard of this device for the running cue. -/
def State.myCard (s : State) : Card :=
  { cue := s.cueNow, ofs := s.ofs, stepHold := s.mustHold, fenced := s.is1 Reg.RSL_PM_STATE_FENCED, joining := s.is1 Reg.RSL_PM_STATE_JOINING,
    ready := s.is1 Reg.RSL_PM_STATE_READY, rhAlive := !s.rhSilent, coord := s.rd Reg.RSL_PM_STATE_COORD, heard := s.res.pm.heardLast,
    suspect := s.rd Reg.RSL_PM_SUSPECT_SUSPECT, verdict := s.res.pm.verdict, rhSuspect := s.res.rh.suspect, rhVerdict := s.res.rh.verdict }

/-- R462: the 64 bytes of a postcard as a number. -/
def Card.num (c : Card) : Nat :=
  c.cue + c.ofs * 2 ^ 48 + (b2n c.stepHold + 2 * b2n c.fenced + 4 * b2n c.joining + 8 * b2n c.ready + 16 * b2n c.rhAlive) * 2 ^ 72 +
    c.coord * 2 ^ 80 + c.heard * 2 ^ 128 + c.suspect * 2 ^ 192 + c.verdict * 2 ^ 256 + c.rhSuspect * 2 ^ 384 + c.rhVerdict * 2 ^ 448

/-- R462, R474: a member, or a device that joins an ensemble, sends its postcard; the STEP_HOLD it knows of stands for its own hold test. -/
def State.sendPostcard (s : State) : State :=
  let c := s.myCard
  let s := { s with res := { s.res with cards := s.res.cards.insert s.device c } }
  if s.rd Reg.RSL_PM_MEMBERS_MEMBERS ≠ 0 ∨ (s.is1 Reg.RSL_PM_STATE_JOINING ∧ s.rd Reg.EFH_CTL_TOPO ≠ 0) then
    s.sendFab 18 { op := 0x0A, cls := 0, mcast := true, src := s.device, dst := s.rd Reg.RSL_CTL_PM_GROUP, pl := c.num }
  else s

/-- R39, R462, R506: offset P - 6,250: GUARD begins, the postcard is sent and stream entries are read. -/
def execGuardStart (s : State) : Res :=
  if s.halted ∨ s.phase ≠ 1 then .next s
  else
    let s := (s.wr Reg.CUE_PHASE_PHASE 2).wr Reg.CUE_PHASE_OFFSET (s.period - 6250)
    .next ((s.raise 2).sendPostcard).recordStreams

/-- The last offset of the running phase (R39). -/
def State.phaseEnd (s : State) : Nat :=
  if s.phase = 0 then 1999 else if s.phase = 1 then s.period - 6251 else s.period - 1

/-- R33: with nothing commanded the cue runs: the offset counts on, as far as the running phase goes (log entry 1). -/
def State.tick (s : State) : State :=
  if s.halted ∨ s.phase = 3 ∨ s.phaseEnd ≤ s.ofs then s else s.wr Reg.CUE_PHASE_OFFSET (s.ofs + 1)

/-! ### Cue-sync (R37, R475) -/

/-- R39: the phase of an offset in a cue of period p. -/
def phaseAt (p ofs : Nat) : Nat := if ofs < 2000 then 0 else if ofs < p - 6250 then 1 else 2

/-- R37, R38, R475: the cue-sync of the leader arrives, with its count and offset when it was sent, the step count of the leader's mirror, the link's
round trip in clk and the skew that is left, in ns. -/
def execCueSync (sender : Fin 64) (count : BitVec 48) (ofs : BitVec 21) (step : Lane) (roundTrip skewNs : BitVec 16) (s : State) : Res :=
  if s.deaf 16 ∨ s.phase = 3 ∨ sender.val = s.device ∨ sender.val ≠ s.rd Reg.CUE_SYNC_LEADER then .next s
  else
    let p := s.period
    let at_ := ofs.toNat + roundTrip.toNat / 2
    let s := if s.is1 Reg.CUE_SYNC_LOCKED then s else s.wr Reg.STM_MIRROR_STEP step.toNat
    let s := s.wr Reg.CUE_COUNT_COUNT (count.toNat + at_ / p)
    let s := (s.wr Reg.CUE_PHASE_OFFSET (at_ % p)).wr Reg.CUE_PHASE_PHASE (phaseAt p (at_ % p))
    let s := s.wr Reg.CUE_SYNC_SKEW_NS skewNs.toNat
    let skewed := decide (50 < skewNs.toNat)
    let s := { s with res := { s.res with skewed := skewed, skew := 1000 * (skewNs.toNat : Int) } }
    let s := if !skewed then (s.wr Reg.CUE_SYNC_LOCKED 1).unpend 36
             else if s.is1 Reg.CUE_SYNC_LOCKED then (s.wr Reg.CUE_SYNC_LOCKED 0).raise 36 else s
    .next (if s.sheetState = 3 ∧ s.rd Reg.CS_TAKE_CUE_CUE < s.cueNow ∧ !s.is1 Reg.CS_STATUS_STEP_HELD then s.abandon 2 else s)

end Sys2Proof.Machine
end

