-- ==== Sys2Proof/Machine/HostPort.lean ====
section
/-!
DEFINITION. Port H and the edge ports: memory and configuration requests, resets of the port, links, link security and mailboxes (R482 to R491,
R509).
-/

namespace Sys2Proof.Machine

/-- Change port H's record. -/
def State.onHost (s : State) (f : HostPort → HostPort) : State := { s with hst := f s.hst }

/-! ### BAR2 (R319, R320, R484, R485) -/

/-- R319, R559: the window that decodes a BAR2 offset, as a PGA and a partition, or the count of a MISS or PERM; in recovery window 32 is the
first GiB of the Stage-only range. -/
def State.bar2Decode (s : State) (o : Nat) (write : Bool) : Except Fld (Nat × Nat) :=
  if s.is1 Reg.SEC_BOOT_RECOVERY then
    (if o < 2 ^ 30 then .ok (pgaOf s.device (0x8000000000000 + o), 16) else .error Reg.XLT_WIN_ERR_MISS)
  else match s.hWindow o with
  | none => .error Reg.XLT_WIN_ERR_MISS
  | some (w, x) =>
    if !(if write then s.is1 (Reg.XLT_WIN_MAP_W w) else s.is1 (Reg.XLT_WIN_MAP_R w)) then .error Reg.XLT_WIN_ERR_PERM
    else .ok (s.winBase w + x, s.rd (Reg.XLT_WIN_MAP_PARTITION w))

/-- The ticket of line i of the outstanding BAR2 read number no. -/
def hostTicket (no i : Nat) : Nat := 2 ^ 31 + 128 * no + i

/-- R320, R321: a line of a BAR2 read as it is decoded, once. -/
def State.hostDecode (s : State) (o n : Nat) : HPart :=
  match s.bar2Decode o false with
  | .ok (p, part) => { lo := o, n := n, p := p, part := part }
  | .error f => { lo := o, n := n, bad := if f == Reg.XLT_WIN_ERR_PERM then 2 else 1 }

/-- R320, R342, R491: the bytes of a line of a BAR2 read with ticket own and whether they are poisoned, once they have come. -/
def State.hostLine (s : State) (own : Nat) (x : HPart) : State × Option (List Byte × Bool) :=
  let fail (s : State) (f : Fld) : State × Option (List Byte × Bool) := (s.winErr f, some (List.replicate x.n 0, true))
  if x.bad ≠ 0 then fail s (if x.bad = 2 then Reg.XLT_WIN_ERR_PERM else Reg.XLT_WIN_ERR_MISS)
  else if s.is1 Reg.SEC_BOOT_RECOVERY then
    let q := s.storeRead (pgaOff x.p) x.n
    (s, some q)
  else
    let (s, r) := s.readPga 34 own x.part (x.p / 64 * 64)
    match r with
    | .wait => (s, none)
    | .stat c => fail s (s.winStatus x.p c)
    | .line d marks =>
      let s := if pgaDev x.p ≠ s.device ∧ marks ≠ 0 then s.winErr Reg.XLT_WIN_ERR_REMOTE else s
      (s, some (((seenBytes (d, marks)).drop (x.p % 64)).take x.n, marks != 0))

/-- The lines that n bytes from an offset touch, each as its first byte and byte count. -/
def lineParts : Nat → Nat → Nat → List (Nat × Nat)
  | 0, _, _ => []
  | fuel + 1, o, n =>
    if n = 0 then []
    else
      let k := min n (64 - o % 64)
      (o, k) :: lineParts fuel (o + k) (n - k)

/-- R482, R491: a completion to port H: success with data, poisoned or not, or Unsupported Request. -/
def State.hostAnswer (s : State) (ok poison : Bool) (bytes : List Byte) : State :=
  s.send { name := "CPL", args := [b2n ok, b2n poison], bytes := bytes }

/-- R321, R484: a read of BAR2, decoded when it arrives; while a line has not come nothing is answered, and the request offered again goes on with it. -/
def State.bar2Read (s : State) (o n : Nat) : State :=
  let h : HRead := match s.hst.reads.find? (fun (r : HRead) => r.o == o && r.n == n) with
    | some r => r
    | none => { o := o, n := n, no := ((List.range (s.hst.reads.length + 1)).find? (fun k => !s.hst.reads.any (fun (r : HRead) => r.no == k))).getD 0,
                parts := (lineParts (n / 64 + 2) o n).map (fun (l : Nat × Nat) => s.hostDecode l.1 l.2) }
  let q := h.parts.zipIdx.foldl (fun (q : State × List HPart) ((x, i) : HPart × Nat) =>
    match x.got with
    | some _ => (q.1, q.2 ++ [x])
    | none =>
      match q.1.hostLine (hostTicket h.no i) x with
      | (s, got) => (s, q.2 ++ [{ x with got := got }])) (s, [])
  let rest := q.1.hst.reads.filter (fun (r : HRead) => !(r.o == o && r.n == n))
  if q.2.any (fun x => x.got.isNone) then q.1.onHost (fun p => { p with reads := rest ++ [{ h with parts := q.2 }] })
  else
    let all := q.2.map (fun x => x.got.getD ([], false))
    (q.1.onHost (fun p => { p with reads := rest })).hostAnswer true (all.any (·.2)) (all.flatMap (·.1))

/-- R320, R331, R376: a posted write of masked bytes of one line at a BAR2 offset: by a request at the line's home, or across the fabric where no agent of this device
holds a line of another device. -/
def State.hostPut (s : State) (o : Nat) (x : BitVec 512) (mask : Nat) : State :=
  match s.bar2Decode o true with
  | .error f => s.winErr f
  | .ok (p, part) =>
    if s.is1 Reg.SEC_BOOT_RECOVERY then s.tierMasked (pgaOff p) x mask
    else
      let full := mask == 2 ^ 64 - 1
      let q : CReq := { kind := if full then 5 else 6, r := 34, part := part, data := x, mask := mask, tk := 1 }
      let (s, r) := s.reach part p true
      match r with
      | .wait => s
      | .stat c => s.winErr (s.winStatus p c)
      | .loc off => s.request (s.lineKey off) q
      | .rem dest t via =>
        if s.gone dest part then (s.winErr Reg.XLT_WIN_ERR_REMOTE).lostTo part 0x23
        else if (s.dirAt (t / 64)).st ≠ 0 then s.request (t / 64) q
        else
          let f : FReq := { id := s.efh.nextId, dest := dest, kind := if full then 2 else 3, part := part, pga := t, data := x, mask := mask,
                            own := hostWrite, via := via }
          let s := { s with efh := { s.efh with out := s.efh.out ++ [f], nextId := (s.efh.nextId + 1) % 65536 } }
          let s := match via with | some i => s.passedOn i | none => s
          s.fabReq s.device part f.id f.kind dest t mask 0 [] x via.isSome

/-! ### Memory requests (R482 to R485, R491, R580) -/

/-- Which BAR a host address lies in: its number (0, 2, 4) and offset. -/
def State.barOf (s : State) (a n : Nat) : Option (Nat × Nat) :=
  let hit (base size : Nat) : Bool := decide (base ≤ a) && decide (a + n ≤ base + size)
  if hit s.hst.bar0 (2 ^ 26) then some (0, a - s.hst.bar0)
  else if hit s.hst.bar2 (2 ^ s.hst.bar2Log2) then some (2, a - s.hst.bar2)
  else if hit s.hst.bar4 (2 ^ 14) then some (4, a - s.hst.bar4)
  else none

/-- R509: the 4 bytes at an offset of BAR4. -/
def State.bar4Word (s : State) (o : Nat) : Nat :=
  if o < 8192 then
    let e := s.hst.msix.getD (o / 16) {}
    let w := o % 16 / 4
    if w = 0 then e.addr.toNat % 2 ^ 32 else if w = 1 then e.addr.toNat / 2 ^ 32 else if w = 2 then e.data.toNat else b2n e.mask
  else if o < 8192 + 64 then
    ((List.range 32).map (fun b => b2n (s.hst.pba.getD (8 * (o - 8192) + b) false) * 2 ^ b)).sum
  else 0

/-- R509: a write of 4 bytes of BAR4; the Pending Bit Array is read only. -/
def State.bar4Put (s : State) (o x : Nat) : State :=
  if 8192 ≤ o then s
  else
    let e := s.hst.msix.getD (o / 16) {}
    let w := o % 16 / 4
    let e : MsixEnt :=
      if w = 0 then { e with addr := BitVec.ofNat 64 (e.addr.toNat / 2 ^ 32 * 2 ^ 32 + x) }
      else if w = 1 then { e with addr := BitVec.ofNat 64 (e.addr.toNat % 2 ^ 32 + x * 2 ^ 32) }
      else if w = 2 then { e with data := BitVec.ofNat 32 x }
      else { e with mask := bitOf x 0 }
    (s.onHost (fun h => { h with msix := h.msix.setD (o / 16) {} e })).msixFlush

/-- R482, R483: whether port H performs memory requests: its memory space is enabled in D0 and its link is not SLOW. -/
def State.hostServes (s : State) : Bool := s.hst.mem && !s.hst.d3 && !s.is1 Reg.HPT_LINK_SLOW

/-- R551, R553: whether a request reaches port H: its link is up, and boot has passed step 4. -/
def State.hostUp (s : State) : Bool := s.is1 Reg.HPT_LINK_UP && s.is1 Reg.SEC_BOOT_DONE && !s.halted

/-- The aligned 4 B units that n bytes from an offset touch, as offsets. -/
def unitsOf (o n : Nat) : List Nat := if n = 0 then [] else (List.range ((o + n - 1) / 4 - o / 4 + 1)).map (fun i => 4 * (o / 4 + i))

/-- R484, R485, R580: a port H memory read of n + 1 bytes at a host address. -/
def execMemoryRead (addr : Word) (n : BitVec 12) (s : State) : Res :=
  if !s.hostUp then .next s
  else match (if s.hostServes then s.barOf addr.toNat (n.toNat + 1) else none) with
  | none => .next (s.hostAnswer false false [])
  | some (0, o) =>
    let us := unitsOf o (n.toNat + 1)
    .next ((us.foldl State.touch s).hostAnswer true false (us.flatMap (fun u => toLe 4 (s.ctrlLoad false u 4))))
  | some (2, o) => .next (s.bar2Read o (n.toNat + 1))
  | some (_, o) => .next (s.hostAnswer true false ((unitsOf o (n.toNat + 1)).flatMap (fun u => toLe 4 (s.bar4Word u))))

/-- The unit of a write at an offset, where its four byte enables are set (R580). -/
def beUnit (o : Nat) (bs : List (Byte × Bool)) (u : Nat) : Option Nat :=
  let b (i : Nat) : Byte × Bool := if u + i < o then (0, false) else bs.getD (u + i - o) (0, false)
  if (List.range 4).all (fun i => (b i).2) then some (leBytes ((List.range 4).map (fun i => (b i).1))) else none

/-- R579, R580: a write to BAR0: each register in ascending offset, whole where both its units are written. -/
def State.bar0Put (s : State) (o : Nat) (bs : List (Byte × Bool)) : State :=
  ((unitsOf o bs.length).map (· / 8)).dedup.foldl (fun s q =>
    match beUnit o bs (8 * q), beUnit o bs (8 * q + 4) with
    | some a, some b => s.ctrlStore 16 false (8 * q) 8 (a + b * 2 ^ 32)
    | some a, none => s.ctrlStore 16 false (8 * q) 4 a
    | none, some b => s.ctrlStore 16 false (8 * q + 4) 4 b
    | none, none => s) s

/-- R484: a write to BAR2, line by line. -/
def State.bar2Put (s : State) (o : Nat) (bs : List (Byte × Bool)) : State :=
  (lineParts (bs.length / 64 + 2) o bs.length).foldl (fun s (a, n) =>
    let part := (bs.drop (a - o)).take n
    let mask := (part.zipIdx.map (fun (b, i) => b2n b.2 * 2 ^ (a % 64 + i))).sum
    if mask = 0 then s
    else s.hostPut (a / 64 * 64) (BitVec.ofNat 512 (leBytes (part.map (·.1)) * 2 ^ (8 * (a % 64)))) mask) s

/-- R484, R485, R491: a port H posted write at a host address: bytes with their byte enables. A poisoned one is dropped, counted,
and reported as AER Poisoned TLP Received. -/
def execMemoryWrite (addr : Word) (bs : List (Byte × Bool)) (poison : Bool) (s : State) : Res :=
  if !s.hostUp then .next s
  else match (if s.hostServes then s.barOf addr.toNat bs.length else none) with
  | none => .next (s.hostAnswer false false [])
  | some (k, o) =>
    if poison then .next ((s.satAdd Reg.HPT_LINK_POISON_RX 1).send { name := "AER_POISONED" })
    else if k = 0 then .next (s.bar0Put o bs)
    else if k = 2 then .next (s.bar2Put o bs)
    else .next ((unitsOf o bs.length).foldl (fun s u => match beUnit o bs u with | some x => s.bar4Put u x | none => s) s)

/-- R482: an I/O request, an AtomicOp, a request with a PASID prefix, a Deferrable Memory Write, a request outside the BARs. -/
def execUnsupportedRequest (s : State) : Res := if s.hostUp then .next (s.hostAnswer false false []) else .next s

/-- R482, R485: a configuration request to function 0. What the other configuration registers hold the spec does not give: a read of one is free,
and stands until the host writes it. -/
def execConfigurationRequest (c : CfgReq) (s : State) : Res :=
  if !s.hostUp then .next s
  else
    let say (s : State) (x : Nat) : Res := .next (s.send { name := "CFG", args := [x] })
    match c with
    | .readBar k => say s (if k.val = 0 then s.hst.bar0 else if k.val = 1 then s.hst.bar2 else s.hst.bar4)
    | .readEnables => say s (b2n s.hst.mem + 2 * b2n s.hst.d3 + 4 * b2n s.hst.msixEn + 8 * b2n s.hst.msixMask)
    | .readOther d =>
      match s.hst.cfg.find? d.val with
      | some x => say s x.toNat
      | none =>
        let (x, s) := s.fresh 32
        say (s.onHost (fun h => { h with cfg := h.cfg.insert d.val (BitVec.ofNat 32 x) })) x
    | .writeBar k base =>
      let size := if k.val = 0 then 26 else if k.val = 1 then s.hst.bar2Log2 else 14
      let b := base.toNat / 2 ^ size * 2 ^ size
      .next (s.onHost (fun h => if k.val = 0 then { h with bar0 := b } else if k.val = 1 then { h with bar2 := b } else { h with bar4 := b }))
    | .writeCommand m => .next (s.onHost (fun h => { h with mem := m }))
    | .writePower d => .next (s.onHost (fun h => { h with d3 := d }))
    | .writeMsix en mask => .next ((s.onHost (fun h => { h with msixEn := en, msixMask := mask })).msixFlush)
    | .writeOther d => .next (s.onHost (fun h => { h with cfg := h.cfg.erase d.val }))

/-! ### Resets and the link of port H (R483, R486, R551) -/

/-- R486: the requests of port H that the home has not begun to perform, and the reads not yet answered, are discarded. -/
def State.hostDiscard (s : State) : State :=
  let mine (q : CReq) : Bool := q.r == 34
  let s := s.onHost (fun h => { h with reads := [] })
  { s with coh := { s.coh with
      dir := (s.coh.dir.mapVals (fun _ (d : DirEnt) => { d with queue := d.queue.filter (fun q => !mine q) })).filter (fun _ (d : DirEnt) => !(d.st == 0 && d.queue.isEmpty && d.rcd.isNone))
      wait := s.coh.wait.filter (fun w => !mine w.2) } }

/-- R486: port H's configuration state is cleared and its requests are discarded; messages that are pending stay pending (R510). -/
def State.clearHost (s : State) : State :=
  s.hostDiscard.onHost (fun h => { h with bar0 := 0, bar2 := 0, bar4 := 0, mem := false, d3 := false, msix := [], msixEn := false, msixMask := false, cfg := [] })

/-- R486: the port's IDE streams end with its link. -/
def State.hostLinkDown (s : State) : State :=
  let s := s.clearHost.onHost (fun h => { h with ide := h.ide.filter (fun x => decide (16 ≤ x)), insecure := h.insecure.filter (fun x => decide (16 ≤ x)) })
  let up := s.is1 Reg.HPT_LINK_UP
  let s := (((s.wr Reg.HPT_LINK_UP 0).wr Reg.HPT_LINK_WIDTH 0).wr Reg.HPT_LINK_RATE 0).wr Reg.HPT_LINK_SLOW 0
  if up then s.raise 128 else s

/-- R486: a function level reset of port H. -/
def execFlr (s : State) : Res := if s.hostUp then .next s.clearHost else .next s

/-- R486: a hot reset of port H. -/
def execHotReset (s : State) : Res := if s.halted then .next s else .next s.clearHost

/-- R486: DL_Down of port H. -/
def execDlDown (s : State) : Res := if s.halted then .next s else .next s.hostLinkDown

/-- R486, R551: PERST# is asserted or deasserted. -/
def execPerst (assert : Bool) (s : State) : Res :=
  let s := s.onHost (fun h => { h with perst := assert })
  if assert ∧ !s.halted then .next s.hostLinkDown else .next s

/-- R483, R551: port H's link comes up at a rate (0 below 32 GT/s, else its RATE code) and a width (0 below x4, else its WIDTH code). A rate or
width that has no code leaves its field free. -/
def execHostLinkUp (rate width : Fin 4) (s : State) : Res :=
  if s.halted ∨ s.hst.perst ∨ !s.is1 Reg.CLK_ROOT_REF_OK then .next s
  else
    let up := s.is1 Reg.HPT_LINK_UP
    let (r, s) := if rate.val = 0 then s.fresh 2 else (rate.val, s)
    let (w, s) := if width.val = 0 then s.fresh 2 else (width.val, s)
    let slow := rate.val == 0 || width.val == 0
    let s := (((s.wr Reg.HPT_LINK_UP 1).wr Reg.HPT_LINK_WIDTH w).wr Reg.HPT_LINK_RATE r).wr Reg.HPT_LINK_SLOW (b2n slow)
    .next (if !up ∨ slow then s.raise 128 else s).msixFlush

/-! ### Link security (R490) -/

/-- R490: an integrity check of a stream fails (port 0 is port H, 1 + g edge agent g): the stream is Insecure. -/
def execIdeFailure (port : Fin 9) (stream : Fin 16) (s : State) : Res :=
  let k := 16 * port.val + stream.val
  if s.halted then .next s
  else
    let s := s.onHost (fun h => { h with insecure := k :: h.insecure.erase k, ide := h.ide.erase k })
    .next ((if port.val = 0 then s.satAdd Reg.HPT_LINK_IDE_FAIL 1 else s).raise 129)

/-- R511: whether IDE is on for edge agent g shows in its half's bit 5. -/
def State.showIde (s : State) (port : Nat) : State :=
  if port = 0 then s
  else
    let on := s.hst.ide.any (fun x => x / 16 == port)
    s.wr (halfOf (port - 1)) (putBits (s.rd (halfOf (port - 1))) 5 1 (b2n on))

/-- R490: a DOE request on port H (0) or the CXL.io function of edge agent g (1 + g). -/
def execDoeRequest (port : Fin 9) (m : DoeMsg) (s : State) : Res :=
  let up := s.spdmUp && (if port.val = 0 then s.is1 Reg.HPT_LINK_UP else bitOf (s.rd (halfOf (port.val - 1))) 0)
  if !up then .next s
  else
    let ack (s : State) (name : String) (args : List Nat) : Res := .next (s.send { name := name, dest := port.val, args := args })
    let key (x : Fin 16) : Nat := 16 * port.val + x.val
    match m with
    | .discovery i => ack s "DOE_DISCOVERY" [i.toNat]
    | .spdm => .next s
    | .ideQuery x => ack s "IDE_QUERY_RESP" [x.val, b2n (s.hst.ide.contains (key x)), b2n (s.hst.insecure.contains (key x))]
    | .keyProg x => ack s "IDE_KP_ACK" [x.val]
    | .keyGo x =>
      ack ((s.onHost (fun h => { h with ide := key x :: h.ide.erase (key x), insecure := h.insecure.erase (key x) })).showIde port.val)
        "IDE_KGOSTOP_ACK" [x.val]
    | .keyStop x => ack ((s.onHost (fun h => { h with ide := h.ide.erase (key x) })).showIde port.val) "IDE_KGOSTOP_ACK" [x.val]

/-! ### Edge agents' links and mailboxes (R317, R487, R511) -/

/-- R487: the link of edge agent g comes up at a rate (1 32 GT/s, 2 64 GT/s) and a width (1 x4, 2 x8, 3 x16). A narrower link does not
come up. -/
def execEdgeLinkUp (g : Fin 8) (rate : Fin 3) (width : Fin 4) (s : State) : Res :=
  let k := g.val / 2
  let split2 := s.is1 (Reg.EDG_PORT_BIF k)
  let fits := if split2 then width.val == 1 || width.val == 2 else g.val % 2 == 0 && decide (2 ≤ width.val)
  if s.halted ∨ !s.is1 (Reg.EDG_PORT_EN k) ∨ !fits ∨ rate.val = 0 then .next s
  else
    let s := s.wr (halfOf g.val) (1 + 2 * rate.val + 8 * width.val)
    .next (if s.edgeState g.val = 0 then s.wr (Reg.COH_AGENT_STATE (25 + g.val)) 1 else s)

/-- R487: whether the mailbox of edge agent g answers: its link is up. -/
def State.mailboxUp (s : State) (g : Nat) : Bool := !s.halted && bitOf (s.rd (halfOf g)) 0

/-- R487: an answer of the mailbox of edge agent g. -/
def State.mailbox (s : State) (g : Nat) (name : String) (args : List Nat) : Res :=
  if s.mailboxUp g then .next (s.send { name := name, dest := g, args := args }) else .next s

/-- R487: an answer of the mailbox whose content the spec does not give. -/
def State.mailboxFree (s : State) (g : Nat) (name : String) (args : List Nat) : Res :=
  if s.mailboxUp g then
    let (x, s) := s.fresh 64
    .next (s.send { name := name, dest := g, args := args ++ [x] })
  else .next s

/-- R487: the volatile capacity of edge agent g in bytes: its four windows, rounded down to 256 MiB. -/
def State.capacity (s : State) (g : Nat) : Nat :=
  ((List.range 4).map (fun k => 65536 * s.rd (Reg.XLT_WIN_SIZE_UNITS (4 * g + k)))).sum / 2 ^ 28 * 2 ^ 28

/-- R487: Identify Memory Device: volatile capacity, persistent capacity 0, LSA size 0. -/
def execIdentifyMemoryDevice (g : Fin 8) (s : State) : Res := s.mailbox g.val "IDENTIFY" [s.capacity g.val, 0, 0]

/-- R487: Get Partition Info: all capacity is volatile. -/
def execGetPartitionInfo (g : Fin 8) (s : State) : Res := s.mailbox g.val "PARTITION_INFO" [s.capacity g.val, 0]

/-- R487: Get Health Info. -/
def execGetHealthInfo (g : Fin 8) (s : State) : Res := s.mailboxFree g.val "HEALTH_INFO" []

/-- R487: Get Supported Logs. -/
def execGetSupportedLogs (g : Fin 8) (s : State) : Res := s.mailboxFree g.val "SUPPORTED_LOGS" []

/-- R487: Get Log: a part of a log. -/
def execGetLog (g : Fin 8) (uuid : BitVec 128) (offset length : Lane) (s : State) : Res :=
  s.mailboxFree g.val "LOG" [uuid.toNat, offset.toNat, length.toNat]

/-- The key of an event log of edge agent g. -/
def logKey (g log : Nat) : Nat := 8 * g + log

/-- R487: Get Event Records of a log: the records it holds. Which events make a record, and what it says, the spec does not give: each read may
find one more, whose content is free. -/
def execGetEventRecords (g : Fin 8) (log : Fin 5) (s : State) : Res :=
  if !s.mailboxUp g.val then .next s
  else
    let (new, s) := s.fresh 1
    let (x, s) := s.fresh 64
    let k := logKey g.val log.val
    let s := if new = 1 then s.onHost (fun h => { h with records := h.records.insert k (h.records.getD k [] ++ [x]) }) else s
    .next (s.send { name := "EVENT_RECORDS", dest := g.val, args := log.val :: s.hst.records.getD k [] })

/-- R487: Clear Event Records: the `n` oldest of a log, or all. -/
def execClearEventRecords (g : Fin 8) (log : Fin 5) (all : Bool) (n : Byte) (s : State) : Res :=
  if !s.mailboxUp g.val then .next s
  else
    let k := logKey g.val log.val
    let s := s.onHost (fun h => { h with records := h.records.setD k [] (if all then [] else (h.records.getD k []).drop n.toNat) })
    .next (s.send { name := "EVENTS_CLEARED", dest := g.val, args := [log.val] })

/-- R487: every other command of the mailbox. -/
def execMailboxUnsupported (g : Fin 8) (opcode : BitVec 16) (s : State) : Res := s.mailbox g.val "UNSUPPORTED" [opcode.toNat]

end Sys2Proof.Machine
end

