-- ==== Sys2Proof/Machine/Jtag.lean ====
section
/-!
DEFINITION. The test access port (R598, R599).
-/

namespace Sys2Proof.Machine

/-- R598: an instruction code is loaded. A part without input has no port. -/
def State.loadTap (s : State) (code : Nat) : State :=
  if s.door.halt = 3 then s else s.onDoor (fun d => { d with jtag := code })

/-- R599: an instruction that takes the pins is loaded: the device stops, and its Stage and Wings contents are not kept. -/
def State.stopTap (s : State) (code : Nat) : State :=
  if s.door.halt = 3 then s
  else { s.goRest with store := { modules := s.store.modules } }.onDoor (fun d => { d with halt := 4, trip := false, jtag := code })

/-- R598: BYPASS, code 0xFF. -/
def execBypass (s : State) : Res := .next (s.loadTap 0xFF)

/-- R598: IDCODE, code 0xFE. -/
def execIdcode (s : State) : Res := .next (s.loadTap 0xFE)

/-- R598: what the IDCODE register reads: version 1, part 0xB250, manufacturer field 0x451. -/
def idcodeValue : Nat := 0x1B2508A3

/-- R598: SAMPLE/PRELOAD, code 0x01; `cells` is what the boundary cells hold after it. -/
def execSamplePreload (cells : List Byte) (s : State) : Res :=
  .next (if s.door.halt = 3 then s else (s.loadTap 1).onDoor (fun d => { d with cells := cells }))

/-- R599: EXTEST, code 0x02. -/
def execExtest (s : State) : Res := .next (s.stopTap 2)

/-- R599: CLAMP, code 0x03. -/
def execClamp (s : State) : Res := .next (s.stopTap 3)

/-- R599: HIGHZ, code 0x04. -/
def execHighz (s : State) : Res := .next (s.stopTap 4)

/-- R598, R599: EXTEST_PULSE, code 0x05. -/
def execExtestPulse (s : State) : Res := .next (s.stopTap 5)

/-- R598, R599: EXTEST_TRAIN, code 0x06. -/
def execExtestTrain (s : State) : Res := .next (s.stopTap 6)

/-- R598, R599: the port enters Test-Logic-Reset: IDCODE is selected, and a device that an instruction has stopped performs a cold reset. -/
def execTestLogicReset (s : State) : Res :=
  .next (if s.door.halt = 4 then (s.deviceReset false 0).loadTap 0xFE else s.loadTap 0xFE)

end Sys2Proof.Machine
end

