-- ==== Sys2Proof/Machine/Dispatch.lean ====
section
/-!
DEFINITION. One arm for each command of the opcode table, each one call of its meaning.
-/

namespace Sys2Proof.Machine

/-- The effect of a command on everything but the queue. -/
def exec (i : Instr) (s : State) : Host.Outcome State Fault Refusal :=
  match i with
  | .cueStart => Sys2Proof.Machine.execCueStart s
  | .ledgerRouteReset p => Sys2Proof.Machine.execLedgerRouteReset p s
  | .workStart => Sys2Proof.Machine.execWorkStart s
  | .guardStart => Sys2Proof.Machine.execGuardStart s
  | .stagedWrite h off x => Sys2Proof.Machine.execStagedWrite h off x s
  | .csCheckGo h => Sys2Proof.Machine.execCsCheckGo h s
  | .checkDone => Sys2Proof.Machine.execCheckDone s
  | .csTakeCueWrite h step cue => Sys2Proof.Machine.execCsTakeCueWrite h step cue s
  | .csAbandonGo h => Sys2Proof.Machine.execCsAbandonGo h s
  | .cueSync sender count ofs step roundTrip skewNs => Sys2Proof.Machine.execCueSync sender count ofs step roundTrip skewNs s
  | .unitStart t unit => Sys2Proof.Machine.execUnitStart t unit s
  | .deliveryMiss t unit => Sys2Proof.Machine.execDeliveryMiss t unit s
  | .completionMiss t unit => Sys2Proof.Machine.execCompletionMiss t unit s
  | .understudyLeadMiss t unit => Sys2Proof.Machine.execUnderstudyLeadMiss t unit s
  | .meshParcelArrival t dir head body => Sys2Proof.Machine.execMeshParcelArrival t dir head body s
  | .hopCreditReturn t dir vl => Sys2Proof.Machine.execHopCreditReturn t dir vl s
  | .credParcel t pairs => Sys2Proof.Machine.execCredParcel t pairs s
  | .cancelParcel t route unit cue delivery => Sys2Proof.Machine.execCancelParcel t route unit cue delivery s
  | .statusRecordArrival t unit status => Sys2Proof.Machine.execStatusRecordArrival t unit status s
  | .ceLogicFault t => Sys2Proof.Machine.execCeLogicFault t s
  | .trpRetireGo h t => Sys2Proof.Machine.execTrpRetireGo h t s
  | .clockGate r => Sys2Proof.Machine.execClockGate r s
  | .nop u f => Sys2Proof.Machine.execNop u f s
  | .endUnit u f => Sys2Proof.Machine.execEndUnit u f s
  | .br u f => Sys2Proof.Machine.execBr u f s
  | .brz u f => Sys2Proof.Machine.execBrz u f s
  | .brnz u f => Sys2Proof.Machine.execBrnz u f s
  | .call u f => Sys2Proof.Machine.execCall u f s
  | .retn u f => Sys2Proof.Machine.execRetn u f s
  | .loop u f => Sys2Proof.Machine.execLoop u f s
  | .waitcue u f => Sys2Proof.Machine.execWaitcue u f s
  | .waitcueResume u => Sys2Proof.Machine.execWaitcueResume u s
  | .dlbr u f => Sys2Proof.Machine.execDlbr u f s
  | .mfs u f => Sys2Proof.Machine.execMfs u f s
  | .mts u f => Sys2Proof.Machine.execMts u f s
  | .send u f => Sys2Proof.Machine.execSend u f s
  | .recv u f => Sys2Proof.Machine.execRecv u f s
  | .credq u f => Sys2Proof.Machine.execCredq u f s
  | .rxq u f => Sys2Proof.Machine.execRxq u f s
  | .pand u f => Sys2Proof.Machine.execPand u f s
  | .por u f => Sys2Proof.Machine.execPor u f s
  | .pxor u f => Sys2Proof.Machine.execPxor u f s
  | .pandn u f => Sys2Proof.Machine.execPandn u f s
  | .pnot u f => Sys2Proof.Machine.execPnot u f s
  | .pany u f => Sys2Proof.Machine.execPany u f s
  | .pcnt u f => Sys2Proof.Machine.execPcnt u f s
  | .pfirst u f => Sys2Proof.Machine.execPfirst u f s
  | .add u f => Sys2Proof.Machine.execAdd u f s
  | .sub u f => Sys2Proof.Machine.execSub u f s
  | .mul u f => Sys2Proof.Machine.execMul u f s
  | .mulh u f => Sys2Proof.Machine.execMulh u f s
  | .andS u f => Sys2Proof.Machine.execAndS u f s
  | .orS u f => Sys2Proof.Machine.execOrS u f s
  | .xorS u f => Sys2Proof.Machine.execXorS u f s
  | .shl u f => Sys2Proof.Machine.execShl u f s
  | .shr u f => Sys2Proof.Machine.execShr u f s
  | .sra u f => Sys2Proof.Machine.execSra u f s
  | .min u f => Sys2Proof.Machine.execMin u f s
  | .max u f => Sys2Proof.Machine.execMax u f s
  | .slt u f => Sys2Proof.Machine.execSlt u f s
  | .seq u f => Sys2Proof.Machine.execSeq u f s
  | .clz u f => Sys2Proof.Machine.execClz u f s
  | .popc u f => Sys2Proof.Machine.execPopc u f s
  | .addi u f => Sys2Proof.Machine.execAddi u f s
  | .muli u f => Sys2Proof.Machine.execMuli u f s
  | .andi u f => Sys2Proof.Machine.execAndi u f s
  | .ori u f => Sys2Proof.Machine.execOri u f s
  | .xori u f => Sys2Proof.Machine.execXori u f s
  | .shli u f => Sys2Proof.Machine.execShli u f s
  | .shri u f => Sys2Proof.Machine.execShri u f s
  | .srai u f => Sys2Proof.Machine.execSrai u f s
  | .slti u f => Sys2Proof.Machine.execSlti u f s
  | .sltiu u f => Sys2Proof.Machine.execSltiu u f s
  | .seqi u f => Sys2Proof.Machine.execSeqi u f s
  | .li u f => Sys2Proof.Machine.execLi u f s
  | .aadd u f => Sys2Proof.Machine.execAadd u f s
  | .asub u f => Sys2Proof.Machine.execAsub u f s
  | .aadds u f => Sys2Proof.Machine.execAadds u f s
  | .ashl u f => Sys2Proof.Machine.execAshl u f s
  | .ashr u f => Sys2Proof.Machine.execAshr u f s
  | .aand u f => Sys2Proof.Machine.execAand u f s
  | .aor u f => Sys2Proof.Machine.execAor u f s
  | .axor u f => Sys2Proof.Machine.execAxor u f s
  | .altu u f => Sys2Proof.Machine.execAltu u f s
  | .aeq u f => Sys2Proof.Machine.execAeq u f s
  | .aaddi u f => Sys2Proof.Machine.execAaddi u f s
  | .alo u f => Sys2Proof.Machine.execAlo u f s
  | .ahi u f => Sys2Proof.Machine.execAhi u f s
  | .s2a u f => Sys2Proof.Machine.execS2a u f s
  | .a2s u f => Sys2Proof.Machine.execA2s u f s
  | .v2s u f => Sys2Proof.Machine.execV2s u f s
  | .s2v u f => Sys2Proof.Machine.execS2v u f s
  | .vmov u f => Sys2Proof.Machine.execVmov u f s
  | .s2p u f => Sys2Proof.Machine.execS2p u f s
  | .p2s u f => Sys2Proof.Machine.execP2s u f s
  | .smov u f => Sys2Proof.Machine.execSmov u f s
  | .amov u f => Sys2Proof.Machine.execAmov u f s
  | .vadd u f => Sys2Proof.Machine.execVadd u f s
  | .vsub u f => Sys2Proof.Machine.execVsub u f s
  | .vmul u f => Sys2Proof.Machine.execVmul u f s
  | .vmulh u f => Sys2Proof.Machine.execVmulh u f s
  | .vmin u f => Sys2Proof.Machine.execVmin u f s
  | .vmax u f => Sys2Proof.Machine.execVmax u f s
  | .vand u f => Sys2Proof.Machine.execVand u f s
  | .vor u f => Sys2Proof.Machine.execVor u f s
  | .vxor u f => Sys2Proof.Machine.execVxor u f s
  | .vshl u f => Sys2Proof.Machine.execVshl u f s
  | .vshr u f => Sys2Proof.Machine.execVshr u f s
  | .vsra u f => Sys2Proof.Machine.execVsra u f s
  | .vcmp u f => Sys2Proof.Machine.execVcmp u f s
  | .vadds u f => Sys2Proof.Machine.execVadds u f s
  | .vpopc u f => Sys2Proof.Machine.execVpopc u f s
  | .vfadd u f => Sys2Proof.Machine.execVfadd u f s
  | .vfsub u f => Sys2Proof.Machine.execVfsub u f s
  | .vfmul u f => Sys2Proof.Machine.execVfmul u f s
  | .vfma u f => Sys2Proof.Machine.execVfma u f s
  | .vfmin u f => Sys2Proof.Machine.execVfmin u f s
  | .vfmax u f => Sys2Proof.Machine.execVfmax u f s
  | .vfabs u f => Sys2Proof.Machine.execVfabs u f s
  | .vfneg u f => Sys2Proof.Machine.execVfneg u f s
  | .vfcmp u f => Sys2Proof.Machine.execVfcmp u f s
  | .vfexp2 u f => Sys2Proof.Machine.execVfexp2 u f s
  | .vflog2 u f => Sys2Proof.Machine.execVflog2 u f s
  | .vfrcp u f => Sys2Proof.Machine.execVfrcp u f s
  | .vfrsq u f => Sys2Proof.Machine.execVfrsq u f s
  | .vfsqrt u f => Sys2Proof.Machine.execVfsqrt u f s
  | .vfscl u f => Sys2Proof.Machine.execVfscl u f s
  | .cvt u f => Sys2Proof.Machine.execCvt u f s
  | .dec u f => Sys2Proof.Machine.execDec u f s
  | .qmx u f => Sys2Proof.Machine.execQmx u f s
  | .qps4 u f => Sys2Proof.Machine.execQps4 u f s
  | .vbcast u f => Sys2Proof.Machine.execVbcast u f s
  | .vsplat u f => Sys2Proof.Machine.execVsplat u f s
  | .vperm u f => Sys2Proof.Machine.execVperm u f s
  | .vrot u f => Sys2Proof.Machine.execVrot u f s
  | .vminl u f => Sys2Proof.Machine.execVminl u f s
  | .vsuml u f => Sys2Proof.Machine.execVsuml u f s
  | .tdot u f => Sys2Proof.Machine.execTdot u f s
  | .tdotb u f => Sys2Proof.Machine.execTdotb u f s
  | .tdots u f => Sys2Proof.Machine.execTdots u f s
  | .tadd u f => Sys2Proof.Machine.execTadd u f s
  | .tbase u f => Sys2Proof.Machine.execTbase u f s
  | .tmerge u f => Sys2Proof.Machine.execTmerge u f s
  | .tpack u f => Sys2Proof.Machine.execTpack u f s
  | .tcvt u f => Sys2Proof.Machine.execTcvt u f s
  | .tstore u f => Sys2Proof.Machine.execTstore u f s
  | .xpopl u f => Sys2Proof.Machine.execXpopl u f s
  | .hdist u f => Sys2Proof.Machine.execHdist u f s
  | .ldv u f => Sys2Proof.Machine.execLdv u f s
  | .ldvi u f => Sys2Proof.Machine.execLdvi u f s
  | .ldw u f => Sys2Proof.Machine.execLdw u f s
  | .lda u f => Sys2Proof.Machine.execLda u f s
  | .ldg u f => Sys2Proof.Machine.execLdg u f s
  | .ldp u f => Sys2Proof.Machine.execLdp u f s
  | .stv u f => Sys2Proof.Machine.execStv u f s
  | .stvi u f => Sys2Proof.Machine.execStvi u f s
  | .stw u f => Sys2Proof.Machine.execStw u f s
  | .sta u f => Sys2Proof.Machine.execSta u f s
  | .stsc u f => Sys2Proof.Machine.execStsc u f s
  | .tbar u f => Sys2Proof.Machine.execTbar u f s
  | .pbv u f => Sys2Proof.Machine.execPbv u f s
  | .pbvi u f => Sys2Proof.Machine.execPbvi u f s
  | .pbw u f => Sys2Proof.Machine.execPbw u f s
  | .pbg u f => Sys2Proof.Machine.execPbg u f s
  | .gld u f => Sys2Proof.Machine.execGld u f s
  | .gst u f => Sys2Proof.Machine.execGst u f s
  | .gq u f => Sys2Proof.Machine.execGq u f s
  | .gmemComplete t c n => Sys2Proof.Machine.execGmemComplete t c n s
  | .atomAadd u f => Sys2Proof.Machine.execAtomAadd u f s
  | .amin u f => Sys2Proof.Machine.execAmin u f s
  | .amax u f => Sys2Proof.Machine.execAmax u f s
  | .atomAand u f => Sys2Proof.Machine.execAtomAand u f s
  | .atomAor u f => Sys2Proof.Machine.execAtomAor u f s
  | .atomAxor u f => Sys2Proof.Machine.execAtomAxor u f s
  | .aswap u f => Sys2Proof.Machine.execAswap u f s
  | .acas u f => Sys2Proof.Machine.execAcas u f s
  | .acas128 u f => Sys2Proof.Machine.execAcas128 u f s
  | .atomComplete u n => Sys2Proof.Machine.execAtomComplete u n s
  | .sload u f => Sys2Proof.Machine.execSload u f s
  | .sstore u f => Sys2Proof.Machine.execSstore u f s
  | .sdlv u f => Sys2Proof.Machine.execSdlv u f s
  | .sldv u f => Sys2Proof.Machine.execSldv u f s
  | .sstv u f => Sys2Proof.Machine.execSstv u f s
  | .sunit u f => Sys2Proof.Machine.execSunit u f s
  | .dcmp u f => Sys2Proof.Machine.execDcmp u f s
  | .enc u f => Sys2Proof.Machine.execEnc u f s
  | .ptrx u f => Sys2Proof.Machine.execPtrx u f s
  | .crc64 u f => Sys2Proof.Machine.execCrc64 u f s
  | .evclaim u f => Sys2Proof.Machine.execEvclaim u f s
  | .evclaimCommit c => Sys2Proof.Machine.execEvclaimCommit c s
  | .evdone u f => Sys2Proof.Machine.execEvdone u f s
  | .wfe u f => Sys2Proof.Machine.execWfe u f s
  | .wfeWake c timeout => Sys2Proof.Machine.execWfeWake c timeout s
  | .raise u f => Sys2Proof.Machine.execRaise u f s
  | .fence u f => Sys2Proof.Machine.execFence u f s
  | .ld64 u f => Sys2Proof.Machine.execLd64 u f s
  | .st64 u f => Sys2Proof.Machine.execSt64 u f s
  | .ld32 u f => Sys2Proof.Machine.execLd32 u f s
  | .st32 u f => Sys2Proof.Machine.execSt32 u f s
  | .ldl u f => Sys2Proof.Machine.execLdl u f s
  | .stl u f => Sys2Proof.Machine.execStl u f s
  | .deliver k => Sys2Proof.Machine.execDeliver k s
  | .frameEntry k => Sys2Proof.Machine.execFrameEntry k s
  | .courierDDel k entry => Sys2Proof.Machine.execCourierDDel k entry s
  | .courierReadComplete k => Sys2Proof.Machine.execCourierReadComplete k s
  | .inTransitRetry k => Sys2Proof.Machine.execInTransitRetry k s
  | .crrResume h k => Sys2Proof.Machine.execCrrResume h k s
  | .crrAbandon h k => Sys2Proof.Machine.execCrrAbandon h k s
  | .crrRestart h k => Sys2Proof.Machine.execCrrRestart h k s
  | .poolFaultTimeout k => Sys2Proof.Machine.execPoolFaultTimeout k s
  | .tableReadComplete n => Sys2Proof.Machine.execTableReadComplete n s
  | .tlbiAll h => Sys2Proof.Machine.execTlbiAll h s
  | .tlbiPart h p => Sys2Proof.Machine.execTlbiPart h p s
  | .tlbiVa h p count => Sys2Proof.Machine.execTlbiVa h p count s
  | .tlbiIpa h p count => Sys2Proof.Machine.execTlbiIpa h p count s
  | .tlbiComplete => Sys2Proof.Machine.execTlbiComplete s
  | .stmHintGo h first count hint mirror => Sys2Proof.Machine.execStmHintGo h first count hint mirror s
  | .migrationComplete u => Sys2Proof.Machine.execMigrationComplete u s
  | .stageOnlyZeroed => Sys2Proof.Machine.execStageOnlyZeroed s
  | .lend h entry => Sys2Proof.Machine.execLend h entry s
  | .notice h entry endCue => Sys2Proof.Machine.execNotice h entry endCue s
  | .release h w => Sys2Proof.Machine.execRelease h w s
  | .loanMsg src m => Sys2Proof.Machine.execLoanMsg src m s
  | .loanEnd lender entry => Sys2Proof.Machine.execLoanEnd lender entry s
  | .loanZeroingDone entry => Sys2Proof.Machine.execLoanZeroingDone entry s
  | .channelFailed ch half done => Sys2Proof.Machine.execChannelFailed ch half done s
  | .rebuildComplete ch => Sys2Proof.Machine.execRebuildComplete ch s
  | .copybackComplete ch => Sys2Proof.Machine.execCopybackComplete ch s
  | .mirrorWr src id unit step m => Sys2Proof.Machine.execMirrorWr src id unit step m s
  | .scrub arr cw bits => Sys2Proof.Machine.execScrub arr cw bits s
  | .errorWindowStart => Sys2Proof.Machine.execErrorWindowStart s
  | .rdS a line part => Sys2Proof.Machine.execRdS a line part s
  | .rdX a line part => Sys2Proof.Machine.execRdX a line part s
  | .upg a line part => Sys2Proof.Machine.execUpg a line part s
  | .rdOnce r line part => Sys2Proof.Machine.execRdOnce r line part s
  | .wrLine r line part x marks => Sys2Proof.Machine.execWrLine r line part x marks s
  | .wrPart r line part mask x => Sys2Proof.Machine.execWrPart r line part mask x s
  | .cohAtomic r line part off minor wide8 ta rm srw opnd cmp => Sys2Proof.Machine.execCohAtomic r line part off minor wide8 ta rm srw opnd cmp s
  | .tierDataReturn line => Sys2Proof.Machine.execTierDataReturn line s
  | .snpShr a line r => Sys2Proof.Machine.execSnpShr a line r s
  | .snpInv a line r nodata => Sys2Proof.Machine.execSnpInv a line r nodata s
  | .snpInvHome a line r => Sys2Proof.Machine.execSnpInvHome a line r s
  | .snpOnce a line r => Sys2Proof.Machine.execSnpOnce a line r s
  | .snpShrHome a line r => Sys2Proof.Machine.execSnpShrHome a line r s
  | .ackI a line err => Sys2Proof.Machine.execAckI a line err s
  | .ackID a m => Sys2Proof.Machine.execAckID a m s
  | .ackSD a m => Sys2Proof.Machine.execAckSD a m s
  | .ackKeep a m => Sys2Proof.Machine.execAckKeep a m s
  | .evict a m => Sys2Proof.Machine.execEvict a m s
  | .wbData a line x marks => Sys2Proof.Machine.execWbData a line x marks s
  | .dataHome a line x marks => Sys2Proof.Machine.execDataHome a line x marks s
  | .gnt a line => Sys2Proof.Machine.execGnt a line s
  | .dataS a line x marks => Sys2Proof.Machine.execDataS a line x marks s
  | .dataF a line x marks => Sys2Proof.Machine.execDataF a line x marks s
  | .dataE a line x marks => Sys2Proof.Machine.execDataE a line x marks s
  | .dataM a line x marks => Sys2Proof.Machine.execDataM a line x marks s
  | .dataOnce r line x marks => Sys2Proof.Machine.execDataOnce r line x marks s
  | .dataAtom r line old status => Sys2Proof.Machine.execDataAtom r line old status s
  | .agentLoad a line => Sys2Proof.Machine.execAgentLoad a line s
  | .agentStore a line mask x => Sys2Proof.Machine.execAgentStore a line mask x s
  | .agentReplacement a line => Sys2Proof.Machine.execAgentReplacement a line s
  | .holdEnd a line => Sys2Proof.Machine.execHoldEnd a line s
  | .memrd g hpa mv => Sys2Proof.Machine.execMemrd g hpa mv s
  | .meminv g hpa mv => Sys2Proof.Machine.execMeminv g hpa mv s
  | .memwr g hpa mv x poison => Sys2Proof.Machine.execMemwr g hpa mv x poison s
  | .memwrptl g hpa mv mask x poison => Sys2Proof.Machine.execMemwrptl g hpa mv mask x poison s
  | .birsp g line kind => Sys2Proof.Machine.execBirsp g line kind s
  | .biconflict g line => Sys2Proof.Machine.execBiconflict g line s
  | .otherM2sOpcode g hpa write => Sys2Proof.Machine.execOtherM2sOpcode g hpa write s
  | .biTimeout g => Sys2Proof.Machine.execBiTimeout g s
  | .edgeAgentLost g => Sys2Proof.Machine.execEdgeAgentLost g s
  | .agentSweepComplete g => Sys2Proof.Machine.execAgentSweepComplete g s
  | .cohAgentRearm h n => Sys2Proof.Machine.execCohAgentRearm h n s
  | .hdmDecoderCommit g k base size ways => Sys2Proof.Machine.execHdmDecoderCommit g k base size ways s
  | .efhPortEn h n en => Sys2Proof.Machine.execEfhPortEn h n en s
  | .trainComplete n => Sys2Proof.Machine.execTrainComplete n s
  | .trainTimeout n => Sys2Proof.Machine.execTrainTimeout n s
  | .alignLock n => Sys2Proof.Machine.execAlignLock n s
  | .alignTimeout n => Sys2Proof.Machine.execAlignTimeout n s
  | .negotiate n level dev => Sys2Proof.Machine.execNegotiate n level dev s
  | .fecLockLoss n => Sys2Proof.Machine.execFecLockLoss n s
  | .flitReceive n f fec => Sys2Proof.Machine.execFlitReceive n f fec s
  | .nak n ack => Sys2Proof.Machine.execNak n ack s
  | .fabricRd src part id line fwd => Sys2Proof.Machine.execFabricRd src part id line fwd s
  | .fabricWr src part id line x marks fwd => Sys2Proof.Machine.execFabricWr src part id line x marks fwd s
  | .fabricWrPart src part id line mask x fwd => Sys2Proof.Machine.execFabricWrPart src part id line mask x fwd s
  | .fabricAtom src part id line off minor wide8 ta opnd cmp fwd => Sys2Proof.Machine.execFabricAtom src part id line off minor wide8 ta opnd cmp fwd s
  | .fabricRsp src id status marks data fwd => Sys2Proof.Machine.execFabricRsp src id status marks data fwd s
  | .fabricParcel p => Sys2Proof.Machine.execFabricParcel p s
  | .fabricCred src entries => Sys2Proof.Machine.execFabricCred src entries s
  | .ctrlRd src id off wide8 => Sys2Proof.Machine.execCtrlRd src id off wide8 s
  | .ctrlWr src id off wide8 x => Sys2Proof.Machine.execCtrlWr src id off wide8 x s
  | .requestResendTimeout id => Sys2Proof.Machine.execRequestResendTimeout id s
  | .offer n => Sys2Proof.Machine.execOffer n s
  | .offerMsg src part id region epoch rdev rpart fwd => Sys2Proof.Machine.execOfferMsg src part id region epoch rdev rpart fwd s
  | .offerFwd src region epoch fromDev fromPart toPart => Sys2Proof.Machine.execOfferFwd src region epoch fromDev fromPart toPart s
  | .accept n => Sys2Proof.Machine.execAccept n s
  | .acceptMsg src part id region epoch => Sys2Proof.Machine.execAcceptMsg src part id region epoch s
  | .grant src kind part id region status epoch => Sys2Proof.Machine.execGrant src kind part id region status epoch s
  | .offerQuery entry => Sys2Proof.Machine.execOfferQuery entry s
  | .query src region epoch => Sys2Proof.Machine.execQuery src region epoch s
  | .queryReply src region epoch logged => Sys2Proof.Machine.execQueryReply src region epoch logged s
  | .publish n => Sys2Proof.Machine.execPublish n s
  | .publishMsg src part id region epoch mode fwd => Sys2Proof.Machine.execPublishMsg src part id region epoch mode fwd s
  | .regionInval src region log2 => Sys2Proof.Machine.execRegionInval src region log2 s
  | .invalAck src region => Sys2Proof.Machine.execInvalAck src region s
  | .regionSet h entry pga log2 dev part => Sys2Proof.Machine.execRegionSet h entry pga log2 dev part s
  | .regionClear h entry => Sys2Proof.Machine.execRegionClear h entry s
  | .regionForward h entry target => Sys2Proof.Machine.execRegionForward h entry target s
  | .forwardDrained entry => Sys2Proof.Machine.execForwardDrained entry s
  | .switchInputArrival inp p => Sys2Proof.Machine.execSwitchInputArrival inp p s
  | .tokenRefill => Sys2Proof.Machine.execTokenRefill s
  | .multicastCopy inp => Sys2Proof.Machine.execMulticastCopy inp s
  | .tallyMerge => Sys2Proof.Machine.execTallyMerge s
  | .sweepEnd => Sys2Proof.Machine.execSweepEnd s
  | .gather n k => Sys2Proof.Machine.execGather n k s
  | .scatterAdd n k => Sys2Proof.Machine.execScatterAdd n k s
  | .rowPut n k => Sys2Proof.Machine.execRowPut n k s
  | .rowLookup src part id n table row => Sys2Proof.Machine.execRowLookup src part id n table row s
  | .hotRowLanded table row data marks => Sys2Proof.Machine.execHotRowLanded table row data marks s
  | .embForwardDrained k => Sys2Proof.Machine.execEmbForwardDrained k s
  | .searchOrder n k => Sys2Proof.Machine.execSearchOrder n k s
  | .searchTask src part id q index shard clsR k w probes require exclude code => Sys2Proof.Machine.execSearchTask src part id q index shard clsR k w probes require exclude code s
  | .searchSpill t => Sys2Proof.Machine.execSearchSpill t s
  | .shardResult id q shard dead visited skipped list => Sys2Proof.Machine.execShardResult id q shard dead visited skipped list s
  | .postcard src cue ofs flags coord heard suspect verdict rhSuspect rhVerdict skewPs => Sys2Proof.Machine.execPostcard src cue ofs flags coord heard suspect verdict rhSuspect rhVerdict skewPs s
  | .suspect j => Sys2Proof.Machine.execSuspect j s
  | .quorumLoss => Sys2Proof.Machine.execQuorumLoss s
  | .restoreGo h slots => Sys2Proof.Machine.execRestoreGo h slots s
  | .restoreDone => Sys2Proof.Machine.execRestoreDone s
  | .rslAdmitGo h => Sys2Proof.Machine.execRslAdmitGo h s
  | .selftestDone pass => Sys2Proof.Machine.execSelftestDone pass s
  | .admitOrder n failed => Sys2Proof.Machine.execAdmitOrder n failed s
  | .rehearsalInjection => Sys2Proof.Machine.execRehearsalInjection s
  | .memoryRead addr n => Sys2Proof.Machine.execMemoryRead addr n s
  | .memoryWrite addr bs poison => Sys2Proof.Machine.execMemoryWrite addr bs poison s
  | .unsupportedRequest => Sys2Proof.Machine.execUnsupportedRequest s
  | .configurationRequest c => Sys2Proof.Machine.execConfigurationRequest c s
  | .doeRequest port m => Sys2Proof.Machine.execDoeRequest port m s
  | .flr => Sys2Proof.Machine.execFlr s
  | .hotReset => Sys2Proof.Machine.execHotReset s
  | .dlDown => Sys2Proof.Machine.execDlDown s
  | .perst assert => Sys2Proof.Machine.execPerst assert s
  | .hostLinkUp rate width => Sys2Proof.Machine.execHostLinkUp rate width s
  | .ideFailure port stream => Sys2Proof.Machine.execIdeFailure port stream s
  | .identifyMemoryDevice g => Sys2Proof.Machine.execIdentifyMemoryDevice g s
  | .getPartitionInfo g => Sys2Proof.Machine.execGetPartitionInfo g s
  | .getHealthInfo g => Sys2Proof.Machine.execGetHealthInfo g s
  | .getSupportedLogs g => Sys2Proof.Machine.execGetSupportedLogs g s
  | .getLog g uuid offset length => Sys2Proof.Machine.execGetLog g uuid offset length s
  | .getEventRecords g log => Sys2Proof.Machine.execGetEventRecords g log s
  | .clearEventRecords g log all n => Sys2Proof.Machine.execClearEventRecords g log all n s
  | .mailboxUnsupported g opcode => Sys2Proof.Machine.execMailboxUnsupported g opcode s
  | .outboxNotice p box => Sys2Proof.Machine.execOutboxNotice p box s
  | .workOrderFetch p box => Sys2Proof.Machine.execWorkOrderFetch p box s
  | .inboxHeadWrite p j => Sys2Proof.Machine.execInboxHeadWrite p j s
  | .runPlan n => Sys2Proof.Machine.execRunPlan n s
  | .copyOrder n k => Sys2Proof.Machine.execCopyOrder n k s
  | .fillOrder n k => Sys2Proof.Machine.execFillOrder n k s
  | .callSheet n k => Sys2Proof.Machine.execCallSheet n k s
  | .resumeOrder n => Sys2Proof.Machine.execResumeOrder n s
  | .eventEdge id => Sys2Proof.Machine.execEventEdge id s
  | .eventRetract id => Sys2Proof.Machine.execEventRetract id s
  | .evcPendingClear h w mask => Sys2Proof.Machine.execEvcPendingClear h w mask s
  | .evcRaiseWrite h id => Sys2Proof.Machine.execEvcRaiseWrite h id s
  | .targetSignal t gap old => Sys2Proof.Machine.execTargetSignal t gap old s
  | .coreHandlerEntry c => Sys2Proof.Machine.execCoreHandlerEntry c s
  | .smCoreRestart h c => Sys2Proof.Machine.execSmCoreRestart h c s
  | .stageDoorCoreRestart => Sys2Proof.Machine.execStageDoorCoreRestart s
  | .smxXqRdWrite h rd => Sys2Proof.Machine.execSmxXqRdWrite h rd s
  | .refclkLoss => Sys2Proof.Machine.execRefclkLoss s
  | .refclkReturn volts => Sys2Proof.Machine.execRefclkReturn volts s
  | .pllLockLoss die => Sys2Proof.Machine.execPllLockLoss die s
  | .pllRelock => Sys2Proof.Machine.execPllRelock s
  | .clkMuxCmdGo h region inp window hang => Sys2Proof.Machine.execClkMuxCmdGo h region inp window hang s
  | .muxHung r => Sys2Proof.Machine.execMuxHung r s
  | .domainCycleComplete r => Sys2Proof.Machine.execDomainCycleComplete r s
  | .clkFcntGo h window region inp => Sys2Proof.Machine.execClkFcntGo h window region inp s
  | .clkFcntDone count => Sys2Proof.Machine.execClkFcntDone count s
  | .pwrActive h => Sys2Proof.Machine.execPwrActive h s
  | .pwrIdle h => Sys2Proof.Machine.execPwrIdle h s
  | .pwrDoze h => Sys2Proof.Machine.execPwrDoze h s
  | .pwrRest h => Sys2Proof.Machine.execPwrRest h s
  | .stageDoorRound temps volts input amps => Sys2Proof.Machine.execStageDoorRound temps volts input amps s
  | .tripRecovery => Sys2Proof.Machine.execTripRecovery s
  | .inputOvervoltageDisconnect => Sys2Proof.Machine.execInputOvervoltageDisconnect s
  | .undervoltageLockout => Sys2Proof.Machine.execUndervoltageLockout s
  | .coldReset => Sys2Proof.Machine.execColdReset s
  | .warmReset cause => Sys2Proof.Machine.execWarmReset cause s
  | .secResetCold h => Sys2Proof.Machine.execSecResetCold h s
  | .secResetWarm h => Sys2Proof.Machine.execSecResetWarm h s
  | .bootDone fails => Sys2Proof.Machine.execBootDone fails s
  | .storeReady => Sys2Proof.Machine.execStoreReady s
  | .imgWrite h kind => Sys2Proof.Machine.execImgWrite h kind s
  | .imgArm h kind cue => Sys2Proof.Machine.execImgArm h kind cue s
  | .imgCommit h kind => Sys2Proof.Machine.execImgCommit h kind s
  | .imgSvn h kind => Sys2Proof.Machine.execImgSvn h kind s
  | .secCalGo h port lanes => Sys2Proof.Machine.execSecCalGo h port lanes s
  | .calDone => Sys2Proof.Machine.execCalDone s
  | .wcDrain h ch done => Sys2Proof.Machine.execWcDrain h ch done s
  | .wcPowerOff h ch => Sys2Proof.Machine.execWcPowerOff h ch s
  | .wcRetrain h ch ok => Sys2Proof.Machine.execWcRetrain h ch ok s
  | .getVersion via => Sys2Proof.Machine.execGetVersion via s
  | .getCapabilities via => Sys2Proof.Machine.execGetCapabilities via s
  | .negotiateAlgorithms via offered => Sys2Proof.Machine.execNegotiateAlgorithms via offered s
  | .getDigests via => Sys2Proof.Machine.execGetDigests via s
  | .getCertificate via slot offset length => Sys2Proof.Machine.execGetCertificate via slot offset length s
  | .challenge via slot nonce => Sys2Proof.Machine.execChallenge via slot nonce s
  | .getMeasurements via index sign => Sys2Proof.Machine.execGetMeasurements via index sign s
  | .keyExchange via share => Sys2Proof.Machine.execKeyExchange via share s
  | .finish via id good => Sys2Proof.Machine.execFinish via id good s
  | .heartbeat via id => Sys2Proof.Machine.execHeartbeat via id s
  | .keyUpdate via id => Sys2Proof.Machine.execKeyUpdate via id s
  | .endSession via id => Sys2Proof.Machine.execEndSession via id s
  | .mctpControlAccess word x => Sys2Proof.Machine.execMctpControlAccess word x s
  | .hptCfgBar2Write h v => Sys2Proof.Machine.execHptCfgBar2Write h v s
  | .pbStagedDataWrite h f word x => Sys2Proof.Machine.execPbStagedDataWrite h f word x s
  | .pbkFrameStageWrite h f owner cond done tag => Sys2Proof.Machine.execPbkFrameStageWrite h f owner cond done tag s
  | .registerWrite h off x => Sys2Proof.Machine.execRegisterWrite h off x s
  | .bypass => Sys2Proof.Machine.execBypass s
  | .idcode => Sys2Proof.Machine.execIdcode s
  | .samplePreload cells => Sys2Proof.Machine.execSamplePreload cells s
  | .extest => Sys2Proof.Machine.execExtest s
  | .clamp => Sys2Proof.Machine.execClamp s
  | .highz => Sys2Proof.Machine.execHighz s
  | .extestPulse => Sys2Proof.Machine.execExtestPulse s
  | .extestTrain => Sys2Proof.Machine.execExtestTrain s
  | .testLogicReset => Sys2Proof.Machine.execTestLogicReset s
  | .edgeLinkUp g rate width => Sys2Proof.Machine.execEdgeLinkUp g rate width s
  | .edgePortEn h k en => Sys2Proof.Machine.execEdgePortEn h k en s
  | .cellTimeMatch => Sys2Proof.Machine.execCellTimeMatch s
  | .rowResult id n status data => Sys2Proof.Machine.execRowResult id n status data s
  | .rowUpdate src part id n table row kind base f32 data dead => Sys2Proof.Machine.execRowUpdate src part id n table row kind base f32 data dead s

end Sys2Proof.Machine
end

