-- ==== Sys2Proof/Safety.lean ====
section
/-!
DEFINITION. The terms in which claims about runs are made: when an instruction issues, what retiring it does, the rows of the
instruction set, and the canonical form of the state's memories and registers.
-/

namespace Sys2Proof.Machine

/-- R133 to R138, R151: an instruction of encoding `e` issues in this state: the device is not stopped, the agent runs, the word is
legal in its profile and meets the further rules `ok`, PC is below LENGTH, and no named register has a write pending. -/
def Issues (e : Enc) (ok : Bool) (u : Agent) (f : BitVec 52) (s : State) : Prop :=
  s.halted = false ∧ s.mayIssue u = true ∧ s.badWord u = none ∧ (s.cx u).st = .run ∧ e.legal (agentProfile u) f = true ∧ ok = true ∧
    (s.cx u).pc < (s.cx u).len ∧ ∀ r ∈ e.regs f, r ∉ (s.cx u).pend

/-- R140, R141: some lane is enabled, so an instruction that executes as a whole executes. -/
def Enabled (u : Agent) (f : BitVec 52) (s : State) : Prop := maskOf (s.cx u) f ≠ 0

/-- An instruction retires with nothing changed but its own context, which becomes `y` at the next index. -/
def State.retire (s : State) (u : Agent) (y : Cx) : State :=
  (s.setCx u { y with pc := (s.cx u).pc + 1, st := .run }).issued u

/-- An instruction branches with nothing changed but its own context, which becomes `y` at the target. -/
def State.branch (s : State) (u : Agent) (y : Cx) (target : Nat) : State :=
  (s.setCx u { y with pc := target, st := .run }).issued u

/-- An instruction that executes as a whole, wherever it issues with a lane enabled, retires with its context changed by `op` alone. -/
def Gives (i : Agent → BitVec 52 → Instr) (e : Enc) (ok : Nat → BitVec 52 → Bool) (op : BitVec 52 → Cx → Cx) : Prop :=
  ∀ u f s, Issues e (ok (agentProfile u) f) u f s → Enabled u f s →
    exec (i u f) s = .next (s.retire u (op f (s.cx u)))

/-- A lane-wise instruction, wherever it issues, retires with its context changed by `op` alone. -/
def GivesLanes (i : Agent → BitVec 52 → Instr) (e : Enc) (ok : Nat → BitVec 52 → Bool) (op : BitVec 52 → Cx → Cx) : Prop :=
  ∀ u f s, Issues e (ok (agentProfile u) f) u f s → exec (i u f) s = .next (s.retire u (op f (s.cx u)))

/-- No further rule beyond the encoding table. -/
def anyWord (_ : Nat) (_ : BitVec 52) : Bool := true

/-- One instruction: its command, its encoding, the further rules of its word, whether it executes as a whole (R141). -/
structure IsaRow where
  cmd : Agent → BitVec 52 → Instr
  enc : BitVec 52 → Enc
  ok : Nat → BitVec 52 → Bool := fun _ _ => true
  whole : Bool := true

/-- CTRL and PARCEL (R130, R150 to R158). -/
def isaControl : List IsaRow :=
  [{ cmd := .nop, enc := fun _ => encNop },
   { cmd := .endUnit, enc := fun _ => encEnd },
   { cmd := .br, enc := fun _ => encBr },
   { cmd := .brz, enc := fun _ => encBrz },
   { cmd := .brnz, enc := fun _ => encBrnz },
   { cmd := .call, enc := fun _ => encCall },
   { cmd := .retn, enc := fun _ => encRet },
   { cmd := .loop, enc := fun _ => encLoop },
   { cmd := .waitcue, enc := fun _ => encWaitcue },
   { cmd := .dlbr, enc := fun _ => encDlbr },
   { cmd := .mfs, enc := fun f => encMfs (bitOf (fMOD f) 1), ok := fun p f => sprListed p (fA f) },
   { cmd := .mts, enc := fun _ => encMts, ok := fun _ f => bitOf (fMOD f) 0 },
   { cmd := .send, enc := fun _ => encSend },
   { cmd := .recv, enc := fun _ => encRecv },
   { cmd := .credq, enc := fun _ => encCredq },
   { cmd := .rxq, enc := fun _ => encRxq }]

/-- PRED, SALU, SIMM, AALU and MOVE (R174 to R178). -/
def isaScalar : List IsaRow :=
  [{ cmd := .pand, enc := fun _ => encPand },
   { cmd := .por, enc := fun _ => encPor },
   { cmd := .pxor, enc := fun _ => encPxor },
   { cmd := .pandn, enc := fun _ => encPandn },
   { cmd := .pnot, enc := fun _ => encPnot },
   { cmd := .pany, enc := fun _ => encPany },
   { cmd := .pcnt, enc := fun _ => encPcnt },
   { cmd := .pfirst, enc := fun _ => encPfirst },
   { cmd := .add, enc := fun _ => encAdd },
   { cmd := .sub, enc := fun _ => encSub },
   { cmd := .mul, enc := fun _ => encMul },
   { cmd := .mulh, enc := fun _ => encMulh },
   { cmd := .andS, enc := fun _ => encAndS },
   { cmd := .orS, enc := fun _ => encOrS },
   { cmd := .xorS, enc := fun _ => encXorS },
   { cmd := .shl, enc := fun _ => encShl },
   { cmd := .shr, enc := fun _ => encShr },
   { cmd := .sra, enc := fun _ => encSra },
   { cmd := .min, enc := fun _ => encMin },
   { cmd := .max, enc := fun _ => encMax },
   { cmd := .slt, enc := fun _ => encSlt },
   { cmd := .seq, enc := fun _ => encSeq },
   { cmd := .clz, enc := fun _ => encClz },
   { cmd := .popc, enc := fun _ => encPopc }] ++
  [{ cmd := .addi, enc := fun _ => encAddi },
   { cmd := .muli, enc := fun _ => encMuli },
   { cmd := .andi, enc := fun _ => encAndi },
   { cmd := .ori, enc := fun _ => encOri },
   { cmd := .xori, enc := fun _ => encXori },
   { cmd := .shli, enc := fun _ => encShli },
   { cmd := .shri, enc := fun _ => encShri },
   { cmd := .srai, enc := fun _ => encSrai },
   { cmd := .slti, enc := fun _ => encSlti },
   { cmd := .sltiu, enc := fun _ => encSltiu },
   { cmd := .seqi, enc := fun _ => encSeqi },
   { cmd := .li, enc := fun _ => encLi },
   { cmd := .aadd, enc := fun _ => encAadd },
   { cmd := .asub, enc := fun _ => encAsub },
   { cmd := .aadds, enc := fun _ => encAadds },
   { cmd := .ashl, enc := fun _ => encAshl },
   { cmd := .ashr, enc := fun _ => encAshr },
   { cmd := .aand, enc := fun _ => encAand },
   { cmd := .aor, enc := fun _ => encAor },
   { cmd := .axor, enc := fun _ => encAxor },
   { cmd := .altu, enc := fun _ => encAltu },
   { cmd := .aeq, enc := fun _ => encAeq },
   { cmd := .aaddi, enc := fun _ => encAaddi },
   { cmd := .alo, enc := fun _ => encAlo }] ++
  [{ cmd := .ahi, enc := fun _ => encAhi },
   { cmd := .s2a, enc := fun _ => encS2a },
   { cmd := .a2s, enc := fun _ => encA2s },
   { cmd := .v2s, enc := fun _ => encV2s },
   { cmd := .s2v, enc := fun _ => encS2v },
   { cmd := .vmov, enc := fun _ => encVmov, whole := false },
   { cmd := .s2p, enc := fun _ => encS2p },
   { cmd := .p2s, enc := fun _ => encP2s },
   { cmd := .smov, enc := fun _ => encSmov },
   { cmd := .amov, enc := fun _ => encAmov }]

/-- VINT, VFP, VCVT and VPERM (R179 to R185). -/
def isaVector : List IsaRow :=
  [{ cmd := .vadd, enc := fun _ => encVadd, whole := false },
   { cmd := .vsub, enc := fun _ => encVsub, whole := false },
   { cmd := .vmul, enc := fun _ => encVmul, whole := false },
   { cmd := .vmulh, enc := fun _ => encVmulh, whole := false },
   { cmd := .vmin, enc := fun _ => encVmin, whole := false },
   { cmd := .vmax, enc := fun _ => encVmax, whole := false },
   { cmd := .vand, enc := fun _ => encVand, whole := false },
   { cmd := .vor, enc := fun _ => encVor, whole := false },
   { cmd := .vxor, enc := fun _ => encVxor, whole := false },
   { cmd := .vshl, enc := fun _ => encVshl, whole := false },
   { cmd := .vshr, enc := fun _ => encVshr, whole := false },
   { cmd := .vsra, enc := fun _ => encVsra, whole := false },
   { cmd := .vcmp, enc := fun _ => encVcmp, whole := false },
   { cmd := .vadds, enc := fun _ => encVadds, whole := false },
   { cmd := .vpopc, enc := fun _ => encVpopc, whole := false },
   { cmd := .vfadd, enc := fun _ => encVfadd, whole := false },
   { cmd := .vfsub, enc := fun _ => encVfsub, whole := false },
   { cmd := .vfmul, enc := fun _ => encVfmul, whole := false },
   { cmd := .vfma, enc := fun _ => encVfma, whole := false },
   { cmd := .vfmin, enc := fun _ => encVfmin, whole := false },
   { cmd := .vfmax, enc := fun _ => encVfmax, whole := false },
   { cmd := .vfabs, enc := fun _ => encVfabs, whole := false },
   { cmd := .vfneg, enc := fun _ => encVfneg, whole := false },
   { cmd := .vfcmp, enc := fun _ => encVfcmp, whole := false }] ++
  [{ cmd := .vfexp2, enc := fun _ => encVfexp2, whole := false },
   { cmd := .vflog2, enc := fun _ => encVflog2, whole := false },
   { cmd := .vfrcp, enc := fun _ => encVfrcp, whole := false },
   { cmd := .vfrsq, enc := fun _ => encVfrsq, whole := false },
   { cmd := .vfsqrt, enc := fun _ => encVfsqrt, whole := false },
   { cmd := .vfscl, enc := fun _ => encVfscl, whole := false },
   { cmd := .cvt, enc := fun _ => encCvt, ok := fun p f => cvtOk p f, whole := false },
   { cmd := .dec, enc := fun _ => encDec, ok := fun p f => decOk p f, whole := false },
   { cmd := .qmx, enc := fun _ => encQmx, ok := fun p f => qmxOk p f },
   { cmd := .qps4, enc := fun _ => encQps4, ok := fun p f => qps4Ok p f },
   { cmd := .vbcast, enc := fun _ => encVbcast, whole := false },
   { cmd := .vsplat, enc := fun _ => encVsplat, whole := false },
   { cmd := .vperm, enc := fun _ => encVperm, whole := false },
   { cmd := .vrot, enc := fun _ => encVrot, whole := false },
   { cmd := .vminl, enc := fun _ => encVminl },
   { cmd := .vsuml, enc := fun _ => encVsuml }]

/-- TDOT, TALLY and HAM (R186 to R192). -/
def isaTally : List IsaRow :=
  [{ cmd := .tdot, enc := fun _ => encTdot, ok := fun _ f => dotOk f, whole := false },
   { cmd := .tdotb, enc := fun _ => encTdotb, ok := fun _ f => dotOk f, whole := false },
   { cmd := .tdots, enc := fun _ => encTdots, ok := fun _ f => dotsOk f, whole := false },
   { cmd := .tadd, enc := fun _ => encTadd, whole := false },
   { cmd := .tbase, enc := fun _ => encTbase },
   { cmd := .tmerge, enc := fun _ => encTmerge, ok := fun _ f => bitOf (fMOD f) 0 || decide (fA f + 2 ≤ 64), whole := false },
   { cmd := .tpack, enc := fun _ => encTpack },
   { cmd := .tcvt, enc := fun _ => encTcvt, whole := false },
   { cmd := .tstore, enc := fun _ => encTstore },
   { cmd := .xpopl, enc := fun _ => encXpopl, whole := false },
   { cmd := .hdist, enc := fun _ => encHdist, ok := fun _ f => hdistOk f }]

/-- LDS, STS, PBK and GMEM (R193 to R202). -/
def isaMemory : List IsaRow :=
  [{ cmd := .ldv, enc := fun _ => encLdv, whole := false },
   { cmd := .ldvi, enc := fun _ => encLdvi, whole := false },
   { cmd := .ldw, enc := fun _ => encLdw },
   { cmd := .lda, enc := fun _ => encLda },
   { cmd := .ldg, enc := fun _ => encLdg, whole := false },
   { cmd := .ldp, enc := fun _ => encLdp },
   { cmd := .stv, enc := fun _ => encStv, whole := false },
   { cmd := .stvi, enc := fun _ => encStvi, whole := false },
   { cmd := .stw, enc := fun _ => encStw },
   { cmd := .sta, enc := fun _ => encSta },
   { cmd := .stsc, enc := fun _ => encStsc, whole := false },
   { cmd := .tbar, enc := fun _ => encTbar },
   { cmd := .pbv, enc := fun _ => encPbv },
   { cmd := .pbvi, enc := fun _ => encPbvi },
   { cmd := .pbw, enc := fun _ => encPbw },
   { cmd := .pbg, enc := fun _ => encPbg, whole := false },
   { cmd := .gld, enc := fun _ => encGld },
   { cmd := .gst, enc := fun _ => encGst },
   { cmd := .gq, enc := fun _ => encGq }]

/-- ATOM (R203, R204). -/
def isaAtom : List IsaRow :=
  [{ cmd := .atomAadd, enc := fun _ => encAtom 0 [0, 1, 2] false, ok := fun _ f => atomOk f 0 },
   { cmd := .amin, enc := fun _ => encAtom 1 [0, 1, 2] false, ok := fun _ f => atomOk f 1 },
   { cmd := .amax, enc := fun _ => encAtom 2 [0, 1, 2] false, ok := fun _ f => atomOk f 2 },
   { cmd := .atomAand, enc := fun _ => encAtom 3 [] false, ok := fun _ f => atomOk f 3 },
   { cmd := .atomAor, enc := fun _ => encAtom 4 [] false, ok := fun _ f => atomOk f 4 },
   { cmd := .atomAxor, enc := fun _ => encAtom 5 [] false, ok := fun _ f => atomOk f 5 },
   { cmd := .aswap, enc := fun _ => encAtom 6 [] false, ok := fun _ f => atomOk f 6 },
   { cmd := .acas, enc := fun _ => encAtom 7 [] true, ok := fun _ f => atomOk f 7 },
   { cmd := .acas128, enc := fun _ => encAtom 8 [] true, ok := fun _ f => atomOk f 8 }]

/-- STRM and XFRM (R205 to R207). -/
def isaCourier : List IsaRow :=
  [{ cmd := .sload, enc := fun _ => encSload },
   { cmd := .sstore, enc := fun _ => encSstore },
   { cmd := .sdlv, enc := fun _ => encSdlv },
   { cmd := .sldv, enc := fun _ => encSldv },
   { cmd := .sstv, enc := fun _ => encSstv },
   { cmd := .sunit, enc := fun _ => encSunit },
   { cmd := .dcmp, enc := fun _ => encDcmp, ok := fun _ f => fMOD f % 4 != fMOD f / 4 % 4 },
   { cmd := .enc, enc := fun _ => encEnc, ok := fun _ f => fMOD f % 4 != fMOD f / 4 % 4 },
   { cmd := .ptrx, enc := fun _ => encPtrx },
   { cmd := .crc64, enc := fun _ => encCrc64 }]

/-- EVC and CMEM (R208, R209). -/
def isaControlCore : List IsaRow :=
  [{ cmd := .evclaim, enc := fun _ => encEvclaim },
   { cmd := .evdone, enc := fun _ => encEvdone },
   { cmd := .wfe, enc := fun _ => encWfe },
   { cmd := .raise, enc := fun _ => encRaise },
   { cmd := .fence, enc := fun _ => encFence },
   { cmd := .ld64, enc := fun _ => encCld 0, ok := fun _ f => fMOD f != 3 },
   { cmd := .st64, enc := fun _ => encCst 1, ok := fun _ f => fMOD f != 3 },
   { cmd := .ld32, enc := fun _ => encCld 2, ok := fun _ f => fMOD f != 3 },
   { cmd := .st32, enc := fun _ => encCst 3, ok := fun _ f => fMOD f != 3 },
   { cmd := .ldl, enc := fun _ => encCi 4 },
   { cmd := .stl, enc := fun _ => encCi 5 }]

/-- Every instruction of the three profiles. -/
def isaRows : List IsaRow := isaControl ++ isaScalar ++ isaVector ++ isaTally ++ isaMemory ++ isaAtom ++ isaCourier ++ isaControlCore

/-- The canonical form of what a run of commands leaves: every memory lists rising addresses and no byte that an unlisted address
reads as, and the register file lists rising keys. -/
structure State.Canonical (s : State) : Prop where
  sram : s.trp.sram.wf = true
  live : s.book.live.wf = true
  staged : s.book.staged.wf = true
  slot : s.cour.slot.wf = true
  loc : s.proc.loc.wf = true
  mem : s.store.mem.wf = true
  regs : s.regs.sorted = true

end Sys2Proof.Machine
end

