-- ==== Sys2Proof/Certificates/Slice0/Obligations.lean ====
section
/-!
DEFINITION. The statements for the provers: what the commands of the PB25 do, what they leave unchanged, and what every step keeps.
-/

open Sys2Proof Sys2Proof.Machine

/-! ### The queue and the issue of instructions -/

/-- The front command of the queue takes effect on the state with the rest of the queue, and an empty queue lets the running phase of the cue go on
by one clk up to its last offset (the tick is the model's choice, log entry 1). -/
def Obligations.StepRunsFrontCommand : Prop :=
  (∀ (c : Instr) (rest : List Instr) (s : State), s.pending = c :: rest → step s = exec c { s with pending := rest }) ∧
  (∀ s : State, s.pending = [] → step s = .next s.tick)

/-- Every command answers a next state in every state: no ordinary operand and no state of the device ends a run. -/
def Obligations.EveryCommandAnswers : Prop :=
  ∀ (c : Instr) (s : State), ∃ t, exec c s = .next t

/-- R135, R136, R159: where an agent runs, in its turn, and its word is not a legal encoding of its profile, the instruction, whichever of the 174 it is, has no
effect but the exception ILLEGAL, whose DETAIL is the upper half of the word. -/
def Obligations.IllegalWordRaises : Prop :=
  ∀ r ∈ isaRows, ∀ (u : Agent) (f : BitVec 52) (s : State),
    s.halted = false → s.mayIssue u = true → (s.cx u).st = .run →
    ((r.enc f).legal (agentProfile u) f && r.ok (agentProfile u) f) = false →
    exec (r.cmd u f) s =
      .next (s.exception u 1 ((r.enc f).major * 2 ^ 26 + (r.enc f).minor * 2 ^ 20 + f.toNat / 2 ^ 32))

/-- R138, R141, R264: an instruction that names a register with a write pending waits at issue, and nothing else changes; an instruction that executes
as a whole and finds no lane enabled retires with no other effect, consuming no credit, setting no flag and waiting for nothing, not even a pending
write; an agent that does not run, and any agent of a device that has stopped, issues nothing (but a CE that an exception of its unit has stopped
within this clk, R166), and neither does a context while a ready context of its courier comes before it; and PE = 1 is illegal in the control
profile. -/
def Obligations.IssueConditions : Prop :=
  (∀ r ∈ isaRows, ∀ (u : Agent) (f : BitVec 52) (s : State),
    s.halted = false → s.mayIssue u = true → s.badWord u = none → (s.cx u).st = .run → (r.enc f).legal (agentProfile u) f = true →
    r.ok (agentProfile u) f = true → (s.cx u).pc < (s.cx u).len → (r.whole = true → Enabled u f s) →
    (∃ p ∈ (r.enc f).regs f, p ∈ (s.cx u).pend) →
    exec (r.cmd u f) s = .next (s.setCx u { s.cx u with st := .hold })) ∧
  (∀ r ∈ isaRows, r.whole = true → ∀ (u : Agent) (f : BitVec 52) (s : State),
    s.halted = false → s.mayIssue u = true → s.badWord u = none → (s.cx u).st = .run → (r.enc f).legal (agentProfile u) f = true →
    r.ok (agentProfile u) f = true → (s.cx u).pc < (s.cx u).len → maskOf (s.cx u) f = 0 →
    exec (r.cmd u f) s = .next (s.retire u (s.cx u))) ∧
  (∀ r ∈ isaRows, ∀ (u : Agent) (f : BitVec 52) (s : State),
    s.halted = true ∨ s.mayIssue u = false ∨
      ((s.cx u).cut ≠ some (s.cueNow, s.ofs) ∧
        ((∃ c, (s.cx u).st = .stopped c) ∨ (s.cx u).st = .idle ∨ (s.cx u).st = .halt ∨ (s.cx u).st = .off)) →
    exec (r.cmd u f) s = .next s) ∧
  (∀ r ∈ isaRows, ∀ f : BitVec 52, fPE f = true → (r.enc f).legal 2 f = false)


/-! ### Results of the instructions on registers -/

/-- R174: PRED. Each retires having written its destination alone. -/
def Obligations.PredicateResults : Prop :=
  Gives .pand encPand anyWord (fun f x => x.setP (fD f) (x.pr (fA f) &&& x.pr (fB f))) ∧
  Gives .por encPor anyWord (fun f x => x.setP (fD f) (x.pr (fA f) ||| x.pr (fB f))) ∧
  Gives .pxor encPxor anyWord (fun f x => x.setP (fD f) (x.pr (fA f) ^^^ x.pr (fB f))) ∧
  Gives .pandn encPandn anyWord (fun f x => x.setP (fD f) (x.pr (fA f) &&& (2 ^ 16 - 1 - x.pr (fB f)))) ∧
  Gives .pnot encPnot anyWord (fun f x => x.setP (fD f) (2 ^ 16 - 1 - x.pr (fA f))) ∧
  Gives .pany encPany anyWord (fun f x => x.setS (fD f) (if x.pr (fA f) = 0 then 0 else 1)) ∧
  Gives .pcnt encPcnt anyWord (fun f x =>
    x.setS (fD f) ((List.range 16).map (fun i => if (x.pr (fA f)).testBit i then 1 else 0)).sum) ∧
  Gives .pfirst encPfirst anyWord (fun f x =>
    x.setS (fD f) (((List.range 16).find? (fun i => (x.pr (fA f)).testBit i)).getD 16))

/-- R175: SALU. Arithmetic is modulo 2^32; TA selects signed or unsigned; ADD and SUB with SAT limit and set SAT when they do. -/
def Obligations.ScalarAluResults : Prop :=
  Gives .add encAdd anyWord (fun f x =>
    let y := byTA (fTA f) (x.sr (fA f)) + byTA (fTA f) (x.sr (fB f))
    if fSAT f then (x.setS (fD f) (limit32 (fTA f == 0) y).1).orFlags (limit32 (fTA f == 0) y).2
    else x.setS (fD f) ((x.sr (fA f) + x.sr (fB f)) % 2 ^ 32)) ∧
  Gives .sub encSub anyWord (fun f x =>
    let y := byTA (fTA f) (x.sr (fA f)) - byTA (fTA f) (x.sr (fB f))
    if fSAT f then (x.setS (fD f) (limit32 (fTA f == 0) y).1).orFlags (limit32 (fTA f == 0) y).2
    else x.setS (fD f) ((x.sr (fA f) + (2 ^ 32 - x.sr (fB f))) % 2 ^ 32)) ∧
  Gives .mul encMul anyWord (fun f x => x.setS (fD f) (x.sr (fA f) * x.sr (fB f) % 2 ^ 32)) ∧
  Gives .mulh encMulh anyWord (fun f x =>
    x.setS (fD f) (unsgn 32 (byTA (fTA f) (x.sr (fA f)) * byTA (fTA f) (x.sr (fB f)) / 2 ^ 32))) ∧
  Gives .andS encAndS anyWord (fun f x => x.setS (fD f) (x.sr (fA f) &&& x.sr (fB f))) ∧
  Gives .orS encOrS anyWord (fun f x => x.setS (fD f) (x.sr (fA f) ||| x.sr (fB f))) ∧
  Gives .xorS encXorS anyWord (fun f x => x.setS (fD f) (x.sr (fA f) ^^^ x.sr (fB f))) ∧
  Gives .shl encShl anyWord (fun f x => x.setS (fD f) (x.sr (fA f) * 2 ^ (x.sr (fB f) % 32) % 2 ^ 32)) ∧
  Gives .shr encShr anyWord (fun f x => x.setS (fD f) (x.sr (fA f) / 2 ^ (x.sr (fB f) % 32))) ∧
  Gives .sra encSra anyWord (fun f x =>
    x.setS (fD f) (unsgn 32 (sgn 32 (x.sr (fA f)) / (2 ^ (x.sr (fB f) % 32) : Nat)))) ∧
  Gives .min encMin anyWord (fun f x =>
    x.setS (fD f) (if byTA (fTA f) (x.sr (fA f)) ≤ byTA (fTA f) (x.sr (fB f)) then x.sr (fA f) else x.sr (fB f))) ∧
  Gives .max encMax anyWord (fun f x =>
    x.setS (fD f) (if byTA (fTA f) (x.sr (fB f)) ≤ byTA (fTA f) (x.sr (fA f)) then x.sr (fA f) else x.sr (fB f))) ∧
  Gives .slt encSlt anyWord (fun f x =>
    x.setS (fD f) (if byTA (fTA f) (x.sr (fA f)) < byTA (fTA f) (x.sr (fB f)) then 1 else 0)) ∧
  Gives .seq encSeq anyWord (fun f x => x.setS (fD f) (if x.sr (fA f) = x.sr (fB f) then 1 else 0)) ∧
  Gives .clz encClz anyWord (fun f x =>
    x.setS (fD f) (((List.range 32).find? (fun i => (x.sr (fA f)).testBit (31 - i))).getD 32)) ∧
  Gives .popc encPopc anyWord (fun f x =>
    x.setS (fD f) ((List.range 32).map (fun i => if (x.sr (fA f)).testBit i then 1 else 0)).sum)

/-- R176: SIMM, with the 32 bits of IMM as the second operand. -/
def Obligations.ImmediateResults : Prop :=
  Gives .addi encAddi anyWord (fun f x => x.setS (fD f) ((x.sr (fA f) + fIMM f) % 2 ^ 32)) ∧
  Gives .muli encMuli anyWord (fun f x => x.setS (fD f) (x.sr (fA f) * fIMM f % 2 ^ 32)) ∧
  Gives .andi encAndi anyWord (fun f x => x.setS (fD f) (x.sr (fA f) &&& fIMM f)) ∧
  Gives .ori encOri anyWord (fun f x => x.setS (fD f) (x.sr (fA f) ||| fIMM f)) ∧
  Gives .xori encXori anyWord (fun f x => x.setS (fD f) (x.sr (fA f) ^^^ fIMM f)) ∧
  Gives .shli encShli anyWord (fun f x => x.setS (fD f) (x.sr (fA f) * 2 ^ (fIMM f % 32) % 2 ^ 32)) ∧
  Gives .shri encShri anyWord (fun f x => x.setS (fD f) (x.sr (fA f) / 2 ^ (fIMM f % 32))) ∧
  Gives .srai encSrai anyWord (fun f x => x.setS (fD f) (unsgn 32 (sgn 32 (x.sr (fA f)) / (2 ^ (fIMM f % 32) : Nat)))) ∧
  Gives .slti encSlti anyWord (fun f x => x.setS (fD f) (if sgn 32 (x.sr (fA f)) < sgn 32 (fIMM f) then 1 else 0)) ∧
  Gives .sltiu encSltiu anyWord (fun f x => x.setS (fD f) (if x.sr (fA f) < fIMM f then 1 else 0)) ∧
  Gives .seqi encSeqi anyWord (fun f x => x.setS (fD f) (if x.sr (fA f) = fIMM f then 1 else 0)) ∧
  Gives .li encLi anyWord (fun f x => x.setS (fD f) (fIMM f))

/-- R177: AALU, modulo 2^64. -/
def Obligations.AddressResults : Prop :=
  Gives .aadd encAadd anyWord (fun f x => x.setA (fD f) ((x.ar (fA f) + x.ar (fB f)) % 2 ^ 64)) ∧
  Gives .asub encAsub anyWord (fun f x => x.setA (fD f) ((x.ar (fA f) + (2 ^ 64 - x.ar (fB f))) % 2 ^ 64)) ∧
  Gives .aadds encAadds anyWord (fun f x => x.setA (fD f) ((x.ar (fA f) + unsgn 64 (sgn 32 (x.sr (fB f)))) % 2 ^ 64)) ∧
  Gives .ashl encAshl anyWord (fun f x => x.setA (fD f) (x.ar (fA f) * 2 ^ (x.sr (fB f) % 64) % 2 ^ 64)) ∧
  Gives .ashr encAshr anyWord (fun f x => x.setA (fD f) (x.ar (fA f) / 2 ^ (x.sr (fB f) % 64))) ∧
  Gives .aand encAand anyWord (fun f x => x.setA (fD f) (x.ar (fA f) &&& x.ar (fB f))) ∧
  Gives .aor encAor anyWord (fun f x => x.setA (fD f) (x.ar (fA f) ||| x.ar (fB f))) ∧
  Gives .axor encAxor anyWord (fun f x => x.setA (fD f) (x.ar (fA f) ^^^ x.ar (fB f))) ∧
  Gives .altu encAltu anyWord (fun f x => x.setS (fD f) (if x.ar (fA f) < x.ar (fB f) then 1 else 0)) ∧
  Gives .aeq encAeq anyWord (fun f x => x.setS (fD f) (if x.ar (fA f) = x.ar (fB f) then 1 else 0)) ∧
  Gives .aaddi encAaddi anyWord (fun f x => x.setA (fD f) ((x.ar (fA f) + unsgn 64 (sgn 32 (fIMM f))) % 2 ^ 64)) ∧
  Gives .alo encAlo anyWord (fun f x => x.setA (fD f) (fIMM f)) ∧
  Gives .ahi encAhi anyWord (fun f x => x.setA (fD f) (fIMM f * 2 ^ 32 + x.ar (fD f) % 2 ^ 32))

/-- R178: MOVE. VMOV is lane-wise; the others execute as a whole. -/
def Obligations.MoveResults : Prop :=
  Gives .s2a encS2a anyWord (fun f x =>
    x.setA (fD f) (if fMOD f = 1 then unsgn 64 (sgn 32 (x.sr (fA f))) else x.sr (fA f))) ∧
  Gives .a2s encA2s anyWord (fun f x =>
    x.setS (fD f) (if fMOD f = 1 then x.ar (fA f) / 2 ^ 32 else x.ar (fA f) % 2 ^ 32)) ∧
  Gives .v2s encV2s anyWord (fun f x => x.setS (fD f) (x.vl (fA f) (fMOD f))) ∧
  Gives .s2v encS2v anyWord (fun f x => x.setL (fD f) (fMOD f) (x.sr (fA f))) ∧
  GivesLanes .vmov encVmov anyWord (fun f x => x.mapLanes (fD f) (maskOf x f) (fun l => (x.vl (fA f) l, 0))) ∧
  Gives .s2p encS2p anyWord (fun f x => x.setP (fD f) (x.sr (fA f) % 2 ^ 16)) ∧
  Gives .p2s encP2s anyWord (fun f x => x.setS (fD f) (x.pr (fA f))) ∧
  Gives .smov encSmov anyWord (fun f x => x.setS (fD f) (x.sr (fA f))) ∧
  Gives .amov encAmov anyWord (fun f x => x.setA (fD f) (x.ar (fA f)))

/-- R179: VINT on 32-bit lanes. Only the enabled lanes of vD are written, or the enabled bits of pD; SAT is set for any lane limited. -/
def Obligations.VectorIntegerResults : Prop :=
  GivesLanes .vadd encVadd anyWord (fun f x => x.mapLanes (fD f) (maskOf x f) (fun l =>
    if fSAT f then limit32 (fTA f == 0) (byTA (fTA f) (x.vl (fA f) l) + byTA (fTA f) (x.vl (fB f) l))
    else ((x.vl (fA f) l + x.vl (fB f) l) % 2 ^ 32, 0))) ∧
  GivesLanes .vsub encVsub anyWord (fun f x => x.mapLanes (fD f) (maskOf x f) (fun l =>
    if fSAT f then limit32 (fTA f == 0) (byTA (fTA f) (x.vl (fA f) l) - byTA (fTA f) (x.vl (fB f) l))
    else ((x.vl (fA f) l + (2 ^ 32 - x.vl (fB f) l)) % 2 ^ 32, 0))) ∧
  GivesLanes .vmul encVmul anyWord (fun f x => x.mapLanes (fD f) (maskOf x f) (fun l =>
    (x.vl (fA f) l * x.vl (fB f) l % 2 ^ 32, 0))) ∧
  GivesLanes .vmulh encVmulh anyWord (fun f x => x.mapLanes (fD f) (maskOf x f) (fun l =>
    (unsgn 32 (byTA (fTA f) (x.vl (fA f) l) * byTA (fTA f) (x.vl (fB f) l) / 2 ^ 32), 0))) ∧
  GivesLanes .vmin encVmin anyWord (fun f x => x.mapLanes (fD f) (maskOf x f) (fun l =>
    (if byTA (fTA f) (x.vl (fA f) l) ≤ byTA (fTA f) (x.vl (fB f) l) then x.vl (fA f) l else x.vl (fB f) l, 0))) ∧
  GivesLanes .vmax encVmax anyWord (fun f x => x.mapLanes (fD f) (maskOf x f) (fun l =>
    (if byTA (fTA f) (x.vl (fB f) l) ≤ byTA (fTA f) (x.vl (fA f) l) then x.vl (fA f) l else x.vl (fB f) l, 0))) ∧
  GivesLanes .vand encVand anyWord (fun f x => x.mapLanes (fD f) (maskOf x f) (fun l => (x.vl (fA f) l &&& x.vl (fB f) l, 0))) ∧
  GivesLanes .vor encVor anyWord (fun f x => x.mapLanes (fD f) (maskOf x f) (fun l => (x.vl (fA f) l ||| x.vl (fB f) l, 0))) ∧
  GivesLanes .vxor encVxor anyWord (fun f x => x.mapLanes (fD f) (maskOf x f) (fun l => (x.vl (fA f) l ^^^ x.vl (fB f) l, 0))) ∧
  GivesLanes .vshl encVshl anyWord (fun f x => x.mapLanes (fD f) (maskOf x f) (fun l =>
    (x.vl (fA f) l * 2 ^ (x.vl (fB f) l % 32) % 2 ^ 32, 0))) ∧
  GivesLanes .vshr encVshr anyWord (fun f x => x.mapLanes (fD f) (maskOf x f) (fun l =>
    (x.vl (fA f) l / 2 ^ (x.vl (fB f) l % 32), 0))) ∧
  GivesLanes .vsra encVsra anyWord (fun f x => x.mapLanes (fD f) (maskOf x f) (fun l =>
    (unsgn 32 (sgn 32 (x.vl (fA f) l) / (2 ^ (x.vl (fB f) l % 32) : Nat)), 0))) ∧
  GivesLanes .vcmp encVcmp anyWord (fun f x => x.mapPred (fD f) (maskOf x f) (fun l =>
    let a := byTA (fTA f) (x.vl (fA f) l)
    let b := byTA (fTA f) (x.vl (fB f) l)
    match fMOD f with | 0 => decide (a = b) | 1 => decide (a ≠ b) | 2 => decide (a < b) | _ => decide (a ≤ b))) ∧
  GivesLanes .vadds encVadds anyWord (fun f x => x.mapLanes (fD f) (maskOf x f) (fun l =>
    if fSAT f then limit32 (fTA f == 0) (byTA (fTA f) (x.vl (fA f) l) + byTA (fTA f) (x.sr (fB f)))
    else ((x.vl (fA f) l + x.sr (fB f)) % 2 ^ 32, 0))) ∧
  GivesLanes .vpopc encVpopc anyWord (fun f x => x.mapLanes (fD f) (maskOf x f) (fun l =>
    (((List.range 32).map (fun i => if (x.vl (fA f) l).testBit i then 1 else 0)).sum, 0)))

/-- R180, R181: VFP on the elements of TA in the enabled lanes. The results of VFADD, VFSUB, VFMUL, VFMA and VFSCL are the exact result rounded once
under RM and SAT; the transcendental minors return the exactly rounded result.
Where the spec leaves the point open, the result is the model's choice: log entries 27, 28 and 51. -/
def Obligations.VectorFloatResults : Prop :=
  GivesLanes .vfadd encVfadd anyWord (fun f x => x.mapLanes (fD f) (maskOf x f) (x.vfLane f (fun e a b _ =>
    finish (fmtOf (fTA f)) (fRM f) (fSAT f) (x.srw f e) ((tav f a).add (fRM f) (tav f b))))) ∧
  GivesLanes .vfsub encVfsub anyWord (fun f x => x.mapLanes (fD f) (maskOf x f) (x.vfLane f (fun e a b _ =>
    finish (fmtOf (fTA f)) (fRM f) (fSAT f) (x.srw f e) ((tav f a).add (fRM f) (tav f b).neg)))) ∧
  GivesLanes .vfmul encVfmul anyWord (fun f x => x.mapLanes (fD f) (maskOf x f) (x.vfLane f (fun e a b _ =>
    finish (fmtOf (fTA f)) (fRM f) (fSAT f) (x.srw f e) ((tav f a).mul (tav f b))))) ∧
  GivesLanes .vfma encVfma anyWord (fun f x => x.mapLanes (fD f) (maskOf x f) (x.vfLane f (fun e a b c =>
    let q := ((tav f a).mul (tav f b)).1.add (fRM f) (tav f c)
    finish (fmtOf (fTA f)) (fRM f) (fSAT f) (x.srw f e) (q.1, ((tav f a).mul (tav f b)).2 || q.2)))) ∧
  GivesLanes .vfmin encVfmin anyWord (fun f x => x.mapLanes (fD f) (maskOf x f) (x.vfLane f (fun _ a b _ =>
    (match (tav f a).isNan, (tav f b).isNan with
     | true, true => (fmtOf (fTA f)).nanCode | true, false => b | false, true => a
     | false, false => if (tav f b).ltz (tav f a) then b else a, 0)))) ∧
  GivesLanes .vfmax encVfmax anyWord (fun f x => x.mapLanes (fD f) (maskOf x f) (x.vfLane f (fun _ a b _ =>
    (match (tav f a).isNan, (tav f b).isNan with
     | true, true => (fmtOf (fTA f)).nanCode | true, false => b | false, true => a
     | false, false => if (tav f a).ltz (tav f b) then b else a, 0)))) ∧
  GivesLanes .vfabs encVfabs anyWord (fun f x => x.mapLanes (fD f) (maskOf x f) (x.vfLane f (fun _ a _ _ =>
    (if (tav f a).isNan then (fmtOf (fTA f)).nanCode else a % 2 ^ (tyBits (fTA f) - 1), 0)))) ∧
  GivesLanes .vfneg encVfneg anyWord (fun f x => x.mapLanes (fD f) (maskOf x f) (x.vfLane f (fun _ a _ _ =>
    (if (tav f a).isNan then (fmtOf (fTA f)).nanCode else a ^^^ 2 ^ (tyBits (fTA f) - 1), 0)))) ∧
  GivesLanes .vfcmp encVfcmp anyWord (fun f x => x.mapPred (fD f) (maskOf x f) (fun l =>
    let t (a b : Nat) : Bool :=
      match fMOD f with
      | 0 => (tav f a).eqv (tav f b) | 1 => (tav f a).lt (tav f b)
      | 2 => (tav f a).lt (tav f b) || (tav f a).eqv (tav f b) | _ => (tav f a).isNan || (tav f b).isNan
    if fTA f = 2 then t (x.vl (fA f) l) (x.vl (fB f) l)
    else t (x.vl (fA f) l % 2 ^ 16) (x.vl (fB f) l % 2 ^ 16) && t (x.vl (fA f) l / 2 ^ 16) (x.vl (fB f) l / 2 ^ 16))) ∧
  GivesLanes .vfexp2 encVfexp2 anyWord (fun f x => x.mapLanes (fD f) (maskOf x f) (x.vfLane f (fun e a _ _ =>
    vfExp2 (fRM f) (fSAT f) (x.srw f e) (tav f a)))) ∧
  GivesLanes .vflog2 encVflog2 anyWord (fun f x => x.mapLanes (fD f) (maskOf x f) (x.vfLane f (fun e a _ _ =>
    vfLog2 (fRM f) (fSAT f) (x.srw f e) (tav f a)))) ∧
  GivesLanes .vfrcp encVfrcp anyWord (fun f x => x.mapLanes (fD f) (maskOf x f) (x.vfLane f (fun e a _ _ =>
    vfRcp (fRM f) (fSAT f) (x.srw f e) (tav f a)))) ∧
  GivesLanes .vfrsq encVfrsq anyWord (fun f x => x.mapLanes (fD f) (maskOf x f) (x.vfLane f (fun e a _ _ =>
    vfRsq (fRM f) (fSAT f) (x.srw f e) (tav f a)))) ∧
  GivesLanes .vfsqrt encVfsqrt anyWord (fun f x => x.mapLanes (fD f) (maskOf x f) (x.vfLane f (fun e a _ _ =>
    vfSqrt (fRM f) (fSAT f) (x.srw f e) (tav f a)))) ∧
  GivesLanes .vfscl encVfscl anyWord (fun f x => x.mapLanes (fD f) (maskOf x f) (fun l =>
    x.vfLane f (fun e a _ _ =>
      finish (fmtOf (fTA f)) (fRM f) (fSAT f) (x.srw f e) ((tav f a).scale (sgn 32 (x.vl (fB f) l)), false)) l))

/-- R181: the special values of the transcendental minors, in binary32 without SAT under round to nearest even: code and flags. -/
def Obligations.TranscendentalSpecialValues : Prop :=
  vfExp2 0 false 0 (.inf true) = (0, 0) ∧ vfExp2 0 false 0 (.inf false) = (0x7F800000, 0) ∧
  (∀ n, vfLog2 0 false 0 (.fin n 0 0) = (0xFF800000, 0)) ∧ vfLog2 0 false 0 (.inf false) = (0x7F800000, 0) ∧
  (∀ m e, 0 < m → (vfLog2 0 false 0 (.fin true m e)).1 = 0x7FC00000 ∧ (vfLog2 0 false 0 (.fin true m e)).2 = flNV) ∧
  (∀ n, vfRcp 0 false 0 (.fin n 0 0) = (if n then 0xFF800000 else 0x7F800000, 0)) ∧
  (∀ n, vfRcp 0 false 0 (.inf n) = (if n then 0x80000000 else 0, 0)) ∧
  (∀ n, vfRsq 0 false 0 (.fin n 0 0) = (if n then 0xFF800000 else 0x7F800000, 0)) ∧
  (∀ m e, 0 < m → vfRsq 0 false 0 (.fin true m e) = (0x7FC00000, flNV)) ∧
  (∀ m e, 0 < m → vfSqrt 0 false 0 (.fin true m e) = (0x7FC00000, flNV)) ∧
  vfSqrt 0 false 0 (.fin true 0 0) = (0x80000000, 0)

/-- R182, R183, R184: VCVT. The mask of CVT and DEC governs destination lanes; QMX and QPS4 keep every byte outside their block slot, and every byte
of aC outside their scale. -/
def Obligations.ConversionResults : Prop :=
  GivesLanes .cvt encCvt cvtOk (fun f x =>
    x.convert (fD f) (cvtShape f).2.1 (tyBits (fTB f)) (maskOf x f) (cvtShape f).2.2.2.2 (fun e =>
      cvtTo (fTB f) (fRM f) (fSAT f) (x.srw f e)
        (elemVal (fTA f) (bitsOf (x.group (fA f) (cvtShape f).1) (tyBits (fTA f) * e) (tyBits (fTA f)))))) ∧
  GivesLanes .dec encDec decOk (fun f x =>
    x.convert (fD f) (decCount (fTA f) * tyBits (fTB f) / 512) (tyBits (fTB f)) (maskOf x f) (decCount (fTA f)) (fun e =>
      (blockVal (fTA f) (x.ar (fB f)) e
        (bitsOf (x.group (fA f) (decRegs (fTA f))) (tyBits (fTA f) * e) (tyBits (fTA f)))).toF
          (fmtOf (fTB f)) false (fRM f) (fSAT f) (x.srw f e))) ∧
  Gives .qmx encQmx qmxOk (fun f x =>
    let w := tyBits (fTA f)
    let vs := (List.range 32).map (fun i =>
      decodeF (fmtOf (fTA f)) (bitsOf (x.group (fA f) (if fTA f = 2 then 2 else 1)) (w * i) w))
    let q := quantMX (fTB f) (fRM f) (x.srw f) vs
    let b := tyBits (fTB f)
    let n := decRegs (fTB f)
    ((x.setGroup (fD f) n 0xFFFF (putBits (x.group (fD f) n) (32 * b * fMOD f) (32 * b)
        (q.1.foldr (fun c acc => c + 2 ^ b * acc) 0))).setA (fC f)
      (putBits (x.ar (fC f)) (8 * fMOD f) 8 q.2.1)).orFlags q.2.2) ∧
  Gives .qps4 encQps4 qps4Ok (fun f x =>
    let w := tyBits (fTA f)
    let vs := (List.range 64).map (fun i =>
      decodeF (fmtOf (fTA f)) (bitsOf (x.group (fA f) (if fTA f = 2 then 4 else 2)) (w * i) w))
    let q := quantPS4 (fRM f) (x.srw f) vs
    ((x.setGroup (fD f) 1 0xFFFF (putBits (x.group (fD f) 1) (256 * fMOD f) 256
        (q.1.foldr (fun c acc => c + 16 * acc) 0))).setA (fC f)
      (putBits (x.ar (fC f)) (16 * fMOD f) 16 (q.2.1 + 256 * q.2.2.1))).orFlags q.2.2.2)

/-- R185: VPERM. -/
def Obligations.PermutationResults : Prop :=
  GivesLanes .vbcast encVbcast anyWord (fun f x => x.mapLanes (fD f) (maskOf x f) (fun _ => (x.vl (fA f) (fMOD f), 0))) ∧
  GivesLanes .vsplat encVsplat anyWord (fun f x => x.mapLanes (fD f) (maskOf x f) (fun _ => (x.sr (fA f), 0))) ∧
  GivesLanes .vperm encVperm anyWord (fun f x => x.mapLanes (fD f) (maskOf x f) (fun l =>
    (x.vl (fA f) (x.vl (fB f) l % 16), 0))) ∧
  GivesLanes .vrot encVrot anyWord (fun f x => x.mapLanes (fD f) (maskOf x f) (fun l =>
    (x.vl (fA f) ((l + x.sr (fB f)) % 16), 0))) ∧
  Gives .vsuml encVsuml anyWord (fun f x => x.setS (fD f) (((List.range 16).map (x.vl (fA f))).sum % 2 ^ 32)) ∧
  (∀ u f s, Issues encVminl true u f s → Enabled u f s →
    ∃ l, l < 16 ∧ (∀ k, k < 16 → (s.cx u).vl (fA f) l ≤ (s.cx u).vl (fA f) k) ∧
      (∀ k, k < l → (s.cx u).vl (fA f) l < (s.cx u).vl (fA f) k) ∧
      exec (.vminl u f) s = .next (s.retire u (((s.cx u).setS (fD f) ((s.cx u).vl (fA f) l)).setS (fC f) l)))

/-- R112, R113, R186: TDOT adds, in every enabled lane of tS and in no other, the products of the lane's elements. -/
def Obligations.TallyProductResults : Prop :=
  GivesLanes .tdot encTdot (fun _ f => dotOk f) (fun f x => x.addDots f (fun l => (List.range (dotPer (fTA f))).map (fun j =>
    FV.mul (x.dotElem (fTA f) (fA f) (fC f) (dotPer (fTA f) * l + j))
      (x.dotElem (fTB f) (fB f) (fC f + 1) (dotPer (fTA f) * l + j))))) ∧
  GivesLanes .tdotb encTdotb (fun _ f => dotOk f) (fun f x => x.addDots f (fun l => (List.range (dotPer (fTA f))).map (fun j =>
    FV.mul (x.dotElem (fTA f) (fA f) (fC f) (dotPer (fTA f) * l + j))
      (x.dotElem (fTB f) (fB f) (fC f + 1) (dotPer (fTB f) * fMOD f + j))))) ∧
  GivesLanes .tdots encTdots (fun _ f => dotsOk f) (fun f x => x.addDots f (fun l => (List.range (dotPer (fTA f))).map (fun j =>
    FV.mul (x.dotElem (fTA f) (fA f) (fC f) (dotPer (fTA f) * l + j))
      (elemVal (fTB f) (x.sr (fB f) % 2 ^ tyBits (fTB f)))))) ∧
  GivesLanes .tadd encTadd anyWord (fun f x => x.addDots f (fun l => (List.range (dotPer (fTA f))).map (fun j =>
    (x.dotElem (fTA f) (fA f) 0 (dotPer (fTA f) * l + j), false))))

/-- R111, R118, R119, R121, R190, R191, R192: the TALLY and HAM instructions that act on registers. TBASE takes its base from the table of the
context's partition. -/
def Obligations.TallyRegisterResults : Prop :=
  (∀ u f s, Issues encTbase true u f s → Enabled u f s →
    exec (.tbase u f) s = .next (s.retire u
      { ((List.range 16).foldl (fun y l => y.setT (fTS f) l {}) (s.cx u)) with
        tb := (s.cx u).tb.setD (fTS f) 0 (sgn 10 (s.rd (Reg.PRT_TALLY_BASE_BASE (s.cx u).part (fMOD f)))) })) ∧
  GivesLanes .tmerge encTmerge (fun _ f => bitOf (fMOD f) 0 || decide (fA f + 2 ≤ 64)) (fun f x =>
    if fMOD f % 2 = 1 then x.mergePayload f (fA f) else (x.mergePayload f (fA f)).mergePayload f (fA f + 1)) ∧
  Gives .tpack encTpack anyWord (fun f x => x.setGroup (fD f) 1 0xFFFF
    (tallyPayload ((x.tlane (fTS f) (2 * fMOD f)).image (x.base (fTS f)))
      ((x.tlane (fTS f) (2 * fMOD f + 1)).image (x.base (fTS f))) (x.sr (fA f) + fMOD f) (x.sr (fB f)) 1)) ∧
  GivesLanes .tcvt encTcvt anyWord (fun f x => x.mapLanes (fD f) (maskOf x f) (fun l =>
    (x.tlane (fTS f) l).toFloat (x.base (fTS f)) (fTB f) (fRM f) (fSAT f) (x.srw f l))) ∧
  GivesLanes .xpopl encXpopl anyWord (fun f x => x.mapLanes (fD f) (maskOf x f) (fun l =>
    (((List.range 32).map (fun i => if (x.vl (fA f) l ^^^ x.vl (fB f) l).testBit i then 1 else 0)).sum, 0))) ∧
  Gives .hdist encHdist (fun _ f => hdistOk f) (fun f x =>
    let d := x.group (fA f) (hdistRegs (fMOD f)) ^^^ x.group (fB f) (hdistRegs (fMOD f))
    if fMOD f = 0 then (x.setS (fD f) (popcount 256 d)).setS (fD f + 1) (popcount 256 (d / 2 ^ 256))
    else x.setS (fD f) (popcount (512 * hdistRegs (fMOD f)) d))

/-! ### Control flow, parcels and memory instructions -/

/-- R130, R150, R152, R153: NOP, the special registers, and the branches on a target below LENGTH. A taken branch goes to IMM[15:0]; one not taken
goes to the next index; nothing but PC, the counter of LOOP and the link stack of CALL changes. -/
def Obligations.ControlFlowResults : Prop :=
  Gives .nop encNop anyWord (fun _ x => x) ∧
  Gives .mts encMts (fun _ f => bitOf (fMOD f) 0) (fun f x => { x with flags := x.sr (fA f) % 64 }) ∧
  (∀ u f s, Issues (encMfs (bitOf (fMOD f) 1)) (sprListed (agentProfile u) (fA f)) u f s → Enabled u f s →
    exec (.mfs u f) s = .next (s.retire u
      (if bitOf (fMOD f) 1 then (s.cx u).setA (fD f) (s.spr u (s.cx u) (fA f))
       else (s.cx u).setS (fD f) (s.spr u (s.cx u) (fA f))))) ∧
  (∀ u f s, Issues encBr true u f s → Enabled u f s → fIMM f < (s.cx u).len →
    exec (.br u f) s = .next (s.branch u (s.cx u) (fIMM f))) ∧
  (∀ u f s, Issues encBrz true u f s → Enabled u f s → fIMM f < (s.cx u).len →
    exec (.brz u f) s = .next (if (s.cx u).sr (fA f) = 0 then s.branch u (s.cx u) (fIMM f)
      else s.retire u (s.cx u))) ∧
  (∀ u f s, Issues encBrnz true u f s → Enabled u f s → fIMM f < (s.cx u).len →
    exec (.brnz u f) s = .next (if (s.cx u).sr (fA f) ≠ 0 then s.branch u (s.cx u) (fIMM f)
      else s.retire u (s.cx u))) ∧
  (∀ u f s, Issues encLoop true u f s → Enabled u f s → fIMM f < (s.cx u).len →
    exec (.loop u f) s = .next (
      if (s.cx u).sr (fA f) = 0 then s.retire u (s.cx u)
      else if (s.cx u).sr (fA f) = 1 then s.retire u ((s.cx u).setS (fA f) 0)
      else s.branch u ((s.cx u).setS (fA f) ((s.cx u).sr (fA f) - 1)) (fIMM f))) ∧
  (∀ u f s, Issues encCall true u f s → Enabled u f s → fIMM f < (s.cx u).len →
    (s.cx u).link.length < (if agentProfile u = 2 then 16 else 4) →
    exec (.call u f) s = .next (s.branch u { s.cx u with link := ((s.cx u).pc + 1) :: (s.cx u).link } (fIMM f))) ∧
  (∀ u f s r rest, Issues encRet true u f s → Enabled u f s → (s.cx u).link = r :: rest → r < (s.cx u).len →
    (s.cx u).handler ≠ [rest.length + 1] →
    exec (.retn u f) s = .next (s.branch u { s.cx u with link := rest } r)) ∧
  (∀ u f s, Issues encWaitcue true u f s → Enabled u f s →
    exec (.waitcue u f) s = .next (if fIMM f ≤ s.ofs then s.retire u (s.cx u)
      else s.setCx u { s.cx u with st := .cue (fIMM f) })) ∧
  (∀ u s o, s.halted = false → (s.cx u).st = .cue o → o ≤ s.ofs →
    exec (.waitcueResume u) s = .next (s.setCx u { s.cx u with st := .run, pc := (s.cx u).pc + 1 })) ∧
  (∀ u f s, Issues encDlbr true u f s → Enabled u f s → agentProfile u ≠ 2 → fIMM f % 2 ^ 16 < (s.cx u).len →
    exec (.dlbr u f) s = .next (
      if fIMM f / 2 ^ 16 ≠ 0 ∧ (s.cx u).dline < s.ofs + 16 * (fIMM f / 2 ^ 16) then
        s.branch u (s.cx u) (fIMM f % 2 ^ 16)
      else s.retire u (s.cx u))) ∧
  (∀ n f s, Issues encDlbr true (.core n) f s → Enabled (.core n) f s → fIMM f % 2 ^ 16 < (s.cx (.core n)).len →
    let q := s.fresh 21
    exec (.dlbr (.core n) f) s = .next (
      if fIMM f / 2 ^ 16 ≠ 0 ∧ q.1 < s.ofs + 16 * (fIMM f / 2 ^ 16) then
        q.2.branch (.core n) (s.cx (.core n)) (fIMM f % 2 ^ 16)
      else q.2.retire (.core n) (s.cx (.core n)))) ∧
  (∀ n f s r rest, Issues encRet true (.core n) f s → Enabled (.core n) f s → (s.cx (.core n)).link = r :: rest →
    r < (s.cx (.core n)).len → (s.cx (.core n)).handler = [rest.length + 1] →
    ∃ t, exec (.retn (.core n) f) s = .next t ∧
      t.cx (.core n) = { s.cx (.core n) with link := rest, handler := [], pc := r, st := .run } ∧
      t.rd (Reg.EVC_CORE_IN_HANDLER n.val) = 0 ∧ t.trp = s.trp ∧ t.ev = s.ev ∧ t.store = s.store)

/-- R151: a fetch at an index at or above LENGTH, and a taken branch, a call or a return to one, raises PC; a call on a full link stack and a return
on an empty one raise STACK. None of them has any other effect (a branch not taken names no target: log entry 52). -/
def Obligations.ControlFlowExceptions : Prop :=
  (∀ r ∈ isaRows, ∀ (u : Agent) (f : BitVec 52) (s : State),
    s.halted = false → s.mayIssue u = true → (s.cx u).st = .run → (r.enc f).legal (agentProfile u) f = true →
    r.ok (agentProfile u) f = true → (s.cx u).len ≤ (s.cx u).pc →
    exec (r.cmd u f) s = .next (s.exception u 2 (s.cx u).pc)) ∧
  (∀ u f s, Issues encBr true u f s → Enabled u f s → (s.cx u).len ≤ fIMM f →
    exec (.br u f) s = .next (s.exception u 2 (fIMM f))) ∧
  (∀ u f s, Issues encBrz true u f s → Enabled u f s → (s.cx u).sr (fA f) = 0 → (s.cx u).len ≤ fIMM f →
    exec (.brz u f) s = .next (s.exception u 2 (fIMM f))) ∧
  (∀ u f s, Issues encBrnz true u f s → Enabled u f s → (s.cx u).sr (fA f) ≠ 0 → (s.cx u).len ≤ fIMM f →
    exec (.brnz u f) s = .next (s.exception u 2 (fIMM f))) ∧
  (∀ u f s, Issues encLoop true u f s → Enabled u f s → 2 ≤ (s.cx u).sr (fA f) → (s.cx u).len ≤ fIMM f →
    exec (.loop u f) s = .next (s.exception u 2 (fIMM f))) ∧
  (∀ u f s, Issues encDlbr true u f s → Enabled u f s → agentProfile u ≠ 2 → (s.cx u).len ≤ fIMM f % 2 ^ 16 →
    fIMM f / 2 ^ 16 ≠ 0 → (s.cx u).dline < s.ofs + 16 * (fIMM f / 2 ^ 16) →
    exec (.dlbr u f) s = .next (s.exception u 2 (fIMM f % 2 ^ 16))) ∧
  (∀ n f s, Issues encDlbr true (.core n) f s → Enabled (.core n) f s → (s.cx (.core n)).len ≤ fIMM f % 2 ^ 16 →
    fIMM f / 2 ^ 16 ≠ 0 → (s.fresh 21).1 < s.ofs + 16 * (fIMM f / 2 ^ 16) →
    exec (.dlbr (.core n) f) s = .next (s.exception (.core n) 2 (fIMM f % 2 ^ 16))) ∧
  (∀ u f s, Issues encCall true u f s → Enabled u f s → (s.cx u).len ≤ fIMM f →
    exec (.call u f) s = .next (s.exception u 2 (fIMM f))) ∧
  (∀ u f s, Issues encCall true u f s → Enabled u f s → fIMM f < (s.cx u).len →
    (if agentProfile u = 2 then 16 else 4) ≤ (s.cx u).link.length →
    exec (.call u f) s = .next (s.exception u 3 (fIMM f))) ∧
  (∀ u f s, Issues encRet true u f s → Enabled u f s → (s.cx u).link = [] →
    exec (.retn u f) s = .next (s.exception u 3 0)) ∧
  (∀ u f s r rest, Issues encRet true u f s → Enabled u f s → (s.cx u).link = r :: rest → (s.cx u).len ≤ r →
    exec (.retn u f) s = .next (s.exception u 2 r))

/-- R148, R150: END, which every agent's instruction completes. A courier context returns to its pool, or idles where a plan holds it; a core idles
(log entry 12); a CE ends its unit for itself: it idles and its unit counts it as ended, and where it is not the last CE of its unit and none waits at
a barrier, nothing else happens. -/
def Obligations.EndOfUnitResults : Prop :=
  (∀ u f s, Issues encEnd true u f s → Enabled u f s →
    exec (.endUnit u f) s = .next ((match u with
      | .ce t c => s.endCE t.val c.val (s.cx u).unit
      | .ctx k => s.endWork k.val
      | .core n => s.setCxAt (coreKey n.val) { s.cxAt (coreKey n.val) with st := .idle }).advance u)) ∧
  (∀ k f s, Issues encEnd true (.ctx k) f s → Enabled (.ctx k) f s →
    exec (.endUnit (.ctx k) f) s = .next ((s.endWork k.val).advance (.ctx k))) ∧
  (∀ n f s, Issues encEnd true (.core n) f s → Enabled (.core n) f s → s.proc.cx.sorted = true →
    ∃ t, exec (.endUnit (.core n) f) s = .next t ∧ (t.cx (.core n)).st = .idle ∧ t.regs = s.regs ∧ t.trp = s.trp) ∧
  (∀ t c f s w, Issues encEnd true (.ce t c) f s → Enabled (.ce t c) f s → s.proc.cx.sorted = true →
    s.trp.t.sorted = true →
    (s.troupe t.val).unit (s.cx (.ce t c)).unit = some w → w.bars = [] →
    (∀ img, (s.troupe t.val).img = some img → w.ended ||| 2 ^ c.val ≠ partMask img w.desc) →
    ∃ r, exec (.endUnit (.ce t c) f) s = .next r ∧ (r.cx (.ce t c)).st = .idle ∧
      (r.troupe t.val).unit (s.cx (.ce t c)).unit = some { w with ended := w.ended ||| 2 ^ c.val } ∧ r.regs = s.regs)

/-- R82, R155, R156, R157, R158: the parcel instructions of a CE on a route that its troupe declares. SEND consumes one credit and injects one
parcel whose data is v[A]; without a credit it waits at issue. RECV reads the oldest unread slot; on an empty ring it waits. CREDQ and RXQ report
the credits held and the slots unread, RXQ zero for a number at or above OUT_ROUTES (R213). -/
def Obligations.ParcelInstructionResults : Prop :=
  (∀ t c f s o, Issues encSend true (.ce t c) f s → Enabled (.ce t c) f s → (s.troupe t.val).outs[fB f]? = some o →
    o.desc.credits ≠ 0 → o.cr ≠ 0 →
    exec (.send (.ce t c) f) s = .next ((s.sendParcel t.val (fB f) o (s.cx (.ce t c))
      (BitVec.ofNat 512 ((s.cx (.ce t c)).group (fA f) 1)) (bitOf (fMOD f) 0)).advance (.ce t c)) ∧
    ∃ p : MParcel, p.pl = .data (BitVec.ofNat 512 ((s.cx (.ce t c)).group (fA f) 1)) ∧ p.src = t.val ∧ p.srcRoute = fB f ∧
      p.last = bitOf (fMOD f) 0 ∧ p.unit = (s.cx (.ce t c)).unit ∧ p.seq = o.seq % 65536 ∧
      (s.sendParcel t.val (fB f) o (s.cx (.ce t c)) (BitVec.ofNat 512 ((s.cx (.ce t c)).group (fA f) 1))
        (bitOf (fMOD f) 0)).trp.mesh = s.trp.mesh ++ [p]) ∧
  (∀ t c f s o, Issues encSend true (.ce t c) f s → Enabled (.ce t c) f s → (s.troupe t.val).outs[fB f]? = some o →
    o.desc.credits ≠ 0 → o.cr = 0 →
    exec (.send (.ce t c) f) s = .next (s.setCx (.ce t c) { s.cx (.ce t c) with st := .credit })) ∧
  (∀ t c f s ir q, Issues encRecv true (.ce t c) f s → Enabled (.ce t c) f s → (s.troupe t.val).ins[fB f]? = some ir →
    ir.desc.slots ≠ 0 → ir.q.find? (fun q => q.reader.isNone) = some q → s.trp.flips = [] → s.trp.dead = [] →
    q.poison = false →
    exec (.recv (.ce t c) f) s = .next
      (((s.setCx (.ce t c)
          { ((s.cx (.ce t c)).setGroup (fD f) 1 0xFFFF (Memory.num s.trp.sram (393216 * t.val + 64 * q.line) 64)) with
            rxinfo := BitVec.ofNat 32 (rxinfoOf (fB f) q) }).readSlot t.val (fB f) (s.cx (.ce t c)).unit
        (match (s.troupe t.val).unit (s.cx (.ce t c)).unit with | some w => w.desc.policy == 2 | none => false)).advance
          (.ce t c))) ∧
  (∀ t c f s ir, Issues encRecv true (.ce t c) f s → Enabled (.ce t c) f s → (s.troupe t.val).ins[fB f]? = some ir →
    ir.desc.slots ≠ 0 → ir.q.find? (fun q => q.reader.isNone) = none →
    exec (.recv (.ce t c) f) s = .next (s.setCx (.ce t c) { s.cx (.ce t c) with st := .recv })) ∧
  (∀ t c f s o, Issues encCredq true (.ce t c) f s → Enabled (.ce t c) f s → (s.troupe t.val).outs[fB f]? = some o →
    exec (.credq (.ce t c) f) s = .next (s.retire (.ce t c) ((s.cx (.ce t c)).setS (fD f) o.cr))) ∧
  (∀ t c f s ir, Issues encRxq true (.ce t c) f s → Enabled (.ce t c) f s → (s.troupe t.val).ins[fB f]? = some ir →
    exec (.rxq (.ce t c) f) s = .next (s.retire (.ce t c) ((s.cx (.ce t c)).setS (fD f)
      (if fB f < (s.troupe t.val).outs.length then (ir.q.filter (fun q => q.reader.isNone)).length else 0))))

/-- R193: loads of troupe SRAM at an aligned address in range give the bytes there, in the enabled lanes for LDV, LDVI and LDG, where no codeword of
the SRAM is marked or has picked up wrong bits. Nothing but the destination changes. -/
def Obligations.TroupeLoadResults : Prop :=
  ∀ t c f s, s.trp.flips = [] → s.trp.dead = [] →
    let u : Agent := .ce t c
    let x := s.cx u
    let at_ := fun a n => Memory.num s.trp.sram (393216 * t.val + a) n
    (Issues encLdw true u f s → Enabled u f s → addrAB x f % 4 = 0 → addrAB x f < 393216 →
      exec (.ldw u f) s = .next (s.retire u (x.setS (fD f) (at_ (addrAB x f) 4)))) ∧
    (Issues encLda true u f s → Enabled u f s → addrAB x f % 8 = 0 → addrAB x f < 393216 →
      exec (.lda u f) s = .next (s.retire u (x.setA (fD f) (at_ (addrAB x f) 8)))) ∧
    (Issues encLdp true u f s → Enabled u f s → addrAB x f % 2 = 0 → addrAB x f < 393216 →
      exec (.ldp u f) s = .next (s.retire u (x.setP (fD f) (at_ (addrAB x f) 2)))) ∧
    (Issues encLdv true u f s → addrAB x f % 64 = 0 → addrAB x f < 393216 →
      exec (.ldv u f) s = .next (s.retire u
        (x.mapLanes (fD f) (maskOf x f) (fun l => (at_ (addrAB x f + 4 * l) 4, 0))))) ∧
    (Issues encLdvi true u f s → addrAI x f % 64 = 0 → addrAI x f < 393216 →
      exec (.ldvi u f) s = .next (s.retire u
        (x.mapLanes (fD f) (maskOf x f) (fun l => (at_ (addrAI x f + 4 * l) 4, 0))))) ∧
    (Issues encLdg true u f s →
      (∀ l, l < 16 → bitOf (maskOf x f) l = true → addrAV x f l % 4 = 0 ∧ addrAV x f l < 393216) →
      exec (.ldg u f) s = .next (s.retire u
        (x.mapLanes (fD f) (maskOf x f) (fun l => (at_ (addrAV x f l) 4, 0)))))

/-- R68, R70, R190, R194: stores to troupe SRAM at an aligned address in range write exactly the form's bytes at the address its operands give, and
change no register; a form that writes part of a codeword reads it first, which checks it as every read does. -/
def Obligations.TroupeStoreResults : Prop :=
  ∀ t c f s,
    let u : Agent := .ce t c
    let x := s.cx u
    (Issues encStw true u f s → Enabled u f s → addrAB x f % 4 = 0 → addrAB x f < 393216 →
      exec (.stw u f) s = .next (((s.sramModify t.val [addrAB x f]).sramWrite t.val (addrAB x f) (toLe 4 (x.sr (fC f)))).retire u x)) ∧
    (Issues encSta true u f s → Enabled u f s → addrAB x f % 8 = 0 → addrAB x f < 393216 →
      exec (.sta u f) s = .next ((s.sramWrite t.val (addrAB x f) (toLe 8 (x.ar (fC f)))).retire u x)) ∧
    (Issues encStv true u f s → maskOf x f = 0xFFFF → addrAB x f % 64 = 0 → addrAB x f < 393216 →
      exec (.stv u f) s = .next ((s.sramWrite t.val (addrAB x f) (x.vbytes (fC f))).retire u x)) ∧
    (Issues encStvi true u f s → maskOf x f = 0xFFFF → addrAI x f % 64 = 0 → addrAI x f < 393216 →
      exec (.stvi u f) s = .next ((s.sramWrite t.val (addrAI x f) (x.vbytes (fD f))).retire u x)) ∧
    (Issues encStv true u f s → maskOf x f ≠ 0xFFFF → Enabled u f s → addrAB x f % 64 = 0 → addrAB x f < 393216 →
      exec (.stv u f) s = .next ((s.sramWords t.val ((lanesOn x f).map (fun l => (addrAB x f + 4 * l, x.vl (fC f) l)))).retire u x)) ∧
    (Issues encStsc true u f s →
      (∀ l, l < 16 → bitOf (maskOf x f) l = true → addrAV x f l % 4 = 0 ∧ addrAV x f l < 393216) →
      exec (.stsc u f) s = .next ((s.sramWords t.val ((lanesOn x f).map (fun l => (addrAV x f l, x.vl (fC f) l)))).retire u x)) ∧
    (Issues encTstore true u f s → Enabled u f s → x.ar (fA f) % 64 = 0 → x.ar (fA f) + 384 ≤ 393216 →
      exec (.tstore u f) s = .next ((s.sramWrite t.val (x.ar (fA f))
        ((List.range 16).flatMap (fun l => toLe 24 ((x.tlane (fTS f) l).image (x.base (fTS f)))))).retire u x))

/-- R194: every byte of every troupe's SRAM outside the bytes a store writes reads as before, and the bytes it writes read as the source register's:
for STW, STA and a full STV. -/
def Obligations.TroupeStoreMemoryFrame : Prop :=
  ∀ t c f s r j, s.Canonical →
    let u : Agent := .ce t c
    let x := s.cx u
    let a := 393216 * t.val + addrAB x f
    (Issues encStw true u f s → Enabled u f s → addrAB x f % 4 = 0 → addrAB x f < 393216 → exec (.stw u f) s = .next r →
      SMap.getD r.trp.sram j 0 =
        if a ≤ j ∧ j < a + 4 then BitVec.ofNat 8 (x.sr (fC f) / 2 ^ (8 * (j - a))) else SMap.getD s.trp.sram j 0) ∧
    (Issues encSta true u f s → Enabled u f s → addrAB x f % 8 = 0 → addrAB x f < 393216 → exec (.sta u f) s = .next r →
      SMap.getD r.trp.sram j 0 =
        if a ≤ j ∧ j < a + 8 then BitVec.ofNat 8 (x.ar (fC f) / 2 ^ (8 * (j - a))) else SMap.getD s.trp.sram j 0) ∧
    (Issues encStv true u f s → maskOf x f = 0xFFFF → addrAB x f % 64 = 0 → addrAB x f < 393216 →
      exec (.stv u f) s = .next r →
      SMap.getD r.trp.sram j 0 =
        if a ≤ j ∧ j < a + 64 then BitVec.ofNat 8 (x.vl (fC f) ((j - a) / 4) / 2 ^ (8 * ((j - a) % 4)))
        else SMap.getD s.trp.sram j 0)

/-- R197: Prompt Book reads of the live frames, where no frame reads as uncorrectable. -/
def Obligations.PromptBookReadResults : Prop :=
  ∀ u f s, s.book.lateFrame = [] →
    let x := s.cx u
    (Issues encPbv true u f s → Enabled u f s → addrAB x f % 64 = 0 → addrAB x f < 131072 →
      exec (.pbv u f) s = .next (s.retire u (x.setGroup (fD f) 1 0xFFFF (Memory.num s.book.live (addrAB x f) 64)))) ∧
    (Issues encPbvi true u f s → Enabled u f s → addrAI x f % 64 = 0 → addrAI x f < 131072 →
      exec (.pbvi u f) s = .next (s.retire u (x.setGroup (fD f) 1 0xFFFF (Memory.num s.book.live (addrAI x f) 64)))) ∧
    (Issues encPbw true u f s → Enabled u f s → addrAB x f % 4 = 0 → addrAB x f < 131072 →
      exec (.pbw u f) s = .next (s.retire u (x.setS (fD f) (Memory.num s.book.live (addrAB x f) 4)))) ∧
    (Issues encPbg true u f s →
      (∀ l, l < 16 → bitOf (maskOf x f) l = true → addrAV x f l % 4 = 0 ∧ addrAV x f l < 131072) →
      exec (.pbg u f) s = .next (s.retire u
        (x.mapLanes (fD f) (maskOf x f) (fun l => (Memory.num s.book.live (addrAV x f l) 4, 0)))))

/-- R159, R193, R194, R195, R197, R448: a load whose codeword is marked gives zero, sets FLAGS.DL and counts the codeword in TRP_ERR.UE; an access
to troupe SRAM or the Prompt Book that is misaligned or out of range raises ADDR, whose DETAIL is the address, and has no other effect. -/
def Obligations.DeadLetterAndBadAddress : Prop :=
  (∀ t c f s, s.trp.flips = [] →
    let u : Agent := .ce t c
    let x := s.cx u
    Issues encLdw true u f s → Enabled u f s → addrAB x f % 4 = 0 → addrAB x f < 393216 →
    s.trp.dead.getD ((393216 * t.val + addrAB x f) / 8) false = true →
    exec (.ldw u f) s = .next ((s.satAdd (Reg.TRP_ERR_UE t.val) 1).retire u ((x.setS (fD f) 0).orFlags flDL))) ∧
  (∀ u f s, Enabled u f s →
    let x := s.cx u
    (Issues encLdw true u f s → (addrAB x f % 4 ≠ 0 ∨ 393216 ≤ addrAB x f) →
      exec (.ldw u f) s = .next (s.exception u 4 (addrAB x f))) ∧
    (Issues encLda true u f s → (addrAB x f % 8 ≠ 0 ∨ 393216 ≤ addrAB x f) →
      exec (.lda u f) s = .next (s.exception u 4 (addrAB x f))) ∧
    (Issues encLdv true u f s → (addrAB x f % 64 ≠ 0 ∨ 393216 ≤ addrAB x f) →
      exec (.ldv u f) s = .next (s.exception u 4 (addrAB x f))) ∧
    (Issues encStw true u f s → (addrAB x f % 4 ≠ 0 ∨ 393216 ≤ addrAB x f) →
      exec (.stw u f) s = .next (s.exception u 4 (addrAB x f))) ∧
    (Issues encSta true u f s → (addrAB x f % 8 ≠ 0 ∨ 393216 ≤ addrAB x f) →
      exec (.sta u f) s = .next (s.exception u 4 (addrAB x f))) ∧
    (Issues encPbw true u f s → (addrAB x f % 4 ≠ 0 ∨ 131072 ≤ addrAB x f) →
      exec (.pbw u f) s = .next (s.exception u 4 (addrAB x f))) ∧
    (Issues encPbv true u f s → (addrAB x f % 64 ≠ 0 ∨ 131072 ≤ addrAB x f) →
      exec (.pbv u f) s = .next (s.exception u 4 (addrAB x f))))

/-- R196: a CE that arrives at a barrier of its unit goes on where every other CE of the unit that takes part has arrived or ended, and waits there
where one has not. A CE of CEMASK that is barred takes no part (R145; that the barrier does not wait for it is the model's reading, log entry 88).
Where the spec leaves the point open, the result is the model's choice: log entry 88. -/
def Obligations.BarrierResults : Prop :=
  ∀ t c f s w, Issues encTbar true (.ce t c) f s → Enabled (.ce t c) f s →
    (s.troupe t.val).unit (s.cx (.ce t c)).unit = some w →
    (((w.bars.getD (fMOD f) 0 ||| 2 ^ c.val) ||| w.ended) &&& (s.troupe t.val).unitMask w.desc = (s.troupe t.val).unitMask w.desc →
      ∃ r, exec (.tbar (.ce t c) f) s = .next r ∧ (r.cx (.ce t c)).pc = (s.cx (.ce t c)).pc + 1 ∧
        (r.cx (.ce t c)).st = .run ∧ r.regs = s.regs ∧ r.trp.sram = s.trp.sram) ∧
    (((w.bars.getD (fMOD f) 0 ||| 2 ^ c.val) ||| w.ended) &&& (s.troupe t.val).unitMask w.desc ≠ (s.troupe t.val).unitMask w.desc →
      ∃ r, exec (.tbar (.ce t c) f) s = .next r ∧
        r.cx (.ce t c) = { s.cx (.ce t c) with st := .bar (fMOD f) } ∧ r.regs = s.regs ∧ r.trp.sram = s.trp.sram)

/-- R198, R199, R200: GLD and GST with a legal length and aligned addresses, from a CE with fewer than 8 operations outstanding, become one more
outstanding operation and make sD pending. A bad length writes ST_BAD_FORMAT and a zero length ST_OK at once; GQ reports the count. -/
def Obligations.StoreTransferIssue : Prop :=
  ∀ (t : Fin 6400) (c : Fin 48) (f : BitVec 52) (s : State),
    let u : Agent := .ce t c
    let x := s.cx u
    let len := x.sr (fC f)
    let op (kind : Nat) : GOp := { agent := agentKey u, kind := kind, addr := x.ar (fA f), sram := x.sr (fB f), len := len, sd := fD f,
                                   part := x.part, troupe := t.val, id := s.trp.gopNext }
    let queued (kind : Nat) (r : State) : Prop :=
      r.cx u = { x with pend := x.pend ++ [⟨0, fD f⟩], pc := x.pc + 1 } ∧ r.trp.gops = s.trp.gops ++ [op kind] ∧
        r.regs = s.regs ∧ r.trp.sram = s.trp.sram ∧ r.store = s.store
    (s.gopsOf (agentKey u)).length < 8 → Enabled u f s →
    (Issues encGld true u f s → len % 64 = 0 → 0 < len → len ≤ 65536 → x.ar (fA f) % 64 = 0 → x.sr (fB f) % 64 = 0 →
      x.sr (fB f) + len ≤ 393216 → ∃ r, exec (.gld u f) s = .next r ∧ queued 0 r) ∧
    (Issues encGst true u f s → len % 64 = 0 → 0 < len → len ≤ 65536 → x.ar (fA f) % 64 = 0 → x.sr (fB f) % 64 = 0 →
      x.sr (fB f) + len ≤ 393216 → ∃ r, exec (.gst u f) s = .next r ∧ queued 1 r) ∧
    (Issues encGld true u f s → (len % 64 ≠ 0 ∨ 65536 < len) →
      exec (.gld u f) s = .next (s.retire u (x.setS (fD f) 0x30))) ∧
    (Issues encGld true u f s → len = 0 → exec (.gld u f) s = .next (s.retire u (x.setS (fD f) 0))) ∧
    (Issues encGq true u f s →
      exec (.gq u f) s = .next (s.retire u (x.setS (fD f) (s.gopsOf (agentKey u)).length)))

/-- R203, R204: an atomic at an aligned address, from an agent with a place for it, becomes one more outstanding operation that carries its
operands, and makes sD and aD pending (and a(D + 1) for 16 bytes); memory and the store are untouched until it is performed. -/
def Obligations.AtomicIssue : Prop :=
  ∀ (t : Fin 6400) (c : Fin 48) (f : BitVec 52) (s : State),
    let u : Agent := .ce t c
    let x := s.cx u
    let w := if bitOf (fMOD f) 0 then 8 else 4
    let op (m w opnd cmp : Nat) : GOp :=
      { agent := agentKey u, kind := m + 2, addr := x.ar (fA f), len := w, sd := fD f, ad := fD f, wide := w, ta := fTA f, rm := fRM f,
        opnd := opnd, cmp := cmp, srw := x.srw f 0, part := x.part, troupe := t.val, id := s.trp.gopNext }
    let queued (g : GOp) (regs : List PendReg) (r : State) : Prop :=
      r.cx u = { x with pend := x.pend ++ regs, pc := x.pc + 1 } ∧ r.trp.gops = s.trp.gops ++ [g] ∧
        r.regs = s.regs ∧ r.store = s.store
    (s.gopsOf (agentKey u)).length < 8 → (∀ p ∈ x.pend, p ≠ ⟨0, fD f⟩ ∧ p ≠ ⟨1, fD f⟩ ∧ p ≠ ⟨1, fD f + 1⟩) → Enabled u f s →
    let short (m : Nat) (i : Agent → BitVec 52 → Instr) (ta : List Nat) (cmp : Bool) : Prop :=
      Issues (encAtom m ta cmp) (atomOk f m) u f s → x.ar (fA f) % w = 0 →
      ∃ r, exec (i u f) s = .next r ∧ queued (op m w (x.ar (fB f)) (x.ar (fC f))) [⟨0, fD f⟩, ⟨1, fD f⟩] r
    short 0 .atomAadd [0, 1, 2] false ∧ short 1 .amin [0, 1, 2] false ∧ short 2 .amax [0, 1, 2] false ∧
    short 3 .atomAand [] false ∧ short 4 .atomAor [] false ∧ short 5 .atomAxor [] false ∧ short 6 .aswap [] false ∧
    short 7 .acas [] true ∧
    (Issues (encAtom 8 [] true) (atomOk f 8) u f s → x.ar (fA f) % 16 = 0 →
      ∃ r, exec (.acas128 u f) s = .next r ∧
        queued (op 8 16 (x.ar (fB f) + 2 ^ 64 * x.ar (fB f + 1)) (x.ar (fC f) + 2 ^ 64 * x.ar (fC f + 1)))
          [⟨0, fD f⟩, ⟨1, fD f⟩, ⟨1, fD f + 1⟩] r)

/-- R203: what each atomic leaves in memory, for integer types: the sum, the smaller, the larger, the bitwise results, the operand, and the operand
where the old value equals the comparand. -/
def Obligations.AtomicMemoryResult : Prop :=
  ∀ (w ta rm srw old opnd cmp : Nat), (w = 4 ∨ w = 8 ∨ w = 16) → ta < 2 → old < 2 ^ (8 * w) → opnd < 2 ^ (8 * w) → cmp < 2 ^ (8 * w) →
    let key (x : Nat) : Int := if ta = 0 then sgn (8 * w) x else x
    atomNew 0 w ta rm srw old opnd cmp = (old + opnd) % 2 ^ (8 * w) ∧
    atomNew 1 w ta rm srw old opnd cmp = (if key opnd < key old then opnd else old) ∧
    atomNew 2 w ta rm srw old opnd cmp = (if key old < key opnd then opnd else old) ∧
    atomNew 3 w ta rm srw old opnd cmp = old &&& opnd ∧
    atomNew 4 w ta rm srw old opnd cmp = old ||| opnd ∧
    atomNew 5 w ta rm srw old opnd cmp = old ^^^ opnd ∧
    atomNew 6 w ta rm srw old opnd cmp = opnd ∧
    atomNew 7 w ta rm srw old opnd cmp = (if old = cmp then opnd else old) ∧
    atomNew 8 w ta rm srw old opnd cmp = (if old = cmp then opnd else old)

/-! ### Courier and control-core instructions -/

/-- R199, R205, R206: STRM. A length that is no multiple of 64, or too long, writes ST_BAD_FORMAT; a length of zero writes ST_OK; where the access is
served, its status goes to sD: ST_DEAD_LETTER where a line carried a mark, ST_OK otherwise. SUNIT binds the context to a unit.
Where the spec leaves the point open, the result is the model's choice: log entries 16 and 18. -/
def Obligations.StreamInstructionResults : Prop :=
  ∀ (k : Fin 4096) (f : BitVec 52) (s s' : State) (dead : Bool),
    let u : Agent := .ctx k
    let x := s.cx u
    let n := x.sr (fB f)
    let m := fMOD f % 4
    let ends (r : State) (code : Nat) : State :=
      ((r.setCtx k.val { r.ctx k.val with faultD := none }).setCx u ((r.cx u).setS (fD f) code)).advance u
    Enabled u f s →
    (Issues encSload true u f s → n % 64 = 0 → 0 < n → n ≤ 4096 →
      s.fetch k.val true (s.ctxPart k.val) (x.ar (fA f)) n (fun s b bs ms => s.slotPut k.val m b bs ms) = (s', .ok dead) →
      exec (.sload u f) s = .next (ends s' (if dead then 0x20 else 0))) ∧
    (Issues encSstore true u f s → n % 64 = 0 → 0 < n → n ≤ 4096 →
      s.storeVa k.val true (s.ctxPart k.val) (x.ar (fA f)) n (fun s b n =>
        (Memory.bytes s.cour.slot (4096 * (4 * k.val + m) + b) n, (List.range n).map (fun j => s.slotMarked k.val m (b + j) 1))) =
        (s', .ok dead) →
      exec (.sstore u f) s = .next (ends s' (if dead then 0x20 else 0))) ∧
    (Issues encSldv true u f s → n % 64 = 0 → 0 < n → n ≤ 1024 → x.sr (fC f) % 64 = 0 → x.sr (fC f) + n ≤ 1024 →
      s.fetch k.val true (s.ctxPart k.val) (x.ar (fA f)) n (fun s i bs _ => s.vbufPut k.val (x.sr (fC f) + i) bs) = (s', .ok dead) →
      exec (.sldv u f) s = .next (ends s' (if dead then 0x20 else 0))) ∧
    (Issues encSstv true u f s → n % 64 = 0 → 0 < n → n ≤ 1024 → x.sr (fC f) % 64 = 0 → x.sr (fC f) + n ≤ 1024 →
      s.storeVa k.val true (s.ctxPart k.val) (x.ar (fA f)) n (fun s i n => (s.vbufGet k.val (x.sr (fC f) + i) n, [])) = (s', .ok dead) →
      exec (.sstv u f) s = .next (ends s' (if dead then 0x20 else 0))) ∧
    (Issues encSdlv true u f s → n % 64 = 0 → 0 < n → n ≤ 4096 →
      let d := x.ar (fA f)
      bitsOf d 38 26 = 0 → bitsOf d 29 3 = 0 → bitsOf d 13 3 = 0 → bitsOf d 16 13 + n / 64 ≤ 6144 → bitsOf d 0 13 < 6250 →
      s.sdlvGo u k.val m d n (bitOf (fMOD f) 2) (n / 64 + 1) = (s', true) →
      exec (.sdlv u f) s = .next ((s'.setCx u ((s'.cx u).setS (fD f) 0)).advance u)) ∧
    (Issues encSunit true u f s →
      exec (.sunit u f) s = .next (s.retire u { x with unit := fIMM f, dline := ((s.unitFor k.val (fIMM f)).getD {}).d,
                                                       ddel := ((s.unitFor k.val (fIMM f)).getD {}).ddel })) ∧
    (Issues encSload true u f s → (n % 64 ≠ 0 ∨ 4096 < n) → exec (.sload u f) s = .next (s.retire u (x.setS (fD f) 0x30))) ∧
    (Issues encSload true u f s → n = 0 → exec (.sload u f) s = .next (s.retire u (x.setS (fD f) 0))) ∧
    (Issues encSdlv true u f s → sdlvDescOk (x.ar (fA f)) n = false → exec (.sdlv u f) s = .next (s.retire u (x.setS (fD f) 0x30))) ∧
    (Issues encSdlv true u f s → sdlvDescOk (x.ar (fA f)) n = true → n = 0 → exec (.sdlv u f) s = .next (s.retire u (x.setS (fD f) 0))) ∧
    (Issues encSstore true u f s → (n % 64 ≠ 0 ∨ 4096 < n) → exec (.sstore u f) s = .next (s.retire u (x.setS (fD f) 0x30))) ∧
    (Issues encSldv true u f s → (n % 64 ≠ 0 ∨ 1024 < n) → exec (.sldv u f) s = .next (s.retire u (x.setS (fD f) 0x30))) ∧
    (Issues encSstv true u f s → (n % 64 ≠ 0 ∨ 1024 < n) → exec (.sstv u f) s = .next (s.retire u (x.setS (fD f) 0x30)))

/-- R15, R207, R284, R285, R287, R322: XFRM. DCMP writes the decoded block to the other slot and its length beside the status; ENC writes the encoded
block; CRC64 writes the code of the slot's first bytes; PTRX converts each selected word and leaves a zero word zero.
Where the spec leaves the point open, the result is the model's choice: log entry 23. -/
def Obligations.TransformInstructionResults : Prop :=
  ∀ (k : Fin 4096) (f : BitVec 52) (s s' : State) (dead : Bool),
    let u : Agent := .ctx k
    let x := s.cx u
    let m := fMOD f % 4
    let d := fMOD f / 4 % 4
    Enabled u f s →
    (∀ o i t c out good, Issues encDcmp (m != d) u f s → blockHead (s.slotBytes k.val m 4096) = some (o, i, t, c) →
      s.fetchTable k.val (s.ctxPart k.val) (s.tablesOf k.val) t = (s', .ok dead) →
      decodeBlock (s.slotBytes k.val m 4096) (s'.tableBytes k.val) = some (out, good) →
      ∃ r, exec (.dcmp u f) s = .next r ∧ r.cour.slot = Memory.store s'.cour.slot (4096 * (4 * k.val + d)) out ∧
        r.regs = s'.regs ∧ (((s'.cx u).st = .run) →
          r.cx u = { (s'.cx u).setS (fD f) ((if good then 0 else 0x20) + 256 * out.length) with pc := (s'.cx u).pc + 1 })) ∧
    (∀ b, Issues encEnc (m != d) u f s → x.sr (fB f) % 64 = 0 → 0 < x.sr (fB f) → x.sr (fB f) ≤ 4096 →
      s.slotMarked k.val m 0 (x.sr (fB f)) = false →
      s.fetchTable k.val (s.ctxPart k.val) (s.tablesOf k.val) 0 = (s', .ok dead) →
      encodeBlock (s'.slotBytes k.val m (x.sr (fB f))) (s'.tableBytes k.val) = some b →
      ∃ r, exec (.enc u f) s = .next r ∧ r.cour.slot = Memory.store s'.cour.slot (4096 * (4 * k.val + d)) b ∧
        r.regs = s'.regs ∧ (((s'.cx u).st = .run) →
          r.cx u = { (s'.cx u).setS (fD f) (256 * b.length) with pc := (s'.cx u).pc + 1 })) ∧
    (Issues encEnc (m != d) u f s → (x.sr (fB f) % 64 ≠ 0 ∨ 4096 < x.sr (fB f)) →
      exec (.enc u f) s = .next (s.retire u (x.setS (fD f) 0x30))) ∧
    (Issues encCrc64 true u f s → x.sr (fB f) = 0 → exec (.crc64 u f) s = .next (s.retire u (x.setS (fD f) 0))) ∧
    (Issues encCrc64 true u f s → 0 < x.sr (fB f) → x.sr (fB f) ≤ 4096 →
      exec (.crc64 u f) s = .next (s.retire u ((x.setA (fD f) (crc64 (s.slotBytes k.val m (x.sr (fB f))))).setS (fD f) 0))) ∧
    (∀ i w y, Issues encPtrx true u f s → x.ar (fB f) = 2 ^ i → i < 64 →
      w = leBytes ((s.slotBytes k.val m 4096).drop (512 * (fMOD f / 4 % 8) + 8 * i) |>.take 8) → w ≠ 0 → y ≠ w →
      (if bitOf (fMOD f) 5 then s.pgaToHost (s.ctxPart k.val) s.hst.bar2 w else s.hostToPga (s.ctxPart k.val) s.hst.bar2 w) = some y →
      exec (.ptrx u f) s =
        .next ((s.slotPut k.val m (512 * (fMOD f / 4 % 8) + 8 * i) (toLe 8 y) []).retire u (x.setS (fD f) 0))) ∧
    (Issues encPtrx true u f s → x.ar (fB f) = 0 → exec (.ptrx u f) s = .next (s.retire u (x.setS (fD f) 0)))

/-- R208, R519, R520, R521, R524, R526: EVC on a control core. EVCLAIM selects the first deliverable id at issue, or answers 0; the claim commits
with the id ACTIVE and owned, or with 2047 where another took it. EVDONE of an owned id makes it inactive. WFE waits only while nothing is
deliverable; RAISE raises a software id; FENCE retires. -/
def Obligations.EventInstructionResults : Prop :=
  (∀ n f s, Issues encEvclaim true (.core n) f s → Enabled (.core n) f s → s.firstId n.val = 0 →
    exec (.evclaim (.core n) f) s = .next (s.retire (.core n) ((s.cx (.core n)).setS (fD f) 0))) ∧
  (∀ n f s, Issues encEvclaim true (.core n) f s → Enabled (.core n) f s → s.firstId n.val ≠ 0 →
    ∃ r, exec (.evclaim (.core n) f) s = .next r ∧
      r.cx (.core n) = { s.cx (.core n) with pend := (s.cx (.core n)).pend ++ [⟨0, fD f⟩], pc := (s.cx (.core n)).pc + 1 } ∧
      r.ev.claims = s.ev.claims ++ [{ core := n.val, id := s.firstId n.val, reg := fD f }] ∧ r.regs = s.regs) ∧
  (∀ (c : Fin 16) s q, s.halted = false → s.ev.claims.find? (fun q => q.core == c.val) = some q → s.pendingId q.id = true → s.regs.sorted = true →
    q.id < 2048 →
    ∃ r, exec (.evclaimCommit c) s = .next r ∧ r.pendingId q.id = false ∧ r.activeId q.id = true ∧
      r.ev.owner.find? q.id = some c.val ∧ r.ev.claims = s.ev.claims.erase q) ∧
  (∀ (c : Fin 16) s q, s.halted = false → s.ev.claims.find? (fun q => q.core == c.val) = some q → s.pendingId q.id = false →
    ∃ r, exec (.evclaimCommit c) s = .next r ∧ r.regs = (s.satAdd Reg.EVC_STAT_SPURIOUS 1).regs ∧
      ((s.cxAt (coreKey c.val)).st = .run → r.cxAt (coreKey c.val) =
        { (s.cxAt (coreKey c.val)).setS q.reg 2047 with pend := (s.cxAt (coreKey c.val)).pend.erase ⟨0, q.reg⟩ })) ∧
  (∀ n f s, Issues encEvdone true (.core n) f s → Enabled (.core n) f s →
    (s.cx (.core n)).sr (fA f) < 2048 → s.ev.owner.find? ((s.cx (.core n)).sr (fA f)) = some n.val →
    exec (.evdone (.core n) f) s = .next (({ s.clrBit (Reg.EVC_ACTIVE_BITS ((s.cx (.core n)).sr (fA f) / 64))
        ((s.cx (.core n)).sr (fA f) % 64) with
      ev := { s.ev with owner := s.ev.owner.erase ((s.cx (.core n)).sr (fA f)) } }).retire (.core n) (s.cx (.core n)))) ∧
  (∀ n f s, Issues encEvdone true (.core n) f s → Enabled (.core n) f s →
    s.ev.owner.find? ((s.cx (.core n)).sr (fA f)) ≠ some n.val →
    exec (.evdone (.core n) f) s = .next ((s.satAdd Reg.EVC_STAT_DONE_ERR 1).retire (.core n) (s.cx (.core n)))) ∧
  (∀ n f s, Issues encWfe true (.core n) f s → Enabled (.core n) f s →
    exec (.wfe (.core n) f) s = .next (if fIMM f = 0 ∨ s.firstId n.val ≠ 0 then s.retire (.core n) (s.cx (.core n))
      else s.setCx (.core n) { s.cx (.core n) with st := .wfe })) ∧
  (∀ (c : Fin 16) timeout s, s.halted = false → (s.cxAt (coreKey c.val)).st = .wfe → s.firstId c.val ≠ 0 →
    exec (.wfeWake c timeout) s = .next ((s.setCxAt (coreKey c.val)
      { s.cxAt (coreKey c.val) with st := .run, pc := (s.cxAt (coreKey c.val)).pc + 1 }).clearLatch c.val)) ∧
  (∀ (c : Fin 16) s, s.halted = false → (s.cxAt (coreKey c.val)).st = .wfe → s.firstId c.val = 0 →
    exec (.wfeWake c true) s = .next (s.setCxAt (coreKey c.val)
      { s.cxAt (coreKey c.val) with st := .run, pc := (s.cxAt (coreKey c.val)).pc + 1 }) ∧
    exec (.wfeWake c false) s = .next s) ∧
  (∀ n f s, Issues encRaise true (.core n) f s → Enabled (.core n) f s → 1024 ≤ (s.cx (.core n)).sr (fA f) →
    (s.cx (.core n)).sr (fA f) ≤ 2046 → s.pendingId ((s.cx (.core n)).sr (fA f)) = false →
    exec (.raise (.core n) f) s = .next ((s.raise ((s.cx (.core n)).sr (fA f))).advance (.core n))) ∧
  Gives .fence encFence anyWord (fun _ x => x)

/-- R209: CMEM on LOCAL: loads give the bytes of this core's LOCAL memory and status ST_OK, stores write them and no other byte; on CTRL: a load
gives the register bytes (and ungates the clock of the domain whose registers it reads, R541). An access that is misaligned or beyond LOCAL raises ADDR.
Where the spec leaves the point open, the result is the model's choice: log entry 67. -/
def Obligations.CoreMemoryResults : Prop :=
  ∀ (n : Fin 16) (f : BitVec 52) (s : State),
    let u : Agent := .core n
    let x := s.cx u
    let a := (x.ar (fA f) + x.ar (fB f)) % 2 ^ 64
    let key := 262144 * n.val
    let put (a w y : Nat) : State := { s with proc := { s.proc with loc := Memory.store s.proc.loc (key + a) (toLe w y) } }
    let stored (r : State) (a w y : Nat) : Prop := r.proc.loc = Memory.store s.proc.loc (key + a) (toLe w y) ∧ r.regs = s.regs ∧
      r.store = s.store ∧ r.trp = s.trp
    Enabled u f s → (⟨0, fD f⟩ : PendReg) ∉ x.pend →
    (Issues (encCld 0) (fMOD f != 3) u f s → fMOD f = 0 → a % 8 = 0 → a < 262144 →
      exec (.ld64 u f) s = .next (s.retire u ((x.setA (fD f) (Memory.num s.proc.loc (key + a) 8)).setS (fD f) 0))) ∧
    (Issues (encCld 2) (fMOD f != 3) u f s → fMOD f = 0 → a % 4 = 0 → a < 262144 →
      exec (.ld32 u f) s = .next (s.retire u ((x.setA (fD f) (Memory.num s.proc.loc (key + a) 4)).setS (fD f) 0))) ∧
    (Issues (encCld 0) (fMOD f != 3) u f s → fMOD f = 1 → a % 8 = 0 → a < 0x4000000 →
      exec (.ld64 u f) s = .next ((s.touch a).retire u ((x.setA (fD f) (s.ctrlLoad false a 8)).setS (fD f) 0))) ∧
    (Issues (encCst 1) (fMOD f != 3) u f s → fMOD f = 0 → a % 8 = 0 → a < 262144 →
      exec (.st64 u f) s = .next ((put a 8 (x.ar (fC f))).retire u (x.setS (fD f) 0))) ∧
    (Issues (encCst 3) (fMOD f != 3) u f s → fMOD f = 0 → a % 4 = 0 → a < 262144 →
      exec (.st32 u f) s = .next ((put a 4 (x.ar (fC f))).retire u (x.setS (fD f) 0))) ∧
    (Issues (encCi 4) true u f s → localAddr x f % 8 = 0 → localAddr x f < 262144 →
      exec (.ldl u f) s = .next (s.retire u (x.setA (fD f) (Memory.num s.proc.loc (key + localAddr x f) 8)))) ∧
    (Issues (encCi 5) true u f s → localAddr x f % 8 = 0 → localAddr x f < 262144 →
      exec (.stl u f) s = .next ((put (localAddr x f) 8 (x.ar (fD f))).retire u x) ∧
      ∃ r, exec (.stl u f) s = .next r ∧ stored r (localAddr x f) 8 (x.ar (fD f))) ∧
    (Issues (encCi 4) true u f s → (localAddr x f % 8 ≠ 0 ∨ 262144 ≤ localAddr x f) →
      exec (.ldl u f) s = .next (s.exception u 4 (localAddr x f))) ∧
    (Issues (encCst 1) (fMOD f != 3) u f s → fMOD f = 0 → (a % 8 ≠ 0 ∨ 262144 ≤ a) →
      exec (.st64 u f) s = .next (s.exception u 4 a))

/-- R161, R162, R163, R164, R165, R166, R515: what an exception of a courier context or of a core does: the agent stops with the cause, a record goes to
the exception queue where it has room, and EV 49 or EV 50 is raised. An exception of a CE other than ILLEGAL halts the CE, cancels its unit's cue,
and raises EV 48; ILLEGAL is a logic fault of its troupe.
Where the spec leaves the point open, the result is the model's choice: log entries 10 and 83. -/
def Obligations.ExceptionEntry : Prop :=
  (∀ (k : Fin 4096) (s : State) (cause detail : Nat),
    (s.rd Reg.SMX_XQ_WR + 65536 - s.rd Reg.SMX_XQ_RD) % 65536 ≠ 256 →
    s.exception (.ctx k) cause detail =
      ((s.setCxAt (ctxKey k.val) { s.cxAt (ctxKey k.val) with st := .stopped cause }).writeXRec
        { profile := 1, cause := cause, pc := (s.cxAt (ctxKey k.val)).pc, source := k.val / 16, sub := k.val % 16,
          cue := s.cueNow % 256, unit := (s.cxAt (ctxKey k.val)).unit, detail := detail % 2 ^ 32 }).raise 49 ∧
    (∃ r : XRec, r.cause = cause ∧ r.pc = (s.cxAt (ctxKey k.val)).pc ∧ r.detail = detail % 2 ^ 32 ∧
      (s.exception (.ctx k) cause detail).proc.xq = s.proc.xq.insert (s.rd Reg.SMX_XQ_WR % 256) r)) ∧
  (∀ (n : Fin 16) (s : State) (cause detail : Nat),
    ∃ r : State, s.exception (.core n) cause detail = (r.raise 50).settleLatches ∧
      r.cxAt (coreKey n.val) = { s.cxAt (coreKey n.val) with st := .stopped cause }) ∧
  (∀ (t : Fin 6400) (c : Fin 48) (s : State) (detail : Nat), s.exception (.ce t c) 1 detail = s.logicFault t.val) ∧
  (∀ (t : Fin 6400) (c : Fin 48) (s : State) (cause detail : Nat), cause ≠ 1 →
    ∃ r : State, s.exception (.ce t c) cause detail = r.raise 48 ∧
      (r.proc.xq = s.proc.xq ∨ ∃ e : XRec, e.cause = cause ∧ e.pc = (s.cx (.ce t c)).pc ∧ e.detail = detail % 2 ^ 32 ∧
        e.source = t.val ∧ e.sub = c.val ∧ ∃ i q, r.proc.xq = SMap.insert q i e))

/-! ### The cue, the call sheet, units and the mesh -/

/-- R53: while the sheet is CHECKED and no check runs, the holder's write of CS_TAKE_CUE arms the sheet for a permitted take cue and sets ARM_ERR
for any other, and for a write with STEP = 0 where the sheet changes a step-only field; a write by anyone else has no effect. -/
def Obligations.TakeCueArmsOrIsRefused : Prop :=
  (∀ (h : Fin 18) (step : Bool) (cue : BitVec 48) (s : State), s.halted = false → s.sheetState = 2 → s.rd Reg.CS_STATUS_HOLDER = h.val →
    s.is1 Reg.CS_STATUS_BUSY = false →
    let permitted := cue.toNat ≠ 0 ∧ (s.cueNow + 2 ≤ cue.toNat ∨ (cue.toNat = s.cueNow + 1 ∧ s.phase ≠ 2)) ∧
      (step = true ∨ s.stepOnlySheet = false)
    (permitted → exec (.csTakeCueWrite h step cue) s =
      .next (((s.wr Reg.CS_TAKE_CUE_CUE cue.toNat).wr Reg.CS_TAKE_CUE_STEP (b2n step)).wr Reg.CS_STATUS_STATE 3)) ∧
    (¬ permitted → exec (.csTakeCueWrite h step cue) s = .next (s.wr Reg.CS_STATUS_ARM_ERR 1))) ∧
  (∀ (h : Fin 18) (step : Bool) (cue : BitVec 48) (s : State), s.rd Reg.CS_STATUS_HOLDER ≠ h.val →
    exec (.csTakeCueWrite h step cue) s = .next s)

/-- R37, R39, R40, R51, R55, R460: the phases of the cue follow one another as the cue clock says; CUE_START counts the cue and opens TAKE before
the take's own work; a device that follows the leader adopts its count and offset; and the call sheet's commands check, arm and abandon it.
Where the spec leaves the point open, the result is the model's choice: log entries 68, 69 and 71. -/
def Obligations.CueAndSheetResults : Prop :=
  (∀ s : State, s.halted = false → s.phase = 2 →
    let a := s.audits
    let b := (((a.1.wrapAdd Reg.CUE_COUNT_COUNT 1).wr Reg.CUE_PHASE_PHASE 0).wr Reg.CUE_PHASE_OFFSET 0).raise 1
    let c := (b.rebuildCue.trimPhase.takePostmark.abortDiffering a.2).ageInjection
    let plans := (c.stagedFields.filter (fun f => decide (0x400000 ≤ f.reg) && decide (f.reg < 0x440000) && f.reg % 0x40 == 0)).map
      (fun f => (f.reg - 0x400000) / 0x40)
    exec .cueStart s = .next ((c.sheetAtTake s).1.restOfTake s (c.sheetAtTake s).2 (if (c.sheetAtTake s).2 then plans else []))) ∧
  (∀ s : State, s.halted = false → s.phase = 0 →
    let w := (s.wr Reg.CUE_PHASE_PHASE 1).wr Reg.CUE_PHASE_OFFSET 2000
    exec .workStart s = .next (s.trp.t.foldl (fun (r : State) e =>
      (e.2.units.filter (fun x => x.carried)).foldl (fun (r : State) x => r.startUnit e.1 x.desc.id) r) w).startSearch) ∧
  (∀ s : State, s.halted = false → s.phase = 1 →
    exec .guardStart s = .next ((((s.wr Reg.CUE_PHASE_PHASE 2).wr Reg.CUE_PHASE_OFFSET
      (s.rd Reg.CUE_PERIOD_PERIOD - 6250)).raise 2).sendPostcard).recordStreams) ∧
  (∀ (sender : Fin 64) (count : BitVec 48) (ofs : BitVec 21) (step : Lane) (rt skew : BitVec 16) (s : State),
    s.deaf 16 = false → s.phase ≠ 3 → sender.val ≠ s.device → sender.val = s.rd Reg.CUE_SYNC_LEADER → s.is1 Reg.CUE_SYNC_LOCKED = true →
    skew.toNat ≤ 50 → s.sheetState ≠ 3 →
    let p := s.rd Reg.CUE_PERIOD_PERIOD
    let n := ofs.toNat + rt.toNat / 2
    let a := (((s.wr Reg.CUE_COUNT_COUNT (count.toNat + n / p)).wr Reg.CUE_PHASE_OFFSET (n % p)).wr Reg.CUE_PHASE_PHASE
      (phaseAt p (n % p))).wr Reg.CUE_SYNC_SKEW_NS skew.toNat
    exec (.cueSync sender count ofs step rt skew) s =
      .next (({ a with res := { a.res with skewed := false, skew := 1000 * (skew.toNat : Int) } }.wr Reg.CUE_SYNC_LOCKED 1).unpend 36)) ∧
  (∀ (p : Fin 16) (s : State), s.halted = false → (s.phase ≠ 0 ∨ 1999 ≤ s.ofs) →
    let r := (s.res.resetRoutes.keys.filter (fun k => s.trpPart (k / 64) == p.val)).foldl (fun s k => s.resetRoute (k / 64) (k % 64)) s
    exec (.ledgerRouteReset p) s =
      .next { r with res := { r.res with resetRoutes := r.res.resetRoutes.filter (fun k _ => r.trpPart (k / 64) != p.val) } }) ∧
  (∀ (h : Fin 18) (off : Fin 0x2000000) (x : Word) (s t : State),
    let fs := (Reg.fieldsAt (off.val / 8 * 8)).filter (fun f => f.taken && bitsOf (2 ^ 64 - 1) f.lo f.width == 2 ^ f.width - 1)
    s.halted = false → fs ≠ [] → s.pairRefused h.val (off.val / 8 * 8) = false → s.judge h.val = (t, true) →
    exec (.stagedWrite h off x) s =
      .next (fs.foldl (fun t f => { t with staged := t.staged.insert f.key (bitsOf x.toNat f.lo f.width % 2 ^ f.width) }) t)) ∧
  (∀ (h : Fin 18) (s : State), s.halted = false → s.is1 Reg.CS_STATUS_BUSY = false →
    (s.sheetState = 0 ∨ s.sheetState = 4 ∨ s.sheetState = 5 ∨ (s.sheetState = 1 ∧ s.rd Reg.CS_STATUS_HOLDER = h.val)) →
    exec (.csCheckGo h) s =
      .next { (s.wr Reg.CS_STATUS_HOLDER h.val).wr Reg.CS_STATUS_BUSY 1 with sheet := { s.sheet with checker := h.val, voided := false } }) ∧
  (∀ s : State, s.halted = false → s.is1 Reg.CS_STATUS_BUSY = true → s.rd Reg.CS_STATUS_HOLDER ≠ 31 → s.sheet.voided = false → s.verdict = none →
    exec .checkDone s = .next ((({ s.wr Reg.CS_STATUS_BUSY 0 with sheet := { s.sheet with voided := false, refusedPair := none } }.wr Reg.CS_STATUS_STATE 2
      ).clearFail).raise 33)) ∧
  (∀ (s : State) (check kind item unit : Nat), s.halted = false → s.is1 Reg.CS_STATUS_BUSY = true → s.rd Reg.CS_STATUS_HOLDER ≠ 31 → s.sheet.voided = false →
    s.verdict = some (check, kind, item, unit) →
    exec .checkDone s = .next (((((({ s.wr Reg.CS_STATUS_BUSY 0 with sheet := { s.sheet with voided := false, refusedPair := none } }.wr
      Reg.CS_STATUS_STATE 1).wr Reg.CS_STATUS_FAIL_CHECK check).wr Reg.CS_STATUS_FAIL_KIND kind).wr Reg.CS_STATUS_FAIL_ITEM item).wr
      Reg.CS_FAIL_UNIT_UNIT unit).raise 33)) ∧
  (∀ (h : Fin 18) (s : State), s.halted = false → (s.sheetState = 1 ∨ s.sheetState = 2 ∨ s.sheetState = 3) →
    (s.rd Reg.CS_STATUS_HOLDER = h.val ∨ (h.val = 17 ∧ s.sheetServed = true)) →
    exec (.csAbandonGo h) s = .next (s.abandon 1) ∧
    ∃ r : State, s.abandon 1 = r.raise 34 ∧ r.staged = [] ∧ r.sheet.retiring = [] ∧ r.store = s.store ∧ r.coh = s.coh) ∧
  (∀ (h : Fin 18) (s : State), s.halted = false → s.sheetState = 4 →
    exec (.csAbandonGo h) s = .next (s.wr Reg.CS_STATUS_ABANDON_LATE 1))

/-- R43, R88, R89, R148, R276, R278, R541: what a unit's clock events do. A unit starts in WORK when its start is reached, its tokens are present
and its frames are live, with its CEs at their entries; a late unit follows its policy; a logic fault quarantines the troupe, cancels its units and
halts its CEs; a retirement reserves the nearest spare; a region gates when its CEs are idle.
Where the spec leaves the point open, the result is the model's choice: log entries 72, 83 and 89. -/
def Obligations.UnitResults : Prop :=
  (∀ (t : Fin 6400) (u : BitVec 16) (s : State) (img : Img) (x : UnitRt),
    (s.troupe t.val).img = some img → (s.troupe t.val).unit u.toNat = some x → x.st = .waiting → x.carried = false → s.halted = false →
    s.phase = 1 → x.desc.start ≤ s.ofs → s.barred t.val u.toNat = none → x.present = true → s.framesLive img u.toNat = true →
    (∀ c < 48, bitOf (partMask img x.desc) c = true → (s.cxAt (ceKey t.val c)).st = .idle ∧
      (s.troupe t.val).nextUnit img c = some u.toNat ∧ (sectionOf img c).isEmpty = false) → partMask img x.desc ≠ 0 → x.ended = 0 →
    partMask img x.desc < 2 ^ 48 →
    let cs := (List.range 48).filter (fun c => bitOf (partMask img x.desc) c)
    let begun := cs.foldl (fun r c => r.setCxAt (ceKey t.val c)
      (beginCx (r.cxAt (ceKey t.val c)) img x.desc c (s.trpPart t.val))) s
    let begun := if x.undRec then begun.satAdd Reg.CUE_MISS_COUNT_UNDERSTUDY 1 else begun
    exec (.unitStart t u) s =
      .next ((begun.setTroupe t.val ((begun.troupe t.val).mapUnit u.toNat (fun y =>
        { y with st := .running, ended := y.ended + 0, bars := if y.st = .waiting then [] else y.bars }))).ungate (regionOf t.val))) ∧
  (∀ (t : Fin 6400) (u : BitVec 16) (s : State) (x : UnitRt), s.halted = false → (s.troupe t.val).unit u.toNat = some x → x.st = .waiting →
    x.desc.ddel < s.ofs → x.understudy = false → x.present = false →
    (s.quarantined t.val u.toNat = true → exec (.deliveryMiss t u) s = .next (s.cancelUnit t.val u.toNat 2)) ∧
    (s.quarantined t.val u.toNat = false → x.desc.policy = 2 → exec (.deliveryMiss t u) s = .next ((((s.cancelOne t.val u.toNat .idle
      ).releaseUnread t.val u.toNat).satAdd Reg.CUE_MISS_COUNT_SKIPPED 1).noteCond (s.trpPart t.val) 7)) ∧
    (s.quarantined t.val u.toNat = false → x.desc.policy = 1 → exec (.deliveryMiss t u) s = .next
      (s.setTroupe t.val ((s.troupe t.val).mapUnit u.toNat (fun y => { y with understudy := true })))) ∧
    (s.quarantined t.val u.toNat = false → x.desc.policy ≠ 1 → x.desc.policy ≠ 2 →
      exec (.deliveryMiss t u) s = .next (s.carryUnit t.val u.toNat))) ∧
  (∀ (t : Fin 6400) (u : BitVec 16) (s : State) (x : UnitRt), s.halted = false → (s.troupe t.val).unit u.toNat = some x →
    (x.st = .waiting ∨ x.st = .running) → x.desc.d < s.ofs →
    exec (.completionMiss t u) s = .next (if s.quarantined t.val u.toNat then s.cancelUnit t.val u.toNat 2 else if x.desc.policy = 2
      then (((s.cancelOne t.val u.toNat .idle).releaseUnread t.val u.toNat).satAdd Reg.CUE_MISS_COUNT_SKIPPED 1).noteCond (s.trpPart t.val) 7
      else s.carryUnit t.val u.toNat)) ∧
  (∀ (t : Fin 6400) (u : BitVec 16) (s : State) (x : UnitRt), s.halted = false → (s.troupe t.val).unit u.toNat = some x →
    x.st = .waiting → x.understudy = true → x.carried = false → x.present = false → x.desc.ddel + x.desc.ulead < s.ofs →
    exec (.understudyLeadMiss t u) s = .next (if s.quarantined t.val u.toNat then s.cancelUnit t.val u.toNat 2 else if x.desc.policy = 2
      then (((s.cancelOne t.val u.toNat .idle).releaseUnread t.val u.toNat).satAdd Reg.CUE_MISS_COUNT_SKIPPED 1).noteCond (s.trpPart t.val) 7
      else s.carryUnit t.val u.toNat)) ∧
  (∀ (t : Fin 6400) (u : BitVec 16) (status : Byte) (s : State), s.halted = false →
    exec (.statusRecordArrival t u status) s = .next (s.setTroupe t.val ((s.troupe t.val).mapUnit u.toNat (fun y =>
      { y with recs := y.recs + 1, undRec := y.undRec || status.toNat == 2, dead := y.dead || status.toNat == 0x20 })))) ∧
  (∀ (t : Fin 6400) (s : State), s.halted = false → s.trpState t.val = 0 →
    let a := (s.moveTroupe t.val 1).raise 41
    let b := (a.troupe t.val).units.foldl (fun (r : State) x => if x.st = .done then r.cancelOutputs t.val x.desc.id else r) a
    let c := (b.troupe t.val).units.foldl (fun (r : State) x => r.cancelUnit t.val x.desc.id 2) b
    exec (.ceLogicFault t) s =
      .next ((List.range 48).foldl (fun (r : State) i => r.setCxAt (ceKey t.val i) { r.cxAt (ceKey t.val i) with st := .halt }) c)) ∧
  (∀ (t : Fin 6400) (s : State), s.trpState t.val ≠ 0 → exec (.ceLogicFault t) s = .next s) ∧
  (∀ (h : Fin 18) (t : Fin 6400) (s : State), s.halted = false → 16 ≤ h.val → s.trpState t.val < 2 → (s.sheet.retiring.find? t.val).isSome = false →
    s.is1 Reg.CS_STATUS_BUSY = false → s.sheetFree = true →
    (s.spareFor t.val = none → exec (.trpRetireGo h t) s = .next ((s.wr (Reg.TRP_RETIRE_RESULT t.val) 3).raise 43)) ∧
    (∀ q, s.spareFor t.val = some q → ∃ r, exec (.trpRetireGo h t) s = .next r ∧
      r.sheet.retiring = s.sheet.retiring.insert t.val q ∧ r.rd (Reg.TRP_RETIRE_RESULT t.val) = 1 ∧
      (q < 6400 → r.rd (Reg.TRP_RETIRE_SPARE t.val) = q ∧ r.rd (Reg.TRP_STATE_STATE q) = 2))) ∧
  (∀ (r : Fin 160) (s : State), s.halted = false → s.rd (Reg.CLK_REG_POWER r.val) = 0 →
    ((∀ t ∈ troupesIn r.val, 3 ≤ s.trpState t) → exec (.clockGate r) s = .next (s.wr (Reg.CLK_REG_POWER r.val) 2)) ∧
    ((∃ t ∈ troupesIn r.val, s.trpState t < 3) →
      (∀ t ∈ troupesIn r.val, ∀ c < 48, (s.cxAt (ceKey t c)).st = .idle ∨ (s.cxAt (ceKey t c)).st = .halt) →
      exec (.clockGate r) s = .next (s.wr (Reg.CLK_REG_POWER r.val) 1)))

/-- R77, R78, R80, R81, R83, R87, R199, R202, R204: a router's output sends the parcel whose turn it is over a link whose next router has a slot, and
resends it when its seal fails; a parcel leaves the mesh at its destination; a hop credit that comes back frees its slot; credits and cancellations
reach the routes they name; and an outstanding store operation is served by its POOL context, or ends with ST_CURTAIN. -/
def Obligations.MeshResults : Prop :=
  (∀ (t : Fin 6400) (head : BitVec 128) (body : BitVec 512) (s : State) (p : MParcel), s.halted = false → s.nextParcel t.val 4 = some p →
    exec (.meshParcelArrival t 4 head body) s = .next (((s.turned t.val 4 p).dropParcel p).eject t.val p)) ∧
  (∀ (t : Fin 6400) (d : Fin 5) (head : BitVec 128) (body : BitVec 512) (s : State) (up : Nat) (p : MParcel), s.halted = false → d.val < 4 →
    neighbour t.val d.val = some up → s.trp.linkFailed.getD (up * 8 + opposite d.val) false = false →
    s.nextParcel up (opposite d.val) = some p →
    let od := opposite d.val
    let k := hopKey up od p.vl
    let f := ((s.turned up od p).dropParcel p).freeSlot p
    let flips := (body ++ head).toNat
    (flips = 0 → p.wellFormed = true → p.dst ≠ t.val → exec (.meshParcelArrival t d head body) s =
      .next ({ f with trp := { f.trp with hopUsed := f.trp.hopUsed.setD k 0 (f.trp.hopUsed.getD k 0 + 1),
                                          mesh := f.trp.mesh ++ [{ p with at_ := t.val, inDir := d.val, tries := 0 }] } })) ∧
    (flips = 0 → p.wellFormed = true → p.dst = t.val → exec (.meshParcelArrival t d head body) s = .next (f.eject t.val p)) ∧
    (flips = 0 → p.wellFormed = false →
      exec (.meshParcelArrival t d head body) s = .next (f.satAdd (Reg.TRP_TRAFFIC_MALFORMED t.val) 1)) ∧
    (flips ≠ 0 → sealGood (p.image ^^^ flips) = true →
      exec (.meshParcelArrival t d head body) s = .next (f.takeParcel t.val d.val (p.reread (p.image ^^^ flips)))) ∧
    (flips ≠ 0 → sealGood (p.image ^^^ flips) = false → p.tries ≠ 3 → exec (.meshParcelArrival t d head body) s =
      .next (({ s with trp := { s.trp with mesh := s.trp.mesh.map (fun q => if q = p then { p with tries := p.tries + 1 } else q) } }
        ).satAdd (Reg.TRP_TRAFFIC_RETRIED t.val) 1)) ∧
    (flips ≠ 0 → sealGood (p.image ^^^ flips) = false → p.tries = 3 →
      let g := (s.dropParcel p).freeSlot p
      exec (.meshParcelArrival t d head body) s =
        .next ({ g with trp := { g.trp with linkFailed := g.trp.linkFailed.insert (up * 8 + od) true } }.raise 44))) ∧
  (∀ (t : Fin 6400) (d : Fin 6) (vl : Fin 4) (s : State), s.halted = false →
    let k := hopKey t.val d.val vl.val
    s.trp.hopBack.getD k 0 ≠ 0 →
    exec (.hopCreditReturn t d vl) s = .next { s with trp := { s.trp with
      hopBack := s.trp.hopBack.setD k 0 (s.trp.hopBack.getD k 0 - 1), hopUsed := s.trp.hopUsed.setD k 0 (s.trp.hopUsed.getD k 0 - 1) } }) ∧
  (∀ (t : Fin 6400) (i : Fin 64) (n : BitVec 13) (s : State) (o : OutRt), s.halted = false → (s.troupe t.val).outs[i.val]? = some o →
    ∃ r, exec (.credParcel t [(i, n)]) s = .next (s.setTroupe t.val r) ∧
      r.outs[i.val]? = some { o with cr := min o.desc.credits (o.cr + n.toNat) } ∧
      ∀ j q, j ≠ i.val → (s.troupe t.val).outs[j]? = some q → q.cr ≤ q.desc.credits → r.outs[j]? = some q) ∧
  (∀ (t : Fin 6400) (i : Fin 64) (u : BitVec 16) (cue : Byte) (s : State) (ir : InRt), s.halted = false →
    (s.troupe t.val).ins[i.val]? = some ir →
    let hit := fun (q : RingSlot) => q.unit == u.toNat && q.cue == cue.toNat && q.reader.isNone
    let gone := ir.q.filter hit
    let r := (s.setTroupe t.val { s.troupe t.val with ins := mapAt (s.troupe t.val).ins i.val (fun _ =>
      { ir with q := ir.q.filter (fun q => !hit q), cancelled := ir.cancelled ++ [(u.toNat, cue.toNat)] }) }).countCancelled t.val gone.length
    let w := gone.foldl (fun (r : State) q => r.dropTok (r.trpPart t.val) q.tok) r
    exec (.cancelParcel t i u cue false) s = .next (w.returnCredits t.val (gone.map (fun q => (q.src, q.srcRoute))))) ∧
  (∀ (t : Fin 6400) (i : Fin 64) (u : BitVec 16) (cue : Byte) (s : State), s.halted = false →
    exec (.cancelParcel t i u cue true) s =
      .next (s.setTroupe t.val { s.troupe t.val with dlv := (s.troupe t.val).dlv ++ [(i.val, u.toNat, cue.toNat)] })) ∧
  (∀ (t : Fin 6400) (c : Fin 48) (n : Fin 8) (s : State) (g : GOp), s.halted = false → s.srch.live.getD t.val false = false →
    (s.gopsOf (ceKey t.val c.val))[n.val]? = some g → g.kind < 2 →
    (s.curtain g.part = true → s.underway g = false → exec (.gmemComplete t c n) s = .next (s.endGop g 0x24 id [⟨0, g.sd⟩])) ∧
    ((s.curtain g.part = false ∨ s.underway g = true) → ∀ r h k, s.poolFor g = some (r, h, k) →
      exec (.gmemComplete t c n) s = .next (r.gmemGo (k / 16) (h.len / 64 + 1) h))) ∧
  (∀ (u : Agent) (n : Fin 32) (s : State) (g : GOp), s.halted = false → (s.gopsOf (agentKey u))[n.val]? = some g → 2 ≤ g.kind →
    (16 ≤ g.part → exec (.atomComplete u n) s = .next (s.atomPga g)) ∧
    (g.part < 16 → s.curtain g.part = true → s.underway g = false → exec (.atomComplete u n) s = .next (s.endAtom g 0x24 0)) ∧
    (g.part < 16 → (s.curtain g.part = false ∨ s.underway g = true) → ∀ r h k, s.poolFor g = some (r, h, k) →
      exec (.atomComplete u n) s = .next (r.atomVa h (k / 16))))

/-! ### Couriers and translation -/

/-- R130, R274, R277, R278, R288, R289, R290, R313: a plan entry starts when its context is idle and its start is reached; a read that completes
queues its chunk; an entry late at D_del with neither an understudy nor SKIP is carried; and a faulted context resumes, is abandoned or restarts as
CRR_CTX_CTL says.
Where the spec leaves the point open, the result is the model's choice: log entries 25, 26 and 29. -/
def Obligations.CourierResults : Prop :=
  (∀ (k : Fin 4096) (s : State), s.halted = false →
    let c := s.ctx k.val
    let e := planEntryOf (s.planBytes (s.planOff k.val) c.next)
    let p := s.rd (Reg.CRR_CTX_PLAN_PARTITION k.val)
    let j : Job := { idx := c.next, ent := e, part := p, tables := s.cohNum (s.planOff k.val + 8) 8 }
    s.is1 (Reg.CRR_CTX_PLAN_EN k.val) = true → (s.cxAt (ctxKey k.val)).st = .idle → c.job = none → c.carry = [] →
    c.next < s.planLen (s.planOff k.val) → s.entryOk (s.planOff k.val) c.next = true →
    e.op = 0 → e.counted = true → s.servesCarried e = false → s.justCarried e = false → c.closed.contains c.next = false →
    e.start ≤ s.ofs → s.phase = 1 → s.ofs < e.ddel → s.curtain p = false →
    let a := s.setCtx k.val { c with next := c.next + 1 }
    let b := (a.wr (Reg.CRR_CTX_STATE_ENTRY k.val) c.next).setCtx k.val
      { a.ctx k.val with job := some j, faultD := none, prog := 0, progDead := false }
    let d := (b.unitFor k.val e.unit).getD {}
    exec (.deliver k) s = .next ((b.setCxAt (ctxKey k.val)
      { b.cxAt (ctxKey k.val) with st := .run, part := p, unit := e.unit, dline := d.d, ddel := d.ddel }).issued (.ctx k))) ∧
  (∀ (k : Fin 4096) (s r : State) (j : Job), s.halted = false → (s.ctx k.val).job = some j → (s.cxAt (ctxKey k.val)).st = .run → j.ent.op = 1 →
    j.transit = false → j.ent.length ≠ 0 → s.intoSlot k.val false j.part j.ent.src 1024 0 = (r, .ok false) →
    r.rd (Reg.PBK_FRAME_STAGE_OWNER j.ent.troupe) = j.part → r.is1 (Reg.PBK_FRAME_STAGE_COND j.ent.troupe) = false →
    let a := { r with book := { r.book with staged := Memory.store r.book.staged (1024 * j.ent.troupe) (r.slotBytes k.val 0 1024) } }
    exec (.frameEntry k) s = .next ((((a.wr (Reg.PBK_FRAME_STAGE_TAG j.ent.troupe) j.ent.tag).wr
      (Reg.PBK_FRAME_STAGE_STATE j.ent.troupe) 2).endWork k.val).issued (.ctx k))) ∧
  (∀ (k : Fin 4096) (s r : State) (j : Job), s.halted = false → (s.ctx k.val).job = some j → (s.cxAt (ctxKey k.val)).st = .run → j.ent.op = 0 →
    j.sent = false → j.transit = false → j.ent.comp = false →
    (s.intoSlot k.val false j.part (j.ent.src + 4096 * j.chunk) j.size 0 = (r, .ok false) →
      exec (.courierReadComplete k) s = .next ((r.queueChunk k.val j (r.slotBytes k.val 0 j.size) false).issued (.ctx k))) ∧
    (s.intoSlot k.val false j.part (j.ent.src + 4096 * j.chunk) j.size 0 = (r, .ok true) →
      exec (.courierReadComplete k) s = .next ((r.badChunk k.val j j.size false).issued (.ctx k))) ∧
    (s.intoSlot k.val false j.part (j.ent.src + 4096 * j.chunk) j.size 0 = (r, .wait) →
      exec (.courierReadComplete k) s = .next (r.issued (.ctx k))) ∧
    (∀ code va, s.intoSlot k.val false j.part (j.ent.src + 4096 * j.chunk) j.size 0 = (r, .stat code va) →
      exec (.courierReadComplete k) s = .next ((r.readEnded k.val j code va).issued (.ctx k)))) ∧
  (∀ (k : Fin 4096) (i : BitVec 10) (s : State) (j : Job), s.halted = false → (s.ctx k.val).job = some j → j.idx = i.toNat → j.carried = false →
    (s.cxAt (ctxKey k.val)).st = .run → s.is1 (Reg.CRR_CTX_PLAN_EN k.val) = true → i.toNat < s.planLen (s.planOff k.val) →
    j.ent.counted = true → (s.ctx k.val).closed.contains i.toNat = false → (s.ctx k.val).late.contains i.toNat = false →
    (s.ctx k.val).carry = [] → j.ent.ddel < s.ofs → s.servesCarried j.ent = false → j.ent.ulen = 0 → j.ent.skip = false →
    let a := s.setCtx k.val { s.ctx k.val with late := (s.ctx k.val).late ++ [i.toNat] }
    exec (.courierDDel k i) s = .next ((a.satAdd Reg.CRR_MISS_LATE 1).setJobOf k.val { j with carried := true })) ∧
  (∀ (k : Fin 4096) (s : State) (j : Job), s.halted = false → (s.ctx k.val).job = some j → (s.cxAt (ctxKey k.val)).st = .run →
    j.transit = true → j.sent = false →
    let r := (s.setJobOf k.val { j with transit := false }).satAdd (Reg.CRR_ERR_RETRY (k.val / 16)) 1
    exec (.inTransitRetry k) s =
      .next ((if j.ent.op = 0 then r.deliverRead k.val { j with transit := false } else r).issued (.ctx k))) ∧
  (∀ (h : Fin 18) (k : Fin 4096) (s : State) (code : Nat), s.halted = false → 16 ≤ h.val → (s.cxAt (ctxKey k.val)).st = .fault code →
    s.is1 (Reg.CRR_CTX_FAULT_ABANDONED k.val) = false →
    let a := s.setCtx k.val { s.ctx k.val with acted := some s.ofs }
    exec (.crrResume h k) s = .next ((a.setCxAt (ctxKey k.val) { s.cxAt (ctxKey k.val) with st := .run }).wr
      (Reg.CRR_CTX_CTL_RESULT k.val) 1) ∧
    exec (.crrRestart h k) s = .next (s.wr (Reg.CRR_CTX_CTL_RESULT k.val) 2) ∧
    (∀ j, (s.ctx k.val).job = some j → j.carried = false →
      exec (.crrAbandon h k) s = .next (((a.failFault k.val).endWork k.val).wr (Reg.CRR_CTX_CTL_RESULT k.val) 1)) ∧
    ((s.ctx k.val).job = none → exec (.crrAbandon h k) s = .next (((a.failFault k.val).setCtx k.val
      { (a.failFault k.val).ctx k.val with abandoned := true }).wr (Reg.CRR_CTX_CTL_RESULT k.val) 1)) ∧
    ∀ d, (s.ctx k.val).faultD = some d →
      (a.failFault k.val).cxAt (ctxKey k.val) =
        { (s.cxAt (ctxKey k.val)).setS d 0x10 with st := .run, pc := (s.cxAt (ctxKey k.val)).pc + 1 }) ∧
  (∀ (h : Fin 18) (k : Fin 4096) (s : State) (code : Nat), s.halted = false → 16 ≤ h.val → (s.cxAt (ctxKey k.val)).st = .fault code →
    s.is1 (Reg.CRR_CTX_FAULT_ABANDONED k.val) = true →
    exec (.crrResume h k) s = .next (s.wr (Reg.CRR_CTX_CTL_RESULT k.val) 3) ∧
    exec (.crrAbandon h k) s = .next (s.wr (Reg.CRR_CTX_CTL_RESULT k.val) 3)) ∧
  (∀ (h : Fin 18) (k : Fin 4096) (s : State) (cause : Nat), s.halted = false → 16 ≤ h.val → (s.cxAt (ctxKey k.val)).st = .stopped cause →
    exec (.crrRestart h k) s = .next ((s.setCtx k.val { s.ctx k.val with restart := true }).wr (Reg.CRR_CTX_CTL_RESULT k.val) 1)) ∧
  (∀ (k : Fin 4096) (s : State) (code : Nat), s.halted = false → (s.cxAt (ctxKey k.val)).st = .fault code → s.phase = 0 →
    s.is1 (Reg.CRR_CTX_PLAN_EN k.val) = false → s.rd (Reg.PRT_CTL_FAULT_CUES (s.ctxPart k.val)) ≠ 0 →
    s.rd (Reg.PRT_CTL_FAULT_CUES (s.ctxPart k.val)) < (s.ctx k.val).waited →
    exec (.poolFaultTimeout k) s = .next (s.abandonFault k.val))

/-- R304, R309, R310, R312, R314, R315: a table walk reads the entries it needs, one line at a time, and ends with an entry in the shared TLB or with
a fault, which is logged for the access that waits for it; an invalidation drops every entry that it names before it reports that it runs, and
completes once no access under way uses one.
Where the spec leaves the point open, the result is the model's choice: log entries 11 and 15. -/
def Obligations.TranslationResults : Prop :=
  (∀ (n : Fin 64) (s : State) (w : Walk), s.halted = false → s.xlt.walks[n.val]? = some w →
    let gone := fun (r : State) => { r with xlt := { r.xlt with walks := r.xlt.walks.erase w } }
    (∀ e, s.walk w.seen w.part w.va = .ok e → exec (.tableReadComplete n) s = .next ((gone s).tlbFill e)) ∧
    (∀ f, s.walk w.seen w.part w.va = .error (.fault f) → exec (.tableReadComplete n) s = .next ((gone s).walkFault w f)) ∧
    (∀ slot, s.walk w.seen w.part w.va = .error (.need slot) →
      let q := s.access (slot / 64) { kind := 4, r := 35, tk := walkTicket w }
      (q.2 = none → exec (.tableReadComplete n) s = .next q.1) ∧
      (∀ a, q.2 = some a →
        let seen := w.seen ++ [(slot, leBytes (((seenBytes (a.data, a.marks)).drop (slot % 64)).take 8))]
        (∀ next, q.1.walk seen w.part w.va = .error (.need next) → exec (.tableReadComplete n) s = .next { q.1 with xlt := { q.1.xlt with
          walks := q.1.xlt.walks.map (fun x => if x = w then { w with seen := seen } else x) } }) ∧
        (∀ e, q.1.walk seen w.part w.va = .ok e → exec (.tableReadComplete n) s = .next ((gone q.1).tlbFill e)) ∧
        (∀ f, q.1.walk seen w.part w.va = .error (.fault f) → exec (.tableReadComplete n) s = .next ((gone q.1).walkFault w f))))) ∧
  (∀ (s : State) (w : Walk) (f : XFault) (own : Nat) (x : XWait), s.xlt.waits = [(own, x)] → x.part = w.part → w.lo ≤ x.va →
    x.va < w.lo + w.size → x.res = none →
    let a := s.logFault w.part x.src x.va x.write f
    (x.src < 65536 ∨ f.status ≠ 0x10 → s.walkFault w f =
      { a with xlt := { a.xlt with waits := a.xlt.waits.insert own { x with res := some f.status } } }) ∧
    (65536 ≤ x.src → f.status = 0x10 → s.walkFault w f =
      ({ a with xlt := { a.xlt with waits := a.xlt.waits.erase own } }).ctxFault (x.src - 65536) x.va x.write 0x10)) ∧
  (∀ (h : Fin 18) (s : State), s.halted = false → 16 ≤ h.val → s.is1 Reg.XLT_TLBI_CTL_BUSY = false →
    let put (p count op : Nat) : State := ((s.wr Reg.XLT_TLBI_CTL_COUNT count).wr Reg.XLT_TLBI_CTL_PARTITION p).wr Reg.XLT_TLBI_CTL_OP op
    let drop (r : State) (p : Tlb → Bool) : State := ((r.drainOn p).dropTlb p).wr Reg.XLT_TLBI_CTL_BUSY 1
    let a := s.rd Reg.XLT_TLBI_ADDR_ADDR * 65536
    exec (.tlbiAll h) s = .next (drop (put (s.rd Reg.XLT_TLBI_CTL_PARTITION) (s.rd Reg.XLT_TLBI_CTL_COUNT) 0) (fun _ => true)) ∧
    (∀ p : Fin 16, exec (.tlbiPart h p) s = .next (drop (put p.val (s.rd Reg.XLT_TLBI_CTL_COUNT) 1) (fun e => e.part == p.val))) ∧
    (∀ (p : Fin 16) (n : Lane), n.toNat ≠ 0 → exec (.tlbiVa h p n) s = .next (drop (put p.val n.toNat 2)
      (fun e => e.part == p.val && (decide (e.va < a + 65536 * n.toNat) && decide (a < e.va + e.size))))) ∧
    (∀ (p : Fin 16) (n : Lane), n.toNat ≠ 0 → a < 2 ^ 53 → exec (.tlbiIpa h p n) s = .next (drop (put p.val n.toNat 3)
      (fun e => e.part == p.val && (decide (e.leaf < a + 65536 * n.toNat) && decide (a < e.leaf + e.leafSize))))) ∧
    (∀ p : Fin 16, exec (.tlbiVa h p 0) s = .next (((put p.val 0 2).wr Reg.XLT_TLBI_CTL_RESULT 1).raise 74)) ∧
    (∀ (p : Fin 16) (n : Lane), 2 ^ 53 ≤ a → exec (.tlbiIpa h p n) s = .next ((put p.val n.toNat 3).wr Reg.XLT_TLBI_CTL_RESULT 2))) ∧
  (∀ s : State, s.halted = false → s.is1 Reg.XLT_TLBI_CTL_BUSY = true → s.xlt.acc.any (fun e => e.2.drain) = false →
    exec .tlbiComplete s = .next (((s.wr Reg.XLT_TLBI_CTL_BUSY 0).wr Reg.XLT_TLBI_CTL_RESULT 1).raise 74))

/-! ### The store -/

/-- R239, R243, R245, R249, R250, R253, R254, R256, R257, R259, R449, R450, R451: hints and migration, the stage-only range, loans between devices,
mirrors, channel failures and rebuilds, and wrong bits in the arrays.
Where the spec leaves the point open, the result is the model's choice: log entries 17, 18, 19, 20, 21 and 22. -/
def Obligations.StoreResults : Prop :=
  (∀ (h : Fin 18) (first count : BitVec 29) (hint : Fin 8) (mirror : Bool) (s : State), s.halted = false → 16 ≤ h.val →
    s.is1 Reg.STM_HINT_CMD_BUSY = false →
    let a := (((s.wr Reg.STM_HINT_UNIT_FIRST first.toNat).wr Reg.STM_HINT_CMD_COUNT count.toNat).wr
      Reg.STM_HINT_CMD_HINT hint.val).wr Reg.STM_HINT_CMD_MIRROR (b2n mirror)
    (hint.val < 5 → count.toNat ≠ 0 → first.toNat + count.toNat ≤ s.rd Reg.STM_SIZE_UNITS → exec (.stmHintGo h first count hint mirror) s =
      .next ((((a.wr Reg.STM_HINT_CMD_BUSY 1).wr Reg.STM_HINT_CMD_RESULT 0).setJob
        { next := first.toNat, stop := first.toNat + count.toNat, hint := hint.val, mirror := mirror }).hintSettle)) ∧
    (5 ≤ hint.val → exec (.stmHintGo h first count hint mirror) s = .next (a.wr Reg.STM_HINT_CMD_RESULT 4)) ∧
    (hint.val < 5 → count.toNat = 0 → exec (.stmHintGo h first count hint mirror) s = .next (a.wr Reg.STM_HINT_CMD_RESULT 1))) ∧
  (∀ (u : BitVec 29) (s : State), s.halted = false → s.rd Reg.STM_MIG_RATE ≠ 0 →
    (∀ f, (s.unitAt u.toNat).moving = some (some f) → exec (.migrationComplete u) s =
      .next (((s.setUnit u.toNat { s.unitAt u.toNat with frame := some f, dirty := false, moving := none }).wrapAdd
        Reg.STM_MIG_PROMOTED 1).hintSettle)) ∧
    ((s.unitAt u.toNat).moving = some none →
      let x := s.unitAt u.toNat
      let a := s.setUnit u.toNat { x with frame := none, dirty := false, moving := none, waits := x.hint == 1 || x.hint == 4 }
      let b := ((List.range 16).foldl (fun (r : State) c => r.rebuildStripe (65536 * u.toNat + 4096 * c)) (a.slotWritten u.toNat)).wrapAdd
        Reg.STM_MIG_DEMOTED 1
      let c := if b.rd Reg.STM_SIZE_FRAMES ≤ x.frame.getD 0 then (b.setUnit u.toNat { b.unitAt u.toNat with waits := false }).seekAgain u.toNat else b
      let d := c.refill.hintSettle
      exec (.migrationComplete u) s = .next (if d.coh.wait.isEmpty then d else d.retryWaiting))) ∧
  (∀ s : State, s.halted = false → s.vacating = false → exec .stageOnlyZeroed s = .next (s.wr Reg.STM_STAGE_ONLY_ZEROING 0)) ∧
  (∀ (h : Fin 18) (i : Fin 16) (s : State), s.halted = false → h.val = 16 → s.lendOk i.val = true →
    let b := s.rd (Reg.STM_LEND_BORROWER i.val)
    (s.liveMember b = true → exec (.lend h i) s =
      .next ((({ s with store := { s.store with lendWait := s.store.lendWait ++ [i.val] } }).wr Reg.STM_LOFT_CMD_RESULT 0).fabMsg
        0x0F b 0 [(1, 1), (i.val, 1), (s.rd (Reg.STM_LEND_LOG2 i.val), 1)])) ∧
    (s.liveMember b = false → exec (.lend h i) s = .next (s.wr Reg.STM_LOFT_CMD_RESULT 2))) ∧
  (∀ (h : Fin 18) (i : Fin 16) (c : BitVec 48) (s : State), s.halted = false → h.val = 16 →
    (s.rd (Reg.STM_LEND_STATE i.val) = 1 ∨ s.rd (Reg.STM_LEND_STATE i.val) = 2) → s.cueNow + 50 ≤ c.toNat →
    exec (.notice h i c) s = .next ((((s.wr (Reg.STM_LEND_STATE i.val) 2).wr (Reg.STM_LEND1_END_CUE i.val) c.toNat).wr
      Reg.STM_LOFT_CMD_RESULT 1).fabMsg 0x0F (s.rd (Reg.STM_LEND_BORROWER i.val)) 0
        [(3, 1), (s.rd (Reg.STM_LEND_WINDOW i.val), 1), (c.toNat, 6)])) ∧
  (∀ (h : Fin 18) (w : Fin 16) (s : State), s.halted = false → h.val = 16 →
    (s.rd (Reg.STM_BORROW_STATE w.val) = 1 ∨ s.rd (Reg.STM_BORROW_STATE w.val) = 2) → (s.store.borrowEnd.find? w.val).isNone = true →
    exec (.release h w) s = .next ((({ s with store := { s.store with borrowEnd := s.store.borrowEnd.insert w.val s.cueNow } }).wr
      Reg.STM_LOFT_CMD_RESULT 1).fabMsg 0x0F (s.rd (Reg.STM_BORROW_LENDER w.val)) 0 [(4, 1), (s.store.borrowEntry.getD w.val 0, 1)])) ∧
  (∀ (src : Fin 64) (s : State), s.deaf 16 = false →
    (∀ i log2 w, (List.range 16).find? (fun w => s.rd (Reg.STM_BORROW_STATE w) == 0 && !s.store.borrowNext.contains w) = some w →
      let a := (s.wr (Reg.STM_BORROW_LENDER w) src.val).wr (Reg.STM_BORROW_LOG2 w) log2.toNat
      exec (.loanMsg src (.offer i log2)) s = .next (({ a with store := { s.store with
        borrowNext := s.store.borrowNext ++ [w], borrowEntry := s.store.borrowEntry.insert w i.val } }).fabMsg
          0x0F src.val 0 [(2, 1), (i.val, 1), (w, 1)])) ∧
    (∀ i w, s.store.lendWait.contains i.val = true → s.rd (Reg.STM_LEND_BORROWER i.val) = src.val →
      exec (.loanMsg src (.reply i (some w))) s = .next ((({ s with store := { s.store with
        lendWait := s.store.lendWait.erase i.val, lendNext := s.store.lendNext ++ [i.val] } }).wr (Reg.STM_LEND_WINDOW i.val) w.val).wr
          Reg.STM_LOFT_CMD_RESULT 1)) ∧
    (∀ w c, (s.rd (Reg.STM_BORROW_STATE w.val) = 1 ∨ s.rd (Reg.STM_BORROW_STATE w.val) = 2) → s.rd (Reg.STM_BORROW_LENDER w.val) = src.val →
      exec (.loanMsg src (.notice w c)) s =
        .next (((s.wr (Reg.STM_BORROW_STATE w.val) 2).wr (Reg.STM_BORROW1_END_CUE w.val) c.toNat).raise 59)) ∧
    (∀ i, (s.rd (Reg.STM_LEND_STATE i.val) = 1 ∨ s.rd (Reg.STM_LEND_STATE i.val) = 2) → s.rd (Reg.STM_LEND_BORROWER i.val) = src.val →
      (s.store.lendEnd.find? i.val).isNone = true →
      exec (.loanMsg src (.release i)) s = .next { s with store := { s.store with lendEnd := s.store.lendEnd.insert i.val s.cueNow } })) ∧
  (∀ (i : Fin 16) (s : State), s.halted = false → s.phase = 0 →
    (s.rd (Reg.STM_LEND_STATE i.val) = 2 → s.rd (Reg.STM_LEND1_END_CUE i.val) ≤ s.cueNow →
      exec (.loanEnd true i) s = .next (s.endLend i.val)) ∧
    (∀ c, s.store.lendEnd.find? i.val = some c → c < s.cueNow → exec (.loanEnd true i) s = .next (s.endLend i.val)) ∧
    (s.rd (Reg.STM_BORROW_STATE i.val) = 2 → s.rd (Reg.STM_BORROW1_END_CUE i.val) ≤ s.cueNow →
      exec (.loanEnd false i) s = .next (s.endBorrow i.val)) ∧
    (∀ c, s.store.borrowEnd.find? i.val = some c → c < s.cueNow → exec (.loanEnd false i) s = .next (s.endBorrow i.val))) ∧
  (∀ (i : Fin 16) (s : State), s.halted = false → s.rd (Reg.STM_LEND_STATE i.val) = 3 → s.rd Reg.STM_MIG_RATE ≠ 0 → exec (.loanZeroingDone i) s =
    .next (((s.wr (Reg.STM_LEND_STATE i.val) 0).wr (Reg.STM_LEND_WINDOW i.val) 0).wr (Reg.STM_LEND1_END_CUE i.val) 0)) ∧
  (∀ (ch : Fin 32) (half : Fin 3) (done : Lane) (s : State), s.halted = false → s.store.fails.getD ch.val 0 = 0 → s.chState ch.val ≠ 4 →
    s.failedBeside ch.val = [] →
    let rows := if s.rd Reg.STM_WINGS_POP = 2 ∧ half.val ≠ 0 then half.val else 3
    let hit := fun (c : Nat) => s.inOwn (8 * c) && wingsChannel (8 * c) == ch.val && rows &&& s.rowMask (wingsStripe (8 * c)) != 0 &&
      (s.store.units.getD (8 * c / 65536) {}).frame.isNone
    exec (.channelFailed ch half done) s = .next ((({ s with store := { s.store with
      fails := s.store.fails.setD ch.val 0 rows, flips := s.store.flips.filter (fun c _ => !hit c) } }).raise 56).startRebuild ch.val)) ∧
  (∀ (ch : Fin 32) (s : State), s.halted = false → s.rd Reg.STM_WINGS_SHARE ≠ 0 → s.rd Reg.STM_REBUILD_CHANNEL = ch.val →
    (s.chState ch.val = 2 →
      let a := s.wr (chField ch.val) 3
      exec (.rebuildComplete ch) s = .next ((((a.setRebuild ch.val { did := [(a.firstFailed ch.val, a.endFailed ch.val)] }).wr
        Reg.STM_REBUILD_ACTIVE 0).wr Reg.STM_REBUILD_REMAIN 0).raise 57)) ∧
    (s.chState ch.val = 4 → exec (.copybackComplete ch) s =
      .next ((({ s.wr (chField ch.val) 0 with store := { s.store with
        fails := s.store.fails.erase ch.val, rebuilds := s.store.rebuilds.erase ch.val } }).wr Reg.STM_REBUILD_ACTIVE 0).wr
          Reg.STM_REBUILD_REMAIN 0))) ∧
  (∀ (src : Fin 64) (id : BitVec 16) (u : BitVec 29) (step : Lane) (s : State), s.deaf 16 = false → s.answered src.val id.toNat = none →
    (∀ i x m, s.mirroredUnits.contains u.toNat = true → exec (.mirrorWr src id u step (.line i x m)) s =
      .next ((s.mirrorPut u.toNat step.toNat (64 * i.val) (bytesOf x) (marksFrom (8 * i.val) 8 m.toNat)).respond src.val id.toNat {} true)) ∧
    (∀ i x m, s.mirroredUnits.contains u.toNat = false → exec (.mirrorWr src id u step (.line i x m)) s =
      .next (s.send { name := "MIRROR_REFUSED", dest := src.val, args := [id.toNat] })) ∧
    (∀ bs m, (s.mirroredUnits.contains u.toNat = true ∨ 2 * (s.mirroredUnits.length + 1) ≤ s.rd Reg.STM_MIRROR_RESERVE_UNITS) →
      exec (.mirrorWr src id u step (.whole bs m)) s =
        .next ((s.mirrorPut u.toNat step.toNat 0 (bs.take 65536) (marksFrom 0 8192 m.toNat)).respond src.val id.toNat {} true))) ∧
  (∀ (off : BitVec 53) (cw : Fin 8) (bits : Fin 4) (s : State), s.halted = false → s.inOwn (off.toNat / 64 * 64) = true →
    let c := off.toNat / 64 * 64 / 8 + cw.val
    exec (.scrub (.store off) cw bits) s = .next ((cwsOf (off.toNat / 64 * 64) 64).foldl (fun (r : State) c => r.cwError c (r.cwBits c))
      { s with store := { s.store with flips := s.store.flips.setD c 0 (min 3 (s.store.flips.getD c 0 + bits.val)) } })) ∧
  (∀ (cw : Fin 8) (bits : Fin 4) (s : State), s.halted = false →
    (∀ addr, addr.toNat / 8 < 49152 * 6400 → exec (.scrub (.sram addr) cw bits) s = .next { s with trp := { s.trp with
      flips := s.trp.flips.setD (addr.toNat / 8) 0 (min 3 (s.trp.flips.getD (addr.toNat / 8) 0 + bits.val)) } }) ∧
    (bits.val = 3 → ∀ f, exec (.scrub (.book f) cw bits) s =
      .next (({ s with book := { s.book with lateFrame := s.book.lateFrame.insert f.val true } }).noteUE false)) ∧
    (bits.val = 3 → ∀ line, (s.dirAt line.toNat).st ≠ 0 → (s.noteUE false).coh.bad.contains line.toNat = false →
      exec (.scrub (.dir line) cw bits) s =
        .next { s.noteUE false with coh := { (s.noteUE false).coh with bad := line.toNat :: (s.noteUE false).coh.bad } })) ∧
  (∀ s : State, s.halted = false → exec .errorWindowStart s =
    .next (if s.cueNow % 65536 = 0 then { s with store := { s.store with chUE := [], chCE := [] } } else s))

/-! ### Coherence -/

/-- R343, R355, R356, R357: a request at a home is served at once where its line is stable and nothing waits, and waits its turn otherwise; data from
the tier finishes the request; and what a finished request grants and sends.
Where the spec leaves the point open, the result is the model's choice: log entries 34, 35 and 36. -/
def Obligations.HomeRequestResults : Prop :=
  (∀ (line : BitVec 54) (s t : State), s.halted = false →
    let l := line.toNat
    let served (c : Instr) (q : CReq) : Prop :=
      ((t.dirAt l).st < 4 → (t.dirAt l).queue = [] → exec c s = .next ((t.serve l q).homeDone l)) ∧
      (4 ≤ (t.dirAt l).st → exec c s = .next (t.setDir l { t.dirAt l with queue := (t.dirAt l).queue ++ [q] }))
    (∀ (a : Fin 25) (p : Fin 17) (m : CMsg),
      (s.takeMsg { code := 1, src := a.val, dst := homeNode l, line := l, part := p.val } = some (t, m) →
        served (.rdS a line p) { kind := 1, r := a.val, part := m.part }) ∧
      (s.takeMsg { code := 2, src := a.val, dst := homeNode l, line := l, part := p.val } = some (t, m) →
        served (.rdX a line p) { kind := 2, r := a.val, part := m.part }) ∧
      (s.takeMsg { code := 3, src := a.val, dst := homeNode l, line := l, part := p.val } = some (t, m) →
        served (.upg a line p) { kind := 3, r := a.val, part := m.part })) ∧
    (t = s →
      (∀ (r : Fin 5) (p : Fin 17), served (.rdOnce r line p) { kind := 4, r := 33 + r.val, part := p.val } ∧
        (∀ x m, served (.wrLine r line p x m) { kind := 5, r := 33 + r.val, part := p.val, data := x, marks := m.toNat }) ∧
        (∀ m x, served (.wrPart r line p m x) { kind := 6, r := 33 + r.val, part := p.val, data := x, mask := m.toNat })) ∧
      (∀ (r : Fin 38) (p : Fin 17) (off : Fin 64) (op : Fin 9) (w8 : Bool) (ta rm : Fin 4) (srw : Lane) (opnd cmp : BitVec 128),
        let w := if op.val = 8 then 16 else if w8 = true then 8 else 4
        (r.val < 25 ∨ (33 ≤ r.val ∧ r.val < 37) ∨ (r.val = 37 ∧ atomRemoteOk op.val ta.val = true)) → off.val % w = 0 →
        served (.cohAtomic r line p off op w8 ta rm srw opnd cmp)
          { kind := 7, r := r.val, part := p.val, op := op.val, wide := w, ta := ta.val, rm := rm.val, srw := srw.toNat,
            off := off.val, opnd := opnd.toNat, cmp := cmp.toNat }))) ∧
  (∀ (line : BitVec 54) (s r : State) (q : CReq) (st : Nat) (x : BitVec 512 × Nat), s.halted = false →
    let l := line.toNat
    let d := r.dirAt l
    (s.dirAt l).tier = true → s.tierData l = (r, some (st, x)) → d.req = some q → q.r < 25 →
    ((d.st = 8 ∨ d.st = 16) → (st = 0 ∨ q.tk = 0) →
      exec (.tierDataReturn line) s = .next ((r.finish l { d with tier := false } q x).homeDone l)) ∧
    (d.st = 9 → d.acks ≠ 0 →
      exec (.tierDataReturn line) s = .next ((r.setDir l { d with tier := false, rcd := some x }).homeDone l))) ∧
  (∀ (s : State) (l : Nat) (d : DirEnt) (q : CReq) (x : BitVec 512 × Nat),
    let sole : DirEnt := ({ d with owner := some q.r, sharers := 0, fh := none } : DirEnt).settle
    let free : DirEnt := ({ d with owner := none, sharers := 0, fh := none } : DirEnt).settle
    let told (code : Nat) (e : DirEnt) : State := (s.setDir l e).homeData code q.r l x
    sole.st = 3 ∧ sole.owner = some q.r ∧ free.st = 0 ∧
    (q.kind = 1 → d.sharers = 0 → s.finish l d q x = told 0x32 sole) ∧
    (q.kind = 1 → d.sharers ≠ 0 → s.finish l d q x =
      told 0x31 ({ d with owner := none, sharers := d.sharers ||| 2 ^ q.r, fh := some q.r } : DirEnt).settle) ∧
    (q.kind = 2 → s.finish l d q x = told 0x33 sole) ∧
    (q.kind = 3 → bitOf d.sharers q.r = true → s.finish l d q x = (s.setDir l sole).homeMsg 0x25 q.r l) ∧
    (q.kind = 3 → bitOf d.sharers q.r = false → s.finish l d q x = told 0x33 sole) ∧
    (q.kind = 4 → s.finish l d q x = (s.setDir l d.settle).answer l q 0 x) ∧
    (q.kind = 5 → s.finish l d q x =
      ((s.setDir l free).homeWrite l q.part (q.data, q.marks) q.window q.quiet).answer l q 0 (0, 0)) ∧
    (q.kind = 6 → s.finish l d q x = ((s.setDir l free).homeWrite l q.part
      ((mergeLine x q.data q.mask).1, (mergeLine x q.data q.mask).2 ||| q.marks) q.window q.quiet).answer l q 0 (0, 0)))

/-- R332, R335, R343, R347, R350, R352, R353, R354, R359: what the forwarded requests, acknowledgements, data and grants of the protocol do at an
agent and at the home, and what an agent's own loads, stores and replacements ask for. A message no rule expects in its state is a protocol error.
Where the spec leaves the point open, the result is the model's choice: log entries 14, 32 and 33. -/
def Obligations.CoherentAgentResults : Prop :=
  (∀ (a : Fin 25) (line : BitVec 54) (r : Fin 34) (s t : State), s.halted = false →
    let l := line.toNat
    let c := t.copyAt a.val l
    let comes (code : Nat) : Prop := ∃ m, s.takeMsg { code := code, src := homeNode l, dst := a.val, line := l, r := r.val } = some (t, m)
    let own (u : State) : State := u.agentData 0x35 a.val 33 l c
    let shared (u : State) : State := u.setCopy a.val l { c with st := 1, hold := false, parked := none }
    let gone (u : State) : State := u.setCopy a.val l {}
    (c.hold = false → c.st = 2 → comes 0x10 →
      exec (.snpShr a line r) s = .next (shared ((t.agentData 0x31 a.val r.val l c).agentMsg 0x22 a.val l))) ∧
    (c.hold = false → (c.st = 3 ∨ c.st = 4) →
      (comes 0x10 → exec (.snpShr a line r) s = .next (shared ((own (t.agentData 0x30 a.val r.val l c)).agentMsg 0x22 a.val l))) ∧
      (comes 0x11 → exec (.snpInv a line r false) s = .next (gone ((t.agentData 0x33 a.val r.val l c).agentMsg 0x21 a.val l))) ∧
      (comes 0x12 → exec (.snpInvHome a line r) s = .next (gone ((own t).agentMsg 0x21 a.val l))) ∧
      (comes 0x13 → exec (.snpOnce a line r) s =
        .next (((t.agentData 0x34 a.val r.val l c).agentMsg 0x23 a.val l).setCopy a.val l { c with parked := none })) ∧
      (comes 0x14 → exec (.snpShrHome a line r) s = .next (shared ((own t).agentMsg 0x22 a.val l)))) ∧
    (c.hold = false → (c.st = 1 ∨ c.st = 2) → comes 0x91 → exec (.snpInv a line r true) s = .next ((gone t).agentMsg 0x20 a.val l)) ∧
    (c.hold = false → c.st = 0 → comes 0x12 →
      exec (.snpInvHome a line r) s = .next ((t.setCopy a.val l { c with parked := none }).agentMsg 0x20 a.val l)) ∧
    ((c.st = 8 ∨ c.st = 9 ∨ c.hold = true) → comes 0x10 →
      exec (.snpShr a line r) s = .next (t.setCopy a.val l { c with parked := some (0x10, r.val) }))) ∧
  (∀ (a : Fin 25) (line : BitVec 54) (s t : State), s.halted = false →
    let l := line.toNat
    let u := t.sweepLine l
    let d := u.dirAt l
    let comes (code : Nat) : Prop := s.takeMsg (fromAgent code a.val l) = some (t, fromAgent code a.val l)
    u.coh.bad.contains l = false →
    (comes 0x20 →
      (∀ q, d.st = 9 → bitOf d.acks a.val = true → d.req = some q → d.acks ≠ 2 ^ a.val →
        exec (.ackI a line none) s = .next ((u.setDir l { d with acks := d.acks - 2 ^ a.val }).homeDone l)) ∧
      (∀ q, d.st = 9 → d.acks = 2 ^ a.val → d.tier = false → d.req = some q → q.kind ≠ 3 →
        exec (.ackI a line none) s = .next ((u.finish l { d with acks := 0, sharers := 0, fh := none, owner := none, rcd := none } q
          (d.rcd.getD (0, 0))).homeDone l)) ∧
      (d.st < 9 → exec (.ackI a line none) s = .next ((u.protoError l 0x20 d.st a.val 0).homeDone l))) ∧
    (∀ (c st : Byte), s.takeMsg { fromAgent 0x20 a.val l with note := some (c.toNat, st.toNat) } =
        some (t, { fromAgent 0x20 a.val l with note := some (c.toNat, st.toNat) }) →
      exec (.ackI a line (some (c, st))) s = .next ((u.protoError l c.toNat st.toNat a.val 1).homeDone l)) ∧
    (comes 0x21 →
      (∀ q, d.st = 12 → d.owner = some a.val → d.req = some q → exec (.ackID a { line := line, err := none }) s =
        .next ((u.setDir l ({ d with owner := some q.r } : DirEnt).settle).homeDone l)) ∧
      (d.st < 12 → exec (.ackID a { line := line, err := none }) s = .next ((u.protoError l 0x21 d.st a.val 0).homeDone l))) ∧
    (comes 0x22 →
      (∀ q, d.st = 10 → d.fh = some a.val → d.req = some q → exec (.ackSD a { line := line, err := none }) s =
        .next ((u.setDir l ({ d with sharers := d.sharers ||| 2 ^ q.r, fh := some q.r } : DirEnt).settle).homeDone l)) ∧
      (d.st < 10 → exec (.ackSD a { line := line, err := none }) s = .next ((u.protoError l 0x22 d.st a.val 0).homeDone l))) ∧
    (comes 0x23 →
      (d.st = 14 → d.owner = some a.val → exec (.ackKeep a { line := line, err := none }) s =
        .next (((u.setDir l { d with acked := true }).onceDone l).homeDone l)) ∧
      (d.st ≠ 14 → exec (.ackKeep a { line := line, err := none }) s = .next ((u.protoError l 0x23 d.st a.val 0).homeDone l))) ∧
    (comes 0x24 → (d.st = 1 ∨ d.st = 2 ∨ d.st = 3) → d.lists a.val = true → exec (.evict a { line := line, err := none }) s =
      .next (((u.homeMsg 0x25 a.val l).setDir l (d.without a.val).settle).homeDone l)) ∧
    (∀ (x : BitVec 512) (m : Byte), s.takeMsg { fromAgent 0x36 a.val l with data := x, marks := m.toNat } =
        some (t, { fromAgent 0x36 a.val l with data := x, marks := m.toNat }) →
      (d.st = 3 → d.owner = some a.val → exec (.wbData a line x m) s =
        .next ((((u.tierWrite l 16 (x, m.toNat)).homeMsg 0x25 a.val l).setDir l (d.without a.val).settle).homeDone l)) ∧
      (d.st < 3 → exec (.wbData a line x m) s = .next ((u.protoError l 0x36 d.st a.val 0).homeDone l))) ∧
    (∀ (x : BitVec 512) (m : Byte), s.takeMsg { fromAgent 0x35 a.val l with data := x, marks := m.toNat } =
        some (t, { fromAgent 0x35 a.val l with data := x, marks := m.toNat }) →
      ((d.st = 11 ∨ d.st = 13) → d.owner = some a.val → exec (.dataHome a line x m) s =
        .next (((u.setDir l { d with rcd := some (x, m.toNat) }).ownerDone l).homeDone l)) ∧
      (d.st < 11 → exec (.dataHome a line x m) s = .next ((u.protoError l 0x35 d.st a.val 0).homeDone l)))) ∧
  (∀ (a : Fin 25) (line : BitVec 54) (x : BitVec 512) (m : Byte) (s t : State), s.halted = false →
    let l := line.toNat
    let c := t.copyAt a.val l
    let comes (code : Nat) (y : BitVec 512) (n : Nat) : Prop :=
      ∃ k, s.takeMsg { code := code, src := anySrc, dst := a.val, line := l, data := y, marks := n } = some (t, k)
    let put (st : Nat) (hold : Bool) : State := t.setCopy a.val l { c with st := st, data := x, marks := m.toNat, hold := hold }
    (comes 0x25 0 0 →
      (c.st = 10 → exec (.gnt a line) s = .next ((((t.setCopy a.val l { c with st := 4, hold := true, fromF := false }).storeDone a.val l
        ).retryLater a.val l).rowServed a.val)) ∧
      (c.st = 11 → exec (.gnt a line) s =
        .next (((t.setCopy a.val l { later := c.later, part := c.part }).retryLater a.val l).rowServed a.val))) ∧
    (comes 0x30 x m.toNat → c.st = 8 →
      exec (.dataS a line x m) s = .next ((((put 1 false).retryLater a.val l).unpark a.val l).rowServed a.val)) ∧
    (comes 0x31 x m.toNat → c.st = 8 →
      exec (.dataF a line x m) s = .next ((((put 2 false).retryLater a.val l).unpark a.val l).rowServed a.val)) ∧
    (comes 0x32 x m.toNat → c.st = 8 →
      exec (.dataE a line x m) s = .next ((((put 3 true).retryLater a.val l).unpark a.val l).rowServed a.val)) ∧
    (comes 0x30 x m.toNat → c.st ≠ 8 → exec (.dataS a line x m) s = .next ((t.agentError a.val l 0x30 false).rowServed a.val)) ∧
    (comes 0x33 x m.toNat → c.st = 9 →
      exec (.dataM a line x m) s = .next ((((put 4 true).storeDone a.val l).retryLater a.val l).rowServed a.val)) ∧
    (comes 0x33 x m.toNat → c.st ≠ 9 → exec (.dataM a line x m) s = .next ((t.agentError a.val l 0x33 false).rowServed a.val))) ∧
  (∀ (a : Fin 25) (line : BitVec 54) (s t : State), s.halted = false →
    let l := line.toNat
    let c := s.copyAt a.val l
    (c.st = 0 → s.cacheRoom a.val l = (t, true) →
      let r := (t.setCopy a.val l { c with st := 8, part := 16 }).agentReq 1 a.val l 16
      exec (.agentLoad a line) s = .next ((r.setCopy a.val l
        { r.copyAt a.val l with later := (r.copyAt a.val l).later ++ [(0, none)] }).countHit a.val false) ∧
      ∀ (mask : Word) (x : BitVec 512), exec (.agentStore a line mask x) s = .next (((t.setCopy a.val l
        { c with st := 9, store := some { mask := mask.toNat, data := x }, part := 16 }).agentReq 2 a.val l 16).countHit a.val false)) ∧
    ((1 ≤ c.st ∧ c.st ≤ 4) → exec (.agentLoad a line) s = .next ((s.touchCopy a.val l).countHit a.val true)) ∧
    ((c.st = 1 ∨ c.st = 2) → ∀ (mask : Word) (x : BitVec 512), exec (.agentStore a line mask x) s = .next (((s.setCopy a.val l
      { c with st := 10, fromF := c.st == 2, store := some { mask := mask.toNat, data := x }, part := 16 }).agentReq 3 a.val l 16
      ).countHit a.val true)) ∧
    ((c.st = 3 ∨ c.st = 4) → ∀ (mask : Word) (x : BitVec 512), exec (.agentStore a line mask x) s =
      .next ((s.storeHit a.val l { mask := mask.toNat, data := x }).countHit a.val true) ∧
      (c.put { mask := mask.toNat, data := x }).data = (mergeLine (c.data, c.marks) x mask.toNat).1 ∧
      (c.put { mask := mask.toNat, data := x }).marks = c.marks) ∧
    ((c.st = 1 ∨ c.st = 2 ∨ c.st = 3) → exec (.agentReplacement a line) s =
      .next (((s.setCopy a.val l { st := 11, parked := c.parked }).agentMsg 0x24 a.val l).unpark a.val l)) ∧
    (c.st = 4 → exec (.agentReplacement a line) s =
      .next (((s.setCopy a.val l { st := 11, parked := c.parked }).agentData 0x36 a.val 33 l c).unpark a.val l)) ∧
    (c.hold = true → exec (.holdEnd a line) s = .next ((s.setCopy a.val l { c with hold := false }).unpark a.val l))) ∧
  (∀ (r : Fin 38) (line : BitVec 54) (x : BitVec 512) (m : Byte) (s t : State) (k : CMsg), s.halted = false → r.val ≠ 33 →
    s.takeMsg { code := 0x34, src := anySrc, dst := r.val, line := line.toNat, data := x, marks := m.toNat } = some (t, k) →
    exec (.dataOnce r line x m) s =
      .next { t with coh := { t.coh with buf := t.coh.buf.insert r.val (line.toNat, x, if m = 0 then 0 else 0x20) } }) ∧
  (∀ (r : Fin 38) (line : BitVec 54) (old : BitVec 128) (st : Byte) (s t : State) (k : CMsg), s.halted = false →
    s.takeMsg { code := 0x37, src := anySrc, dst := r.val, line := line.toNat, data := old.setWidth 512, marks := st.toNat } = some (t, k) →
    exec (.dataAtom r line old st) s =
      .next { t with coh := { t.coh with buf := t.coh.buf.insert r.val (line.toNat, old.setWidth 512, st.toNat) } })

/-- R318, R320, R336, R338, R339, R340, R341, R361, R362, R487, R491: an edge agent's reads and writes reach the line its window maps, are poisoned or
dropped where it maps none, and an agent that is lost gives up the lines it held; only software re-arms it.
Where the spec leaves the point open, the result is the model's choice: log entries 37 and 40. -/
def Obligations.EdgeAgentResults : Prop :=
  (∀ (g : Fin 8) (hpa : Word) (mv : Fin 3) (s t : State), s.halted = false → s.edgeState g.val = 1 →
    (∀ l p, s.window g.val hpa.toNat false = (t, .line l p) → (t.dirAt l).st < 4 → (t.dirAt l).queue = [] →
      let q : CReq := { kind := 0x41 + mv.val, r := 25 + g.val, part := p, mv := mv.val }
      exec (.memrd g hpa mv) s = .next ((t.serve l q).homeDone l) ∧ exec (.meminv g hpa mv) s = .next ((t.serve l q).homeDone l)) ∧
    (∀ e, s.window g.val hpa.toNat false = (t, .err e) →
      exec (.memrd g hpa mv) s = .next ((t.winErr e).poisonRead g.val hpa.toNat) ∧
      exec (.meminv g hpa mv) s = .next ((t.winErr e).poisonRead g.val hpa.toNat)) ∧
    (∀ l p x, s.window g.val hpa.toNat true = (t, .line l p) → (t.dirAt l).st < 4 → (t.dirAt l).queue = [] →
      exec (.memwr g hpa mv x false) s = .next ((t.serve l
        { kind := 0x45, r := 25 + g.val, part := p, data := x, mask := 2 ^ 64 - 1, mv := mv.val }).homeDone l) ∧
      ∀ mask : Word, exec (.memwrptl g hpa mv mask x false) s = .next ((t.serve l
        { kind := 0x46, r := 25 + g.val, part := p, data := x, mask := mask.toNat, mv := mv.val }).homeDone l)) ∧
    (∀ e x (mask : Word), s.window g.val hpa.toNat true = (t, .err e) →
      exec (.memwr g hpa mv x false) s = .next ((t.winErr e).send { name := "Cmp", dest := g.val, args := [hpa.toNat] }) ∧
      exec (.memwrptl g hpa mv mask x false) s = .next ((t.winErr e).send { name := "Cmp", dest := g.val, args := [hpa.toNat] })) ∧
    (∀ x (mask : Word), exec (.memwr g hpa mv x true) s = .next (s.send { name := "Cmp", dest := g.val, args := [hpa.toNat] }) ∧
      exec (.memwrptl g hpa mv mask x true) s = .next (s.send { name := "Cmp", dest := g.val, args := [hpa.toNat] }))) ∧
  (∀ (g : Fin 8) (line : BitVec 54) (s : State), s.halted = false →
    let l := line.toNat
    let u := s.sweepLine l
    let d := u.dirAt l
    (u.coh.bad.contains l = false → d.st = 4 → d.bis = 2 ^ g.val →
      let e := d.without (25 + g.val)
      exec (.birsp g line 0) s = .next ((u.setDir l ({ e with bis := 0, fh := none, bisData := 0 } : DirEnt).settle).homeDone l)) ∧
    (u.coh.bad.contains l = false → d.st ≠ 4 → ∀ k, exec (.birsp g line k) s =
      .next ((u.protoError l 0 d.st (25 + g.val) 0 (2 ^ g.val)).homeDone l)) ∧
    exec (.biconflict g line) s = .next (s.send { name := "BIConflictAck", dest := g.val, args := [l] })) ∧
  (∀ (g : Fin 8) (hpa : Word) (s : State), s.halted = false →
    exec (.otherM2sOpcode g hpa true) s =
      .next ((s.winErr Reg.XLT_WIN_ERR_MISS).send { name := "Cmp", dest := g.val, args := [hpa.toNat] }) ∧
    exec (.otherM2sOpcode g hpa false) s = .next (((s.winErr Reg.XLT_WIN_ERR_MISS).send
      { name := "MemData", dest := g.val, args := [hpa.toNat, 1], bytes := List.replicate 64 0 }).send
        { name := "Cmp", dest := g.val, args := [hpa.toNat] })) ∧
  (∀ (g : Fin 8) (s : State), s.halted = false → s.edgeState g.val = 1 →
    (s.coh.dir.any (fun e => e.2.st == 4 && bitOf e.2.bis g.val) = true →
      exec (.biTimeout g) s = .next ((s.satAdd Reg.COH_COUNTS_BI_TIMEOUTS 1).edgeLost g.val)) ∧
    (s.coh.dir.any (fun e => e.2.st == 4 && bitOf e.2.bis g.val) = false → exec (.biTimeout g) s = .next s)) ∧
  (∀ (g : Fin 8) (s : State), s.halted = false →
    let r := (s.edgeLost g.val).wr (halfOf g.val) 0
    exec (.edgeAgentLost g) s = .next { r with xlt := { r.xlt with hdm := r.xlt.hdm.filter (fun k _ => k / 4 != g.val) } } ∧
    (s.edgeState g.val = 1 → s.coh.dir.any (fun e => e.2.st == 4 && bitOf e.2.bis g.val) = false →
      s.edgeLost g.val = (s.wr (Reg.COH_AGENT_STATE (25 + g.val)) 2).raise 81)) ∧
  (∀ (g : Fin 8) (s : State), s.halted = false → s.edgeState g.val = 2 →
    let ls := (s.coh.dir.filter (fun _ (d : DirEnt) => d.lists (25 + g.val))).keys
    exec (.agentSweepComplete g) s =
      .next ((ls.foldl (fun (r : State) l => (r.sweepEntry l g.val).homeDone l) s).wr (Reg.COH_AGENT_STATE (25 + g.val)) 3)) ∧
  (∀ (h : Fin 18) (n : Fin 33) (s : State), s.halted = false → 16 ≤ h.val → 25 ≤ n.val → s.rd (Reg.COH_AGENT_STATE n.val) = 3 →
    exec (.cohAgentRearm h n) s = .next (s.wr (Reg.COH_AGENT_STATE n.val) 1)) ∧
  (∀ (g : Fin 8) (k : Fin 4) (base size : BitVec 36) (w : Fin 16) (s : State), s.halted = false →
    let put (e : Hdm) : State := { s with xlt := { s.xlt with hdm := s.xlt.hdm.insert (4 * g.val + k.val) e } }
    (w.val = 0 → exec (.hdmDecoderCommit g k base size w) s =
      .next (put { base := base.toNat * 2 ^ 28, size := size.toNat * 2 ^ 28, committed := true })) ∧
    (w.val ≠ 0 → exec (.hdmDecoderCommit g k base size w) s =
      .next (put { s.xlt.hdm.getD (4 * g.val + k.val) {} with committed := false, error := true })))

/-! ### The Efhal fabric -/

/-- R365, R366, R367, R368: a port trains, aligns and negotiates in that order, and fails where a step times out or the peer is refused; an UP port checks
each flit, keeps its order, takes its credits, acknowledges it and answers a bad one with NAK; a NAK sends every unacknowledged flit again. -/
def Obligations.FabricLinkResults : Prop :=
  (∀ (h : Fin 18) (n : Fin 18) (s : State), s.halted = false → 16 ≤ h.val →
    (s.portState n.val = 0 → exec (.efhPortEn h n true) s =
      .next ((s.wr (Reg.EFH_PORT_CTL_EN n.val) 1).wr (Reg.EFH_PORT_STAT_STATE n.val) 1)) ∧
    (s.portState n.val = 0 → exec (.efhPortEn h n false) s = .next (s.wr (Reg.EFH_PORT_CTL_EN n.val) 0)) ∧
    (s.portState n.val ≠ 0 → exec (.efhPortEn h n false) s =
      .next (((((((s.wr (Reg.EFH_PORT_CTL_EN n.val) 0).portFailed n.val).wr (Reg.EFH_PORT_STAT_STATE n.val) 0).wr
        (Reg.EFH_PORT_STAT_LANES n.val) 0).wr (Reg.EFH_PORT_STAT_LEVEL n.val) 0).wr (Reg.EFH_PORT_STAT_PEER_SEEN n.val) 0)))) ∧
  (∀ (n : Fin 18) (s : State), s.halted = false →
    let st := Reg.EFH_PORT_STAT_STATE n.val
    (s.rd st = 1 → exec (.trainComplete n) s = .next ((s.wr (Reg.EFH_PORT_STAT_LANES n.val) 15).wr st 2) ∧
      exec (.trainTimeout n) s = .next (s.wr st 5)) ∧
    (s.rd st = 2 → exec (.alignLock n) s =
        .next ((s.wr st 3).send { name := "FLIT", dest := n.val, args := [s.device, n.val],
                                  bytes := toLe 256 (flitOf 0 0xFFFF 0 2 1 {}) }) ∧
      exec (.alignTimeout n) s = .next (s.portFailed n.val)) ∧
    (∀ (level : Fin 16) (dev : Fin 64), s.rd st = 3 →
      let a := s.wr (Reg.EFH_PORT_STAT_PEER_SEEN n.val) dev.val
      (1 ≤ level.val → level.val < 4 → s.is1 (Reg.EFH_PORT_CTL_PEER_CHECK n.val) = false →
        exec (.negotiate n level dev) s = .next (a.wr (Reg.EFH_PORT_STAT_LEVEL n.val) 1)) ∧
      (1 ≤ level.val → level.val < 4 → s.is1 (Reg.EFH_PORT_CTL_PEER_CHECK n.val) = true → s.rd (Reg.EFH_PORT_CTL_PEER n.val) ≠ dev.val →
        exec (.negotiate n level dev) s = .next ((a.wr st 6).raise 88)) ∧
      ((level.val = 0 ∨ 4 ≤ level.val) → exec (.negotiate n level dev) s = .next (s.portFailed n.val))) ∧
    ((s.rd st = 3 ∨ s.rd st = 4) → exec (.fecLockLoss n) s = .next (s.portFailed n.val))) ∧
  (∀ (n : Fin 18) (f : BitVec 2048) (fec : BitVec 16) (s : State), s.halted = false → s.portState n.val = 4 →
    let a := s.satAdd (Reg.EFH_PORT_ERR_FEC_CORR n.val) fec.toNat
    let l := a.link n.val
    let x := f.toNat
    let heard (t : State) : State :=
      if bitOf x 32 = true then (t.linkAck n.val (bitsOf x 16 16)).linkNak n.val (bitsOf x 16 16) else t.linkAck n.val (bitsOf x 16 16)
    (crc64 (toLe 248 x) ≠ bitsOf x 1984 64 → exec (.flitReceive n f fec) s = .next (a.idleSend n.val 1)) ∧
    (crc64 (toLe 248 x) = bitsOf x 1984 64 →
      (bitsOf x 33 3 = 1 → bitsOf x 48 16 = 0 → exec (.flitReceive n f fec) s = .next (heard a)) ∧
      (¬ (bitsOf x 33 3 = 1 ∧ bitsOf x 48 16 = 0) →
        (bitsOf x 0 16 ≠ (l.rx + 1) % 65536 → exec (.flitReceive n f fec) s =
          .next (a.idleSend n.val (b2n (decide ((bitsOf x 0 16 + 65536 - (l.rx + 1) % 65536) % 65536 < 32768))))) ∧
        (bitsOf x 0 16 = (l.rx + 1) % 65536 →
          let b := heard (a.setLink n.val { l with rx := bitsOf x 0 16 })
          let k := 8 * n.val + bitsOf x 40 3
          let c := (if bitsOf x 48 16 = 0 ∨ bitsOf x 40 3 = 7 then b
            else { b with sw := { b.sw with credit := b.sw.credit.setD k 0 (b.sw.credit.getD k 0 + bitsOf x 48 16) } }).idleSend n.val 0
          exec (.flitReceive n f fec) s =
            .next (if bitsOf x 33 3 = 0 then [64, 704, 1344].foldl (fun (r : State) i => r.slotArrive n.val (bitsOf x i 640)) c else c))))) ∧
  (∀ (n : Fin 18) (ack : BitVec 16) (s : State), s.halted = false → s.portState n.val = 4 →
    let a := s.linkAck n.val ack.toNat
    let l := a.link n.val
    (l.unacked = [] → exec (.nak n ack) s = .next a) ∧
    (l.unacked ≠ [] → l.fails = 8 → exec (.nak n ack) s = .next ((a.portFailed n.val).raise 88)) ∧
    (l.unacked ≠ [] → l.fails ≠ 8 →
      ∃ r : State, exec (.nak n ack) s = .next r ∧ r.sent.length = a.sent.length + l.unacked.length ∧
        r.rd (Reg.EFH_PORT_ERR_REPLAY n.val) =
          (a.satAdd (Reg.EFH_PORT_ERR_REPLAY n.val) l.unacked.length).rd (Reg.EFH_PORT_ERR_REPLAY n.val)))

/-- R204, R215, R372, R373, R374, R376, R383, R392, R453: reads, writes, partial writes and atomics of other devices queue at the home of their line
where it is this device's own, are refused with a status or are passed on; a device answers each request once, delivers parcels and credits to its troupes, and serves the control space to the fabric manager alone. -/
def Obligations.FabricRequestResults : Prop :=
  (∀ (src : Fin 64) (part : Fin 16) (id : BitVec 16) (line : BitVec 54) (fwd : Bool) (s : State), s.deaf part.val = false →
    let tk := farTicket src.val id.toNat fwd
    let p := 64 * line.toNat
    s.askedFar tk = false →
    (∀ off, s.homeWay src.val part.val p false fwd = .at_ off → exec (.fabricRd src part id line fwd) s =
      .next (s.request (s.lineKey off) { kind := 4, r := 37, part := part.val, off := off % 64, tk := tk })) ∧
    (∀ c, s.homeWay src.val part.val p false fwd = .stat c → exec (.fabricRd src part id line fwd) s =
      .next ((s.countOwner c).respond src.val id.toNat { status := c, fwd := fwd } false)) ∧
    (∀ i t, s.homeWay src.val part.val p false fwd = .pass i t → exec (.fabricRd src part id line fwd) s =
      .next ((s.passedOn i).fabReq src.val part.val id.toNat 1 (pgaDev t) t 0 0 [] 0 true))) ∧
  (∀ (src : Fin 64) (part : Fin 16) (id : BitVec 16) (line : BitVec 54) (mask : Word) (x : BitVec 512) (m : Byte) (fwd : Bool) (s : State),
    let tk := farTicket src.val id.toNat fwd
    let p := 64 * line.toNat
    s.deaf part.val = false → s.answered src.val id.toNat = none → s.askedFar tk = false →
    (∀ off, s.homeWay src.val part.val p true fwd = .at_ off →
      exec (.fabricWr src part id line x m fwd) s = .next (s.request (s.lineKey off)
        { kind := 5, r := 37, part := part.val, off := off % 64, data := x, marks := m.toNat, mask := 2 ^ 64 - 1, tk := tk }) ∧
      exec (.fabricWrPart src part id line mask x fwd) s = .next (s.request (s.lineKey off)
        { kind := 6, r := 37, part := part.val, off := off % 64, data := x, mask := mask.toNat, tk := tk })) ∧
    (∀ c, s.homeWay src.val part.val p true fwd = .stat c →
      let r : State := (s.countOwner c).respond src.val id.toNat { status := c, fwd := fwd } false
      exec (.fabricWr src part id line x m fwd) s = .next r ∧ exec (.fabricWrPart src part id line mask x fwd) s = .next r) ∧
    (∀ i t, s.homeWay src.val part.val p true fwd = .pass i t →
      let u := s.passedOn i
      exec (.fabricWr src part id line x m fwd) s =
        .next (u.fabReq src.val part.val id.toNat 2 (pgaDev t) t (2 ^ 64 - 1) m.toNat [] x true) ∧
      exec (.fabricWrPart src part id line mask x fwd) s =
        .next (u.fabReq src.val part.val id.toNat 3 (pgaDev t) t mask.toNat 0 [] x true))) ∧
  (∀ (src : Fin 64) (part : Fin 16) (id : BitVec 16) (line : BitVec 54) (o : Fin 64) (op : Fin 9) (w8 : Bool) (ta : Fin 4) (opnd cmp : Word)
      (fwd : Bool) (s : State),
    let w := if w8 = true then 8 else 4
    let tk := farTicket src.val id.toNat fwd
    let p := 64 * line.toNat + o.val
    s.deaf part.val = false →
    ((atomRemoteOk op.val ta.val = false ∨ o.val % w ≠ 0) → exec (.fabricAtom src part id line o op w8 ta opnd cmp fwd) s =
      .next (s.respond src.val id.toNat { status := 0x30, fwd := fwd } false)) ∧
    (atomRemoteOk op.val ta.val = true → o.val % w = 0 → s.answered src.val id.toNat = none → s.askedFar tk = false →
      (∀ off, s.homeWay src.val part.val p true fwd = .at_ off → exec (.fabricAtom src part id line o op w8 ta opnd cmp fwd) s =
        .next (s.request (s.lineKey off) { kind := 7, r := 37, part := part.val, off := off % 64, op := op.val, wide := w, ta := ta.val,
                                           opnd := opnd.toNat, cmp := cmp.toNat, tk := tk })) ∧
      (∀ c, s.homeWay src.val part.val p true fwd = .stat c → exec (.fabricAtom src part id line o op w8 ta opnd cmp fwd) s =
        .next ((s.countOwner c).respond src.val id.toNat { status := c, fwd := fwd } false)))) ∧
  (∀ (src : Fin 64) (part : Fin 16) (id : BitVec 16) (line : BitVec 54) (x : BitVec 512) (m : Byte) (fwd : Bool) (s : State) (a : FAns),
    s.deaf part.val = false → s.answered src.val id.toNat = some a →
    exec (.fabricWr src part id line x m fwd) s = .next (s.respond src.val id.toNat a false)) ∧
  (∀ (src : Fin 64) (id : BitVec 16) (status marks : Byte) (data : BitVec 512) (fwd : Bool) (s : State) (q : FReq), s.deaf 16 = false →
    s.efh.out.find? (fun q => q.id == id.toNat && q.ans.isNone && (q.dest == src.val || fwd)) = some q → q.own < 2 ^ 31 →
    exec (.fabricRsp src id status marks data fwd) s = .next { s with efh := { s.efh with out := s.efh.out.map (fun r =>
      if r = q then { r with ans := some { status := status.toNat, data := data, marks := marks.toNat, fwd := fwd } } else r) } }) ∧
  (∀ (p : BitVec 640) (s : State) (t : Nat),
    let q := (parcelOf p.toNat).1
    (parcelOf p.toNat).2 = true → q.op = 8 → q.wellFormed = true → s.deaf q.part = false → bitsOf q.arg 19 2 ≠ 2 →
    s.physOf (bitsOf q.arg 0 13) = some t →
    ∃ m : MParcel, exec (.fabricParcel p) s = .next ((s.inject m).ledgerAdd (fun l => { l with injected := l.injected + 1 })) ∧
      m.dst = t ∧ m.at_ = gateOf t ∧ m.route = bitsOf q.arg 13 6 ∧ m.unit = bitsOf q.arg 30 16 ∧ m.pl = .data (BitVec.ofNat 512 q.pl)) ∧
  (∀ (src : Fin 64) (t : BitVec 13) (r : Fin 64) (n : BitVec 13) (s : State), s.deaf 16 = false →
    (n.toNat ≤ 6144 → exec (.fabricCred src [(t, r, n)]) s =
      .next ((List.range n.toNat).foldl (fun s _ => s.outCredit src.val t.toNat r.val) s)) ∧
    (6144 < n.toNat → exec (.fabricCred src [(t, r, n)]) s = .next s)) ∧
  (∀ (src : Fin 64) (id : BitVec 16) (off : Fin 0x4000000) (x : Word) (s : State), s.deaf 16 = false →
    (s.rd Reg.EFH_CTL_FM_DEVICE = src.val →
      exec (.ctrlRd src id off true) s = .next ((s.touch (off.val / 8 * 8)).respond src.val id.toNat
        { data := BitVec.ofNat 512 (s.ctrlLoad false (off.val / 8 * 8) 8) } false) ∧
      exec (.ctrlWr src id off true x) s =
        .next ((s.ctrlStore 16 false (off.val / 8 * 8) 8 x.toNat).respond src.val id.toNat {} false)) ∧
    (s.rd Reg.EFH_CTL_FM_DEVICE ≠ src.val → ∀ w,
      exec (.ctrlRd src id off w) s = .next (s.respond src.val id.toNat { status := 0x11 } false) ∧
      exec (.ctrlWr src id off w x) s = .next (s.respond src.val id.toNat { status := 0x11 } false))) ∧
  (∀ (id : BitVec 16) (s : State) (q : FReq), s.halted = false → s.efh.out.find? (fun q => q.id == id.toNat && q.ans.isNone) = some q →
    q.own < 2 ^ 41 →
    exec (.requestResendTimeout id) s =
      .next (s.fabReq s.device q.part q.id q.kind q.dest q.pga q.mask q.marks q.op q.data q.via.isSome))

/-- R375, R377, R378, R379, R380, R382, R383, R385, R387: ownership of a region is offered, accepted, granted, queried, published and withdrawn as the region's
home and the devices that hand it over say; the region table changes by command at the next cue.
Where the spec leaves the point open, the result is the model's choice: log entries 42 and 79. -/
def Obligations.OwnershipResults : Prop :=
  (∀ (n : Fin 4096) (s : State) (o : Order), s.halted = false → s.orderAt n.val = some o → s.mayStart o = true → o.ext = [] →
    let a := s.setOrder { o with started := true }
    let r := o.by_ 8 8
    let sent (t : State) (code : Nat) (fields : List (Nat × Nat)) : State :=
      (({ t with efh := { t.efh with nextId := (t.efh.nextId + 1) % 65536 } }).setOrder { o with started := true, ext := [t.efh.nextId] }).ownMsg
        code t.device o.part t.efh.nextId r (o.by_ 16 4) fields false
    (o.op = 0x11 → bitOf a.res.lostDevices (pgaDev r) = false →
      exec (.accept n) s = .next (sent a 0x12 [])) ∧
    (o.op = 0x11 → bitOf a.res.lostDevices (pgaDev r) = true → exec (.accept n) s = .next (a.complete o 0x20 0)) ∧
    (∀ t, a.recallRange r (a.regionSpan r) = (t, true) → bitOf t.res.lostDevices (pgaDev r) = false →
      (o.op = 0x10 → exec (.offer n) s = .next (sent t 0x10 [(o.by_ 20 1 % 64, 1), (o.by_ 21 1 % 16, 1)])) ∧
      (o.op = 0x12 → exec (.publish n) s = .next (sent t 0x16 [(o.by_ 20 1, 1)])))) ∧
  (∀ (src : Fin 64) (part : Fin 16) (id : BitVec 16) (region : Word) (epoch : Lane) (rdev : Fin 64) (rpart : Fin 16) (fwd : Bool) (s : State)
      (i : Nat), s.deaf part.val = false → s.entryAt region.toNat = some i →
    s.rd (Reg.EFH_REGION0_STATE i) ≠ 2 → s.rd (Reg.EFH_REGION0_STATE i) ≠ 4 → s.ownsAt i src.val part.val epoch.toNat = true →
    s.is1 (Reg.EFH_REGION0_PUB i) = false → ¬ (rdev = src ∧ rpart = part) → s.liveMember rdev.val = true →
    let a := (((s.wr (Reg.EFH_REGION0_STATE i) 2).wr (Reg.EFH_REGION1_OFFER_DEV i) rdev.val).wr (Reg.EFH_REGION1_OFFER_PART i)
      rpart.val).wr (Reg.EFH_REGION1_OFFER_AGE i) 0
    exec (.offerMsg src part id region epoch rdev rpart fwd) s = .next (({ a with efh := { a.efh with
      hand := a.efh.hand.insert i { cue := a.cueNow, offer := id.toNat } } }).fabMsg 0x11 rdev.val rpart.val
        [(region.toNat, 8), (epoch.toNat, 4), (src.val, 1), (part.val, 1), (rpart.val, 1)])) ∧
  (∀ (src : Fin 64) (region : Word) (epoch : Lane) (fd : Fin 64) (fp tp : Fin 16) (s : State) (j : Nat), s.deaf 16 = false →
    (List.range 64).find? (fun j => s.rd (Reg.EFH_OFFER0_STATE j) == 0) = some j → pgaDev region.toNat = src.val →
    exec (.offerFwd src region epoch fd fp tp) s = .next (((((((s.wr (Reg.EFH_OFFER0_REGION j) (region.toNat / 2 ^ 21)).wr
      (Reg.EFH_OFFER0_STATE j) 1).wr (Reg.EFH_OFFER1_EPOCH j) epoch.toNat).wr (Reg.EFH_OFFER1_FROM_DEV j) fd.val).wr
        (Reg.EFH_OFFER1_FROM_PART j) fp.val).wr (Reg.EFH_OFFER1_TO_PART j) tp.val).raise 89)) ∧
  (∀ (src : Fin 64) (part : Fin 16) (id : BitVec 16) (region : Word) (epoch : Lane) (s : State), s.deaf part.val = false →
    (∀ i, s.entryAt region.toNat = some i → s.rd (Reg.EFH_REGION0_STATE i) = 2 → s.rd (Reg.EFH_REGION1_OFFER_DEV i) = src.val →
      s.rd (Reg.EFH_REGION1_OFFER_PART i) = part.val → s.rd (Reg.EFH_REGION1_EPOCH i) = epoch.toNat →
      let h := s.efh.hand.getD i {}
      exec (.acceptMsg src part id region epoch) s =
        .next { s with efh := { s.efh with hand := s.efh.hand.insert i { h with accepts := h.accepts ++ [id.toNat] } } }) ∧
    (s.entryAt region.toNat = none → exec (.acceptMsg src part id region epoch) s =
      .next ((s.satAdd Reg.EFH_COUNTS_NOT_OWNER 1).grant src.val 1 part.val id.toNat region.toNat 0x21 0))) ∧
  (∀ (src : Fin 64) (kind : Fin 4) (part : Fin 16) (id : BitVec 16) (region : Word) (status : Byte) (epoch : Lane) (s : State),
    s.deaf 16 = false →
    (∀ o, kind.val ≠ 3 → s.ord.list.find? (fun o => o.op == 0x10 + kind.val && o.part == part.val && o.ext == [id.toNat]) = some o →
      exec (.grant src kind part id region status epoch) s = .next (s.complete o status.toNat epoch.toNat)) ∧
    (∀ j, kind.val = 3 → s.logEntry region.toNat ((epoch.toNat + 2 ^ 32 - 1) % 2 ^ 32) = some j → s.rd (Reg.EFH_OFFER0_STATE j) = 1 →
      pgaDev region.toNat = src.val →
      exec (.grant src kind part id region status epoch) s =
        .next { s.wr (Reg.EFH_OFFER0_STATE j) (if status = 0 then 2 else 3) with efh := { s.efh with
          logCue := s.efh.logCue.insert j s.cueNow } })) ∧
  (∀ (i : Fin 4096) (s : State), s.halted = false → s.rd (Reg.EFH_REGION0_STATE i.val) = 2 → s.phase = 0 →
    (s.efh.hand.getD i.val {}).cue + 4 ≤ s.cueNow → (s.efh.hand.getD i.val {}).reply = none →
    let m : List (Nat × Nat) := [(s.regionBase i.val, 8), (s.rd (Reg.EFH_REGION1_EPOCH i.val), 4)]
    exec (.offerQuery i) s =
      .next ((s.fabMsg 0x14 (s.rd (Reg.EFH_REGION1_OWNER_DEV i.val)) 0 m).fabMsg 0x14 (s.rd (Reg.EFH_REGION1_OFFER_DEV i.val)) 0 m)) ∧
  (∀ (src : Fin 64) (region : Word) (epoch : Lane) (s : State), s.deaf 16 = false →
    exec (.query src region epoch) s = .next (s.fabMsg 0x15 src.val 0
      [(region.toNat, 8), (epoch.toNat, 4), (b2n (s.logEntry region.toNat epoch.toNat).isSome, 1)]) ∧
    (∀ i (b : Bool), s.entryAt region.toNat = some i → s.rd (Reg.EFH_REGION0_STATE i) = 2 → s.rd (Reg.EFH_REGION1_OFFER_DEV i) = src.val →
      s.rd (Reg.EFH_REGION1_EPOCH i) = epoch.toNat →
      exec (.queryReply src region epoch b) s =
        .next { s with efh := { s.efh with hand := s.efh.hand.insert i { s.efh.hand.getD i {} with reply := some b } } }) ∧
    (∀ (part : Fin 16) (id : BitVec 16) (fwd : Bool) i, s.deaf part.val = false → s.entryAt region.toNat = some i →
      s.rd (Reg.EFH_REGION0_STATE i) ≠ 2 → s.rd (Reg.EFH_REGION0_STATE i) ≠ 4 → s.ownsAt i src.val part.val epoch.toNat = true →
      exec (.publishMsg src part id region epoch 1 fwd) s =
        .next ((s.wr (Reg.EFH_REGION0_PUB i) 1).grant src.val 2 part.val id.toNat region.toNat 0 0) ∧
      (s.is1 (Reg.EFH_REGION0_PUB i) = false → exec (.publishMsg src part id region epoch 0 fwd) s =
        .next (s.grant src.val 2 part.val id.toNat region.toNat 0 0)) ∧
      (s.is1 (Reg.EFH_REGION0_PUB i) = true → exec (.publishMsg src part id region epoch 0 fwd) s =
        .next (s.startWithdraw i src.val part.val id.toNat)))) ∧
  (∀ (src : Fin 64) (region : Word) (log2 : BitVec 6) (s t : State), s.deaf 16 = false →
    (s.recallRange region.toNat (2 ^ log2.toNat) = (t, true) → exec (.regionInval src region log2) s =
      .next (t.fabMsg 0x18 src.val 0 [(region.toNat, 8)])) ∧
    (s.recallRange region.toNat (2 ^ log2.toNat) = (t, false) → exec (.regionInval src region log2) s = .next t) ∧
    (∀ i w, s.entryAt region.toNat = some i → s.efh.withdraw.find? i = some w → bitOf w.left src.val = true →
      exec (.invalAck src region) s =
        .next { s with efh := { s.efh with withdraw := s.efh.withdraw.insert i { w with left := w.left - 2 ^ src.val } } })) ∧
  (∀ (h : Fin 18) (e : Fin 4096) (s : State), s.halted = false → 16 ≤ h.val → s.is1 Reg.EFH_REGION_CMD_BUSY = false →
    (exec (.regionClear h e) s = .next (((s.wr Reg.EFH_REGION_CMD_ENTRY e.val).wr Reg.EFH_REGION_CMD_OP 2).wr
      Reg.EFH_REGION_CMD_BUSY 1)) ∧
    (∀ t : BitVec 39, exec (.regionForward h e t) s = .next ((((s.wr Reg.EFH_REGION_ARG0_PGA t.toNat).wr
      Reg.EFH_REGION_CMD_ENTRY e.val).wr Reg.EFH_REGION_CMD_OP 3).wr Reg.EFH_REGION_CMD_BUSY 1)) ∧
    (∀ (pga : BitVec 39) (log2 : BitVec 6) (dev : Fin 64) (part : Fin 16),
      let base := pga.toNat * 2 ^ 21
      let a := (((((s.wr Reg.EFH_REGION_ARG0_PGA pga.toNat).wr Reg.EFH_REGION_ARG0_LOG2 log2.toNat).wr Reg.EFH_REGION_ARG1_OWNER_PART
        part.val).wr Reg.EFH_REGION_ARG1_OWNER_DEV dev.val).wr Reg.EFH_REGION_CMD_ENTRY e.val).wr Reg.EFH_REGION_CMD_OP 1
      (21 ≤ log2.toNat → log2.toNat ≤ 40 → base % 2 ^ log2.toNat = 0 → pgaDev base = s.device →
        (s.rd (Reg.EFH_REGION0_STATE e.val) = 0 → pgaCtl base = false ∧ pgaOff base + 2 ^ log2.toNat ≤ 65536 * s.rd Reg.STM_SIZE_UNITS) →
        exec (.regionSet h e pga log2 dev part) s = .next (a.wr Reg.EFH_REGION_CMD_BUSY 1)) ∧
      ((log2.toNat < 21 ∨ 40 < log2.toNat ∨ base % 2 ^ log2.toNat ≠ 0 ∨ pgaDev base ≠ s.device ∨
          (s.rd (Reg.EFH_REGION0_STATE e.val) = 0 ∧ (pgaCtl base = true ∨ 65536 * s.rd Reg.STM_SIZE_UNITS < pgaOff base + 2 ^ log2.toNat))) →
        exec (.regionSet h e pga log2 dev part) s = .next ((a.wr Reg.EFH_REGION_CMD_RESULT 3).raise 94)))) ∧
  (∀ (e : Fin 4096) (s : State), s.halted = false → s.phase = 0 → s.rd (Reg.EFH_REGION0_STATE e.val) = 4 → s.efh.idle.getD e.val 0 + 8 ≤ s.cueNow →
    ∃ r : State, exec (.forwardDrained e) s = .next (r.raise 91) ∧ r.rd (Reg.EFH_REGION0_STATE e.val) = 0 ∧
      r.rd (Reg.EFH_REGION2_TARGET e.val) = 0 ∧ r.store = s.store ∧ r.efh.out = s.efh.out)

/-! ### The switch, embedding tables and search -/

/-- R393, R400, R401, R403, R405, R409: what the switch does with a parcel that arrives sealed, broken or malformed; the refill of its token
buckets; multicast copies; the merge unit; the cell-time match; and the sweep that finds lost cells.
Where the spec leaves the point open, the result is the model's choice: log entries 38 and 39. -/
def Obligations.SwitchResults : Prop :=
  (∀ (i : Fin 20) (x : BitVec 640) (s : State),
    let p := (parcelOf x.toNat).1
    s.halted = false → s.sw.copies = [] → s.sw.held = [] → (18 ≤ i.val ∨ (s.rhLink i.val p.part = false ∧ (p.op = 0x0A ∨ s.deaf p.part = false))) →
    ((parcelOf x.toNat).2 = true → p.wellFormed = false →
      exec (.switchInputArrival i x) s = .next ((s.satAdd Reg.SWX_ERR_MALFORMED 1).hopCredit i.val p.cls)) ∧
    ((parcelOf x.toNat).2 = false → p.wellFormed = false →
      exec (.switchInputArrival i x) s = .next (((s.satAdd Reg.SWX_ERR_SEAL 1).raise 99).hopCredit i.val p.cls)) ∧
    (∀ port, (parcelOf x.toNat).2 = true → p.wellFormed = true → p.mcast = false → p.op ≠ 8 → s.portFor p = some port →
      exec (.switchInputArrival i x) s = .next ((s.setSw { s.sw with arrived := s.sw.arrived + 1 }).switchJoin i.val port p true)) ∧
    (∀ n, (parcelOf x.toNat).2 = true → p.wellFormed = true → p.mcast = false → p.op = 8 → bitsOf p.arg 19 2 = 1 →
      s.redFor p.dst (bitsOf p.arg 0 13) (bitsOf p.arg 13 6) = some n → s.redMerges n = true →
      exec (.switchInputArrival i x) s =
        .next (s.setSw { s.sw with arrived := s.sw.arrived + 1, mergeQ := s.sw.mergeQ ++ [(i.val, p.num)] })) ∧
    ((parcelOf x.toNat).2 = true → p.wellFormed = true → p.mcast = true → s.rd (Reg.SWX_MCAST_MASK p.dst) % 2 ^ 20 = 0 →
      exec (.switchInputArrival i x) s = .next (((s.satAdd Reg.SWX_ERR_MCAST_EMPTY 1).setSw { s.sw with
        arrived := s.sw.arrived + 1, dropped := s.sw.dropped + 1 }).hopCredit i.val p.cls))) ∧
  (∀ s : State, s.halted = false → exec .tokenRefill s = .next (s.setSw { s.sw with tok := (List.range 160).foldl (fun m k =>
    m.setD k (0, 0) (min (s.rd (Reg.SWX_METER_CBS (k % 8))) ((m.getD k (0, 0)).1 + s.rd (Reg.SWX_METER_CIR (k % 8))),
                     min (s.rd (Reg.SWX_METER_PBS (k % 8))) ((m.getD k (0, 0)).2 + s.rd (Reg.SWX_METER_PIR (k % 8))))) s.sw.tok })) ∧
  (∀ (i : Fin 20) (s t : State) (j : CopyJob) (port : Nat) (act : Bool),
    let p := (parcelOf j.p).1
    s.halted = false → s.sw.copies.find? (fun j => j.input == i.val) = some j → j.ports = [port] → s.sharedOk p.cls = true →
    s.judgeDrop i.val port p.cls j.colour = (t, act) →
    let u := t.enqueue port { p := (if act then { p with mark := true } else p).num, input := i.val, cls := p.cls }
    exec (.multicastCopy i) s = .next (((u.setSw { u.sw with made := u.sw.made + 1, copies := u.sw.copies.erase j }).hopCredit
      i.val p.cls).releaseHeld i.val p.cls)) ∧
  (∀ s : State, s.halted = false → s.sw.mergeQ = [] → exec .tallyMerge s = .next s) ∧
  (∀ (s : State) (i raw : Nat) (rest : List (Nat × Nat)) (n : Nat) (a : Accum),
    let p := (parcelOf raw).1
    let b := a.merge p.pl (p.poison || tallyPoison (BitVec.ofNat 512 p.pl))
    let t := (s.setSw { s.sw with mergeQ := rest }).hopCredit i 5
    s.halted = false → s.sw.mergeQ = (i, raw) :: rest → bitsOf p.pl 448 32 ≠ 0 → t.redFor p.dst (bitsOf p.arg 0 13) (bitsOf p.arg 13 6) = some n →
    t.redMerges n = true →
    t.sw.acc.find? (fun a => a.red == n && a.reduce == bitsOf p.pl 416 32 && a.elem == bitsOf p.pl 384 32) = some a → a.void = false →
    let c := t.credTo p.src p.dst (bitsOf p.arg 0 13) (bitsOf p.arg 13 6) 1
    let d := c.setSw { c.sw with absorbed := c.sw.absorbed + 1 }
    b.count < d.rd (Reg.SWX_RED_DEF1_NEED n) →
    exec .tallyMerge s = .next (d.setSw { d.sw with acc := d.sw.acc.map (fun x => if x = a then b else x) })) ∧
  (∀ s : State, s.halted = false → exec .cellTimeMatch s =
    .next ((s.matchRound (s.matchRound (s.matchRound { rr := s.sw.rr, turn := s.sw.turn }))).slots.foldl
      (fun s e => s.popCell (slotPort e.1) e.2) (s.setSw { s.sw with
        rr := (s.matchRound (s.matchRound (s.matchRound { rr := s.sw.rr, turn := s.sw.turn }))).rr
        turn := (s.matchRound (s.matchRound (s.matchRound { rr := s.sw.rr, turn := s.sw.turn }))).turn }))) ∧
  (∀ (s : State) (port c n : Nat) (rest : List Nat), s.pigeon port c = n :: rest → (s.sw.cells.getD n {}).back = false →
    s.popCell port c = (s.setSw { s.sw with cells := s.sw.cells.erase n, pig := s.sw.pig.setD (8 * port + c) [] rest }).depart port c
      (s.sw.cells.getD n {}).p) ∧
  (∀ s : State, s.halted = false → s.is1 Reg.SWX_AUDIT_EN = true →
    let held := s.sw.pig.vals.flatten
    let lost := s.sw.cells.keys.filter (fun n => !held.contains n)
    (lost = [] → exec .sweepEnd s = .next s) ∧
    (lost ≠ [] →
      let a := s.setSw { s.sw with cells := s.sw.cells.filter (fun n _ => held.contains n), dropped := s.sw.dropped + lost.length }
      exec .sweepEnd s = .next (((a.satAdd Reg.SWX_AUDIT_LEAKED lost.length).raise 96).ledgerAdd
        (fun l => { l with cancelled := l.cancelled + lost.length }))))

/-- R384, R414, R417, R418, R419, R420, R421, R423, R426, R435, R437, R442, R444: embedding orders and search orders complete at once where there is
nothing to do or their partition may not use the table, take a free context otherwise, and go on; row requests are forwarded, held, answered stale or
served from the row cache; results settle their orders.
Where the spec leaves the point open, the result is the model's choice: log entries 77 and 78. -/
def Obligations.EmbeddingAndSearchResults : Prop :=
  (∀ (n k : Fin 4096) (s : State) (o : Order), s.halted = false → s.orderAt n.val = some o → s.mayStart o = true →
    let t := o.by_ 8 1
    let served (c : Instr) : Prop :=
      (o.by_ 12 4 = 0 → s.embJob o = none → exec c s = .next (s.embDone o 0)) ∧
      (o.by_ 12 4 ≠ 0 → (o.by_ 9 1 % 4 = 0 ∨ o.by_ 16 4 ≠ 0) → s.embJob o = none → s.rd (Reg.EMB_TABLE0_PARTITION t) ≠ o.part →
        exec c s = .next (s.embDone o 0x11)) ∧
      (∀ r o' j, o.by_ 12 4 ≠ 0 → s.embJob o = some j → s.curtain o.part = false → s.serving o k.val = some (r, o') →
        r.gaveUp k.val = false → r.embJob o' = some j → exec c s = .next (r.embRead o' k.val (o.by_ 12 4 + 1)))
    (o.op = 4 → served (.gather n k)) ∧ (o.op = 5 → served (.scatterAdd n k)) ∧ (o.op = 6 → served (.rowPut n k))) ∧
  (∀ (src : Fin 64) (part : Fin 16) (id : BitVec 16) (n : Lane) (table : Fin 64) (row : BitVec 40) (kind : Fin 3) (base : BitVec 10)
      (f32 : Bool) (data : List Byte) (dead : Bool) (s : State), s.deaf part.val = false →
    let look : EmbReq := { src := src.val, part := part.val, id := id.toNat, n := n.toNat, table := table.val, row := row.toNat }
    let upd : EmbReq := { look with kind := kind.val + 1, base := base.toInt, f32 := f32, data := data, dead := dead }
    let a : State := { s with emb := { s.emb with held := [look] } }
    let b : State := { s with emb := { s.emb with held := [upd] } }
    let ends (r : State) : Host.Outcome State Fault Refusal := .next { r with emb := { r.emb with held := [] } }
    let n16 := 16 * s.rd (Reg.EMB_TABLE0_ROW16 table.val)
    let bank := s.rowBankOf table.val row.toNat
    let old := s.emb.fwd.find? (fun f => f.table == table.val && f.row == row.toNat)
    let waits := s.emb.coming.any (fun c => c.2 == (table.val, row.toNat))
    let lookup := exec (.rowLookup src part id n table row) s
    let update := exec (.rowUpdate src part id n table row kind base f32 data dead) s
    s.emb.held = [] →
    (∀ f, old = some f → lookup = ends (a.rowPass look f) ∧ update = ends (b.rowPass upd f)) ∧
    (old = none → waits = true → lookup = .next a ∧ update = .next b) ∧
    (old = none → waits = false → s.rowAt table.val row.toNat = none →
      lookup = ends ((a.satAdd Reg.EMB_STAT_STALE 1).rowAnswer look 0x10 []) ∧
      update = ends ((b.satAdd Reg.EMB_STAT_STALE 1).rowAnswer upd 0x10 [])) ∧
    (∀ x, old = none → waits = false → s.rowAt table.val row.toNat = some x →
      (kind.val = 1 → update = ends (b.rowDet upd)) ∧
      (s.hubWaits x.sel = false →
        (∀ t, a.rowLines bank (s.activeSlot x) n16 false = (t, true) →
          lookup = ends ((t.rowUsed bank (s.activeSlot x) n16).rowRead look (s.activeSlot x) n16)) ∧
        (∀ t, kind.val = 0 → b.rowLines bank (s.activeSlot x) n16 true = (t, true) →
          update = ends ((t.rowUsed bank (s.activeSlot x) n16).rowAdd upd (s.activeSlot x) n16)) ∧
        (∀ t, let off := x.base + x.stride * (1 - s.selector x)
          kind.val = 2 → b.rowLines bank off n16 true = (t, true) → update = ends ((t.rowUsed bank off n16).rowPut upd off n16))))) ∧
  (∀ (table : Fin 64) (row : BitVec 40) (data : List Byte) (marks : BitVec 512) (s : State) (k : Nat) (a : RowAt), s.deaf 16 = false →
    s.emb.coming.find? (fun c => c.2 == (table.val, row.toNat)) = some (k, table.val, row.toNat) → s.rowAt table.val row.toNat = some a →
    let n := 16 * s.rd (Reg.EMB_TABLE0_ROW16 table.val)
    let off := s.activeSlot a
    let mark (l : Nat) : Nat := (List.range 8).foldl (fun m j =>
      m + b2n (decide (off ≤ 64 * l + 8 * j) && bitOf marks.toNat ((64 * l + 8 * j - off) / 8)) * 2 ^ j) 0
    let u := (linesOf off n).foldl (fun (r : State) l =>
      r.hubPart (64 * l) ((partOf off (data.take n) false l).1.1, mark l) (partOf off (data.take n) false l).2) s
    let t := u.wr (Reg.EMB_MOVE1_STATE k) 0
    t.emb.held = [] →
    exec (.hotRowLanded table row data marks) s =
      .next { t with emb := { t.emb with coming := t.emb.coming.erase (k, table.val, row.toNat), held := [] } }) ∧
  (∀ (k : Fin 1024) (s : State) (f : EmbFwd), s.halted = false → s.emb.fwd.find? (fun f => f.k == k.val) = some f → s.phase = 0 → f.idle + 8 ≤ s.cueNow →
    exec (.embForwardDrained k) s = .next (({ s with emb := { s.emb with fwd := s.emb.fwd.erase f } }.wr
      (Reg.EMB_MOVE1_STATE k.val) 0).raise 104)) ∧
  (∀ (id : BitVec 16) (n : Lane) (data : List Byte) (s : State) (j : EmbJob) (o : Order), s.deaf 16 = false →
    s.emb.jobs.find? id.toNat = some j → s.ord.list.find? (fun o => o.id == j.order) = some o → (j.out.find? n.toNat).isSome = true →
    o.op ≠ 4 → o.ctx = none →
    exec (.rowResult id n 0 data) s = .next (s.setJobE { j with out := j.out.erase n.toNat }) ∧
    exec (.rowResult id n 0x20 data) s = .next (s.setJobE { j with out := j.out.erase n.toNat, dead := true }) ∧
    exec (.rowResult id n 0x10 data) s = .next (s.setJobE { j with out := j.out.erase n.toNat, stale := true }) ∧
    exec (.rowResult id n 0x23 data) s =
      .next ((s.lostTo o.part 0x23).setJobE { j with out := j.out.erase n.toNat, lost := true })) ∧
  (∀ (n k : Fin 4096) (s : State) (o : Order), s.halted = false → s.orderAt n.val = some o → s.mayStart o = true → o.op = 7 →
    (o.by_ 12 4 = 0 → s.srchJob o = none → exec (.searchOrder n k) s = .next (s.srchDone o 0)) ∧
    (o.by_ 12 4 ≠ 0 → s.srchJob o = none → s.rd (Reg.SRC_INDEX0_PARTITION (o.by_ 8 1)) ≠ o.part →
      exec (.searchOrder n k) s = .next (s.srchDone o 0x11)) ∧
    (∀ r o' j, s.srchJob o = some j → s.curtain o.part = false → s.serving o k.val = some (r, o') → r.gaveUp k.val = false →
      r.srchJob o' = some j → exec (.searchOrder n k) s = .next (r.srchSend o' k.val (o'.by_ 12 4 + 1)))) ∧
  (∀ (src : Fin 64) (part : Fin 16) (id : BitVec 16) (q : Lane) (index shard : Fin 64) (clsR : Bool) (k : BitVec 11) (w : BitVec 13)
      (probes : BitVec 17) (req exc : Word) (code : BitVec 2048) (s : State), s.deaf part.val = false →
    let x : STask := { src := src.val, part := part.val, id := id.toNat, q := q.toNat, index := index.val, shard := shard.val, clsR := clsR,
                       k := k.toNat, w := w.toNat, probes := probes.toNat, require := req.toNat, exclude := exc.toNat, code := code.toNat }
    (s.curtain part.val = true → exec (.searchTask src part id q index shard clsR k w probes req exc code) s = .next s) ∧
    (s.curtain part.val = false → exec (.searchTask src part id q index shard clsR k w probes req exc code) s =
      .next ({ s with srch := { s.srch with queue := s.srch.queue ++ [x] } }).pumpTasks)) ∧
  (∀ (t : Fin 6400) (s : State), s.halted = false → s.phase = 1 → s.rd Reg.CUE_PERIOD_PERIOD ≤ s.ofs + 8299 → s.ofs + 6251 ≤ s.rd Reg.CUE_PERIOD_PERIOD →
    s.srch.live.getD t.val false = true → s.srch.run = [] →
    exec (.searchSpill t) s = .next { s with srch := { s.srch with live := s.srch.live.erase t.val } }) ∧
  (∀ (id : BitVec 16) (q : Lane) (shard : Fin 64) (dead : Bool) (v k : Lane) (list : List (BitVec 16 × BitVec 48 × Lane)) (s : State)
      (j : SJob) (o : Order) (x : SQuery), s.deaf 16 = false → s.srch.jobs.find? id.toNat = some j →
    s.ord.list.find? (fun o => o.id == j.order) = some o → j.qs.find? q.toNat = some x → bitOf x.left shard.val = true → o.ctx = none →
    let y := { x with
      left := x.left - 2 ^ shard.val
      res := (list.foldl (fun l e => insertBy mergeLt (e.1.toNat, e.2.1.toNat, shard.val, e.2.2.toNat) l) x.res).take (o.by_ 10 2)
      visited := x.visited + v.toNat, skipped := x.skipped + k.toNat, dead := x.dead || dead }
    exec (.shardResult id q shard dead v k list) s = .next ((s.queryEnd o j q.toNat y).1.setJobS (s.queryEnd o j q.toNat y).2))

/-! ### Resilience, port H and the edge mailboxes -/

/-- R463, R467, R473, R474, R478, R503: a postcard is recorded and clears the suspicion of its sender; silence raises one; lost quorum fences;
restores, admission and rehearsals change what their registers say.
Where the spec leaves the point open, the result is the model's choice: log entries 69, 74, 75 and 76. -/
def Obligations.ResilienceResults : Prop :=
  (∀ (src : Fin 64) (cue : BitVec 48) (ofs : BitVec 21) (fl : Byte) (coord : Fin 64) (heard sus ver rs rv : Word) (skew : BitVec 32) (s : State),
    s.halted = false →
    let c : Card := { cue := cue.toNat, ofs := ofs.toNat, stepHold := bitOf fl.toNat 0, fenced := bitOf fl.toNat 1,
                      joining := bitOf fl.toNat 2, ready := bitOf fl.toNat 3, rhAlive := bitOf fl.toNat 4, coord := coord.val,
                      heard := heard.toNat, suspect := sus.toNat, verdict := ver.toNat, rhSuspect := rs.toNat, rhVerdict := rv.toNat }
    let t := { s with res := { s.res with cards := s.res.cards.insert src.val c } }
    (bitOf s.res.lostDevices src.val = true → bitOf fl.toNat 2 = false →
      exec (.postcard src cue ofs fl coord heard sus ver rs rv skew) s = .next (s.satAdd Reg.RSL_PM_STATE_LATE 1)) ∧
    (bitOf s.res.lostDevices src.val = false → bitOf s.live src.val = false →
      exec (.postcard src cue ofs fl coord heard sus ver rs rv skew) s = .next t) ∧
    (bitOf s.res.lostDevices src.val = false → bitOf s.live src.val = true → s.rd Reg.CUE_SYNC_LEADER ≠ src.val → cue.toNat = s.cueNow →
      s.bit Reg.RSL_PM_SUSPECT_SUSPECT src.val = false →
      exec (.postcard src cue ofs fl coord heard sus ver rs rv skew) s = .next { t with res := { t.res with
        pm := { s.res.pm with heard := s.res.pm.heard ||| 2 ^ src.val, toTake := s.res.pm.toTake ||| ver.toNat }
        rh := { s.res.rh with heard := if c.rhAlive then s.res.rh.heard ||| 2 ^ src.val else s.res.rh.heard, toTake := s.res.rh.toTake ||| rv.toNat } } })) ∧
  (∀ (j : Fin 64) (s : State), s.halted = false → bitOf s.live j.val = true → s.bit Reg.RSL_PM_SUSPECT_SUSPECT j.val = false → j.val ≠ s.device →
    (8 ≤ s.res.pm.missed.getD j.val 0 → exec (.suspect j) s = .next ((s.setBit Reg.RSL_PM_SUSPECT_SUSPECT j.val).raise 114)) ∧
    (s.res.pm.missed.getD j.val 0 < 8 → exec (.suspect j) s = .next s)) ∧
  (∀ s : State, s.halted = false → s.phase = 0 → s.rd Reg.RSL_PM_MEMBERS_MEMBERS ≠ 0 → 8 ≤ s.res.pm.noQuorum → s.is1 Reg.RSL_PM_STATE_FENCED = false →
    let a := (s.wr Reg.RSL_PM_STATE_FENCED 1).raise 116
    let b := (List.range 16).foldl State.teardown ((List.range 16).foldl State.lowerCurtain a)
    exec .quorumLoss s = .next ((List.range 64).foldl State.fabricLost b)) ∧
  (∀ (h : Fin 18) (slots : List (Option (List (BitVec 512 × Byte)))) (s : State), s.halted = false → 16 ≤ h.val →
    s.is1 Reg.RSL_RESTORE_CMD_BUSY = false →
    (s.rd Reg.RSL_RESTORE_CMD_STEP = 0 → exec (.restoreGo h slots) s =
      .next (((s.wr Reg.RSL_RESTORE_CMD_BUSY 0).wr Reg.RSL_RESTORE_CMD_RESULT 2).raise 120)) ∧
    (s.rd Reg.RSL_RESTORE_CMD_STEP ≠ 0 → s.rd Reg.RSL_RESTORE_UNIT_COUNT = 0 → exec (.restoreGo h slots) s =
      .next (((s.wr Reg.RSL_RESTORE_CMD_BUSY 0).wr Reg.RSL_RESTORE_CMD_RESULT 1).raise 120)) ∧
    (∀ x, slots = [some x] → s.rd Reg.RSL_RESTORE_CMD_STEP ≠ 0 → s.rd Reg.RSL_RESTORE_UNIT_COUNT = 1 →
      s.rd Reg.RSL_RESTORE_UNIT_FIRST < s.rd Reg.STM_SIZE_UNITS → s.rd Reg.RSL_RESTORE_CMD_SOURCE ≠ s.device →
      bitOf s.res.lostDevices (s.rd Reg.RSL_RESTORE_CMD_SOURCE) = false →
      let a := ((s.wr Reg.RSL_RESTORE_CMD_BUSY 1).wr Reg.RSL_PM_STATE_READY 0).send
        { name := "RESTORE", dest := s.rd Reg.RSL_RESTORE_CMD_SOURCE, args := [s.device, s.rd Reg.RSL_RESTORE_UNIT_FIRST, 1, s.rd Reg.RSL_RESTORE_CMD_STEP] }
      exec (.restoreGo h slots) s = .next (a.restoreUnit (s.rd Reg.RSL_RESTORE_UNIT_FIRST) (x.take 1024)))) ∧
  (∀ s : State, s.halted = false → s.is1 Reg.RSL_RESTORE_CMD_BUSY = true →
    exec .restoreDone s = .next ((((s.wr Reg.RSL_RESTORE_CMD_BUSY 0).wr Reg.RSL_RESTORE_CMD_RESULT
      (if bitOf s.res.lostDevices (s.rd Reg.RSL_RESTORE_CMD_SOURCE) then 3 else 1)).raise 120).settleReady)) ∧
  (∀ (h : Fin 18) (s : State), s.halted = false → 16 ≤ h.val → s.is1 Reg.RSL_PM_STATE_JOINING = true →
    exec (.rslAdmitGo h) s = .next (s.wr Reg.RSL_ADMIT_TEST 1)) ∧
  (∀ (pass : Bool) (s : State), s.halted = false → s.rd Reg.RSL_ADMIT_TEST = 1 →
    exec (.selftestDone pass) s = .next (((s.wr Reg.RSL_ADMIT_TEST (if pass then 2 else 3)).raise 121).settleReady)) ∧
  (∀ (n : Fin 4096) (s : State) (o : Order), s.halted = false → s.orderAt n.val = some o → s.mayStart o = true → o.op = 0x22 →
    let box := boxNo o.part o.box
    (o.started = false → s.bit Reg.RSL_PM_LIVE_LIVE (o.by_ 8 1) = true → ∀ f, exec (.admitOrder n f) s = .next (s.complete o 0x30 0)) ∧
    ((o.started = true ∨ s.bit Reg.RSL_PM_LIVE_LIVE (o.by_ 8 1) = false) →
      ((s.is1 (Reg.OBX_RING_PRIV box) = false ∨ s.device ≠ s.rd Reg.EFH_CTL_FM_DEVICE) → ∀ f,
        exec (.admitOrder n f) s = .next (s.complete o 0x11 0)) ∧
      (s.is1 (Reg.OBX_RING_PRIV box) = true → s.device = s.rd Reg.EFH_CTL_FM_DEVICE →
        exec (.admitOrder n false) s = .next (s.setOrder { o with started := true }) ∧
        exec (.admitOrder n true) s = .next (s.complete o 0x3F 0)))) ∧
  (∀ s : State, s.halted = false → s.is1 Reg.RSL_RH_CTL_EN = true → s.rd Reg.RSL_RH_CTL_INTERVAL ≠ 0 → s.phase = 0 →
    s.cueNow % s.rd Reg.RSL_RH_CTL_INTERVAL = 0 → s.res.rhKind = none → s.rd Reg.RSL_RH_CTL_KINDS = 1 → s.rd Reg.RSL_RH_CTL_CUES ≠ 0 →
    s.res.rhNext < 4 →
    let t := { s with res := { s.res with rhNext := 1, rhKind := some (0, min (s.rd Reg.RSL_RH_CTL_CUES) 7) } }
    exec .rehearsalInjection s =
      .next ((((t.wrapAdd Reg.RSL_RH_STAT_INJECTED 1).wr Reg.RSL_RH_STAT_LAST_KIND 0).wr Reg.RSL_RH_STAT_ACTIVE 1).raise 118))

/-- R482, R483, R484, R486, R487, R490, R551: what port H answers to memory and configuration requests, what its resets and link events change, and
what the edge agents' mailboxes answer.
Where the spec leaves the point open, the result is the model's choice: log entries 53, 54, 55 and 56. -/
def Obligations.HostPortResults : Prop :=
  (∀ (addr : Word) (n : BitVec 12) (s : State), s.hostUp = true →
    (s.hostServes = false → exec (.memoryRead addr n) s = .next (s.send { name := "CPL", args := [0, 0] })) ∧
    (s.hostServes = true → s.barOf addr.toNat (n.toNat + 1) = none →
      exec (.memoryRead addr n) s = .next (s.send { name := "CPL", args := [0, 0] })) ∧
    (∀ o, s.hostServes = true → s.barOf addr.toNat (n.toNat + 1) = some (0, o) →
      exec (.memoryRead addr n) s = .next (((unitsOf o (n.toNat + 1)).foldl State.touch s).send
        { name := "CPL", args := [1, 0], bytes := (unitsOf o (n.toNat + 1)).flatMap (fun u => toLe 4 (s.ctrlLoad false u 4)) })) ∧
    (∀ o, s.hostServes = true → s.barOf addr.toNat (n.toNat + 1) = some (4, o) →
      exec (.memoryRead addr n) s = .next (s.send
        { name := "CPL", args := [1, 0], bytes := (unitsOf o (n.toNat + 1)).flatMap (fun u => toLe 4 (s.bar4Word u)) })) ∧
    (∀ o, s.hostServes = true → s.barOf addr.toNat (n.toNat + 1) = some (2, o) →
      exec (.memoryRead addr n) s = .next (s.bar2Read o (n.toNat + 1)))) ∧
  (∀ (addr : Word) (bs : List (Byte × Bool)) (o : Nat) (s : State), s.hostUp = true → s.hostServes = true →
    (s.barOf addr.toNat bs.length = some (0, o) → exec (.memoryWrite addr bs false) s = .next (s.bar0Put o bs)) ∧
    (s.barOf addr.toNat bs.length = some (2, o) → exec (.memoryWrite addr bs false) s = .next (s.bar2Put o bs)) ∧
    (∀ k, s.barOf addr.toNat bs.length = some (k, o) → exec (.memoryWrite addr bs true) s = .next ((s.satAdd Reg.HPT_LINK_POISON_RX 1).send { name := "AER_POISONED" })) ∧
    (s.barOf addr.toNat bs.length = none → ∀ p, exec (.memoryWrite addr bs p) s = .next (s.send { name := "CPL", args := [0, 0] }))) ∧
  (∀ s : State, s.hostUp = true →
    exec .unsupportedRequest s = .next (s.send { name := "CPL", args := [0, 0] }) ∧
    exec .flr s = .next s.clearHost ∧ exec .hotReset s = .next s.clearHost ∧
    s.clearHost.hst = { bar2Log2 := s.hst.bar2Log2, pba := s.hst.pba, perst := s.hst.perst, ide := s.hst.ide, insecure := s.hst.insecure,
                        records := s.hst.records } ∧
    exec .dlDown s = .next s.hostLinkDown ∧ exec (.perst true) s = .next (s.onHost (fun h => { h with perst := true })).hostLinkDown ∧
    exec (.perst false) s = .next (s.onHost (fun h => { h with perst := false })) ∧
    (∀ k : Fin 3, exec (.configurationRequest (.readBar k)) s = .next (s.send { name := "CFG", args := [if k.val = 0 then s.hst.bar0 else if k.val = 1 then s.hst.bar2 else s.hst.bar4] })) ∧
    (∀ m, exec (.configurationRequest (.writeCommand m)) s = .next (s.onHost (fun h => { h with mem := m }))) ∧
    (∀ d, exec (.configurationRequest (.writePower d)) s = .next (s.onHost (fun h => { h with d3 := d }))) ∧
    (∀ e m, exec (.configurationRequest (.writeMsix e m)) s = .next ((s.onHost (fun h => { h with msixEn := e, msixMask := m })).msixFlush)) ∧
    (∀ base, exec (.configurationRequest (.writeBar 0 base)) s =
      .next (s.onHost (fun h => { h with bar0 := base.toNat / 2 ^ 26 * 2 ^ 26 }))) ∧
    (∀ d x, s.hst.cfg.find? d.val = some x →
      exec (.configurationRequest (.readOther d)) s = .next (s.send { name := "CFG", args := [x.toNat] }))) ∧
  (∀ (rate width : Fin 4) (s : State), s.halted = false → s.hst.perst = false → s.is1 Reg.CLK_ROOT_REF_OK = true → rate.val ≠ 0 → width.val ≠ 0 →
    let t := (((s.wr Reg.HPT_LINK_UP 1).wr Reg.HPT_LINK_WIDTH width.val).wr Reg.HPT_LINK_RATE rate.val).wr Reg.HPT_LINK_SLOW 0
    exec (.hostLinkUp rate width) s = .next (if s.is1 Reg.HPT_LINK_UP then t else t.raise 128).msixFlush) ∧
  (∀ (port : Fin 9) (st : Fin 16) (s : State), s.halted = false →
    let k := 16 * port.val + st.val
    let t := s.onHost (fun h => { h with insecure := k :: h.insecure.erase k, ide := h.ide.erase k })
    exec (.ideFailure port st) s = .next ((if port.val = 0 then t.satAdd Reg.HPT_LINK_IDE_FAIL 1 else t).raise 129)) ∧
  (∀ (x : Fin 16) (s : State), s.hostUp = true →
    exec (.doeRequest 0 (.keyProg x)) s = .next (s.send { name := "IDE_KP_ACK", dest := 0, args := [x.val] }) ∧
    exec (.doeRequest 0 (.keyGo x)) s = .next (((s.onHost (fun h => { h with
      ide := x.val :: h.ide.erase x.val, insecure := h.insecure.erase x.val })).showIde 0).send { name := "IDE_KGOSTOP_ACK", dest := 0, args := [x.val] }) ∧
    exec (.doeRequest 0 (.keyStop x)) s = .next (((s.onHost (fun h => { h with ide := h.ide.erase x.val })).showIde 0).send
      { name := "IDE_KGOSTOP_ACK", dest := 0, args := [x.val] })) ∧
  (∀ (g : Fin 8) (s : State), s.mailboxUp g.val = true →
    let w := Config.freeValue s.free % 2 ^ 64
    let t := { s with free := s.free + 1 }
    exec (.identifyMemoryDevice g) s = .next (s.send { name := "IDENTIFY", dest := g.val, args := [s.capacity g.val, 0, 0] }) ∧
    exec (.getPartitionInfo g) s = .next (s.send { name := "PARTITION_INFO", dest := g.val, args := [s.capacity g.val, 0] }) ∧
    exec (.getHealthInfo g) s = .next (t.send { name := "HEALTH_INFO", dest := g.val, args := [w] }) ∧
    exec (.getSupportedLogs g) s = .next (t.send { name := "SUPPORTED_LOGS", dest := g.val, args := [w] }) ∧
    (∀ (u : BitVec 128) (o n : Lane), exec (.getLog g u o n) s =
      .next (t.send { name := "LOG", dest := g.val, args := [u.toNat, o.toNat, n.toNat, w] })) ∧
    (∀ log : Fin 5,
      let k := logKey g.val log.val
      let u := { s with free := s.free + 2 }
      let v := if Config.freeValue s.free % 2 = 1 then u.onHost (fun h => { h with records := h.records.insert k (h.records.getD k [] ++ [Config.freeValue (s.free + 1) % 2 ^ 64]) }) else u
      exec (.getEventRecords g log) s = .next (v.send { name := "EVENT_RECORDS", dest := g.val, args := log.val :: v.hst.records.getD k [] })) ∧
    (∀ (log : Fin 5) (n : Byte), exec (.clearEventRecords g log true n) s = .next ((s.onHost (fun h => { h with records := h.records.setD (logKey g.val log.val) [] [] })).send
      { name := "EVENTS_CLEARED", dest := g.val, args := [log.val] })) ∧
    (∀ op : BitVec 16, exec (.mailboxUnsupported g op) s = .next (s.send { name := "UNSUPPORTED", dest := g.val, args := [op.toNat] })))

/-! ### Work orders, events and cores -/

/-- R493, R495, R499, R501, R502, R505, R508: a notice takes a TAIL that is in range; a fetch reserves an Inbox slot and judges the order; orders
complete with their status, start their streams, move their lines, or work the call sheet for their partition.
Where the spec leaves the point open, the result is the model's choice: log entries 43, 45 and 80. -/
def Obligations.WorkOrderResults : Prop :=
  (∀ (p : Fin 16) (i : Fin 64) (s : State),
    let q := boxNo p.val i.val
    s.halted = false → s.is1 (Reg.OBX_TAIL_EN q) = true →
    ((s.tailLine q + 2 ^ 32 - s.rd (Reg.OBX_STATE_HEAD q)) % 2 ^ 32 ≤ 2 ^ s.rd (Reg.OBX_RING_LOG2 q) →
      exec (.outboxNotice p i) s = .next { s with ord := { s.ord with tail := s.ord.tail.setD q 0 (s.tailLine q) } }) ∧
    (2 ^ s.rd (Reg.OBX_RING_LOG2 q) < (s.tailLine q + 2 ^ 32 - s.rd (Reg.OBX_STATE_HEAD q)) % 2 ^ 32 → s.ord.badRaised = false →
      let t := s.satAdd (Reg.OBX_STATE_BAD_TAIL q) 1
      exec (.outboxNotice p i) s = .next ({ t with ord := { s.ord with badRaised := true } }.raise 130))) ∧
  (∀ (p : Fin 16) (i : Fin 64) (s : State),
    let q := boxNo p.val i.val
    let head := s.rd (Reg.OBX_STATE_HEAD q)
    let box := boxNo p.val (s.rd (Reg.OBX_RING_INBOX q))
    let line := (s.rd (Reg.OBX_RING_BASE q) * 4096 + 64 * (head % 2 ^ s.rd (Reg.OBX_RING_LOG2 q))) / 64
    s.is1 (Reg.OBX_TAIL_EN q) = true → s.ord.tail.getD q 0 ≠ head → s.ord.list.length < 4096 → s.halted = false →
    (s.reserveSlot box = none → exec (.workOrderFetch p i) s = .next (s.stall box)) ∧
    (s.reserveSlot box ≠ none → s.boxTurn q = true →
      (∀ a, s.access line { kind := 4, r := 33, part := 16, tk := 2 ^ 45 + q } = (a, none) → exec (.workOrderFetch p i) s = .next a) ∧
      (∀ a c b, s.access line { kind := 4, r := 33, part := 16, tk := 2 ^ 45 + q } = (a, some c) → a.reserveSlot box = some b →
        let r : State := { b with ord := { b.ord with last := q } }
        let x := leBytes (seenBytes (c.data, c.marks))
        let o : Order := { id := r.ord.next, part := p.val, box := i.val, inbox := s.rd (Reg.OBX_RING_INBOX q), fence := bitOf x 16,
                           op := bitsOf x 8 8, tag := bitsOf x 32 32, words := x, feed := r.cueNow + if r.phase = 2 then 2 else 1 }
        let t := r.wr (Reg.OBX_STATE_HEAD q) (head + 1)
        let u := { t with ord := { t.ord with next := t.ord.next + 1, list := t.ord.list ++ [o] } }
        exec (.workOrderFetch p i) s = .next (if u.orderBad o = 0 then u else u.complete o (u.orderBad o) 0)))) ∧
  (∀ (p : Fin 16) (j : Fin 64) (s : State),
    let q := boxNo p.val j.val
    s.halted = false → (s.rd (Reg.IBX_STATE_WRITTEN q) + 2 ^ 32 - s.headLine q) % 2 ^ 32 ≤ 2 ^ s.rd (Reg.IBX_RING_LOG2 q) →
    exec (.inboxHeadWrite p j) s = .next { s with ord := { s.ord with tail := s.ord.tail.setD (1024 + q) 0 (s.headLine q) } }) ∧
  (∀ (n k : Fin 4096) (s : State) (o : Order), s.halted = false → s.orderAt n.val = some o → s.mayStart o = true →
    (o.op = 1 → o.started = false → s.is1 (Reg.HST_STREAMS_EN o.part) = true →
      s.ord.streams.find? (4096 * o.part + o.by_ 8 2) = none →
      (o.by_ 12 4 = 0 → exec (.runPlan n) s = .next (s.complete o 0 0)) ∧
      (o.by_ 12 4 ≠ 0 → s.curtain o.part = true → exec (.runPlan n) s = .next (s.complete o 0x24 0)) ∧
      (o.by_ 12 4 ≠ 0 → s.curtain o.part = false → exec (.runPlan n) s =
        .next ((s.setOrder { o with started := true }).setStream (4096 * o.part + o.by_ 8 2)
          { order := o.id, part := o.part, input := o.by_ 16 4 }))) ∧
    (o.op = 1 → o.started = false → s.is1 (Reg.HST_STREAMS_EN o.part) = false →
      exec (.runPlan n) s = .next (s.complete o 0x30 0)) ∧
    (o.op = 2 → o.by_ 24 8 = 0 → exec (.copyOrder n k) s = .next (s.complete o 0 0)) ∧
    (o.op = 3 → o.by_ 16 8 = 0 → exec (.fillOrder n k) s = .next (s.complete o 0 0)) ∧
    (∀ r o', s.curtain o.part = false → s.serving o k.val = some (r, o') → r.gaveUp k.val = false →
      (o.op = 2 → o.by_ 24 8 ≠ 0 → exec (.copyOrder n k) s = .next (r.copyLines k.val (o'.by_ 24 8 / 64 + 1) o')) ∧
      (o.op = 3 → o.by_ 16 8 ≠ 0 → exec (.fillOrder n k) s = .next (r.fillLines k.val (o'.by_ 16 8 / 64 + 1) o'))) ∧
    (o.op = 0x20 → (∀ x ∈ s.ord.list, x.op = 0x20 → o.id ≤ x.id) →
      (o.by_ 16 4 = 0 → exec (.callSheet n k) s = .next (s.complete o 0 0)) ∧
      (∀ r o' t d c, o.by_ 16 4 ≠ 0 → o.broken = false → o.core = some c → s.coreStopped c = false → o.ext = [] → s.curtain o.part = false → (o.ctx = none ∨ ∃ c, o.ctx = some c ∧ (s.cxAt (ctxKey c)).st = .run) →
        s.serving o k.val = some (r, o') → o'.ext = [] → r.fetchBuf k.val o.part (o'.by_ 8 8) (16 * o'.by_ 16 4) = (t, .ok d) →
        exec (.callSheet n k) s = .next (t.stagePairs o' k.val))) ∧
    (o.op = 0x21 →
      let x := s.cxAt (ctxKey (o.by_ 8 2))
      let plan := s.is1 (Reg.CRR_CTX_PLAN_EN (o.by_ 8 2))
      let bound := (plan = true ∧ s.rd (Reg.CRR_CTX_PLAN_PARTITION (o.by_ 8 2)) = o.part) ∨ (plan = false ∧ x.st ≠ .pool ∧ x.part = o.part)
      (¬ bound → exec (.resumeOrder n) s = .next (s.complete o 0x11 0)) ∧
      (bound →
        let t := s.ctxAction (o.by_ 8 2) (o.by_ 10 1)
        let r := t.rd (Reg.CRR_CTX_CTL_RESULT (o.by_ 8 2))
        exec (.resumeOrder n) s = .next (t.complete o (if r = 1 then 0 else 0x30) r)))) ∧
  (∀ (s a b : State) (k fuel : Nat) (o : Order) (x : BitVec 512) (m : Nat) (y : BitVec 512) (w : Nat), o.held = none → o.lost = false →
    64 * o.done < o.by_ 24 8 → s.readVa (65536 + k) (k / 16) false (ctxKey k) o.part (o.by_ 8 8 + 64 * o.done) = (a, .line x m) →
    a.writeVa (65536 + k) (k / 16) false (ctxKey k) o.part (o.by_ 16 8 + 64 * o.done) x m (2 ^ 64 - 1) = (b, .line y w) →
    let p := { o with held := none, done := o.done + 1, dead := o.dead || m != 0 }
    s.copyLines k (fuel + 1) o = (b.setOrder p).copyLines k fuel p) ∧
  (∀ (s b : State) (k fuel : Nat) (o : Order) (y : BitVec 512) (w : Nat), 64 * o.done < o.by_ 16 8 →
    s.writeVa (65536 + k) (k / 16) false (ctxKey k) o.part (o.by_ 8 8 + 64 * o.done)
      (lineOf ((List.replicate 8 (toLe 8 (o.by_ 24 8))).flatten)) 0 (2 ^ 64 - 1) = (b, .line y w) →
    let p := { o with done := o.done + 1 }
    s.fillLines k (fuel + 1) o = (b.setOrder p).fillLines k fuel p)

/-- R514, R515, R516, R517, R522, R523, R526: edges, software raises, retractions and clears change the pending bits; a target's signal goes to a
core's handler or to an MSI-X vector; a stopped core restarts; the exception queue's read index moves over records that are there.
Where the spec leaves the point open, the result is the model's choice: log entries 47 and 48. -/
def Obligations.EventAndCoreResults : Prop :=
  (∀ (id : BitVec 11) (s : State), s.halted = false →
    exec (.eventEdge id) s =
      .next (if idAssigned id.toNat = true ∨ (1024 ≤ id.toNat ∧ id.toNat ≤ 2046) then s.raise id.toNat else s) ∧
    (s.retractable id.toNat = true → exec (.eventRetract id) s =
      .next ((s.clrBit (Reg.EVC_PENDING_BITS (id.toNat / 64)) (id.toNat % 64)).settleLatches)) ∧
    (s.retractable id.toNat = false → exec (.eventRetract id) s = .next s) ∧
    (∀ h : Fin 18, 16 ≤ h.val →
      (1024 ≤ id.toNat → id.toNat ≤ 2046 → s.pendingId id.toNat = false → exec (.evcRaiseWrite h id) s = .next (s.raise id.toNat)) ∧
      (1024 ≤ id.toNat → id.toNat ≤ 2046 → s.pendingId id.toNat = true → exec (.evcRaiseWrite h id) s = .next s) ∧
      (id.toNat ≠ 0 → (id.toNat < 1024 ∨ id.toNat = 2047) → exec (.evcRaiseWrite h id) s = .next (s.satAdd Reg.EVC_STAT_BAD_RAISE 1)))) ∧
  (∀ (h : Fin 18) (w : Fin 32) (mask : Word) (s : State), s.halted = false → 16 ≤ h.val → exec (.evcPendingClear h w mask) s =
    .next ((s.wr (Reg.EVC_PENDING_BITS w.val) (s.rd (Reg.EVC_PENDING_BITS w.val) &&& (2 ^ 64 - 1 - mask.toNat))).settleLatches)) ∧
  (∀ (t : Fin 528) (s : State), s.halted = false → s.ev.latch.getD t.val 0 ≠ 0 →
    (t.val < 16 → (s.cxAt (coreKey t.val)).st ≠ .wfe → exec (.targetSignal t true true) s =
      .next { s with ev := { s.ev with signal := s.ev.signal.insert t.val true } }) ∧
    (16 ≤ t.val → exec (.targetSignal t true true) s = .next ((s.clearLatch t.val).msixSignal (t.val - 16))) ∧
    (s.rd (Reg.EVC_MOD_GAP t.val) ≠ 0 → ∀ o, exec (.targetSignal t false o) s = .next s)) ∧
  (∀ (s : State) (v : Nat), (s.msixOpen v = true → s.msixSignal v =
      s.send { name := "MSIX", dest := v, args := [(s.hst.msix.getD v {}).addr.toNat, (s.hst.msix.getD v {}).data.toNat] }) ∧
    (s.msixOpen v = false → s.msixSignal v = { s with hst := { s.hst with pba := s.hst.pba.setD v false true } })) ∧
  (∀ (c : Fin 16) (s : State), s.halted = false → s.ev.signal.getD c.val false = true → s.ev.latch.getD c.val 0 ≠ 0 →
    ((s.cxAt (coreKey c.val)).st = .run ∨ (s.cxAt (coreKey c.val)).st = .hold ∨ (s.cxAt (coreKey c.val)).st = .idle) →
    s.is1 (Reg.EVC_CORE_IE c.val) = true → s.is1 (Reg.EVC_CORE_IN_HANDLER c.val) = false → (s.cxAt (coreKey c.val)).link.length < 16 →
    let x := s.cxAt (coreKey c.val)
    exec (.coreHandlerEntry c) s = .next (((s.setCxAt (coreKey c.val) { x with link := x.pc :: x.link, handler := [x.link.length + 1],
                                                                               pc := s.rd (Reg.EVC_CORE_HANDLER c.val), st := .run }).wr
      (Reg.EVC_CORE_IN_HANDLER c.val) 1).clearLatch c.val)) ∧
  (∀ (h : Fin 18) (c : Fin 16) (s : State) (cause : Nat), s.halted = false → 16 ≤ h.val → (s.cxAt (coreKey c.val)).st = .stopped cause →
    exec (.smCoreRestart h c) s = .next (s.restartCore c.val) ∧
    (s.restartCore c.val).cxAt (coreKey c.val) = { st := .run, len := (s.cxAt (coreKey c.val)).len, level := (s.cxAt (coreKey c.val)).level, part := (s.cxAt (coreKey c.val)).part } ∧
    (s.restartCore c.val).ev.claims = s.ev.claims.filter (fun q => q.core != c.val) ∧
    (s.restartCore c.val).rd (Reg.EVC_CORE_IN_HANDLER c.val) = 0) ∧
  (∀ s : State, s.halted = false → (∀ c < 16, s.coreUp c = false) →
    exec .stageDoorCoreRestart s = .next (((List.range 16).filter s.coreStopped).foldl State.restartCore s)) ∧
  (∀ s : State, s.halted = false → (∃ c < 16, s.coreUp c = true) → exec .stageDoorCoreRestart s = .next s) ∧
  (∀ (h : Fin 18) (x : BitVec 16) (s : State), s.halted = false → 16 ≤ h.val →
    ((x.toNat + 65536 - s.rd Reg.SMX_XQ_RD) % 65536 ≤ (s.rd Reg.SMX_XQ_WR + 65536 - s.rd Reg.SMX_XQ_RD) % 65536 →
      exec (.smxXqRdWrite h x) s = .next (s.wr Reg.SMX_XQ_RD x.toNat)) ∧
    ((s.rd Reg.SMX_XQ_WR + 65536 - s.rd Reg.SMX_XQ_RD) % 65536 < (x.toNat + 65536 - s.rd Reg.SMX_XQ_RD) % 65536 →
      exec (.smxXqRdWrite h x) s = .next s))

/-! ### Clocks, power and the boot -/

/-- R531, R532, R538, R539, R543, R544, R547, R549, R591, R593: what the clock, power and Stage Door commands change: mux switches, counters, power
states, rounds, the resets they cause.
Where the spec leaves the point open, the result is the model's choice: log entries 61, 62, 63 and 64. -/
def Obligations.ClockAndPowerResults : Prop :=
  (∀ (h : Fin 18) (r : Fin 224) (i : Fin 5) (s : State), 16 ≤ h.val → s.halted = false →
    let a := (s.wr Reg.CLK_MUX_CMD_REGION r.val).wr Reg.CLK_MUX_CMD_INPUT i.val
    (∀ b, exec (.clkMuxCmdGo h r i none b) s = .next ((a.wr Reg.CLK_MUX_CMD_RESULT 2).raise 138)) ∧
    (∀ w t, a.muxCheck r.val i.val w.toNat = (t, false) → ∀ b,
      exec (.clkMuxCmdGo h r i (some w) b) s = .next ((t.wr Reg.CLK_MUX_CMD_RESULT 2).raise 138)) ∧
    (∀ w t, a.muxCheck r.val i.val w.toNat = (t, true) →
      exec (.clkMuxCmdGo h r i (some w) false) s = .next ((t.muxTo r.val i.val).wr Reg.CLK_MUX_CMD_RESULT 1) ∧
      exec (.clkMuxCmdGo h r i (some w) true) s = .next (((t.onDoor (fun d => { d with muxCmd := some r.val })).wr
        (Reg.CLK_REG_MUX r.val) 1).wr Reg.CLK_MUX_CMD_RESULT 0))) ∧
  (∀ (r : Fin 224) (s : State), s.halted = false →
    ((s.rd (Reg.CLK_REG_POWER r.val) = 0 ∨ s.rd (Reg.CLK_REG_POWER r.val) = 1) → 160 ≤ r.val → s.door.muxCmd ≠ some r.val →
      exec (.muxHung r) s = .next ((((s.wr (Reg.CLK_REG_MUX r.val) 2).raise 136).wr (Reg.CLK_REG_POWER r.val) 3).fence)) ∧
    ((s.rd (Reg.CLK_REG_POWER r.val) = 0 ∨ s.rd (Reg.CLK_REG_POWER r.val) = 1) → r.val < 160 → s.door.muxCmd ≠ some r.val →
      exec (.muxHung r) s = .next ((troupesIn r.val).foldl
        (fun s t => (s.troupe t).units.foldl (fun s x => s.cancelUnit t x.desc.id 2) s)
        (((s.wr (Reg.CLK_REG_MUX r.val) 2).raise 136).wr (Reg.CLK_REG_POWER r.val) 3))) ∧
    (s.rd (Reg.CLK_REG_POWER r.val) = 3 →
      let z := if r.val < 160 then (troupesIn r.val).foldl State.cycleTroupe s else s
      let a := (z.wr (Reg.CLK_REG_POWER r.val) 0).wr (Reg.CLK_REG_MUX r.val) 0
      let b := (a.muxTo r.val (a.wanted r.val)).wr (Reg.CLK_REG_LIVE r.val) 1
      exec (.domainCycleComplete r) s =
        .next (((b.onDoor (fun d => { d with cycled := if r.val < 160 then r.val :: d.cycled.erase r.val else d.cycled })).satAdd
          Reg.SDR_STAT_CYCLES 1).raise 143))) ∧
  (∀ (h : Fin 18) (w : BitVec 16) (r : Fin 224) (i : Fin 6) (s : State), 16 ≤ h.val → s.halted = false → s.is1 Reg.CLK_FCNT_BUSY = false →
    let a := ((s.wr Reg.CLK_FCNT_WINDOW w.toNat).wr Reg.CLK_FCNT_REGION r.val).wr Reg.CLK_FCNT_INPUT i.val
    exec (.clkFcntGo h w r i) s = .next (if w = 0 then a.wr Reg.CLK_FCNT_COUNT 0 else a.wr Reg.CLK_FCNT_BUSY 1)) ∧
  (∀ (n : BitVec 24) (s : State), s.halted = false → s.is1 Reg.CLK_FCNT_BUSY = true →
    exec (.clkFcntDone n) s = .next ((s.wr Reg.CLK_FCNT_BUSY 0).wr Reg.CLK_FCNT_COUNT n.toNat)) ∧
  (∀ (h : Fin 18) (s : State) (c : Instr) (req : Nat), (c, req) ∈ [(Instr.pwrActive h, 0), (.pwrIdle h, 1), (.pwrDoze h, 2), (.pwrRest h, 3)] →
    16 ≤ h.val → s.door.halt = 0 → s.rd Reg.PWR_CTL_STATE ≠ 4 →
    (req = s.rd Reg.PWR_CTL_STATE → exec c s = .next ((s.wr Reg.PWR_CTL_RESULT 1).raise 142)) ∧
    (req ≠ s.rd Reg.PWR_CTL_STATE → (req = 1 ∨ req = 2) → s.placed = true → exec c s = .next (s.wr Reg.PWR_CTL_RESULT 2)) ∧
    (req ≠ s.rd Reg.PWR_CTL_STATE → (req = 0 ∨ req = 3 ∨ s.placed = false) →
      let t := if req = 0 ∧ s.rd Reg.PWR_CTL_STATE = 2 then 250000 + s.ofs else 0
      exec c s = .next (((s.onDoor (fun d => { d with req := some (req + 4 * s.rd Reg.PWR_CTL_STATE, t) })).wr Reg.PWR_CTL_STATE 4).wr
        Reg.PWR_CTL_RESULT 0))) ∧
  (∀ (ts vs : List Byte) (v a : BitVec 16) (s : State),
    let r := s.sampleRound (ts.map BitVec.toNat) (vs.map BitVec.toNat) v.toNat a.toNat
    (s.door.halt = 2 → r.door.halt = 2 → exec (.stageDoorRound ts vs v a) s = .next r) ∧
    (s.door.halt = 0 → r.door.halt = 0 → exec (.stageDoorRound ts vs v a) s =
      .next (r.roundRules (inputAlarm (s.rd Reg.SDR_INPUT_VOLT) (s.door.powers.headD 0))))) ∧
  (∀ (s : State), s.door.halt = 2 → s.door.trip = true → (∀ r < 224, (s.tempOf r).1 ≤ 159 * (s.tempOf r).2) → 4600 ≤ s.rd Reg.SDR_INPUT_VOLT →
    exec .tripRecovery s = .next (s.deviceReset true 4)) ∧
  (∀ s : State, (exec .inputOvervoltageDisconnect s = exec .undervoltageLockout s) ∧
    ∃ r : State, exec .undervoltageLockout s = .next r ∧ r.store = { modules := s.store.modules } ∧ r.trp = {} ∧ r.cour = {} ∧ r.sw = {} ∧ r.ord = {} ∧ r.coh = {} ∧
      r.book = s.book ∧ r.hst = s.hst ∧ r.door = { s.door with halt := 3, trip := false, req := none } ∧ r.phase = 3 ∧ r.ofs = 0) ∧
  (∀ s : State, s.halted = false →
    exec .refclkLoss s = .next (((s.onDoor (fun d => { d with halt := 1 })).satAdd Reg.CLK_ROOT_LOSS 1).wr Reg.CLK_ROOT_REF_OK 0)) ∧
  (∀ (v : BitVec 16) (s : State), s.door.halt = 1 → 4600 ≤ v.toNat →
    exec (.refclkReturn v) s = .next ((s.wr Reg.SDR_STAT_CAUSE 4).deviceReset true 2)) ∧
  (∀ (d : Fin 25) (s : State), s.halted = false → s.bit Reg.CLK_ROOT_LOCK d.val = true →
    exec (.pllLockLoss d) s = .next (((s.wr Reg.CLK_ROOT_LOCK (s.rd Reg.CLK_ROOT_LOCK - 2 ^ d.val)).raise 137).fence)) ∧
  (∀ s : State, s.halted = false → s.is1 Reg.CLK_ROOT_REF_OK = true → s.rd Reg.CLK_ROOT_LOCK ≠ 2 ^ 25 - 1 →
    exec .pllRelock s = .next ((s.wr Reg.SDR_STAT_CAUSE 3).deviceReset true 3))

/-- R550, R553, R558, R563, R567, R568: what a reset leaves, what the boot and the store's training set, and what the update commands do.
Where the spec leaves the point open, the result is the model's choice: log entries 49, 50, 58, 59, 60 and 87. -/
def Obligations.ResetAndBootResults : Prop :=
  (∀ s : State, ∃ r : State, exec .coldReset s = .next r ∧ r.pending = s.pending ∧ r.trp = {} ∧
    r.store = { modules := s.store.modules } ∧ r.book = {} ∧ r.cour = {} ∧
    r.sw = {} ∧ r.ord = {} ∧ r.coh = {} ∧ r.res = {} ∧ r.staged = [] ∧ r.proc = {} ∧ r.door.halt = 0 ∧ r.door.jtag = 0xFE) ∧
  (∀ (h : Fin 18) (s : State), 16 ≤ h.val → s.door.halt = 0 →
    exec (.secResetCold h) s = .next (s.deviceReset false 1) ∧ exec (.secResetWarm h) s = .next (s.deviceReset true 6) ∧
    (∀ c : Fin 8, 2 ≤ c.val → c.val ≤ 6 → exec (.warmReset c) s = .next (s.deviceReset true c.val)) ∧
    (s.deviceReset true 6).store = s.store.kept ∧ (s.deviceReset true 6).trp = {} ∧ (s.deviceReset true 6).book = {} ∧
    (s.deviceReset false 1).store = { modules := s.store.modules } ∧ (s.deviceReset false 1).pending = s.pending) ∧
  (∀ s : State, s.halted = false → s.is1 Reg.SEC_BOOT_DONE = false →
    exec (.bootDone 0) s =
      .next ((((List.range 16).foldl State.restartCore s.clocksUp.measureBoot.loadBoot).wr Reg.SEC_BOOT_DONE 1).raise 144)) ∧
  (∀ s : State, s.halted = false → s.is1 Reg.SEC_BOOT_DONE = true → s.is1 Reg.SEC_BOOT_RECOVERY = false →
    s.is1 Reg.SEC_BOOT_STORE_READY = false →
    let a := s.applyRetired.wingsUp
    let b := a.wr Reg.STM_SIZE_FRAMES (framesFor (s.applyRetired.rd Reg.STM_STAGE_ONLY_GIB))
    exec .storeReady s = .next ((((((b.wr Reg.SEC_BOOT_STORE_READY 1).wr Reg.CUE_PHASE_PHASE 0).wr Reg.CUE_PHASE_OFFSET 0).wr
      Reg.CUE_COUNT_COUNT 0).settleLeader).raise 1)) ∧
  (∀ (h : Fin 18) (kind : Fin 4) (s : State), s.halted = false → 16 ≤ h.val → s.is1 Reg.SEC_IMG_CMD_BUSY = false →
    let put (op : Nat) : State := (s.wr Reg.SEC_IMG_CMD_OP op).wr Reg.SEC_IMG_CMD_KIND kind.val
    (kind.val = 0 → exec (.imgWrite h kind) s = .next ((put 1).wr Reg.SEC_IMG_CMD_RESULT 2)) ∧
    (kind.val ≠ 0 →
      exec (.imgWrite h kind) s = .next ((put 1).imgWrite kind.val) ∧
      (s.door.trial.contains kind.val = false → exec (.imgCommit h kind) s = .next ((put 3).wr Reg.SEC_IMG_CMD_RESULT 5)) ∧
      (s.door.trial.contains kind.val = true →
        ∃ r : State, exec (.imgCommit h kind) s = .next (r.wr Reg.SEC_IMG_CMD_RESULT 1) ∧
          r.door.trial = s.door.trial.erase kind.val ∧ r.store = s.store) ∧
      (s.door.trial.contains kind.val = true → exec (.imgSvn h kind) s = .next ((put 4).wr Reg.SEC_IMG_CMD_RESULT 5)) ∧
      (s.door.trial.contains kind.val = false → exec (.imgSvn h kind) s = .next (
        let q := (put 4).svnOf kind.val ((put 4).slotOfKind kind.val)
        let t := q.2.wr Reg.SEC_IMG_CMD_RESULT 1
        if t.rd (fusedSvn kind.val) < q.1 then (t.wr (fusedSvn kind.val) q.1).raise 149 else t)) ∧
      (∀ cue : BitVec 48,
        let a := (put 2).wr Reg.SEC_IMG_CMD_CUE cue.toNat
        (s.door.arm = none → s.door.wrote.contains kind.val = true → s.cueNow + 2 ≤ cue.toNat → exec (.imgArm h kind cue) s =
          .next ((((a.onDoor (fun d => { d with arm := some { kind := kind.val, cue := cue.toNat, die := if kind.val = 3 then s.door.dieNext else 0 } })).wr
            Reg.SEC_IMG_CMD_BUSY 1).wr Reg.SEC_IMG_CMD_RESULT 0))) ∧
        (s.door.wrote.contains kind.val = false → exec (.imgArm h kind cue) s = .next (a.wr Reg.SEC_IMG_CMD_RESULT 5))))) ∧
  (∀ (h : Fin 18) (p : Fin 18) (l : BitVec 4) (s : State), s.halted = false → 16 ≤ h.val → s.is1 Reg.SEC_CAL_CMD_BUSY = false →
    let a := (s.wr Reg.SEC_CAL_CMD_PORT p.val).wr Reg.SEC_CAL_CMD_LANES l.toNat
    (l = 0 → exec (.secCalGo h p l) s = .next (a.wr Reg.SEC_CAL_CMD_RESULT 1)) ∧
    (l ≠ 0 → s.portState p.val ≠ 4 → exec (.secCalGo h p l) s = .next (a.wr Reg.SEC_CAL_CMD_RESULT 5)) ∧
    (l ≠ 0 → s.portState p.val = 4 → exec (.secCalGo h p l) s = .next ((a.wr Reg.SEC_CAL_CMD_BUSY 1).wr Reg.SEC_CAL_CMD_RESULT 0))) ∧
  (∀ s : State, s.halted = false → s.is1 Reg.SEC_CAL_CMD_BUSY = true →
    let t := { s with free := s.free + 1 }.onDoor (fun d => { d with cal := Config.freeValue s.free % 2 ^ 64 })
    exec .calDone s = .next ((((t.wr Reg.SEC_CAL_CMD_BUSY 0).wr Reg.SEC_CAL_CMD_RESULT 1).extendFree 5).raise 150)) ∧
  (∀ (h : Fin 18) (ch : Fin 32) (s : State), s.halted = false → 16 ≤ h.val →
    let put (op : Nat) : State := (s.wr Reg.SEC_WC_CMD_OP op).wr Reg.SEC_WC_CMD_CHANNEL ch.val
    (∀ done : Lane, (∀ c < 32, c % 2 = ch.val % 2 → s.chState c = 0) → exec (.wcDrain h ch done) s =
      .next ((((put 1).channelFailed ch.val 3 done.toNat).wr Reg.SEC_WC_CMD_RESULT 1).raise 151)) ∧
    (s.chState ch.val = 3 →
      exec (.wcPowerOff h ch) s = .next (((((put 2).onDoor (fun d => { d with wcOff := ch.val :: d.wcOff.erase ch.val })).wr
        Reg.SEC_WC_CMD_RESULT 1).raise 151)) ∧
      (let a := (put 3).onDoor (fun d => { d with wcOff := d.wcOff.erase ch.val })
       exec (.wcRetrain h ch true) s = .next (((a.startCopyback ch.val).wr Reg.SEC_WC_CMD_RESULT 1).raise 151) ∧
       exec (.wcRetrain h ch false) s = .next ((a.wr Reg.SEC_WC_CMD_RESULT 6).raise 151))) ∧
    (s.chState ch.val ≠ 3 → exec (.wcPowerOff h ch) s = .next (((put 2).wr Reg.SEC_WC_CMD_RESULT 5).raise 151)))

/-! ### Security protocol, registers and the test port -/

/-- R562: what each SPDM request over a port answers, and which requests change a session.
Where the spec leaves the point open, the result is the model's choice: log entries 50 and 57. -/
def Obligations.SecurityProtocolResults : Prop :=
  (∀ (via : Fin 10) (s : State), s.spdmUp = false →
    exec (.getVersion via) s = .next s ∧ exec (.getCapabilities via) s = .next s ∧ (∀ b, exec (.negotiateAlgorithms via b) s = .next s) ∧
    exec (.getDigests via) s = .next s ∧ (∀ a b c, exec (.getCertificate via a b c) s = .next s) ∧
    (∀ a n, exec (.challenge via a n) s = .next s) ∧ (∀ i b, exec (.getMeasurements via i b) s = .next s) ∧
    (∀ x, exec (.keyExchange via x) s = .next s) ∧ (∀ i b, exec (.finish via i b) s = .next s) ∧ (∀ i, exec (.heartbeat via i) s = .next s) ∧
    (∀ i, exec (.keyUpdate via i) s = .next s) ∧ (∀ i, exec (.endSession via i) s = .next s)) ∧
  (∀ (via : Fin 10) (s : State), s.spdmUp = true →
    let say (s : State) (name : String) (args : List Nat) (bs : List Byte) : State :=
      s.send { name := name, dest := via.val, args := args, bytes := bs }
    exec (.getVersion via) s = .next (say s "SPDM_VERSION" [0x13] []) ∧
    exec (.getCapabilities via) s = .next (say s "SPDM_CAPABILITIES" [] []) ∧
    (∀ b, exec (.negotiateAlgorithms via b) s = .next (say (s.onDoor (fun d => { d with
      algs := if b then via.val :: d.algs.filter (fun v => v != via.val) else d.algs.filter (fun v => v != via.val) })) "SPDM_ALGORITHMS" [b2n b] [])) ∧
    exec (.getDigests via) s = .next (say s "SPDM_DIGESTS" [1] (sha3 certChain)) ∧
    (∀ (slot : Fin 8) (o n : BitVec 16),
      (slot.val ≠ 0 → exec (.getCertificate via slot o n) s = .next (say s "SPDM_ERROR" [1] [])) ∧
      (slot.val = 0 → o.toNat < certChain.length → exec (.getCertificate via slot o n) s = .next (
        let part := (certChain.drop o.toNat).take n.toNat
        say s "SPDM_CERTIFICATE" [0, part.length, certChain.length - o.toNat - part.length] part))) ∧
    (∀ (slot : Fin 8) (n : BitVec 256), slot.val = 0 →
      (s.door.algs.contains via.val = true → exec (.challenge via slot n) s = .next (say { s with free := s.free + 1 } "SPDM_CHALLENGE_AUTH"
        [0, n.toNat, Config.freeValue s.free % 2 ^ (8 * 49856)] (sha3 certChain))) ∧
      (s.door.algs.contains via.val = false → exec (.challenge via slot n) s = .next (say s "SPDM_ERROR" [7] []))) ∧
    (∀ i : Byte, 1 ≤ i.toNat → i.toNat < 8 → exec (.getMeasurements via i false) s =
      .next (say s "SPDM_MEASUREMENTS" [i.toNat, 1] (toLe 64 (s.meas (i.toNat - 1))))) ∧
    (exec (.getMeasurements via 255 false) s =
      .next (say s "SPDM_MEASUREMENTS" [255, 7] ((List.range 7).flatMap (fun k => toLe 64 (s.meas k))))) ∧
    (∀ x : BitVec 768, s.door.algs.contains via.val = true →
      let id := Config.freeValue s.free % 2 ^ 32
      let t := { s with free := s.free + 2 }.onDoor (fun d => { d with
        sessions := d.sessions.filter (fun (x : Session) => x.via != via.val || x.id != id) ++ [({ via := via.val, id := id } : Session)] })
      exec (.keyExchange via x) s = .next (say { t with free := s.free + 3 } "SPDM_KEY_EXCHANGE_RSP" [id, Config.freeValue (s.free + 1) % 2 ^ 768, x.toNat, Config.freeValue (s.free + 2) % 2 ^ (8 * 49856)] [])) ∧
    (∀ x : BitVec 768, s.door.algs.contains via.val = false → exec (.keyExchange via x) s = .next (say s "SPDM_ERROR" [7] [])) ∧
    (∀ (id : Lane) (y : Session), s.session via.val id.toNat = some y →
      (y.up = false →
        exec (.finish via id true) s = .next (say (s.onDoor (fun d => { d with sessions := d.sessions.map (fun z => if z = y then { y with up := true } else z) })) "SPDM_FINISH_RSP" [id.toNat] []) ∧
        exec (.finish via id false) s = .next (say (s.onDoor (fun d => { d with sessions := d.sessions.erase y })) "SPDM_ERROR" [6] []) ∧
        exec (.heartbeat via id) s = .next (say s "SPDM_ERROR" [2] [])) ∧
      (y.up = true →
        exec (.heartbeat via id) s = .next (say s "SPDM_HEARTBEAT_ACK" [id.toNat] []) ∧
        exec (.keyUpdate via id) s = .next (say (s.onDoor (fun d => { d with sessions := d.sessions.map (fun z => if z = y then { y with keys := y.keys + 1 } else z) })) "SPDM_KEY_UPDATE_ACK" [id.toNat] []) ∧
        exec (.endSession via id) s = .next (say (s.onDoor (fun d => { d with sessions := d.sessions.erase y })) "SPDM_END_SESSION_ACK" [id.toNat] []))) ∧
    (∀ id : Lane, s.session via.val id.toNat = none → exec (.heartbeat via id) s = .next (say s "SPDM_ERROR" [2] [])))

/-- R7, R228, R485, R487, R511, R583, R598, R599: reads and writes of the control space over the sideband, of the Prompt Book's staged frames and of
registers whole; a write reads back, and every other field stands; the test port's instructions; and the edge ports.
Where the spec leaves the point open, the result is the model's choice: log entries 64 and 65. -/
def Obligations.RegisterAndTestPortResults : Prop :=
  (∀ (s : State) (f g : Fld) (x : Nat), (s.wr f x).rd f = x % 2 ^ f.width ∧ (g.key ≠ f.key → (s.wr f x).rd g = s.rd g)) ∧
  (∀ (h : Fin 18) (v : BitVec 6) (s : State), s.halted = false → 16 ≤ h.val →
    (Reg.HPT_CFG_BAR2_LOG2.allows v.toNat = true → exec (.hptCfgBar2Write h v) s =
      .next ((s.wr Reg.HPT_CFG_BAR2_LOG2 v.toNat).onDoor (fun d => { d with bar2 := v.toNat }))) ∧
    (Reg.HPT_CFG_BAR2_LOG2.allows v.toNat = false → exec (.hptCfgBar2Write h v) s = .next s)) ∧
  (∀ (w : Fin 0x800000) (s : State), s.halted = false →
    exec (.mctpControlAccess w none) s = .next ((s.touch (8 * w.val)).send
      { name := "MCTP_READ", args := [8 * w.val, s.ctrlRead true (8 * w.val)] }) ∧
    ∀ v : Word, exec (.mctpControlAccess w (some v)) s = .next ((s.ctrlWrite 16 true (8 * w.val) v.toNat (2 ^ 64 - 1)).send
      { name := "MCTP_DONE", args := [8 * w.val] })) ∧
  (∀ (h : Fin 18) (f w : Fin 128) (x : Word) (s : State), s.halted = false → 16 ≤ h.val → s.is1 (Reg.PBK_FRAME_STAGE_COND f.val) = false →
    exec (.pbStagedDataWrite h f w x) s = .next ({ s with book := { s.book with
      staged := Memory.store s.book.staged (1024 * f.val + 8 * w.val) (toLe 8 x.toNat) } }.wr (Reg.PBK_FRAME_STAGE_STATE f.val) 1)) ∧
  (∀ (h : Fin 18) (f : Fin 128) (o : Fin 16) (tag : Lane) (s : State), s.halted = false → 16 ≤ h.val → s.is1 (Reg.PBK_FRAME_STAGE_COND f.val) = false →
    exec (.pbkFrameStageWrite h f o false true tag) s = .next ((((s.wr (Reg.PBK_FRAME_STAGE_OWNER f.val) o.val).wr
      (Reg.PBK_FRAME_STAGE_COND f.val) 0).wr (Reg.PBK_FRAME_STAGE_TAG f.val) tag.toNat).wr (Reg.PBK_FRAME_STAGE_STATE f.val) 2)) ∧
  (∀ (h : Fin 18) (off : Fin 0x2000000) (x : Word) (s : State), (s.halted = true ∨ h.val < 16 ∨ s.answers false (off.val / 8 * 8) = false) →
    exec (.registerWrite h off x) s = .next s) ∧
  (∀ (h : Fin 18) (off : Fin 0x2000000) (x : Word) (s : State), s.halted = false → 16 ≤ h.val → s.answers false (off.val / 8 * 8) = true →
    ¬ (0x1F00000 ≤ off.val / 8 * 8 ∧ off.val / 8 * 8 < 0x1F20000) → ¬ (0x47000 ≤ off.val / 8 * 8 ∧ off.val / 8 * 8 < 0x48000) →
    exec (.registerWrite h off x) s = .next ((s.touch (off.val / 8 * 8)).writeReg h.val ⟨off.val / 8 * 8, x.toNat, 2 ^ 64 - 1⟩)) ∧
  (∀ s : State, s.halted = false →
    exec .bypass s = .next (s.onDoor (fun d => { d with jtag := 0xFF })) ∧
    exec .idcode s = .next (s.onDoor (fun d => { d with jtag := 0xFE })) ∧
    (∀ cs, exec (.samplePreload cs) s = .next (s.onDoor (fun d => { d with jtag := 1, cells := cs }))) ∧
    exec .testLogicReset s = .next (s.onDoor (fun d => { d with jtag := 0xFE })) ∧
    (∀ p ∈ [(Instr.extest, 2), (.clamp, 3), (.highz, 4), (.extestPulse, 5), (.extestTrain, 6)],
      ∃ r : State, exec p.1 s = .next r ∧ r.door.halt = 4 ∧ r.door.jtag = p.2 ∧ r.store = { modules := s.store.modules } ∧ r.trp = {} ∧ r.book = s.book ∧ r.hst = s.hst)) ∧
  (∀ s : State, s.door.halt = 4 → ∃ r : State, exec .testLogicReset s = .next r ∧ r.door.halt = 0 ∧
    r.store = { modules := s.store.modules } ∧ r.trp = {} ∧ r.pending = s.pending) ∧
  (∀ (g : Fin 8) (rate : Fin 3) (w : Fin 4) (s : State), s.halted = false → s.is1 (Reg.EDG_PORT_EN (g.val / 2)) = true → rate.val ≠ 0 →
    (if s.is1 (Reg.EDG_PORT_BIF (g.val / 2)) = true then w.val = 1 ∨ w.val = 2 else g.val % 2 = 0 ∧ 2 ≤ w.val) →
    let t := s.wr (halfOf g.val) (1 + 2 * rate.val + 8 * w.val)
    exec (.edgeLinkUp g rate w) s = .next (if s.edgeState g.val = 0 then t.wr (Reg.COH_AGENT_STATE (25 + g.val)) 1 else t)) ∧
  (∀ (h : Fin 18) (k : Fin 4) (s : State), s.halted = false → 16 ≤ h.val →
    exec (.edgePortEn h k true) s = .next (s.wr (Reg.EDG_PORT_EN k.val) 1) ∧
    exec (.edgePortEn h k false) s = .next (((((s.wr (Reg.EDG_PORT_EN k.val) 0).edgeLost (2 * k.val)).edgeLost (2 * k.val + 1)).wr
      (Reg.EDG_PORT_HALF0 k.val) 0).wr (Reg.EDG_PORT_HALF1 k.val) 0))

/-! ### Reset, the parcel's encoding, and what every step keeps -/

/-- R9, R550: after a cold reset every field holds its reset value and no command waits, and the memories of the state are in their canonical form.
-/
def Obligations.ResetValues : Prop :=
  (∀ f : Fld, State.reset.rd f = f.reset) ∧ State.reset.pending = [] ∧ State.reset.staged = [] ∧ State.reset.sent = [] ∧
  State.reset.phase = 3 ∧ State.reset.Canonical ∧
  (∀ n < 4096, State.reset.ctx n = {}) ∧ (∀ a, Memory.bytes State.reset.store.mem a 64 = List.replicate 64 0)

/-- R391: a parcel's 640 bits keep every field of it: reading the number of a parcel whose fields fit their places gives the parcel, with its seal
right. -/
def Obligations.ParcelEncodingKeepsEveryField : Prop :=
  ∀ p : FabParcel, p.op < 2 ^ 6 → p.cls < 2 ^ 3 → p.level < 2 ^ 2 → p.src < 2 ^ 6 → p.dst < 2 ^ 8 → p.part < 2 ^ 4 → p.tag < 2 ^ 16 →
    p.arg < 2 ^ 47 → p.pl < 2 ^ 512 → parcelOf p.num = (p, true) ∧ p.num < 2 ^ 640

/-- Every step keeps the canonical form: whatever command stands in front, or none, a state whose memories list rising addresses and no zero byte,
and whose register file lists rising keys, is followed by such a state. -/
def Obligations.StepKeepsCanonical : Prop :=
  ∀ s t : State, s.Canonical → step s = .next t → t.Canonical
end

