-- ==== Sys2Proof/Laws/Map.lean ====
section
/-!
SUPPORT. Laws of sparse maps: what a read gives after a write, an erasure or a filter, and that every operation keeps the
canonical form.
-/

namespace Sys2Proof

namespace SMap

variable {α : Type}

@[simp] theorem find?_nil (k : Nat) : find? ([] : SMap α) k = none := rfl

@[simp] theorem getD_nil (k : Nat) (d : α) : getD ([] : SMap α) k d = d := rfl

/-- A map whose keys are all above b lists nothing at or below b. -/
theorem find?_eq_none_of_above {b k : Nat} {m : SMap α} (h : above b m = true) (hk : k ≤ b) : find? m k = none := by
  induction m with
  | nil => rfl
  | cons e m ih =>
    obtain ⟨a, v⟩ := e
    simp only [above, Bool.and_eq_true, decide_eq_true_eq] at h
    have h1 : k ≠ a := by omega
    simp [find?, h1, ih h.2]

theorem above_mono {b c : Nat} {m : SMap α} (h : above b m = true) (hc : c ≤ b) : above c m = true := by
  induction m with
  | nil => rfl
  | cons e m ih =>
    obtain ⟨a, v⟩ := e
    simp only [above, Bool.and_eq_true, decide_eq_true_eq] at h ⊢
    exact ⟨by omega, ih h.2⟩

/-- After an entry is put, its key reads as the entry: in any list. -/
@[simp] theorem find?_insert_self (m : SMap α) (k : Nat) (v : α) : find? (insert m k v) k = some v := by
  induction m with
  | nil => simp [insert, find?]
  | cons e m ih =>
    obtain ⟨a, b⟩ := e
    by_cases h1 : k < a
    · simp [insert, h1, find?]
    · by_cases h2 : k = a
      · simp [insert, h2, find?]
      · simp [insert, h1, h2, find?, ih]

/-- A second put at one key replaces the first. -/
@[simp] theorem insert_insert (m : SMap α) (k : Nat) (v w : α) : insert (insert m k v) k w = insert m k w := by
  induction m with
  | nil => simp [insert]
  | cons e m ih =>
    obtain ⟨a, b⟩ := e
    by_cases h1 : k < a
    · simp [insert, h1]
    · by_cases h2 : k = a
      · simp [insert, h2]
      · simp [insert, h1, h2, ih]

/-- Putting an entry leaves every other key as it was: in any list. -/
theorem find?_insert_ne {m : SMap α} {j k : Nat} (v : α) (h : j ≠ k) : find? (insert m k v) j = find? m j := by
  induction m with
  | nil => simp [insert, find?, h]
  | cons e m ih =>
    obtain ⟨a, b⟩ := e
    by_cases h1 : k < a
    · simp [insert, h1, find?, h]
    · by_cases h2 : k = a
      · subst h2
        simp [insert, find?, h]
      · simp [insert, h1, h2, find?, ih]

/-- Putting an entry keeps the keys rising. -/
theorem above_insert {m : SMap α} {b k : Nat} (v : α) (h : above b m = true) (hk : b < k) :
    above b (insert m k v) = true := by
  induction m with
  | nil => simp [insert, above, hk]
  | cons e m ih =>
    obtain ⟨a, w⟩ := e
    simp only [above, Bool.and_eq_true, decide_eq_true_eq] at h
    by_cases h1 : k < a
    · simp [insert, h1, above, hk, h.1, h.2]
    · by_cases h2 : k = a
      · simp [insert, h2, above, h.1, h.2]
      · simp [insert, h1, h2, above, h.1, ih h.2]

theorem sorted_insert {m : SMap α} (k : Nat) (v : α) (h : sorted m = true) : sorted (insert m k v) = true := by
  induction m with
  | nil => simp [insert, sorted, above]
  | cons e m ih =>
    obtain ⟨a, w⟩ := e
    simp only [sorted, Bool.and_eq_true] at h
    by_cases h1 : k < a
    · simp [insert, h1, sorted, above, h.1, h.2, above_mono h.1 (Nat.le_of_lt h1)]
    · by_cases h2 : k = a
      · simp [insert, h2, sorted, h.1, h.2]
      · have h3 : a < k := by omega
        simp [insert, h1, h2, sorted, above_insert v h.1 h3, ih h.2]

theorem above_erase {m : SMap α} {b : Nat} (k : Nat) (h : above b m = true) : above b (erase m k) = true := by
  induction m with
  | nil => rfl
  | cons e m ih =>
    obtain ⟨a, w⟩ := e
    simp only [above, Bool.and_eq_true, decide_eq_true_eq] at h
    by_cases h2 : k = a
    · simpa [erase, h2] using ih h.2
    · simp [erase, h2, above, h.1, ih h.2]

theorem sorted_erase {m : SMap α} (k : Nat) (h : sorted m = true) : sorted (erase m k) = true := by
  induction m with
  | nil => rfl
  | cons e m ih =>
    obtain ⟨a, w⟩ := e
    simp only [sorted, Bool.and_eq_true] at h
    by_cases h2 : k = a
    · simpa [erase, h2] using ih h.2
    · simp [erase, h2, sorted, above_erase k h.1, ih h.2]

/-- After an erasure, the key lists nothing: in any list. -/
@[simp] theorem find?_erase_self (m : SMap α) (k : Nat) : find? (erase m k) k = none := by
  induction m with
  | nil => rfl
  | cons e m ih =>
    obtain ⟨a, b⟩ := e
    by_cases h2 : k = a
    · simpa [erase, h2] using ih
    · simp [erase, h2, find?, ih]

/-- Erasing an entry leaves every other key as it was: in any list. -/
theorem find?_erase_ne {m : SMap α} {j k : Nat} (h : j ≠ k) : find? (erase m k) j = find? m j := by
  induction m with
  | nil => rfl
  | cons e m ih =>
    obtain ⟨a, b⟩ := e
    by_cases h2 : k = a
    · subst h2
      simp [erase, find?, h, ih]
    · simp [erase, h2, find?, ih]

/-- What a key reads as after a write, in any list: everything that writing one value can do. -/
theorem getD_setD [DecidableEq α] (m : SMap α) (k j : Nat) (d x : α) :
    getD (setD m k d x) j d = if j = k then x else getD m j d := by
  by_cases hx : x = d
  · subst hx
    simp only [setD, if_true, getD]
    by_cases hj : j = k
    · simp [hj]
    · simp [hj, find?_erase_ne hj]
  · simp only [setD, hx, if_false, getD]
    by_cases hj : j = k
    · simp [hj]
    · simp [hj, find?_insert_ne x hj]

/-- A write of a value that differs from what an unlisted key reads as is read back, in any list. -/
theorem getD_setD_self [DecidableEq α] (m : SMap α) (k : Nat) (d x : α) (h : x ≠ d) : getD (setD m k d x) k d = x := by
  simp [setD, h, getD]

/-- Of two such writes at one key the second stands. -/
theorem setD_setD [DecidableEq α] (m : SMap α) (k : Nat) (d x y : α) (hx : x ≠ d) (hy : y ≠ d) :
    setD (setD m k d x) k d y = setD m k d y := by
  simp [setD, hx, hy]

theorem sorted_setD [DecidableEq α] {m : SMap α} (k : Nat) (d x : α) (hm : sorted m = true) : sorted (setD m k d x) = true := by
  unfold setD
  split
  · exact sorted_erase k hm
  · exact sorted_insert k x hm

theorem mem_insert {m : SMap α} {k : Nat} {v : α} {e : Nat × α} (h : e ∈ insert m k v) : e = (k, v) ∨ e ∈ m := by
  induction m with
  | nil => simpa [insert] using h
  | cons c m ih =>
    obtain ⟨a, w⟩ := c
    by_cases h1 : k < a
    · simpa [insert, h1] using h
    · by_cases h2 : k = a
      · simp only [insert, h2, Nat.lt_irrefl, if_false, if_true, List.mem_cons] at h
        rcases h with h | h
        · exact .inl (by simp [h, h2])
        · exact .inr (List.mem_cons_of_mem _ h)
      · simp only [insert, h1, h2, if_false, List.mem_cons] at h
        rcases h with h | h
        · exact .inr (by simp [h])
        · rcases ih h with h | h
          · exact .inl h
          · exact .inr (List.mem_cons_of_mem _ h)

theorem mem_erase {m : SMap α} {k : Nat} {e : Nat × α} (h : e ∈ erase m k) : e ∈ m := by
  induction m with
  | nil => simp [erase] at h
  | cons c m ih =>
    obtain ⟨a, w⟩ := c
    by_cases h2 : k = a
    · subst h2
      simp only [erase, if_true] at h
      exact List.mem_cons_of_mem _ (ih h)
    · simp only [erase, h2, if_false, List.mem_cons] at h
      rcases h with h | h
      · simp [h]
      · exact List.mem_cons_of_mem _ (ih h)

theorem wf_iff [DecidableEq α] {d : α} {m : SMap α} : wf d m = true ↔ sorted m = true ∧ ∀ e ∈ m, e.2 ≠ d := by
  simp [wf, List.all_eq_true]

/-- A write keeps the canonical form. -/
theorem wf_setD [DecidableEq α] {d : α} {m : SMap α} (k : Nat) (x : α) (h : wf d m = true) : wf d (setD m k d x) = true := by
  rw [wf_iff] at h ⊢
  refine ⟨sorted_setD k d x h.1, fun e he => ?_⟩
  unfold setD at he
  split at he
  · exact h.2 e (mem_erase he)
  · rename_i hx
    rcases mem_insert he with he | he
    · simpa [he] using hx
    · exact h.2 e he

theorem above_filter {b : Nat} {m : SMap α} (p : Nat × α → Bool) (h : above b m = true) :
    above b (List.filter p m) = true := by
  induction m with
  | nil => rfl
  | cons e m ih =>
    obtain ⟨a, w⟩ := e
    simp only [above, Bool.and_eq_true, decide_eq_true_eq] at h
    by_cases hp : p (a, w)
    · simp [hp, above, h.1, ih h.2]
    · simp [hp, ih h.2]

theorem sorted_filter {m : SMap α} (p : Nat × α → Bool) (h : sorted m = true) : sorted (List.filter p m) = true := by
  induction m with
  | nil => rfl
  | cons e m ih =>
    obtain ⟨a, w⟩ := e
    simp only [sorted, Bool.and_eq_true] at h
    by_cases hp : p (a, w)
    · simp [hp, sorted, above_filter p h.1, ih h.2]
    · simp [hp, ih h.2]

/-- Keeping some of the entries keeps the canonical form. -/
theorem wf_filter [DecidableEq α] {d : α} {m : SMap α} (p : Nat × α → Bool) (h : wf d m = true) :
    wf d (List.filter p m) = true := by
  rw [wf_iff] at h ⊢
  exact ⟨sorted_filter p h.1, fun e he => h.2 e (List.mem_of_mem_filter he)⟩

@[simp] theorem wf_nil [DecidableEq α] (d : α) : wf d ([] : SMap α) = true := rfl

@[simp] theorem sorted_nil : sorted ([] : SMap α) = true := rfl

end SMap

end Sys2Proof
end

