-- ==== Sys2Proof/Laws/State.lean ====
section
/-!
SUPPORT. What each update of State and of a processor context leaves as it was: one lemma for each field and update, and what a read
gives after a write.
-/

namespace Sys2Proof.Machine

/-! ### State.wr -/

@[simp] theorem State.wr_pending (s : State) (f : Fld) (x : Nat) : (s.wr f x).pending = s.pending := rfl
@[simp] theorem State.wr_staged (s : State) (f : Fld) (x : Nat) : (s.wr f x).staged = s.staged := rfl
@[simp] theorem State.wr_sheet (s : State) (f : Fld) (x : Nat) : (s.wr f x).sheet = s.sheet := rfl
@[simp] theorem State.wr_proc (s : State) (f : Fld) (x : Nat) : (s.wr f x).proc = s.proc := rfl
@[simp] theorem State.wr_trp (s : State) (f : Fld) (x : Nat) : (s.wr f x).trp = s.trp := rfl
@[simp] theorem State.wr_book (s : State) (f : Fld) (x : Nat) : (s.wr f x).book = s.book := rfl
@[simp] theorem State.wr_cour (s : State) (f : Fld) (x : Nat) : (s.wr f x).cour = s.cour := rfl
@[simp] theorem State.wr_xlt (s : State) (f : Fld) (x : Nat) : (s.wr f x).xlt = s.xlt := rfl
@[simp] theorem State.wr_store (s : State) (f : Fld) (x : Nat) : (s.wr f x).store = s.store := rfl
@[simp] theorem State.wr_coh (s : State) (f : Fld) (x : Nat) : (s.wr f x).coh = s.coh := rfl
@[simp] theorem State.wr_efh (s : State) (f : Fld) (x : Nat) : (s.wr f x).efh = s.efh := rfl
@[simp] theorem State.wr_sw (s : State) (f : Fld) (x : Nat) : (s.wr f x).sw = s.sw := rfl
@[simp] theorem State.wr_ord (s : State) (f : Fld) (x : Nat) : (s.wr f x).ord = s.ord := rfl
@[simp] theorem State.wr_emb (s : State) (f : Fld) (x : Nat) : (s.wr f x).emb = s.emb := rfl
@[simp] theorem State.wr_srch (s : State) (f : Fld) (x : Nat) : (s.wr f x).srch = s.srch := rfl
@[simp] theorem State.wr_ev (s : State) (f : Fld) (x : Nat) : (s.wr f x).ev = s.ev := rfl
@[simp] theorem State.wr_res (s : State) (f : Fld) (x : Nat) : (s.wr f x).res = s.res := rfl
@[simp] theorem State.wr_hst (s : State) (f : Fld) (x : Nat) : (s.wr f x).hst = s.hst := rfl
@[simp] theorem State.wr_door (s : State) (f : Fld) (x : Nat) : (s.wr f x).door = s.door := rfl
@[simp] theorem State.wr_sent (s : State) (f : Fld) (x : Nat) : (s.wr f x).sent = s.sent := rfl
@[simp] theorem State.wr_free (s : State) (f : Fld) (x : Nat) : (s.wr f x).free = s.free := rfl

/-! ### State.wrStaged -/

@[simp] theorem State.wrStaged_pending (s : State) (f : Fld) (x : Nat) : (s.wrStaged f x).pending = s.pending := rfl
@[simp] theorem State.wrStaged_regs (s : State) (f : Fld) (x : Nat) : (s.wrStaged f x).regs = s.regs := rfl
@[simp] theorem State.wrStaged_sheet (s : State) (f : Fld) (x : Nat) : (s.wrStaged f x).sheet = s.sheet := rfl
@[simp] theorem State.wrStaged_proc (s : State) (f : Fld) (x : Nat) : (s.wrStaged f x).proc = s.proc := rfl
@[simp] theorem State.wrStaged_trp (s : State) (f : Fld) (x : Nat) : (s.wrStaged f x).trp = s.trp := rfl
@[simp] theorem State.wrStaged_book (s : State) (f : Fld) (x : Nat) : (s.wrStaged f x).book = s.book := rfl
@[simp] theorem State.wrStaged_cour (s : State) (f : Fld) (x : Nat) : (s.wrStaged f x).cour = s.cour := rfl
@[simp] theorem State.wrStaged_xlt (s : State) (f : Fld) (x : Nat) : (s.wrStaged f x).xlt = s.xlt := rfl
@[simp] theorem State.wrStaged_store (s : State) (f : Fld) (x : Nat) : (s.wrStaged f x).store = s.store := rfl
@[simp] theorem State.wrStaged_coh (s : State) (f : Fld) (x : Nat) : (s.wrStaged f x).coh = s.coh := rfl
@[simp] theorem State.wrStaged_efh (s : State) (f : Fld) (x : Nat) : (s.wrStaged f x).efh = s.efh := rfl
@[simp] theorem State.wrStaged_sw (s : State) (f : Fld) (x : Nat) : (s.wrStaged f x).sw = s.sw := rfl
@[simp] theorem State.wrStaged_ord (s : State) (f : Fld) (x : Nat) : (s.wrStaged f x).ord = s.ord := rfl
@[simp] theorem State.wrStaged_emb (s : State) (f : Fld) (x : Nat) : (s.wrStaged f x).emb = s.emb := rfl
@[simp] theorem State.wrStaged_srch (s : State) (f : Fld) (x : Nat) : (s.wrStaged f x).srch = s.srch := rfl
@[simp] theorem State.wrStaged_ev (s : State) (f : Fld) (x : Nat) : (s.wrStaged f x).ev = s.ev := rfl
@[simp] theorem State.wrStaged_res (s : State) (f : Fld) (x : Nat) : (s.wrStaged f x).res = s.res := rfl
@[simp] theorem State.wrStaged_hst (s : State) (f : Fld) (x : Nat) : (s.wrStaged f x).hst = s.hst := rfl
@[simp] theorem State.wrStaged_door (s : State) (f : Fld) (x : Nat) : (s.wrStaged f x).door = s.door := rfl
@[simp] theorem State.wrStaged_sent (s : State) (f : Fld) (x : Nat) : (s.wrStaged f x).sent = s.sent := rfl
@[simp] theorem State.wrStaged_free (s : State) (f : Fld) (x : Nat) : (s.wrStaged f x).free = s.free := rfl

/-! ### State.satAdd -/

@[simp] theorem State.satAdd_pending (s : State) (f : Fld) (x : Nat) : (s.satAdd f x).pending = s.pending := rfl
@[simp] theorem State.satAdd_staged (s : State) (f : Fld) (x : Nat) : (s.satAdd f x).staged = s.staged := rfl
@[simp] theorem State.satAdd_sheet (s : State) (f : Fld) (x : Nat) : (s.satAdd f x).sheet = s.sheet := rfl
@[simp] theorem State.satAdd_proc (s : State) (f : Fld) (x : Nat) : (s.satAdd f x).proc = s.proc := rfl
@[simp] theorem State.satAdd_trp (s : State) (f : Fld) (x : Nat) : (s.satAdd f x).trp = s.trp := rfl
@[simp] theorem State.satAdd_book (s : State) (f : Fld) (x : Nat) : (s.satAdd f x).book = s.book := rfl
@[simp] theorem State.satAdd_cour (s : State) (f : Fld) (x : Nat) : (s.satAdd f x).cour = s.cour := rfl
@[simp] theorem State.satAdd_xlt (s : State) (f : Fld) (x : Nat) : (s.satAdd f x).xlt = s.xlt := rfl
@[simp] theorem State.satAdd_store (s : State) (f : Fld) (x : Nat) : (s.satAdd f x).store = s.store := rfl
@[simp] theorem State.satAdd_coh (s : State) (f : Fld) (x : Nat) : (s.satAdd f x).coh = s.coh := rfl
@[simp] theorem State.satAdd_efh (s : State) (f : Fld) (x : Nat) : (s.satAdd f x).efh = s.efh := rfl
@[simp] theorem State.satAdd_sw (s : State) (f : Fld) (x : Nat) : (s.satAdd f x).sw = s.sw := rfl
@[simp] theorem State.satAdd_ord (s : State) (f : Fld) (x : Nat) : (s.satAdd f x).ord = s.ord := rfl
@[simp] theorem State.satAdd_emb (s : State) (f : Fld) (x : Nat) : (s.satAdd f x).emb = s.emb := rfl
@[simp] theorem State.satAdd_srch (s : State) (f : Fld) (x : Nat) : (s.satAdd f x).srch = s.srch := rfl
@[simp] theorem State.satAdd_ev (s : State) (f : Fld) (x : Nat) : (s.satAdd f x).ev = s.ev := rfl
@[simp] theorem State.satAdd_res (s : State) (f : Fld) (x : Nat) : (s.satAdd f x).res = s.res := rfl
@[simp] theorem State.satAdd_hst (s : State) (f : Fld) (x : Nat) : (s.satAdd f x).hst = s.hst := rfl
@[simp] theorem State.satAdd_door (s : State) (f : Fld) (x : Nat) : (s.satAdd f x).door = s.door := rfl
@[simp] theorem State.satAdd_sent (s : State) (f : Fld) (x : Nat) : (s.satAdd f x).sent = s.sent := rfl
@[simp] theorem State.satAdd_free (s : State) (f : Fld) (x : Nat) : (s.satAdd f x).free = s.free := rfl

/-! ### State.wrapAdd -/

@[simp] theorem State.wrapAdd_pending (s : State) (f : Fld) (x : Nat) : (s.wrapAdd f x).pending = s.pending := rfl
@[simp] theorem State.wrapAdd_staged (s : State) (f : Fld) (x : Nat) : (s.wrapAdd f x).staged = s.staged := rfl
@[simp] theorem State.wrapAdd_sheet (s : State) (f : Fld) (x : Nat) : (s.wrapAdd f x).sheet = s.sheet := rfl
@[simp] theorem State.wrapAdd_proc (s : State) (f : Fld) (x : Nat) : (s.wrapAdd f x).proc = s.proc := rfl
@[simp] theorem State.wrapAdd_trp (s : State) (f : Fld) (x : Nat) : (s.wrapAdd f x).trp = s.trp := rfl
@[simp] theorem State.wrapAdd_book (s : State) (f : Fld) (x : Nat) : (s.wrapAdd f x).book = s.book := rfl
@[simp] theorem State.wrapAdd_cour (s : State) (f : Fld) (x : Nat) : (s.wrapAdd f x).cour = s.cour := rfl
@[simp] theorem State.wrapAdd_xlt (s : State) (f : Fld) (x : Nat) : (s.wrapAdd f x).xlt = s.xlt := rfl
@[simp] theorem State.wrapAdd_store (s : State) (f : Fld) (x : Nat) : (s.wrapAdd f x).store = s.store := rfl
@[simp] theorem State.wrapAdd_coh (s : State) (f : Fld) (x : Nat) : (s.wrapAdd f x).coh = s.coh := rfl
@[simp] theorem State.wrapAdd_efh (s : State) (f : Fld) (x : Nat) : (s.wrapAdd f x).efh = s.efh := rfl
@[simp] theorem State.wrapAdd_sw (s : State) (f : Fld) (x : Nat) : (s.wrapAdd f x).sw = s.sw := rfl
@[simp] theorem State.wrapAdd_ord (s : State) (f : Fld) (x : Nat) : (s.wrapAdd f x).ord = s.ord := rfl
@[simp] theorem State.wrapAdd_emb (s : State) (f : Fld) (x : Nat) : (s.wrapAdd f x).emb = s.emb := rfl
@[simp] theorem State.wrapAdd_srch (s : State) (f : Fld) (x : Nat) : (s.wrapAdd f x).srch = s.srch := rfl
@[simp] theorem State.wrapAdd_ev (s : State) (f : Fld) (x : Nat) : (s.wrapAdd f x).ev = s.ev := rfl
@[simp] theorem State.wrapAdd_res (s : State) (f : Fld) (x : Nat) : (s.wrapAdd f x).res = s.res := rfl
@[simp] theorem State.wrapAdd_hst (s : State) (f : Fld) (x : Nat) : (s.wrapAdd f x).hst = s.hst := rfl
@[simp] theorem State.wrapAdd_door (s : State) (f : Fld) (x : Nat) : (s.wrapAdd f x).door = s.door := rfl
@[simp] theorem State.wrapAdd_sent (s : State) (f : Fld) (x : Nat) : (s.wrapAdd f x).sent = s.sent := rfl
@[simp] theorem State.wrapAdd_free (s : State) (f : Fld) (x : Nat) : (s.wrapAdd f x).free = s.free := rfl

/-! ### State.setBit -/

@[simp] theorem State.setBit_pending (s : State) (f : Fld) (b : Nat) : (s.setBit f b).pending = s.pending := rfl
@[simp] theorem State.setBit_staged (s : State) (f : Fld) (b : Nat) : (s.setBit f b).staged = s.staged := rfl
@[simp] theorem State.setBit_sheet (s : State) (f : Fld) (b : Nat) : (s.setBit f b).sheet = s.sheet := rfl
@[simp] theorem State.setBit_proc (s : State) (f : Fld) (b : Nat) : (s.setBit f b).proc = s.proc := rfl
@[simp] theorem State.setBit_trp (s : State) (f : Fld) (b : Nat) : (s.setBit f b).trp = s.trp := rfl
@[simp] theorem State.setBit_book (s : State) (f : Fld) (b : Nat) : (s.setBit f b).book = s.book := rfl
@[simp] theorem State.setBit_cour (s : State) (f : Fld) (b : Nat) : (s.setBit f b).cour = s.cour := rfl
@[simp] theorem State.setBit_xlt (s : State) (f : Fld) (b : Nat) : (s.setBit f b).xlt = s.xlt := rfl
@[simp] theorem State.setBit_store (s : State) (f : Fld) (b : Nat) : (s.setBit f b).store = s.store := rfl
@[simp] theorem State.setBit_coh (s : State) (f : Fld) (b : Nat) : (s.setBit f b).coh = s.coh := rfl
@[simp] theorem State.setBit_efh (s : State) (f : Fld) (b : Nat) : (s.setBit f b).efh = s.efh := rfl
@[simp] theorem State.setBit_sw (s : State) (f : Fld) (b : Nat) : (s.setBit f b).sw = s.sw := rfl
@[simp] theorem State.setBit_ord (s : State) (f : Fld) (b : Nat) : (s.setBit f b).ord = s.ord := rfl
@[simp] theorem State.setBit_emb (s : State) (f : Fld) (b : Nat) : (s.setBit f b).emb = s.emb := rfl
@[simp] theorem State.setBit_srch (s : State) (f : Fld) (b : Nat) : (s.setBit f b).srch = s.srch := rfl
@[simp] theorem State.setBit_ev (s : State) (f : Fld) (b : Nat) : (s.setBit f b).ev = s.ev := rfl
@[simp] theorem State.setBit_res (s : State) (f : Fld) (b : Nat) : (s.setBit f b).res = s.res := rfl
@[simp] theorem State.setBit_hst (s : State) (f : Fld) (b : Nat) : (s.setBit f b).hst = s.hst := rfl
@[simp] theorem State.setBit_door (s : State) (f : Fld) (b : Nat) : (s.setBit f b).door = s.door := rfl
@[simp] theorem State.setBit_sent (s : State) (f : Fld) (b : Nat) : (s.setBit f b).sent = s.sent := rfl
@[simp] theorem State.setBit_free (s : State) (f : Fld) (b : Nat) : (s.setBit f b).free = s.free := rfl

/-! ### State.clrBit -/

@[simp] theorem State.clrBit_pending (s : State) (f : Fld) (b : Nat) : (s.clrBit f b).pending = s.pending := rfl
@[simp] theorem State.clrBit_staged (s : State) (f : Fld) (b : Nat) : (s.clrBit f b).staged = s.staged := rfl
@[simp] theorem State.clrBit_sheet (s : State) (f : Fld) (b : Nat) : (s.clrBit f b).sheet = s.sheet := rfl
@[simp] theorem State.clrBit_proc (s : State) (f : Fld) (b : Nat) : (s.clrBit f b).proc = s.proc := rfl
@[simp] theorem State.clrBit_trp (s : State) (f : Fld) (b : Nat) : (s.clrBit f b).trp = s.trp := rfl
@[simp] theorem State.clrBit_book (s : State) (f : Fld) (b : Nat) : (s.clrBit f b).book = s.book := rfl
@[simp] theorem State.clrBit_cour (s : State) (f : Fld) (b : Nat) : (s.clrBit f b).cour = s.cour := rfl
@[simp] theorem State.clrBit_xlt (s : State) (f : Fld) (b : Nat) : (s.clrBit f b).xlt = s.xlt := rfl
@[simp] theorem State.clrBit_store (s : State) (f : Fld) (b : Nat) : (s.clrBit f b).store = s.store := rfl
@[simp] theorem State.clrBit_coh (s : State) (f : Fld) (b : Nat) : (s.clrBit f b).coh = s.coh := rfl
@[simp] theorem State.clrBit_efh (s : State) (f : Fld) (b : Nat) : (s.clrBit f b).efh = s.efh := rfl
@[simp] theorem State.clrBit_sw (s : State) (f : Fld) (b : Nat) : (s.clrBit f b).sw = s.sw := rfl
@[simp] theorem State.clrBit_ord (s : State) (f : Fld) (b : Nat) : (s.clrBit f b).ord = s.ord := rfl
@[simp] theorem State.clrBit_emb (s : State) (f : Fld) (b : Nat) : (s.clrBit f b).emb = s.emb := rfl
@[simp] theorem State.clrBit_srch (s : State) (f : Fld) (b : Nat) : (s.clrBit f b).srch = s.srch := rfl
@[simp] theorem State.clrBit_ev (s : State) (f : Fld) (b : Nat) : (s.clrBit f b).ev = s.ev := rfl
@[simp] theorem State.clrBit_res (s : State) (f : Fld) (b : Nat) : (s.clrBit f b).res = s.res := rfl
@[simp] theorem State.clrBit_hst (s : State) (f : Fld) (b : Nat) : (s.clrBit f b).hst = s.hst := rfl
@[simp] theorem State.clrBit_door (s : State) (f : Fld) (b : Nat) : (s.clrBit f b).door = s.door := rfl
@[simp] theorem State.clrBit_sent (s : State) (f : Fld) (b : Nat) : (s.clrBit f b).sent = s.sent := rfl
@[simp] theorem State.clrBit_free (s : State) (f : Fld) (b : Nat) : (s.clrBit f b).free = s.free := rfl

/-! ### State.send -/

@[simp] theorem State.send_pending (s : State) (m : Sent) : (s.send m).pending = s.pending := rfl
@[simp] theorem State.send_regs (s : State) (m : Sent) : (s.send m).regs = s.regs := rfl
@[simp] theorem State.send_staged (s : State) (m : Sent) : (s.send m).staged = s.staged := rfl
@[simp] theorem State.send_sheet (s : State) (m : Sent) : (s.send m).sheet = s.sheet := rfl
@[simp] theorem State.send_proc (s : State) (m : Sent) : (s.send m).proc = s.proc := rfl
@[simp] theorem State.send_trp (s : State) (m : Sent) : (s.send m).trp = s.trp := rfl
@[simp] theorem State.send_book (s : State) (m : Sent) : (s.send m).book = s.book := rfl
@[simp] theorem State.send_cour (s : State) (m : Sent) : (s.send m).cour = s.cour := rfl
@[simp] theorem State.send_xlt (s : State) (m : Sent) : (s.send m).xlt = s.xlt := rfl
@[simp] theorem State.send_store (s : State) (m : Sent) : (s.send m).store = s.store := rfl
@[simp] theorem State.send_coh (s : State) (m : Sent) : (s.send m).coh = s.coh := rfl
@[simp] theorem State.send_efh (s : State) (m : Sent) : (s.send m).efh = s.efh := rfl
@[simp] theorem State.send_sw (s : State) (m : Sent) : (s.send m).sw = s.sw := rfl
@[simp] theorem State.send_ord (s : State) (m : Sent) : (s.send m).ord = s.ord := rfl
@[simp] theorem State.send_emb (s : State) (m : Sent) : (s.send m).emb = s.emb := rfl
@[simp] theorem State.send_srch (s : State) (m : Sent) : (s.send m).srch = s.srch := rfl
@[simp] theorem State.send_ev (s : State) (m : Sent) : (s.send m).ev = s.ev := rfl
@[simp] theorem State.send_res (s : State) (m : Sent) : (s.send m).res = s.res := rfl
@[simp] theorem State.send_hst (s : State) (m : Sent) : (s.send m).hst = s.hst := rfl
@[simp] theorem State.send_door (s : State) (m : Sent) : (s.send m).door = s.door := rfl
@[simp] theorem State.send_free (s : State) (m : Sent) : (s.send m).free = s.free := rfl

/-! ### State.setCxAt -/

@[simp] theorem State.setCxAt_pending (s : State) (k : Nat) (c : Cx) : (s.setCxAt k c).pending = s.pending := rfl
@[simp] theorem State.setCxAt_regs (s : State) (k : Nat) (c : Cx) : (s.setCxAt k c).regs = s.regs := rfl
@[simp] theorem State.setCxAt_staged (s : State) (k : Nat) (c : Cx) : (s.setCxAt k c).staged = s.staged := rfl
@[simp] theorem State.setCxAt_sheet (s : State) (k : Nat) (c : Cx) : (s.setCxAt k c).sheet = s.sheet := rfl
@[simp] theorem State.setCxAt_trp (s : State) (k : Nat) (c : Cx) : (s.setCxAt k c).trp = s.trp := rfl
@[simp] theorem State.setCxAt_book (s : State) (k : Nat) (c : Cx) : (s.setCxAt k c).book = s.book := rfl
@[simp] theorem State.setCxAt_cour (s : State) (k : Nat) (c : Cx) : (s.setCxAt k c).cour = s.cour := rfl
@[simp] theorem State.setCxAt_xlt (s : State) (k : Nat) (c : Cx) : (s.setCxAt k c).xlt = s.xlt := rfl
@[simp] theorem State.setCxAt_store (s : State) (k : Nat) (c : Cx) : (s.setCxAt k c).store = s.store := rfl
@[simp] theorem State.setCxAt_coh (s : State) (k : Nat) (c : Cx) : (s.setCxAt k c).coh = s.coh := rfl
@[simp] theorem State.setCxAt_efh (s : State) (k : Nat) (c : Cx) : (s.setCxAt k c).efh = s.efh := rfl
@[simp] theorem State.setCxAt_sw (s : State) (k : Nat) (c : Cx) : (s.setCxAt k c).sw = s.sw := rfl
@[simp] theorem State.setCxAt_ord (s : State) (k : Nat) (c : Cx) : (s.setCxAt k c).ord = s.ord := rfl
@[simp] theorem State.setCxAt_emb (s : State) (k : Nat) (c : Cx) : (s.setCxAt k c).emb = s.emb := rfl
@[simp] theorem State.setCxAt_srch (s : State) (k : Nat) (c : Cx) : (s.setCxAt k c).srch = s.srch := rfl
@[simp] theorem State.setCxAt_ev (s : State) (k : Nat) (c : Cx) : (s.setCxAt k c).ev = s.ev := rfl
@[simp] theorem State.setCxAt_res (s : State) (k : Nat) (c : Cx) : (s.setCxAt k c).res = s.res := rfl
@[simp] theorem State.setCxAt_hst (s : State) (k : Nat) (c : Cx) : (s.setCxAt k c).hst = s.hst := rfl
@[simp] theorem State.setCxAt_door (s : State) (k : Nat) (c : Cx) : (s.setCxAt k c).door = s.door := rfl
@[simp] theorem State.setCxAt_sent (s : State) (k : Nat) (c : Cx) : (s.setCxAt k c).sent = s.sent := rfl
@[simp] theorem State.setCxAt_free (s : State) (k : Nat) (c : Cx) : (s.setCxAt k c).free = s.free := rfl

/-! ### State.setCx -/

@[simp] theorem State.setCx_pending (s : State) (u : Agent) (c : Cx) : (s.setCx u c).pending = s.pending := rfl
@[simp] theorem State.setCx_regs (s : State) (u : Agent) (c : Cx) : (s.setCx u c).regs = s.regs := rfl
@[simp] theorem State.setCx_staged (s : State) (u : Agent) (c : Cx) : (s.setCx u c).staged = s.staged := rfl
@[simp] theorem State.setCx_sheet (s : State) (u : Agent) (c : Cx) : (s.setCx u c).sheet = s.sheet := rfl
@[simp] theorem State.setCx_trp (s : State) (u : Agent) (c : Cx) : (s.setCx u c).trp = s.trp := rfl
@[simp] theorem State.setCx_book (s : State) (u : Agent) (c : Cx) : (s.setCx u c).book = s.book := rfl
@[simp] theorem State.setCx_cour (s : State) (u : Agent) (c : Cx) : (s.setCx u c).cour = s.cour := rfl
@[simp] theorem State.setCx_xlt (s : State) (u : Agent) (c : Cx) : (s.setCx u c).xlt = s.xlt := rfl
@[simp] theorem State.setCx_store (s : State) (u : Agent) (c : Cx) : (s.setCx u c).store = s.store := rfl
@[simp] theorem State.setCx_coh (s : State) (u : Agent) (c : Cx) : (s.setCx u c).coh = s.coh := rfl
@[simp] theorem State.setCx_efh (s : State) (u : Agent) (c : Cx) : (s.setCx u c).efh = s.efh := rfl
@[simp] theorem State.setCx_sw (s : State) (u : Agent) (c : Cx) : (s.setCx u c).sw = s.sw := rfl
@[simp] theorem State.setCx_ord (s : State) (u : Agent) (c : Cx) : (s.setCx u c).ord = s.ord := rfl
@[simp] theorem State.setCx_emb (s : State) (u : Agent) (c : Cx) : (s.setCx u c).emb = s.emb := rfl
@[simp] theorem State.setCx_srch (s : State) (u : Agent) (c : Cx) : (s.setCx u c).srch = s.srch := rfl
@[simp] theorem State.setCx_ev (s : State) (u : Agent) (c : Cx) : (s.setCx u c).ev = s.ev := rfl
@[simp] theorem State.setCx_res (s : State) (u : Agent) (c : Cx) : (s.setCx u c).res = s.res := rfl
@[simp] theorem State.setCx_hst (s : State) (u : Agent) (c : Cx) : (s.setCx u c).hst = s.hst := rfl
@[simp] theorem State.setCx_door (s : State) (u : Agent) (c : Cx) : (s.setCx u c).door = s.door := rfl
@[simp] theorem State.setCx_sent (s : State) (u : Agent) (c : Cx) : (s.setCx u c).sent = s.sent := rfl
@[simp] theorem State.setCx_free (s : State) (u : Agent) (c : Cx) : (s.setCx u c).free = s.free := rfl

/-! ### State.issued -/

@[simp] theorem State.issued_pending (s : State) (u : Agent) : (s.issued u).pending = s.pending := rfl
@[simp] theorem State.issued_regs (s : State) (u : Agent) : (s.issued u).regs = s.regs := rfl
@[simp] theorem State.issued_staged (s : State) (u : Agent) : (s.issued u).staged = s.staged := rfl
@[simp] theorem State.issued_sheet (s : State) (u : Agent) : (s.issued u).sheet = s.sheet := rfl
@[simp] theorem State.issued_proc (s : State) (u : Agent) : (s.issued u).proc = s.proc := rfl
@[simp] theorem State.issued_trp (s : State) (u : Agent) : (s.issued u).trp = s.trp := rfl
@[simp] theorem State.issued_book (s : State) (u : Agent) : (s.issued u).book = s.book := rfl
@[simp] theorem State.issued_xlt (s : State) (u : Agent) : (s.issued u).xlt = s.xlt := rfl
@[simp] theorem State.issued_store (s : State) (u : Agent) : (s.issued u).store = s.store := rfl
@[simp] theorem State.issued_coh (s : State) (u : Agent) : (s.issued u).coh = s.coh := rfl
@[simp] theorem State.issued_efh (s : State) (u : Agent) : (s.issued u).efh = s.efh := rfl
@[simp] theorem State.issued_sw (s : State) (u : Agent) : (s.issued u).sw = s.sw := rfl
@[simp] theorem State.issued_ord (s : State) (u : Agent) : (s.issued u).ord = s.ord := rfl
@[simp] theorem State.issued_emb (s : State) (u : Agent) : (s.issued u).emb = s.emb := rfl
@[simp] theorem State.issued_srch (s : State) (u : Agent) : (s.issued u).srch = s.srch := rfl
@[simp] theorem State.issued_ev (s : State) (u : Agent) : (s.issued u).ev = s.ev := rfl
@[simp] theorem State.issued_res (s : State) (u : Agent) : (s.issued u).res = s.res := rfl
@[simp] theorem State.issued_hst (s : State) (u : Agent) : (s.issued u).hst = s.hst := rfl
@[simp] theorem State.issued_door (s : State) (u : Agent) : (s.issued u).door = s.door := rfl
@[simp] theorem State.issued_sent (s : State) (u : Agent) : (s.issued u).sent = s.sent := rfl
@[simp] theorem State.issued_free (s : State) (u : Agent) : (s.issued u).free = s.free := rfl

/-- A CE and a control core share no issue slot: that they issue leaves no trace. -/
@[simp] theorem State.issued_ce (s : State) (t : Fin 6400) (c : Fin 48) : s.issued (.ce t c) = s := rfl
@[simp] theorem State.issued_core (s : State) (n : Fin 16) : s.issued (.core n) = s := rfl
@[simp] theorem State.issued_cx (s : State) (u v : Agent) : (s.issued u).cx v = s.cx v := by cases v <;> rfl

/-! ### State.retire -/

@[simp] theorem State.retire_pending (s : State) (u : Agent) (c : Cx) : (s.retire u c).pending = s.pending := rfl
@[simp] theorem State.retire_regs (s : State) (u : Agent) (c : Cx) : (s.retire u c).regs = s.regs := rfl
@[simp] theorem State.retire_staged (s : State) (u : Agent) (c : Cx) : (s.retire u c).staged = s.staged := rfl
@[simp] theorem State.retire_sheet (s : State) (u : Agent) (c : Cx) : (s.retire u c).sheet = s.sheet := rfl
@[simp] theorem State.retire_trp (s : State) (u : Agent) (c : Cx) : (s.retire u c).trp = s.trp := rfl
@[simp] theorem State.retire_book (s : State) (u : Agent) (c : Cx) : (s.retire u c).book = s.book := rfl
@[simp] theorem State.retire_xlt (s : State) (u : Agent) (c : Cx) : (s.retire u c).xlt = s.xlt := rfl
@[simp] theorem State.retire_store (s : State) (u : Agent) (c : Cx) : (s.retire u c).store = s.store := rfl
@[simp] theorem State.retire_coh (s : State) (u : Agent) (c : Cx) : (s.retire u c).coh = s.coh := rfl
@[simp] theorem State.retire_efh (s : State) (u : Agent) (c : Cx) : (s.retire u c).efh = s.efh := rfl
@[simp] theorem State.retire_sw (s : State) (u : Agent) (c : Cx) : (s.retire u c).sw = s.sw := rfl
@[simp] theorem State.retire_ord (s : State) (u : Agent) (c : Cx) : (s.retire u c).ord = s.ord := rfl
@[simp] theorem State.retire_emb (s : State) (u : Agent) (c : Cx) : (s.retire u c).emb = s.emb := rfl
@[simp] theorem State.retire_srch (s : State) (u : Agent) (c : Cx) : (s.retire u c).srch = s.srch := rfl
@[simp] theorem State.retire_ev (s : State) (u : Agent) (c : Cx) : (s.retire u c).ev = s.ev := rfl
@[simp] theorem State.retire_res (s : State) (u : Agent) (c : Cx) : (s.retire u c).res = s.res := rfl
@[simp] theorem State.retire_hst (s : State) (u : Agent) (c : Cx) : (s.retire u c).hst = s.hst := rfl
@[simp] theorem State.retire_door (s : State) (u : Agent) (c : Cx) : (s.retire u c).door = s.door := rfl
@[simp] theorem State.retire_sent (s : State) (u : Agent) (c : Cx) : (s.retire u c).sent = s.sent := rfl
@[simp] theorem State.retire_free (s : State) (u : Agent) (c : Cx) : (s.retire u c).free = s.free := rfl

/-! ### State.setTroupe -/

@[simp] theorem State.setTroupe_pending (s : State) (t : Nat) (x : Troupe) : (s.setTroupe t x).pending = s.pending := rfl
@[simp] theorem State.setTroupe_regs (s : State) (t : Nat) (x : Troupe) : (s.setTroupe t x).regs = s.regs := rfl
@[simp] theorem State.setTroupe_staged (s : State) (t : Nat) (x : Troupe) : (s.setTroupe t x).staged = s.staged := rfl
@[simp] theorem State.setTroupe_sheet (s : State) (t : Nat) (x : Troupe) : (s.setTroupe t x).sheet = s.sheet := rfl
@[simp] theorem State.setTroupe_proc (s : State) (t : Nat) (x : Troupe) : (s.setTroupe t x).proc = s.proc := rfl
@[simp] theorem State.setTroupe_book (s : State) (t : Nat) (x : Troupe) : (s.setTroupe t x).book = s.book := rfl
@[simp] theorem State.setTroupe_cour (s : State) (t : Nat) (x : Troupe) : (s.setTroupe t x).cour = s.cour := rfl
@[simp] theorem State.setTroupe_xlt (s : State) (t : Nat) (x : Troupe) : (s.setTroupe t x).xlt = s.xlt := rfl
@[simp] theorem State.setTroupe_store (s : State) (t : Nat) (x : Troupe) : (s.setTroupe t x).store = s.store := rfl
@[simp] theorem State.setTroupe_coh (s : State) (t : Nat) (x : Troupe) : (s.setTroupe t x).coh = s.coh := rfl
@[simp] theorem State.setTroupe_efh (s : State) (t : Nat) (x : Troupe) : (s.setTroupe t x).efh = s.efh := rfl
@[simp] theorem State.setTroupe_sw (s : State) (t : Nat) (x : Troupe) : (s.setTroupe t x).sw = s.sw := rfl
@[simp] theorem State.setTroupe_ord (s : State) (t : Nat) (x : Troupe) : (s.setTroupe t x).ord = s.ord := rfl
@[simp] theorem State.setTroupe_emb (s : State) (t : Nat) (x : Troupe) : (s.setTroupe t x).emb = s.emb := rfl
@[simp] theorem State.setTroupe_srch (s : State) (t : Nat) (x : Troupe) : (s.setTroupe t x).srch = s.srch := rfl
@[simp] theorem State.setTroupe_ev (s : State) (t : Nat) (x : Troupe) : (s.setTroupe t x).ev = s.ev := rfl
@[simp] theorem State.setTroupe_res (s : State) (t : Nat) (x : Troupe) : (s.setTroupe t x).res = s.res := rfl
@[simp] theorem State.setTroupe_hst (s : State) (t : Nat) (x : Troupe) : (s.setTroupe t x).hst = s.hst := rfl
@[simp] theorem State.setTroupe_door (s : State) (t : Nat) (x : Troupe) : (s.setTroupe t x).door = s.door := rfl
@[simp] theorem State.setTroupe_sent (s : State) (t : Nat) (x : Troupe) : (s.setTroupe t x).sent = s.sent := rfl
@[simp] theorem State.setTroupe_free (s : State) (t : Nat) (x : Troupe) : (s.setTroupe t x).free = s.free := rfl

/-! ### State.setCtx -/

@[simp] theorem State.setCtx_pending (s : State) (k : Nat) (c : Ctx) : (s.setCtx k c).pending = s.pending := rfl
@[simp] theorem State.setCtx_regs (s : State) (k : Nat) (c : Ctx) : (s.setCtx k c).regs = s.regs := rfl
@[simp] theorem State.setCtx_staged (s : State) (k : Nat) (c : Ctx) : (s.setCtx k c).staged = s.staged := rfl
@[simp] theorem State.setCtx_sheet (s : State) (k : Nat) (c : Ctx) : (s.setCtx k c).sheet = s.sheet := rfl
@[simp] theorem State.setCtx_proc (s : State) (k : Nat) (c : Ctx) : (s.setCtx k c).proc = s.proc := rfl
@[simp] theorem State.setCtx_trp (s : State) (k : Nat) (c : Ctx) : (s.setCtx k c).trp = s.trp := rfl
@[simp] theorem State.setCtx_book (s : State) (k : Nat) (c : Ctx) : (s.setCtx k c).book = s.book := rfl
@[simp] theorem State.setCtx_xlt (s : State) (k : Nat) (c : Ctx) : (s.setCtx k c).xlt = s.xlt := rfl
@[simp] theorem State.setCtx_store (s : State) (k : Nat) (c : Ctx) : (s.setCtx k c).store = s.store := rfl
@[simp] theorem State.setCtx_coh (s : State) (k : Nat) (c : Ctx) : (s.setCtx k c).coh = s.coh := rfl
@[simp] theorem State.setCtx_efh (s : State) (k : Nat) (c : Ctx) : (s.setCtx k c).efh = s.efh := rfl
@[simp] theorem State.setCtx_sw (s : State) (k : Nat) (c : Ctx) : (s.setCtx k c).sw = s.sw := rfl
@[simp] theorem State.setCtx_ord (s : State) (k : Nat) (c : Ctx) : (s.setCtx k c).ord = s.ord := rfl
@[simp] theorem State.setCtx_emb (s : State) (k : Nat) (c : Ctx) : (s.setCtx k c).emb = s.emb := rfl
@[simp] theorem State.setCtx_srch (s : State) (k : Nat) (c : Ctx) : (s.setCtx k c).srch = s.srch := rfl
@[simp] theorem State.setCtx_ev (s : State) (k : Nat) (c : Ctx) : (s.setCtx k c).ev = s.ev := rfl
@[simp] theorem State.setCtx_res (s : State) (k : Nat) (c : Ctx) : (s.setCtx k c).res = s.res := rfl
@[simp] theorem State.setCtx_hst (s : State) (k : Nat) (c : Ctx) : (s.setCtx k c).hst = s.hst := rfl
@[simp] theorem State.setCtx_door (s : State) (k : Nat) (c : Ctx) : (s.setCtx k c).door = s.door := rfl
@[simp] theorem State.setCtx_sent (s : State) (k : Nat) (c : Ctx) : (s.setCtx k c).sent = s.sent := rfl
@[simp] theorem State.setCtx_free (s : State) (k : Nat) (c : Ctx) : (s.setCtx k c).free = s.free := rfl

/-! ### State.sramWrite -/

@[simp] theorem State.sramWrite_pending (s : State) (t a : Nat) (bs : List Byte) : (s.sramWrite t a bs).pending = s.pending := rfl
@[simp] theorem State.sramWrite_regs (s : State) (t a : Nat) (bs : List Byte) : (s.sramWrite t a bs).regs = s.regs := rfl
@[simp] theorem State.sramWrite_staged (s : State) (t a : Nat) (bs : List Byte) : (s.sramWrite t a bs).staged = s.staged := rfl
@[simp] theorem State.sramWrite_sheet (s : State) (t a : Nat) (bs : List Byte) : (s.sramWrite t a bs).sheet = s.sheet := rfl
@[simp] theorem State.sramWrite_proc (s : State) (t a : Nat) (bs : List Byte) : (s.sramWrite t a bs).proc = s.proc := rfl
@[simp] theorem State.sramWrite_book (s : State) (t a : Nat) (bs : List Byte) : (s.sramWrite t a bs).book = s.book := rfl
@[simp] theorem State.sramWrite_cour (s : State) (t a : Nat) (bs : List Byte) : (s.sramWrite t a bs).cour = s.cour := rfl
@[simp] theorem State.sramWrite_xlt (s : State) (t a : Nat) (bs : List Byte) : (s.sramWrite t a bs).xlt = s.xlt := rfl
@[simp] theorem State.sramWrite_store (s : State) (t a : Nat) (bs : List Byte) : (s.sramWrite t a bs).store = s.store := rfl
@[simp] theorem State.sramWrite_coh (s : State) (t a : Nat) (bs : List Byte) : (s.sramWrite t a bs).coh = s.coh := rfl
@[simp] theorem State.sramWrite_efh (s : State) (t a : Nat) (bs : List Byte) : (s.sramWrite t a bs).efh = s.efh := rfl
@[simp] theorem State.sramWrite_sw (s : State) (t a : Nat) (bs : List Byte) : (s.sramWrite t a bs).sw = s.sw := rfl
@[simp] theorem State.sramWrite_ord (s : State) (t a : Nat) (bs : List Byte) : (s.sramWrite t a bs).ord = s.ord := rfl
@[simp] theorem State.sramWrite_emb (s : State) (t a : Nat) (bs : List Byte) : (s.sramWrite t a bs).emb = s.emb := rfl
@[simp] theorem State.sramWrite_srch (s : State) (t a : Nat) (bs : List Byte) : (s.sramWrite t a bs).srch = s.srch := rfl
@[simp] theorem State.sramWrite_ev (s : State) (t a : Nat) (bs : List Byte) : (s.sramWrite t a bs).ev = s.ev := rfl
@[simp] theorem State.sramWrite_res (s : State) (t a : Nat) (bs : List Byte) : (s.sramWrite t a bs).res = s.res := rfl
@[simp] theorem State.sramWrite_hst (s : State) (t a : Nat) (bs : List Byte) : (s.sramWrite t a bs).hst = s.hst := rfl
@[simp] theorem State.sramWrite_door (s : State) (t a : Nat) (bs : List Byte) : (s.sramWrite t a bs).door = s.door := rfl
@[simp] theorem State.sramWrite_sent (s : State) (t a : Nat) (bs : List Byte) : (s.sramWrite t a bs).sent = s.sent := rfl
@[simp] theorem State.sramWrite_free (s : State) (t a : Nat) (bs : List Byte) : (s.sramWrite t a bs).free = s.free := rfl

/-! ### Cx.setS -/

@[simp] theorem Cx.setS_v (x : Cx) (n y : Nat) : (x.setS n y).v = x.v := rfl
@[simp] theorem Cx.setS_a (x : Cx) (n y : Nat) : (x.setS n y).a = x.a := rfl
@[simp] theorem Cx.setS_p (x : Cx) (n y : Nat) : (x.setS n y).p = x.p := rfl
@[simp] theorem Cx.setS_tl (x : Cx) (n y : Nat) : (x.setS n y).tl = x.tl := rfl
@[simp] theorem Cx.setS_tb (x : Cx) (n y : Nat) : (x.setS n y).tb = x.tb := rfl
@[simp] theorem Cx.setS_link (x : Cx) (n y : Nat) : (x.setS n y).link = x.link := rfl
@[simp] theorem Cx.setS_pc (x : Cx) (n y : Nat) : (x.setS n y).pc = x.pc := rfl
@[simp] theorem Cx.setS_len (x : Cx) (n y : Nat) : (x.setS n y).len = x.len := rfl
@[simp] theorem Cx.setS_flags (x : Cx) (n y : Nat) : (x.setS n y).flags = x.flags := rfl
@[simp] theorem Cx.setS_rxinfo (x : Cx) (n y : Nat) : (x.setS n y).rxinfo = x.rxinfo := rfl
@[simp] theorem Cx.setS_st (x : Cx) (n y : Nat) : (x.setS n y).st = x.st := rfl
@[simp] theorem Cx.setS_pend (x : Cx) (n y : Nat) : (x.setS n y).pend = x.pend := rfl
@[simp] theorem Cx.setS_unit (x : Cx) (n y : Nat) : (x.setS n y).unit = x.unit := rfl
@[simp] theorem Cx.setS_dline (x : Cx) (n y : Nat) : (x.setS n y).dline = x.dline := rfl
@[simp] theorem Cx.setS_ddel (x : Cx) (n y : Nat) : (x.setS n y).ddel = x.ddel := rfl
@[simp] theorem Cx.setS_level (x : Cx) (n y : Nat) : (x.setS n y).level = x.level := rfl
@[simp] theorem Cx.setS_part (x : Cx) (n y : Nat) : (x.setS n y).part = x.part := rfl
@[simp] theorem Cx.setS_handler (x : Cx) (n y : Nat) : (x.setS n y).handler = x.handler := rfl
@[simp] theorem Cx.setS_vp (x : Cx) (n y : Nat) : (x.setS n y).vp = x.vp := rfl

/-! ### Cx.setA -/

@[simp] theorem Cx.setA_v (x : Cx) (n y : Nat) : (x.setA n y).v = x.v := rfl
@[simp] theorem Cx.setA_s (x : Cx) (n y : Nat) : (x.setA n y).s = x.s := rfl
@[simp] theorem Cx.setA_p (x : Cx) (n y : Nat) : (x.setA n y).p = x.p := rfl
@[simp] theorem Cx.setA_tl (x : Cx) (n y : Nat) : (x.setA n y).tl = x.tl := rfl
@[simp] theorem Cx.setA_tb (x : Cx) (n y : Nat) : (x.setA n y).tb = x.tb := rfl
@[simp] theorem Cx.setA_link (x : Cx) (n y : Nat) : (x.setA n y).link = x.link := rfl
@[simp] theorem Cx.setA_pc (x : Cx) (n y : Nat) : (x.setA n y).pc = x.pc := rfl
@[simp] theorem Cx.setA_len (x : Cx) (n y : Nat) : (x.setA n y).len = x.len := rfl
@[simp] theorem Cx.setA_flags (x : Cx) (n y : Nat) : (x.setA n y).flags = x.flags := rfl
@[simp] theorem Cx.setA_rxinfo (x : Cx) (n y : Nat) : (x.setA n y).rxinfo = x.rxinfo := rfl
@[simp] theorem Cx.setA_st (x : Cx) (n y : Nat) : (x.setA n y).st = x.st := rfl
@[simp] theorem Cx.setA_pend (x : Cx) (n y : Nat) : (x.setA n y).pend = x.pend := rfl
@[simp] theorem Cx.setA_unit (x : Cx) (n y : Nat) : (x.setA n y).unit = x.unit := rfl
@[simp] theorem Cx.setA_dline (x : Cx) (n y : Nat) : (x.setA n y).dline = x.dline := rfl
@[simp] theorem Cx.setA_ddel (x : Cx) (n y : Nat) : (x.setA n y).ddel = x.ddel := rfl
@[simp] theorem Cx.setA_level (x : Cx) (n y : Nat) : (x.setA n y).level = x.level := rfl
@[simp] theorem Cx.setA_part (x : Cx) (n y : Nat) : (x.setA n y).part = x.part := rfl
@[simp] theorem Cx.setA_handler (x : Cx) (n y : Nat) : (x.setA n y).handler = x.handler := rfl
@[simp] theorem Cx.setA_vp (x : Cx) (n y : Nat) : (x.setA n y).vp = x.vp := rfl

/-! ### Cx.setP -/

@[simp] theorem Cx.setP_v (x : Cx) (n y : Nat) : (x.setP n y).v = x.v := rfl
@[simp] theorem Cx.setP_s (x : Cx) (n y : Nat) : (x.setP n y).s = x.s := rfl
@[simp] theorem Cx.setP_a (x : Cx) (n y : Nat) : (x.setP n y).a = x.a := rfl
@[simp] theorem Cx.setP_tl (x : Cx) (n y : Nat) : (x.setP n y).tl = x.tl := rfl
@[simp] theorem Cx.setP_tb (x : Cx) (n y : Nat) : (x.setP n y).tb = x.tb := rfl
@[simp] theorem Cx.setP_link (x : Cx) (n y : Nat) : (x.setP n y).link = x.link := rfl
@[simp] theorem Cx.setP_pc (x : Cx) (n y : Nat) : (x.setP n y).pc = x.pc := rfl
@[simp] theorem Cx.setP_len (x : Cx) (n y : Nat) : (x.setP n y).len = x.len := rfl
@[simp] theorem Cx.setP_flags (x : Cx) (n y : Nat) : (x.setP n y).flags = x.flags := rfl
@[simp] theorem Cx.setP_rxinfo (x : Cx) (n y : Nat) : (x.setP n y).rxinfo = x.rxinfo := rfl
@[simp] theorem Cx.setP_st (x : Cx) (n y : Nat) : (x.setP n y).st = x.st := rfl
@[simp] theorem Cx.setP_pend (x : Cx) (n y : Nat) : (x.setP n y).pend = x.pend := rfl
@[simp] theorem Cx.setP_unit (x : Cx) (n y : Nat) : (x.setP n y).unit = x.unit := rfl
@[simp] theorem Cx.setP_dline (x : Cx) (n y : Nat) : (x.setP n y).dline = x.dline := rfl
@[simp] theorem Cx.setP_ddel (x : Cx) (n y : Nat) : (x.setP n y).ddel = x.ddel := rfl
@[simp] theorem Cx.setP_level (x : Cx) (n y : Nat) : (x.setP n y).level = x.level := rfl
@[simp] theorem Cx.setP_part (x : Cx) (n y : Nat) : (x.setP n y).part = x.part := rfl
@[simp] theorem Cx.setP_handler (x : Cx) (n y : Nat) : (x.setP n y).handler = x.handler := rfl
@[simp] theorem Cx.setP_vp (x : Cx) (n y : Nat) : (x.setP n y).vp = x.vp := rfl

/-! ### Cx.setL -/

@[simp] theorem Cx.setL_s (x : Cx) (n l y : Nat) : (x.setL n l y).s = x.s := rfl
@[simp] theorem Cx.setL_a (x : Cx) (n l y : Nat) : (x.setL n l y).a = x.a := rfl
@[simp] theorem Cx.setL_p (x : Cx) (n l y : Nat) : (x.setL n l y).p = x.p := rfl
@[simp] theorem Cx.setL_tl (x : Cx) (n l y : Nat) : (x.setL n l y).tl = x.tl := rfl
@[simp] theorem Cx.setL_tb (x : Cx) (n l y : Nat) : (x.setL n l y).tb = x.tb := rfl
@[simp] theorem Cx.setL_link (x : Cx) (n l y : Nat) : (x.setL n l y).link = x.link := rfl
@[simp] theorem Cx.setL_pc (x : Cx) (n l y : Nat) : (x.setL n l y).pc = x.pc := rfl
@[simp] theorem Cx.setL_len (x : Cx) (n l y : Nat) : (x.setL n l y).len = x.len := rfl
@[simp] theorem Cx.setL_flags (x : Cx) (n l y : Nat) : (x.setL n l y).flags = x.flags := rfl
@[simp] theorem Cx.setL_rxinfo (x : Cx) (n l y : Nat) : (x.setL n l y).rxinfo = x.rxinfo := rfl
@[simp] theorem Cx.setL_st (x : Cx) (n l y : Nat) : (x.setL n l y).st = x.st := rfl
@[simp] theorem Cx.setL_pend (x : Cx) (n l y : Nat) : (x.setL n l y).pend = x.pend := rfl
@[simp] theorem Cx.setL_unit (x : Cx) (n l y : Nat) : (x.setL n l y).unit = x.unit := rfl
@[simp] theorem Cx.setL_dline (x : Cx) (n l y : Nat) : (x.setL n l y).dline = x.dline := rfl
@[simp] theorem Cx.setL_ddel (x : Cx) (n l y : Nat) : (x.setL n l y).ddel = x.ddel := rfl
@[simp] theorem Cx.setL_level (x : Cx) (n l y : Nat) : (x.setL n l y).level = x.level := rfl
@[simp] theorem Cx.setL_part (x : Cx) (n l y : Nat) : (x.setL n l y).part = x.part := rfl
@[simp] theorem Cx.setL_handler (x : Cx) (n l y : Nat) : (x.setL n l y).handler = x.handler := rfl

/-! ### Cx.orFlags -/

@[simp] theorem Cx.orFlags_v (x : Cx) (y : Nat) : (x.orFlags y).v = x.v := rfl
@[simp] theorem Cx.orFlags_s (x : Cx) (y : Nat) : (x.orFlags y).s = x.s := rfl
@[simp] theorem Cx.orFlags_a (x : Cx) (y : Nat) : (x.orFlags y).a = x.a := rfl
@[simp] theorem Cx.orFlags_p (x : Cx) (y : Nat) : (x.orFlags y).p = x.p := rfl
@[simp] theorem Cx.orFlags_tl (x : Cx) (y : Nat) : (x.orFlags y).tl = x.tl := rfl
@[simp] theorem Cx.orFlags_tb (x : Cx) (y : Nat) : (x.orFlags y).tb = x.tb := rfl
@[simp] theorem Cx.orFlags_link (x : Cx) (y : Nat) : (x.orFlags y).link = x.link := rfl
@[simp] theorem Cx.orFlags_pc (x : Cx) (y : Nat) : (x.orFlags y).pc = x.pc := rfl
@[simp] theorem Cx.orFlags_len (x : Cx) (y : Nat) : (x.orFlags y).len = x.len := rfl
@[simp] theorem Cx.orFlags_rxinfo (x : Cx) (y : Nat) : (x.orFlags y).rxinfo = x.rxinfo := rfl
@[simp] theorem Cx.orFlags_st (x : Cx) (y : Nat) : (x.orFlags y).st = x.st := rfl
@[simp] theorem Cx.orFlags_pend (x : Cx) (y : Nat) : (x.orFlags y).pend = x.pend := rfl
@[simp] theorem Cx.orFlags_unit (x : Cx) (y : Nat) : (x.orFlags y).unit = x.unit := rfl
@[simp] theorem Cx.orFlags_dline (x : Cx) (y : Nat) : (x.orFlags y).dline = x.dline := rfl
@[simp] theorem Cx.orFlags_ddel (x : Cx) (y : Nat) : (x.orFlags y).ddel = x.ddel := rfl
@[simp] theorem Cx.orFlags_level (x : Cx) (y : Nat) : (x.orFlags y).level = x.level := rfl
@[simp] theorem Cx.orFlags_part (x : Cx) (y : Nat) : (x.orFlags y).part = x.part := rfl
@[simp] theorem Cx.orFlags_handler (x : Cx) (y : Nat) : (x.orFlags y).handler = x.handler := rfl
@[simp] theorem Cx.orFlags_vp (x : Cx) (y : Nat) : (x.orFlags y).vp = x.vp := rfl

/-! ### Cx.setT -/

@[simp] theorem Cx.setT_v (x : Cx) (t l : Nat) (y : TLane) : (x.setT t l y).v = x.v := rfl
@[simp] theorem Cx.setT_s (x : Cx) (t l : Nat) (y : TLane) : (x.setT t l y).s = x.s := rfl
@[simp] theorem Cx.setT_a (x : Cx) (t l : Nat) (y : TLane) : (x.setT t l y).a = x.a := rfl
@[simp] theorem Cx.setT_p (x : Cx) (t l : Nat) (y : TLane) : (x.setT t l y).p = x.p := rfl
@[simp] theorem Cx.setT_tb (x : Cx) (t l : Nat) (y : TLane) : (x.setT t l y).tb = x.tb := rfl
@[simp] theorem Cx.setT_link (x : Cx) (t l : Nat) (y : TLane) : (x.setT t l y).link = x.link := rfl
@[simp] theorem Cx.setT_pc (x : Cx) (t l : Nat) (y : TLane) : (x.setT t l y).pc = x.pc := rfl
@[simp] theorem Cx.setT_len (x : Cx) (t l : Nat) (y : TLane) : (x.setT t l y).len = x.len := rfl
@[simp] theorem Cx.setT_flags (x : Cx) (t l : Nat) (y : TLane) : (x.setT t l y).flags = x.flags := rfl
@[simp] theorem Cx.setT_rxinfo (x : Cx) (t l : Nat) (y : TLane) : (x.setT t l y).rxinfo = x.rxinfo := rfl
@[simp] theorem Cx.setT_st (x : Cx) (t l : Nat) (y : TLane) : (x.setT t l y).st = x.st := rfl
@[simp] theorem Cx.setT_pend (x : Cx) (t l : Nat) (y : TLane) : (x.setT t l y).pend = x.pend := rfl
@[simp] theorem Cx.setT_unit (x : Cx) (t l : Nat) (y : TLane) : (x.setT t l y).unit = x.unit := rfl
@[simp] theorem Cx.setT_dline (x : Cx) (t l : Nat) (y : TLane) : (x.setT t l y).dline = x.dline := rfl
@[simp] theorem Cx.setT_ddel (x : Cx) (t l : Nat) (y : TLane) : (x.setT t l y).ddel = x.ddel := rfl
@[simp] theorem Cx.setT_level (x : Cx) (t l : Nat) (y : TLane) : (x.setT t l y).level = x.level := rfl
@[simp] theorem Cx.setT_part (x : Cx) (t l : Nat) (y : TLane) : (x.setT t l y).part = x.part := rfl
@[simp] theorem Cx.setT_handler (x : Cx) (t l : Nat) (y : TLane) : (x.setT t l y).handler = x.handler := rfl
@[simp] theorem Cx.setT_vp (x : Cx) (t l : Nat) (y : TLane) : (x.setT t l y).vp = x.vp := rfl

/-! ### What a read gives after a write -/

/-- Registers read back what is written, cut to the field's width; every other field reads as before: in any state. -/
theorem State.rd_wr (s : State) (f : Fld) (x : Nat) (g : Fld) (hr : f.reset = g.reset ∨ f.key ≠ g.key) :
    (s.wr f x).rd g = if g.key = f.key then x % 2 ^ f.width else s.rd g := by
  unfold State.rd State.wr
  rcases hr with hr | hr
  · simp only [hr]
    exact SMap.getD_setD _ _ _ _ _
  · have h1 : g.key ≠ f.key := fun e => hr e.symm
    simp only [h1, if_false]
    by_cases hx : x % 2 ^ f.width = f.reset
    · simp only [SMap.setD, hx, if_true, SMap.getD, SMap.find?_erase_ne h1]
    · simp only [SMap.setD, hx, if_false, SMap.getD, SMap.find?_insert_ne _ h1]

/-- A register reads back what is written. -/
@[simp] theorem State.rd_wr_self (s : State) (f : Fld) (x : Nat) : (s.wr f x).rd f = x % 2 ^ f.width := by
  simp [State.rd_wr s f x f (.inl rfl)]

/-- A write of one field leaves every other field as it was. -/
theorem State.rd_wr_ne (s : State) {f g : Fld} (x : Nat) (hg : f.key ≠ g.key) : (s.wr f x).rd g = s.rd g := by
  rw [State.rd_wr s f x g (.inr hg), if_neg (fun e => hg e.symm)]

/-- A write of one field leaves every other flag as it was. -/
theorem State.is1_wr_ne (s : State) {f g : Fld} (x : Nat) (hg : f.key ≠ g.key) : (s.wr f x).is1 g = s.is1 g := by
  simp only [State.is1, State.rd_wr_ne s x hg]

theorem State.wr_sorted {s : State} (h : s.regs.sorted = true) (f : Fld) (x : Nat) : (s.wr f x).regs.sorted = true :=
  SMap.sorted_setD _ _ _ h

/-- s[n] reads back what is written modulo 2^32, and no other s register changes. -/
theorem Cx.sr_setS (x : Cx) (d y n : Nat) :
    (x.setS d y).sr n = if n = d then y % 2 ^ 32 else x.sr n := by
  simp only [Cx.sr, Cx.setS, SMap.getD_setD]
  split <;> simp

/-- a[n] reads back what is written modulo 2^64, and no other a register changes. -/
theorem Cx.ar_setA (x : Cx) (d y n : Nat) :
    (x.setA d y).ar n = if n = d then y % 2 ^ 64 else x.ar n := by
  simp only [Cx.ar, Cx.setA, SMap.getD_setD]
  split <;> simp

/-- p[n] reads back what is written modulo 2^16, and no other p register changes. -/
theorem Cx.pr_setP (x : Cx) (d y n : Nat) :
    (x.setP d y).pr n = if n = d then y % 2 ^ 16 else x.pr n := by
  simp only [Cx.pr, Cx.setP, SMap.getD_setD]
  split <;> simp

/-- A lane reads back what is written modulo 2^32, and no other lane of any v register changes. -/
theorem Cx.vl_setL (x : Cx) (d k y n l : Nat) :
    (x.setL d k y).vl n l = if 16 * n + l = 16 * d + k then y % 2 ^ 32 else x.vl n l := by
  simp only [Cx.vl, Cx.setL, SMap.getD_setD]
  split <;> simp

theorem cxReset_st (k : Nat) : (cxReset k).st ≠ .run := by
  unfold cxReset
  split
  · decide
  · split <;> decide

/-- A running context that is written is what the agent then has: in any state. -/
theorem State.cx_setCx_run (s : State) (u : Agent) (y : Cx) (h : y.st = .run) : (s.setCx u y).cx u = y := by
  have hy : y ≠ cxReset (agentKey u) := fun e => cxReset_st _ (e ▸ h)
  exact SMap.getD_setD_self _ _ _ _ hy

/-- Of two writes of one running context the second stands. -/
theorem State.setCx_setCx_run (s : State) (u : Agent) (y z : Cx) (hy : y.st = .run) (hz : z.st = .run) :
    (s.setCx u y).setCx u z = s.setCx u z := by
  have h1 : y ≠ cxReset (agentKey u) := fun e => cxReset_st _ (e ▸ hy)
  have h2 : z ≠ cxReset (agentKey u) := fun e => cxReset_st _ (e ▸ hz)
  simp [State.setCx, State.setCxAt, SMap.setD, h1, h2]

/-- A context reads back what is written and no other context changes: in any state. -/
theorem State.cxAt_setCxAt (s : State) (k : Nat) (y : Cx) (j : Nat) : (s.setCxAt k y).cxAt j = if j = k then y else s.cxAt j := by
  unfold State.cxAt State.setCxAt
  by_cases hj : j = k
  · subst hj
    simp [SMap.getD_setD]
  · simp only [hj, if_false]
    by_cases hy : y = cxReset k
    · simp only [SMap.setD, hy, if_true, SMap.getD, SMap.find?_erase_ne hj]
    · simp only [SMap.setD, hy, if_false, SMap.getD, SMap.find?_insert_ne _ hj]

/-- A context reads back what is written. -/
@[simp] theorem State.cxAt_setCxAt_self (s : State) (k : Nat) (y : Cx) : (s.setCxAt k y).cxAt k = y := by
  simp [State.cxAt_setCxAt]

end Sys2Proof.Machine
end

