-- ==== Sys2Proof/Laws/Issue.lean ====
section
/-!
SUPPORT. The issue of an instruction, once and for all: what it does where it issues, and what an illegal, overrun, held or masked
instruction does.
-/

namespace Sys2Proof.Machine

/-- Where an instruction issues and executes, its body alone decides what happens: everything the issue path can do. -/
theorem issueW_issues {u : Agent} {e : Enc} {f : BitVec 52} {ok wh : Bool} {w : CxSt} {b : Cx → State → Body} {s : State}
    (h : Issues e ok u f s) (hm : wh = true → Enabled u f s) :
    issueW u e f ok wh w b s = match b (s.cx u) s with
      | .go s' => s'.advance u
      | .br s' target =>
        if (s.cx u).len ≤ target then s.exception u 2 target
        else (s'.setCx u { s'.cx u with pc := target, st := .run }).issued u
      | .wait s' st => s'.setCx u { s'.cx u with st := st }
      | .exc c d => s.exception u c d := by
  obtain ⟨a1, a2, a3, a4, a5, a6, a7, a8⟩ := h
  have q : (s.cx u).waits e f = false := by
    simp only [Cx.waits, List.any_eq_false]
    intro x hx
    simpa using a8 x hx
  have q2 : (s.cx u).masked f wh = false := by
    cases wh
    · rfl
    · simpa [Enabled, Cx.masked] using hm rfl
  have q3 : (s.cx u).canIssue w = true := by simp [Cx.canIssue, a4]
  have q4 : s.issueFault u e f ok = none := by simp [State.issueFault, a5, a6, Nat.not_le.mpr a7, a3]
  simp only [issueW, a1, a2, q, q2, q3, q4, Bool.not_true, Bool.false_eq_true, or_self, if_false] <;>
    cases b (s.cx u) s <;> rfl

/-- An illegal word raises ILLEGAL and does nothing else. -/
theorem issueW_illegal {u : Agent} {e : Enc} {f : BitVec 52} {ok wh : Bool} {w : CxSt} {b : Cx → State → Body} {s : State}
    (h1 : s.halted = false) (h0 : s.mayIssue u = true) (h2 : (s.cx u).st = .run) (h3 : (e.legal (agentProfile u) f && ok) = false) :
    issueW u e f ok wh w b s = s.exception u 1 (e.major * 2 ^ 26 + e.minor * 2 ^ 20 + f.toNat / 2 ^ 32) := by
  simp [issueW, State.issueFault, h0, h1, h2, h3, Cx.canIssue]

/-- A retirement after a change of the agent's own context is one write of that context. -/
theorem State.advance_setCx {s : State} {u : Agent} {y : Cx} (h : (s.cx u).st = .run) (h1 : y.pc = (s.cx u).pc)
    (h2 : y.st = (s.cx u).st) : (s.setCx u y).advance u = s.retire u y := by
  have hy : y.st = .run := h2.trans h
  have e : (s.setCx u y).cx u = y := State.cx_setCx_run s u y hy
  simp only [State.advance, e, hy, h1, State.retire]
  exact congrArg (State.issued · u) (State.setCx_setCx_run s u _ _ hy rfl)

/-- An instruction that changes its own context alone gives what its operation gives. -/
theorem gives_of_issueR {i : Agent → BitVec 52 → Instr} {e : Enc} {ok : Nat → BitVec 52 → Bool} {op : BitVec 52 → Cx → Cx}
    (hx : ∀ u f s, exec (i u f) s = .next (issueR u e f (ok (agentProfile u) f) (op f) s))
    (h1 : ∀ f x, (op f x).pc = x.pc) (h2 : ∀ f x, (op f x).st = x.st) : Gives i e ok op := by
  intro u f s hI hE
  rw [hx, issueR, issue, issueW_issues hI (fun _ => hE)]
  simp only [State.advance_setCx hI.2.2.2.1 (h1 _ _) (h2 _ _)]

/-- The same for a lane-wise instruction. -/
theorem gives_of_issueV {i : Agent → BitVec 52 → Instr} {e : Enc} {ok : Nat → BitVec 52 → Bool} {op : BitVec 52 → Cx → Cx}
    (hx : ∀ u f s, exec (i u f) s = .next (issueV u e f (ok (agentProfile u) f) (op f) s))
    (h1 : ∀ f x, (op f x).pc = x.pc) (h2 : ∀ f x, (op f x).st = x.st) : GivesLanes i e ok op := by
  intro u f s hI
  rw [hx, issueV, issueL, issueW_issues hI (by simp)]
  simp only [State.advance_setCx hI.2.2.2.1 (h1 _ _) (h2 _ _)]

end Sys2Proof.Machine
end

