-- ==== Sys2Proof/Laws/Memory.lean ====
section
/-!
SUPPORT. Laws of the memories: what a byte reads as after a store, and that every operation on a memory keeps its canonical form.
-/

namespace Sys2Proof.Machine

/-- A store keeps the canonical form of a memory. -/
theorem Memory.wf_store {m : Memory} (bs : List Byte) (a : Nat) (h : m.wf = true) : (Memory.store m a bs).wf = true := by
  induction bs generalizing m a with
  | nil => exact h
  | cons b bs ih => exact ih _ (SMap.wf_setD a b h)

/-- Keeping part of a memory keeps its canonical form. -/
theorem Memory.wf_filter {m : Memory} (p : Host.Cell → Bool) (h : m.wf = true) : Memory.wf (List.filter p m) = true :=
  SMap.wf_filter p h

/-- A memory in its canonical form lists rising addresses. -/
theorem Memory.sorted_of_wf {m : Memory} (h : m.wf = true) : SMap.sorted m = true := (SMap.wf_iff.mp h).1

/-- What one byte reads as after a store: the stored byte within the stored range, what it read as before elsewhere. -/
theorem Memory.getD_store {m : Memory} (bs : List Byte) (a j : Nat) :
    SMap.getD (Memory.store m a bs) j 0 = if a ≤ j ∧ j < a + bs.length then bs.getD (j - a) 0 else SMap.getD m j 0 := by
  induction bs generalizing m a with
  | nil =>
    simp [Memory.store]
  | cons b bs ih =>
    simp only [Memory.store, ih (a + 1), SMap.getD_setD, List.length_cons]
    by_cases h1 : j = a
    · subst h1
      have h3 : j ≤ j ∧ j < j + (bs.length + 1) := by omega
      simp [h3]
    · by_cases h2 : a + 1 ≤ j ∧ j < a + 1 + bs.length
      · have h3 : a ≤ j ∧ j < a + (bs.length + 1) := by omega
        have h4 : j - a = (j - (a + 1)) + 1 := by omega
        simp [h2, h3, h4]
      · have h3 : ¬(a ≤ j ∧ j < a + (bs.length + 1)) := by omega
        rw [if_neg h2, if_neg h1, if_neg h3]

/-- Troupe SRAM: a store keeps every memory of the state canonical. -/
theorem State.sramWrite_canonical {s : State} (h : s.Canonical) (t a : Nat) (bs : List Byte) : (s.sramWrite t a bs).Canonical where
  sram := Memory.wf_store bs _ h.sram
  live := h.live
  staged := h.staged
  slot := h.slot
  loc := h.loc
  mem := h.mem
  regs := h.regs

/-- A register write keeps every memory of the state canonical. -/
theorem State.wr_canonical {s : State} (h : s.Canonical) (f : Fld) (x : Nat) : (s.wr f x).Canonical where
  sram := h.sram
  live := h.live
  staged := h.staged
  slot := h.slot
  loc := h.loc
  mem := h.mem
  regs := SMap.sorted_setD _ _ _ h.regs

end Sys2Proof.Machine
end

