-- ==== Sys2Proof/WellFormed.lean ====
section
/-!
DEFINITION. Which commands are well formed: every operand list has a length that the spec allows. Operands of fixed width need no
check, since their types hold only the values of their fields. A command that is not well formed still has a meaning (exec is total); it
is no command that an agent of the spec sends.
-/

namespace Sys2Proof

/-- R392: a CRED entry gives back 0 to 6,144 credits. -/
def credFits (e : BitVec 13 × Fin 64 × BitVec 13) : Bool := decide (e.2.2.toNat ≤ 6144)

/-- R236, R259: the initial copy of a unit is its 65,536 B. -/
def MirrorMsg.wf : MirrorMsg → Bool
  | .line _ _ _ => true
  | .whole bs _ => bs.length == 65536

/-- R259, R473: a mirror slot holds the 1,024 lines of a unit. -/
def slotFits : Option (List (BitVec 512 × Byte)) → Bool
  | none => true
  | some ls => ls.length == 1024

/-- Whether a command is well formed: the lengths of its lists are those the spec gives. -/
def Instr.wf : Instr → Bool
  | .credParcel _ pairs => decide (pairs.length ≤ 16)
  | .fabricCred _ es => decide (es.length ≤ 16) && es.all credFits
  | .mirrorWr _ _ _ _ m => m.wf
  | .hotRowLanded _ _ data _ => data.length % 16 == 0
  | .rowResult _ _ _ data => data.length % 16 == 0
  | .shardResult _ _ _ _ _ _ l => decide (l.length ≤ 1024)
  | .restoreGo _ slots => slots.all slotFits
  | .memoryWrite _ bs _ => decide (1 ≤ bs.length) && decide (bs.length ≤ 512)
  | .stageDoorRound ts vs _ _ => ts.length == 224 && vs.length == 224
  | _ => true

end Sys2Proof
end

