-- ==== Sys2Proof/Laws/PerInstr.lean ====
section
/-!
SUPPORT. One lemma per command: the name of the command, and its place in the order of the table of commands.
-/

namespace Sys2Proof.Laws.CommandName

/-- Rows 0 to 23 of the table of commands. -/
def rows0 : List String :=
  ["CUE_START", "LEDGER_ROUTE_RESET", "WORK_START", "GUARD_START", "STAGED_WRITE", "CS_CHECK_GO", "CHECK_DONE", "CS_TAKE_CUE_WRITE",
   "CS_ABANDON_GO", "CUE_SYNC", "UNIT_START", "DELIVERY_MISS", "COMPLETION_MISS", "UNDERSTUDY_LEAD_MISS", "MESH_PARCEL_ARRIVAL",
   "HOP_CREDIT_RETURN", "CRED_PARCEL", "CANCEL", "STATUS_RECORD_ARRIVAL", "CE_LOGIC_FAULT", "TRP_RETIRE_GO", "CLOCK_GATE", "NOP", "END"]

/-- Rows 24 to 47 of the table of commands. -/
def rows1 : List String :=
  ["BR", "BRZ", "BRNZ", "CALL", "RET", "LOOP", "WAITCUE", "WAITCUE_RESUME", "DLBR", "MFS", "MTS", "SEND", "RECV", "CREDQ", "RXQ", "PAND",
   "POR", "PXOR", "PANDN", "PNOT", "PANY", "PCNT", "PFIRST", "ADD"]

/-- Rows 48 to 71 of the table of commands. -/
def rows2 : List String :=
  ["SUB", "MUL", "MULH", "AND", "OR", "XOR", "SHL", "SHR", "SRA", "MIN", "MAX", "SLT", "SEQ", "CLZ", "POPC", "ADDI", "MULI", "ANDI", "ORI",
   "XORI", "SHLI", "SHRI", "SRAI", "SLTI"]

/-- Rows 72 to 95 of the table of commands. -/
def rows3 : List String :=
  ["SLTIU", "SEQI", "LI", "AADD", "ASUB", "AADDS", "ASHL", "ASHR", "AAND", "AOR", "AXOR", "ALTU", "AEQ", "AADDI", "ALO", "AHI", "S2A", "A2S",
   "V2S", "S2V", "VMOV", "S2P", "P2S", "SMOV"]

/-- Rows 96 to 119 of the table of commands. -/
def rows4 : List String :=
  ["AMOV", "VADD", "VSUB", "VMUL", "VMULH", "VMIN", "VMAX", "VAND", "VOR", "VXOR", "VSHL", "VSHR", "VSRA", "VCMP", "VADDS", "VPOPC", "VFADD",
   "VFSUB", "VFMUL", "VFMA", "VFMIN", "VFMAX", "VFABS", "VFNEG"]

/-- Rows 120 to 143 of the table of commands. -/
def rows5 : List String :=
  ["VFCMP", "VFEXP2", "VFLOG2", "VFRCP", "VFRSQ", "VFSQRT", "VFSCL", "CVT", "DEC", "QMX", "QPS4", "VBCAST", "VSPLAT", "VPERM", "VROT", "VMINL",
   "VSUML", "TDOT", "TDOTB", "TDOTS", "TADD", "TBASE", "TMERGE", "TPACK"]

/-- Rows 144 to 167 of the table of commands. -/
def rows6 : List String :=
  ["TCVT", "TSTORE", "XPOPL", "HDIST", "LDV", "LDVI", "LDW", "LDA", "LDG", "LDP", "STV", "STVI", "STW", "STA", "STSC", "TBAR", "PBV", "PBVI",
   "PBW", "PBG", "GLD", "GST", "GQ", "GMEM_COMPLETE"]

/-- Rows 168 to 191 of the table of commands. -/
def rows7 : List String :=
  ["ATOM_AADD", "AMIN", "AMAX", "ATOM_AAND", "ATOM_AOR", "ATOM_AXOR", "ASWAP", "ACAS", "ACAS128", "ATOM_COMPLETE", "SLOAD", "SSTORE", "SDLV",
   "SLDV", "SSTV", "SUNIT", "DCMP", "ENC", "PTRX", "CRC64", "EVCLAIM", "EVCLAIM_COMMIT", "EVDONE", "WFE"]

/-- Rows 192 to 215 of the table of commands. -/
def rows8 : List String :=
  ["WFE_WAKE", "RAISE", "FENCE", "LD64", "ST64", "LD32", "ST32", "LDL", "STL", "DELIVER", "FRAME_ENTRY", "COURIER_D_DEL",
   "COURIER_READ_COMPLETE", "IN_TRANSIT_RETRY", "CRR_RESUME", "CRR_ABANDON", "CRR_RESTART", "POOL_FAULT_TIMEOUT", "TABLE_READ_COMPLETE",
   "TLBI_ALL", "TLBI_PART", "TLBI_VA", "TLBI_IPA", "TLBI_COMPLETE"]

/-- Rows 216 to 239 of the table of commands. -/
def rows9 : List String :=
  ["STM_HINT_GO", "MIGRATION_COMPLETE", "STAGE_ONLY_ZEROED", "LEND", "NOTICE", "RELEASE", "LOAN", "LOAN_END", "LOAN_ZEROING_DONE",
   "CHANNEL_FAILED", "REBUILD_COMPLETE", "COPYBACK_COMPLETE", "MIRROR_WR", "SCRUB", "ERROR_WINDOW_START", "RD_S", "RD_X", "UPG", "RD_ONCE",
   "WR_LINE", "WR_PART", "ATOMIC", "TIER_DATA_RETURN", "SNP_SHR"]

/-- Rows 240 to 263 of the table of commands. -/
def rows10 : List String :=
  ["SNP_INV", "SNP_INV_HOME", "SNP_ONCE", "SNP_SHR_HOME", "ACK_I", "ACK_I_D", "ACK_S_D", "ACK_KEEP", "EVICT", "WB_DATA", "DATA_HOME", "GNT",
   "DATA_S", "DATA_F", "DATA_E", "DATA_M", "DATA_ONCE", "DATA_ATOM", "AGENT_LOAD", "AGENT_STORE", "AGENT_REPLACEMENT", "HOLD_END", "MEMRD",
   "MEMINV"]

/-- Rows 264 to 287 of the table of commands. -/
def rows11 : List String :=
  ["MEMWR", "MEMWRPTL", "BIRSP", "BICONFLICT", "OTHER_M2S_OPCODE", "BI_TIMEOUT", "EDGE_AGENT_LOST", "AGENT_SWEEP_COMPLETE", "COH_AGENT_REARM",
   "HDM_DECODER_COMMIT", "EFH_PORT_EN", "TRAIN_COMPLETE", "TRAIN_TIMEOUT", "ALIGN_LOCK", "ALIGN_TIMEOUT", "NEGOTIATE", "FEC_LOCK_LOSS",
   "FLIT_RECEIVE", "NAK", "RD", "WR", "FABRIC_WR_PART", "ATOM", "RSP"]

/-- Rows 288 to 311 of the table of commands. -/
def rows12 : List String :=
  ["PARCEL", "CRED", "CTRL_RD", "CTRL_WR", "REQUEST_RESEND_TIMEOUT", "OFFER", "OFFER_MSG", "OFFER_FWD", "ACCEPT", "ACCEPT_MSG", "GRANT",
   "OFFER_QUERY", "QUERY", "QUERY_REPLY", "PUBLISH", "PUBLISH_MSG", "REGION_INVAL", "INVAL_ACK", "REGION_SET", "REGION_CLEAR",
   "REGION_FORWARD", "FORWARD_DRAINED", "SWITCH_INPUT_ARRIVAL", "TOKEN_REFILL"]

/-- Rows 312 to 335 of the table of commands. -/
def rows13 : List String :=
  ["MULTICAST_COPY", "TALLY_MERGE", "SWEEP_END", "GATHER", "SCATTER_ADD", "ROW_PUT", "ROW_LOOKUP", "HOT_ROW_LANDED", "EMB_FORWARD_DRAINED",
   "SEARCH", "SEARCH_TASK", "SEARCH_SPILL", "SHARD_RESULT", "POSTCARD", "SUSPECT", "QUORUM_LOSS", "RESTORE_GO", "RESTORE_DONE", "RSL_ADMIT_GO",
   "SELFTEST_DONE", "ADMIT", "REHEARSAL_INJECTION", "MEMORY_READ", "MEMORY_WRITE"]

/-- Rows 336 to 359 of the table of commands. -/
def rows14 : List String :=
  ["UNSUPPORTED_REQUEST", "CONFIGURATION_REQUEST", "DOE", "FLR", "HOT_RESET", "DL_DOWN", "PERST", "HOST_LINK_UP", "IDE_FAILURE",
   "IDENTIFY_MEMORY_DEVICE", "GET_PARTITION_INFO", "GET_HEALTH_INFO", "GET_SUPPORTED_LOGS", "GET_LOG", "GET_EVENT_RECORDS",
   "CLEAR_EVENT_RECORDS", "MAILBOX_UNSUPPORTED", "OUTBOX_NOTICE", "WORK_ORDER_FETCH", "INBOX_HEAD_WRITE", "RUN_PLAN", "COPY", "FILL",
   "CALL_SHEET"]

/-- Rows 360 to 383 of the table of commands. -/
def rows15 : List String :=
  ["RESUME", "EVENT_EDGE", "EVENT_RETRACT", "EVC_PENDING_CLEAR", "EVC_RAISE_WRITE", "TARGET_SIGNAL", "CORE_HANDLER_ENTRY", "SM_CORE_RESTART",
   "STAGE_DOOR_CORE_RESTART", "SMX_XQ_RD_WRITE", "REFCLK_LOSS", "REFCLK_RETURN", "PLL_LOCK_LOSS", "PLL_RELOCK", "CLK_MUX_CMD_GO", "MUX_HUNG",
   "DOMAIN_CYCLE_COMPLETE", "CLK_FCNT_GO", "CLK_FCNT_DONE", "PWR_ACTIVE", "PWR_IDLE", "PWR_DOZE", "PWR_REST", "STAGE_DOOR_ROUND"]

/-- Rows 384 to 407 of the table of commands. -/
def rows16 : List String :=
  ["TRIP_RECOVERY", "INPUT_OVERVOLTAGE_DISCONNECT", "UNDERVOLTAGE_LOCKOUT", "COLD_RESET", "WARM_RESET", "SEC_RESET_COLD", "SEC_RESET_WARM",
   "BOOT_DONE", "STORE_READY", "IMG_WRITE", "IMG_ARM", "IMG_COMMIT", "IMG_SVN", "SEC_CAL_GO", "CAL_DONE", "WC_DRAIN", "WC_POWER_OFF",
   "WC_RETRAIN", "GET_VERSION", "GET_CAPABILITIES", "NEGOTIATE_ALGORITHMS", "GET_DIGESTS", "GET_CERTIFICATE", "CHALLENGE"]

/-- Rows 408 to 431 of the table of commands. -/
def rows17 : List String :=
  ["GET_MEASUREMENTS", "KEY_EXCHANGE", "FINISH", "HEARTBEAT", "KEY_UPDATE", "END_SESSION", "MCTP_CONTROL_ACCESS", "HPT_CFG_BAR2_WRITE",
   "PB_STAGED_DATA_WRITE", "PBK_FRAME_STAGE_WRITE", "REGISTER_WRITE", "BYPASS", "IDCODE", "SAMPLE_PRELOAD", "EXTEST", "CLAMP", "HIGHZ",
   "EXTEST_PULSE", "EXTEST_TRAIN", "TEST_LOGIC_RESET", "EDGE_LINK_UP", "EDGE_PORT_EN", "CELL_TIME_MATCH", "ROW_RESULT"]

/-- Rows 432 to 432 of the table of commands. -/
def rows18 : List String :=
  ["ROW_UPDATE"]

/-- The table of commands, in its order, 24 rows to a page. -/
def rows : List (List String) :=
  [rows0, rows1, rows2, rows3, rows4, rows5, rows6, rows7, rows8, rows9, rows10, rows11,
   rows12, rows13, rows14, rows15, rows16, rows17, rows18]

/-- The name of a command. -/
def name : Instr → String
  | .cueStart => "CUE_START"
  | .ledgerRouteReset _ => "LEDGER_ROUTE_RESET"
  | .workStart => "WORK_START"
  | .guardStart => "GUARD_START"
  | .stagedWrite _ _ _ => "STAGED_WRITE"
  | .csCheckGo _ => "CS_CHECK_GO"
  | .checkDone => "CHECK_DONE"
  | .csTakeCueWrite _ _ _ => "CS_TAKE_CUE_WRITE"
  | .csAbandonGo _ => "CS_ABANDON_GO"
  | .cueSync _ _ _ _ _ _ => "CUE_SYNC"
  | .unitStart _ _ => "UNIT_START"
  | .deliveryMiss _ _ => "DELIVERY_MISS"
  | .completionMiss _ _ => "COMPLETION_MISS"
  | .understudyLeadMiss _ _ => "UNDERSTUDY_LEAD_MISS"
  | .meshParcelArrival _ _ _ _ => "MESH_PARCEL_ARRIVAL"
  | .hopCreditReturn _ _ _ => "HOP_CREDIT_RETURN"
  | .credParcel _ _ => "CRED_PARCEL"
  | .cancelParcel _ _ _ _ _ => "CANCEL"
  | .statusRecordArrival _ _ _ => "STATUS_RECORD_ARRIVAL"
  | .ceLogicFault _ => "CE_LOGIC_FAULT"
  | .trpRetireGo _ _ => "TRP_RETIRE_GO"
  | .clockGate _ => "CLOCK_GATE"
  | .nop _ _ => "NOP"
  | .endUnit _ _ => "END"
  | .br _ _ => "BR"
  | .brz _ _ => "BRZ"
  | .brnz _ _ => "BRNZ"
  | .call _ _ => "CALL"
  | .retn _ _ => "RET"
  | .loop _ _ => "LOOP"
  | .waitcue _ _ => "WAITCUE"
  | .waitcueResume _ => "WAITCUE_RESUME"
  | .dlbr _ _ => "DLBR"
  | .mfs _ _ => "MFS"
  | .mts _ _ => "MTS"
  | .send _ _ => "SEND"
  | .recv _ _ => "RECV"
  | .credq _ _ => "CREDQ"
  | .rxq _ _ => "RXQ"
  | .pand _ _ => "PAND"
  | .por _ _ => "POR"
  | .pxor _ _ => "PXOR"
  | .pandn _ _ => "PANDN"
  | .pnot _ _ => "PNOT"
  | .pany _ _ => "PANY"
  | .pcnt _ _ => "PCNT"
  | .pfirst _ _ => "PFIRST"
  | .add _ _ => "ADD"
  | .sub _ _ => "SUB"
  | .mul _ _ => "MUL"
  | .mulh _ _ => "MULH"
  | .andS _ _ => "AND"
  | .orS _ _ => "OR"
  | .xorS _ _ => "XOR"
  | .shl _ _ => "SHL"
  | .shr _ _ => "SHR"
  | .sra _ _ => "SRA"
  | .min _ _ => "MIN"
  | .max _ _ => "MAX"
  | .slt _ _ => "SLT"
  | .seq _ _ => "SEQ"
  | .clz _ _ => "CLZ"
  | .popc _ _ => "POPC"
  | .addi _ _ => "ADDI"
  | .muli _ _ => "MULI"
  | .andi _ _ => "ANDI"
  | .ori _ _ => "ORI"
  | .xori _ _ => "XORI"
  | .shli _ _ => "SHLI"
  | .shri _ _ => "SHRI"
  | .srai _ _ => "SRAI"
  | .slti _ _ => "SLTI"
  | .sltiu _ _ => "SLTIU"
  | .seqi _ _ => "SEQI"
  | .li _ _ => "LI"
  | .aadd _ _ => "AADD"
  | .asub _ _ => "ASUB"
  | .aadds _ _ => "AADDS"
  | .ashl _ _ => "ASHL"
  | .ashr _ _ => "ASHR"
  | .aand _ _ => "AAND"
  | .aor _ _ => "AOR"
  | .axor _ _ => "AXOR"
  | .altu _ _ => "ALTU"
  | .aeq _ _ => "AEQ"
  | .aaddi _ _ => "AADDI"
  | .alo _ _ => "ALO"
  | .ahi _ _ => "AHI"
  | .s2a _ _ => "S2A"
  | .a2s _ _ => "A2S"
  | .v2s _ _ => "V2S"
  | .s2v _ _ => "S2V"
  | .vmov _ _ => "VMOV"
  | .s2p _ _ => "S2P"
  | .p2s _ _ => "P2S"
  | .smov _ _ => "SMOV"
  | .amov _ _ => "AMOV"
  | .vadd _ _ => "VADD"
  | .vsub _ _ => "VSUB"
  | .vmul _ _ => "VMUL"
  | .vmulh _ _ => "VMULH"
  | .vmin _ _ => "VMIN"
  | .vmax _ _ => "VMAX"
  | .vand _ _ => "VAND"
  | .vor _ _ => "VOR"
  | .vxor _ _ => "VXOR"
  | .vshl _ _ => "VSHL"
  | .vshr _ _ => "VSHR"
  | .vsra _ _ => "VSRA"
  | .vcmp _ _ => "VCMP"
  | .vadds _ _ => "VADDS"
  | .vpopc _ _ => "VPOPC"
  | .vfadd _ _ => "VFADD"
  | .vfsub _ _ => "VFSUB"
  | .vfmul _ _ => "VFMUL"
  | .vfma _ _ => "VFMA"
  | .vfmin _ _ => "VFMIN"
  | .vfmax _ _ => "VFMAX"
  | .vfabs _ _ => "VFABS"
  | .vfneg _ _ => "VFNEG"
  | .vfcmp _ _ => "VFCMP"
  | .vfexp2 _ _ => "VFEXP2"
  | .vflog2 _ _ => "VFLOG2"
  | .vfrcp _ _ => "VFRCP"
  | .vfrsq _ _ => "VFRSQ"
  | .vfsqrt _ _ => "VFSQRT"
  | .vfscl _ _ => "VFSCL"
  | .cvt _ _ => "CVT"
  | .dec _ _ => "DEC"
  | .qmx _ _ => "QMX"
  | .qps4 _ _ => "QPS4"
  | .vbcast _ _ => "VBCAST"
  | .vsplat _ _ => "VSPLAT"
  | .vperm _ _ => "VPERM"
  | .vrot _ _ => "VROT"
  | .vminl _ _ => "VMINL"
  | .vsuml _ _ => "VSUML"
  | .tdot _ _ => "TDOT"
  | .tdotb _ _ => "TDOTB"
  | .tdots _ _ => "TDOTS"
  | .tadd _ _ => "TADD"
  | .tbase _ _ => "TBASE"
  | .tmerge _ _ => "TMERGE"
  | .tpack _ _ => "TPACK"
  | .tcvt _ _ => "TCVT"
  | .tstore _ _ => "TSTORE"
  | .xpopl _ _ => "XPOPL"
  | .hdist _ _ => "HDIST"
  | .ldv _ _ => "LDV"
  | .ldvi _ _ => "LDVI"
  | .ldw _ _ => "LDW"
  | .lda _ _ => "LDA"
  | .ldg _ _ => "LDG"
  | .ldp _ _ => "LDP"
  | .stv _ _ => "STV"
  | .stvi _ _ => "STVI"
  | .stw _ _ => "STW"
  | .sta _ _ => "STA"
  | .stsc _ _ => "STSC"
  | .tbar _ _ => "TBAR"
  | .pbv _ _ => "PBV"
  | .pbvi _ _ => "PBVI"
  | .pbw _ _ => "PBW"
  | .pbg _ _ => "PBG"
  | .gld _ _ => "GLD"
  | .gst _ _ => "GST"
  | .gq _ _ => "GQ"
  | .gmemComplete _ _ _ => "GMEM_COMPLETE"
  | .atomAadd _ _ => "ATOM_AADD"
  | .amin _ _ => "AMIN"
  | .amax _ _ => "AMAX"
  | .atomAand _ _ => "ATOM_AAND"
  | .atomAor _ _ => "ATOM_AOR"
  | .atomAxor _ _ => "ATOM_AXOR"
  | .aswap _ _ => "ASWAP"
  | .acas _ _ => "ACAS"
  | .acas128 _ _ => "ACAS128"
  | .atomComplete _ _ => "ATOM_COMPLETE"
  | .sload _ _ => "SLOAD"
  | .sstore _ _ => "SSTORE"
  | .sdlv _ _ => "SDLV"
  | .sldv _ _ => "SLDV"
  | .sstv _ _ => "SSTV"
  | .sunit _ _ => "SUNIT"
  | .dcmp _ _ => "DCMP"
  | .enc _ _ => "ENC"
  | .ptrx _ _ => "PTRX"
  | .crc64 _ _ => "CRC64"
  | .evclaim _ _ => "EVCLAIM"
  | .evclaimCommit _ => "EVCLAIM_COMMIT"
  | .evdone _ _ => "EVDONE"
  | .wfe _ _ => "WFE"
  | .wfeWake _ _ => "WFE_WAKE"
  | .raise _ _ => "RAISE"
  | .fence _ _ => "FENCE"
  | .ld64 _ _ => "LD64"
  | .st64 _ _ => "ST64"
  | .ld32 _ _ => "LD32"
  | .st32 _ _ => "ST32"
  | .ldl _ _ => "LDL"
  | .stl _ _ => "STL"
  | .deliver _ => "DELIVER"
  | .frameEntry _ => "FRAME_ENTRY"
  | .courierDDel _ _ => "COURIER_D_DEL"
  | .courierReadComplete _ => "COURIER_READ_COMPLETE"
  | .inTransitRetry _ => "IN_TRANSIT_RETRY"
  | .crrResume _ _ => "CRR_RESUME"
  | .crrAbandon _ _ => "CRR_ABANDON"
  | .crrRestart _ _ => "CRR_RESTART"
  | .poolFaultTimeout _ => "POOL_FAULT_TIMEOUT"
  | .tableReadComplete _ => "TABLE_READ_COMPLETE"
  | .tlbiAll _ => "TLBI_ALL"
  | .tlbiPart _ _ => "TLBI_PART"
  | .tlbiVa _ _ _ => "TLBI_VA"
  | .tlbiIpa _ _ _ => "TLBI_IPA"
  | .tlbiComplete => "TLBI_COMPLETE"
  | .stmHintGo _ _ _ _ _ => "STM_HINT_GO"
  | .migrationComplete _ => "MIGRATION_COMPLETE"
  | .stageOnlyZeroed => "STAGE_ONLY_ZEROED"
  | .lend _ _ => "LEND"
  | .notice _ _ _ => "NOTICE"
  | .release _ _ => "RELEASE"
  | .loanMsg _ _ => "LOAN"
  | .loanEnd _ _ => "LOAN_END"
  | .loanZeroingDone _ => "LOAN_ZEROING_DONE"
  | .channelFailed _ _ _ => "CHANNEL_FAILED"
  | .rebuildComplete _ => "REBUILD_COMPLETE"
  | .copybackComplete _ => "COPYBACK_COMPLETE"
  | .mirrorWr _ _ _ _ _ => "MIRROR_WR"
  | .scrub _ _ _ => "SCRUB"
  | .errorWindowStart => "ERROR_WINDOW_START"
  | .rdS _ _ _ => "RD_S"
  | .rdX _ _ _ => "RD_X"
  | .upg _ _ _ => "UPG"
  | .rdOnce _ _ _ => "RD_ONCE"
  | .wrLine _ _ _ _ _ => "WR_LINE"
  | .wrPart _ _ _ _ _ => "WR_PART"
  | .cohAtomic _ _ _ _ _ _ _ _ _ _ _ => "ATOMIC"
  | .tierDataReturn _ => "TIER_DATA_RETURN"
  | .snpShr _ _ _ => "SNP_SHR"
  | .snpInv _ _ _ _ => "SNP_INV"
  | .snpInvHome _ _ _ => "SNP_INV_HOME"
  | .snpOnce _ _ _ => "SNP_ONCE"
  | .snpShrHome _ _ _ => "SNP_SHR_HOME"
  | .ackI _ _ _ => "ACK_I"
  | .ackID _ _ => "ACK_I_D"
  | .ackSD _ _ => "ACK_S_D"
  | .ackKeep _ _ => "ACK_KEEP"
  | .evict _ _ => "EVICT"
  | .wbData _ _ _ _ => "WB_DATA"
  | .dataHome _ _ _ _ => "DATA_HOME"
  | .gnt _ _ => "GNT"
  | .dataS _ _ _ _ => "DATA_S"
  | .dataF _ _ _ _ => "DATA_F"
  | .dataE _ _ _ _ => "DATA_E"
  | .dataM _ _ _ _ => "DATA_M"
  | .dataOnce _ _ _ _ => "DATA_ONCE"
  | .dataAtom _ _ _ _ => "DATA_ATOM"
  | .agentLoad _ _ => "AGENT_LOAD"
  | .agentStore _ _ _ _ => "AGENT_STORE"
  | .agentReplacement _ _ => "AGENT_REPLACEMENT"
  | .holdEnd _ _ => "HOLD_END"
  | .memrd _ _ _ => "MEMRD"
  | .meminv _ _ _ => "MEMINV"
  | .memwr _ _ _ _ _ => "MEMWR"
  | .memwrptl _ _ _ _ _ _ => "MEMWRPTL"
  | .birsp _ _ _ => "BIRSP"
  | .biconflict _ _ => "BICONFLICT"
  | .otherM2sOpcode _ _ _ => "OTHER_M2S_OPCODE"
  | .biTimeout _ => "BI_TIMEOUT"
  | .edgeAgentLost _ => "EDGE_AGENT_LOST"
  | .agentSweepComplete _ => "AGENT_SWEEP_COMPLETE"
  | .cohAgentRearm _ _ => "COH_AGENT_REARM"
  | .hdmDecoderCommit _ _ _ _ _ => "HDM_DECODER_COMMIT"
  | .efhPortEn _ _ _ => "EFH_PORT_EN"
  | .trainComplete _ => "TRAIN_COMPLETE"
  | .trainTimeout _ => "TRAIN_TIMEOUT"
  | .alignLock _ => "ALIGN_LOCK"
  | .alignTimeout _ => "ALIGN_TIMEOUT"
  | .negotiate _ _ _ => "NEGOTIATE"
  | .fecLockLoss _ => "FEC_LOCK_LOSS"
  | .flitReceive _ _ _ => "FLIT_RECEIVE"
  | .nak _ _ => "NAK"
  | .fabricRd _ _ _ _ _ => "RD"
  | .fabricWr _ _ _ _ _ _ _ => "WR"
  | .fabricWrPart _ _ _ _ _ _ _ => "FABRIC_WR_PART"
  | .fabricAtom _ _ _ _ _ _ _ _ _ _ _ => "ATOM"
  | .fabricRsp _ _ _ _ _ _ => "RSP"
  | .fabricParcel _ => "PARCEL"
  | .fabricCred _ _ => "CRED"
  | .ctrlRd _ _ _ _ => "CTRL_RD"
  | .ctrlWr _ _ _ _ _ => "CTRL_WR"
  | .requestResendTimeout _ => "REQUEST_RESEND_TIMEOUT"
  | .offer _ => "OFFER"
  | .offerMsg _ _ _ _ _ _ _ _ => "OFFER_MSG"
  | .offerFwd _ _ _ _ _ _ => "OFFER_FWD"
  | .accept _ => "ACCEPT"
  | .acceptMsg _ _ _ _ _ => "ACCEPT_MSG"
  | .grant _ _ _ _ _ _ _ => "GRANT"
  | .offerQuery _ => "OFFER_QUERY"
  | .query _ _ _ => "QUERY"
  | .queryReply _ _ _ _ => "QUERY_REPLY"
  | .publish _ => "PUBLISH"
  | .publishMsg _ _ _ _ _ _ _ => "PUBLISH_MSG"
  | .regionInval _ _ _ => "REGION_INVAL"
  | .invalAck _ _ => "INVAL_ACK"
  | .regionSet _ _ _ _ _ _ => "REGION_SET"
  | .regionClear _ _ => "REGION_CLEAR"
  | .regionForward _ _ _ => "REGION_FORWARD"
  | .forwardDrained _ => "FORWARD_DRAINED"
  | .switchInputArrival _ _ => "SWITCH_INPUT_ARRIVAL"
  | .tokenRefill => "TOKEN_REFILL"
  | .multicastCopy _ => "MULTICAST_COPY"
  | .tallyMerge => "TALLY_MERGE"
  | .sweepEnd => "SWEEP_END"
  | .gather _ _ => "GATHER"
  | .scatterAdd _ _ => "SCATTER_ADD"
  | .rowPut _ _ => "ROW_PUT"
  | .rowLookup _ _ _ _ _ _ => "ROW_LOOKUP"
  | .hotRowLanded _ _ _ _ => "HOT_ROW_LANDED"
  | .embForwardDrained _ => "EMB_FORWARD_DRAINED"
  | .searchOrder _ _ => "SEARCH"
  | .searchTask _ _ _ _ _ _ _ _ _ _ _ _ _ => "SEARCH_TASK"
  | .searchSpill _ => "SEARCH_SPILL"
  | .shardResult _ _ _ _ _ _ _ => "SHARD_RESULT"
  | .postcard _ _ _ _ _ _ _ _ _ _ _ => "POSTCARD"
  | .suspect _ => "SUSPECT"
  | .quorumLoss => "QUORUM_LOSS"
  | .restoreGo _ _ => "RESTORE_GO"
  | .restoreDone => "RESTORE_DONE"
  | .rslAdmitGo _ => "RSL_ADMIT_GO"
  | .selftestDone _ => "SELFTEST_DONE"
  | .admitOrder _ _ => "ADMIT"
  | .rehearsalInjection => "REHEARSAL_INJECTION"
  | .memoryRead _ _ => "MEMORY_READ"
  | .memoryWrite _ _ _ => "MEMORY_WRITE"
  | .unsupportedRequest => "UNSUPPORTED_REQUEST"
  | .configurationRequest _ => "CONFIGURATION_REQUEST"
  | .doeRequest _ _ => "DOE"
  | .flr => "FLR"
  | .hotReset => "HOT_RESET"
  | .dlDown => "DL_DOWN"
  | .perst _ => "PERST"
  | .hostLinkUp _ _ => "HOST_LINK_UP"
  | .ideFailure _ _ => "IDE_FAILURE"
  | .identifyMemoryDevice _ => "IDENTIFY_MEMORY_DEVICE"
  | .getPartitionInfo _ => "GET_PARTITION_INFO"
  | .getHealthInfo _ => "GET_HEALTH_INFO"
  | .getSupportedLogs _ => "GET_SUPPORTED_LOGS"
  | .getLog _ _ _ _ => "GET_LOG"
  | .getEventRecords _ _ => "GET_EVENT_RECORDS"
  | .clearEventRecords _ _ _ _ => "CLEAR_EVENT_RECORDS"
  | .mailboxUnsupported _ _ => "MAILBOX_UNSUPPORTED"
  | .outboxNotice _ _ => "OUTBOX_NOTICE"
  | .workOrderFetch _ _ => "WORK_ORDER_FETCH"
  | .inboxHeadWrite _ _ => "INBOX_HEAD_WRITE"
  | .runPlan _ => "RUN_PLAN"
  | .copyOrder _ _ => "COPY"
  | .fillOrder _ _ => "FILL"
  | .callSheet _ _ => "CALL_SHEET"
  | .resumeOrder _ => "RESUME"
  | .eventEdge _ => "EVENT_EDGE"
  | .eventRetract _ => "EVENT_RETRACT"
  | .evcPendingClear _ _ _ => "EVC_PENDING_CLEAR"
  | .evcRaiseWrite _ _ => "EVC_RAISE_WRITE"
  | .targetSignal _ _ _ => "TARGET_SIGNAL"
  | .coreHandlerEntry _ => "CORE_HANDLER_ENTRY"
  | .smCoreRestart _ _ => "SM_CORE_RESTART"
  | .stageDoorCoreRestart => "STAGE_DOOR_CORE_RESTART"
  | .smxXqRdWrite _ _ => "SMX_XQ_RD_WRITE"
  | .refclkLoss => "REFCLK_LOSS"
  | .refclkReturn _ => "REFCLK_RETURN"
  | .pllLockLoss _ => "PLL_LOCK_LOSS"
  | .pllRelock => "PLL_RELOCK"
  | .clkMuxCmdGo _ _ _ _ _ => "CLK_MUX_CMD_GO"
  | .muxHung _ => "MUX_HUNG"
  | .domainCycleComplete _ => "DOMAIN_CYCLE_COMPLETE"
  | .clkFcntGo _ _ _ _ => "CLK_FCNT_GO"
  | .clkFcntDone _ => "CLK_FCNT_DONE"
  | .pwrActive _ => "PWR_ACTIVE"
  | .pwrIdle _ => "PWR_IDLE"
  | .pwrDoze _ => "PWR_DOZE"
  | .pwrRest _ => "PWR_REST"
  | .stageDoorRound _ _ _ _ => "STAGE_DOOR_ROUND"
  | .tripRecovery => "TRIP_RECOVERY"
  | .inputOvervoltageDisconnect => "INPUT_OVERVOLTAGE_DISCONNECT"
  | .undervoltageLockout => "UNDERVOLTAGE_LOCKOUT"
  | .coldReset => "COLD_RESET"
  | .warmReset _ => "WARM_RESET"
  | .secResetCold _ => "SEC_RESET_COLD"
  | .secResetWarm _ => "SEC_RESET_WARM"
  | .bootDone _ => "BOOT_DONE"
  | .storeReady => "STORE_READY"
  | .imgWrite _ _ => "IMG_WRITE"
  | .imgArm _ _ _ => "IMG_ARM"
  | .imgCommit _ _ => "IMG_COMMIT"
  | .imgSvn _ _ => "IMG_SVN"
  | .secCalGo _ _ _ => "SEC_CAL_GO"
  | .calDone => "CAL_DONE"
  | .wcDrain _ _ _ => "WC_DRAIN"
  | .wcPowerOff _ _ => "WC_POWER_OFF"
  | .wcRetrain _ _ _ => "WC_RETRAIN"
  | .getVersion _ => "GET_VERSION"
  | .getCapabilities _ => "GET_CAPABILITIES"
  | .negotiateAlgorithms _ _ => "NEGOTIATE_ALGORITHMS"
  | .getDigests _ => "GET_DIGESTS"
  | .getCertificate _ _ _ _ => "GET_CERTIFICATE"
  | .challenge _ _ _ => "CHALLENGE"
  | .getMeasurements _ _ _ => "GET_MEASUREMENTS"
  | .keyExchange _ _ => "KEY_EXCHANGE"
  | .finish _ _ _ => "FINISH"
  | .heartbeat _ _ => "HEARTBEAT"
  | .keyUpdate _ _ => "KEY_UPDATE"
  | .endSession _ _ => "END_SESSION"
  | .mctpControlAccess _ _ => "MCTP_CONTROL_ACCESS"
  | .hptCfgBar2Write _ _ => "HPT_CFG_BAR2_WRITE"
  | .pbStagedDataWrite _ _ _ _ => "PB_STAGED_DATA_WRITE"
  | .pbkFrameStageWrite _ _ _ _ _ _ => "PBK_FRAME_STAGE_WRITE"
  | .registerWrite _ _ _ => "REGISTER_WRITE"
  | .bypass => "BYPASS"
  | .idcode => "IDCODE"
  | .samplePreload _ => "SAMPLE_PRELOAD"
  | .extest => "EXTEST"
  | .clamp => "CLAMP"
  | .highz => "HIGHZ"
  | .extestPulse => "EXTEST_PULSE"
  | .extestTrain => "EXTEST_TRAIN"
  | .testLogicReset => "TEST_LOGIC_RESET"
  | .edgeLinkUp _ _ _ => "EDGE_LINK_UP"
  | .edgePortEn _ _ _ => "EDGE_PORT_EN"
  | .cellTimeMatch => "CELL_TIME_MATCH"
  | .rowResult _ _ _ _ => "ROW_RESULT"
  | .rowUpdate _ _ _ _ _ _ _ _ _ _ _ => "ROW_UPDATE"

/-- The page and line of a command in the table. -/
def row : Instr → Nat × Nat
  | .cueStart => (0, 0)
  | .ledgerRouteReset _ => (0, 1)
  | .workStart => (0, 2)
  | .guardStart => (0, 3)
  | .stagedWrite _ _ _ => (0, 4)
  | .csCheckGo _ => (0, 5)
  | .checkDone => (0, 6)
  | .csTakeCueWrite _ _ _ => (0, 7)
  | .csAbandonGo _ => (0, 8)
  | .cueSync _ _ _ _ _ _ => (0, 9)
  | .unitStart _ _ => (0, 10)
  | .deliveryMiss _ _ => (0, 11)
  | .completionMiss _ _ => (0, 12)
  | .understudyLeadMiss _ _ => (0, 13)
  | .meshParcelArrival _ _ _ _ => (0, 14)
  | .hopCreditReturn _ _ _ => (0, 15)
  | .credParcel _ _ => (0, 16)
  | .cancelParcel _ _ _ _ _ => (0, 17)
  | .statusRecordArrival _ _ _ => (0, 18)
  | .ceLogicFault _ => (0, 19)
  | .trpRetireGo _ _ => (0, 20)
  | .clockGate _ => (0, 21)
  | .nop _ _ => (0, 22)
  | .endUnit _ _ => (0, 23)
  | .br _ _ => (1, 0)
  | .brz _ _ => (1, 1)
  | .brnz _ _ => (1, 2)
  | .call _ _ => (1, 3)
  | .retn _ _ => (1, 4)
  | .loop _ _ => (1, 5)
  | .waitcue _ _ => (1, 6)
  | .waitcueResume _ => (1, 7)
  | .dlbr _ _ => (1, 8)
  | .mfs _ _ => (1, 9)
  | .mts _ _ => (1, 10)
  | .send _ _ => (1, 11)
  | .recv _ _ => (1, 12)
  | .credq _ _ => (1, 13)
  | .rxq _ _ => (1, 14)
  | .pand _ _ => (1, 15)
  | .por _ _ => (1, 16)
  | .pxor _ _ => (1, 17)
  | .pandn _ _ => (1, 18)
  | .pnot _ _ => (1, 19)
  | .pany _ _ => (1, 20)
  | .pcnt _ _ => (1, 21)
  | .pfirst _ _ => (1, 22)
  | .add _ _ => (1, 23)
  | .sub _ _ => (2, 0)
  | .mul _ _ => (2, 1)
  | .mulh _ _ => (2, 2)
  | .andS _ _ => (2, 3)
  | .orS _ _ => (2, 4)
  | .xorS _ _ => (2, 5)
  | .shl _ _ => (2, 6)
  | .shr _ _ => (2, 7)
  | .sra _ _ => (2, 8)
  | .min _ _ => (2, 9)
  | .max _ _ => (2, 10)
  | .slt _ _ => (2, 11)
  | .seq _ _ => (2, 12)
  | .clz _ _ => (2, 13)
  | .popc _ _ => (2, 14)
  | .addi _ _ => (2, 15)
  | .muli _ _ => (2, 16)
  | .andi _ _ => (2, 17)
  | .ori _ _ => (2, 18)
  | .xori _ _ => (2, 19)
  | .shli _ _ => (2, 20)
  | .shri _ _ => (2, 21)
  | .srai _ _ => (2, 22)
  | .slti _ _ => (2, 23)
  | .sltiu _ _ => (3, 0)
  | .seqi _ _ => (3, 1)
  | .li _ _ => (3, 2)
  | .aadd _ _ => (3, 3)
  | .asub _ _ => (3, 4)
  | .aadds _ _ => (3, 5)
  | .ashl _ _ => (3, 6)
  | .ashr _ _ => (3, 7)
  | .aand _ _ => (3, 8)
  | .aor _ _ => (3, 9)
  | .axor _ _ => (3, 10)
  | .altu _ _ => (3, 11)
  | .aeq _ _ => (3, 12)
  | .aaddi _ _ => (3, 13)
  | .alo _ _ => (3, 14)
  | .ahi _ _ => (3, 15)
  | .s2a _ _ => (3, 16)
  | .a2s _ _ => (3, 17)
  | .v2s _ _ => (3, 18)
  | .s2v _ _ => (3, 19)
  | .vmov _ _ => (3, 20)
  | .s2p _ _ => (3, 21)
  | .p2s _ _ => (3, 22)
  | .smov _ _ => (3, 23)
  | .amov _ _ => (4, 0)
  | .vadd _ _ => (4, 1)
  | .vsub _ _ => (4, 2)
  | .vmul _ _ => (4, 3)
  | .vmulh _ _ => (4, 4)
  | .vmin _ _ => (4, 5)
  | .vmax _ _ => (4, 6)
  | .vand _ _ => (4, 7)
  | .vor _ _ => (4, 8)
  | .vxor _ _ => (4, 9)
  | .vshl _ _ => (4, 10)
  | .vshr _ _ => (4, 11)
  | .vsra _ _ => (4, 12)
  | .vcmp _ _ => (4, 13)
  | .vadds _ _ => (4, 14)
  | .vpopc _ _ => (4, 15)
  | .vfadd _ _ => (4, 16)
  | .vfsub _ _ => (4, 17)
  | .vfmul _ _ => (4, 18)
  | .vfma _ _ => (4, 19)
  | .vfmin _ _ => (4, 20)
  | .vfmax _ _ => (4, 21)
  | .vfabs _ _ => (4, 22)
  | .vfneg _ _ => (4, 23)
  | .vfcmp _ _ => (5, 0)
  | .vfexp2 _ _ => (5, 1)
  | .vflog2 _ _ => (5, 2)
  | .vfrcp _ _ => (5, 3)
  | .vfrsq _ _ => (5, 4)
  | .vfsqrt _ _ => (5, 5)
  | .vfscl _ _ => (5, 6)
  | .cvt _ _ => (5, 7)
  | .dec _ _ => (5, 8)
  | .qmx _ _ => (5, 9)
  | .qps4 _ _ => (5, 10)
  | .vbcast _ _ => (5, 11)
  | .vsplat _ _ => (5, 12)
  | .vperm _ _ => (5, 13)
  | .vrot _ _ => (5, 14)
  | .vminl _ _ => (5, 15)
  | .vsuml _ _ => (5, 16)
  | .tdot _ _ => (5, 17)
  | .tdotb _ _ => (5, 18)
  | .tdots _ _ => (5, 19)
  | .tadd _ _ => (5, 20)
  | .tbase _ _ => (5, 21)
  | .tmerge _ _ => (5, 22)
  | .tpack _ _ => (5, 23)
  | .tcvt _ _ => (6, 0)
  | .tstore _ _ => (6, 1)
  | .xpopl _ _ => (6, 2)
  | .hdist _ _ => (6, 3)
  | .ldv _ _ => (6, 4)
  | .ldvi _ _ => (6, 5)
  | .ldw _ _ => (6, 6)
  | .lda _ _ => (6, 7)
  | .ldg _ _ => (6, 8)
  | .ldp _ _ => (6, 9)
  | .stv _ _ => (6, 10)
  | .stvi _ _ => (6, 11)
  | .stw _ _ => (6, 12)
  | .sta _ _ => (6, 13)
  | .stsc _ _ => (6, 14)
  | .tbar _ _ => (6, 15)
  | .pbv _ _ => (6, 16)
  | .pbvi _ _ => (6, 17)
  | .pbw _ _ => (6, 18)
  | .pbg _ _ => (6, 19)
  | .gld _ _ => (6, 20)
  | .gst _ _ => (6, 21)
  | .gq _ _ => (6, 22)
  | .gmemComplete _ _ _ => (6, 23)
  | .atomAadd _ _ => (7, 0)
  | .amin _ _ => (7, 1)
  | .amax _ _ => (7, 2)
  | .atomAand _ _ => (7, 3)
  | .atomAor _ _ => (7, 4)
  | .atomAxor _ _ => (7, 5)
  | .aswap _ _ => (7, 6)
  | .acas _ _ => (7, 7)
  | .acas128 _ _ => (7, 8)
  | .atomComplete _ _ => (7, 9)
  | .sload _ _ => (7, 10)
  | .sstore _ _ => (7, 11)
  | .sdlv _ _ => (7, 12)
  | .sldv _ _ => (7, 13)
  | .sstv _ _ => (7, 14)
  | .sunit _ _ => (7, 15)
  | .dcmp _ _ => (7, 16)
  | .enc _ _ => (7, 17)
  | .ptrx _ _ => (7, 18)
  | .crc64 _ _ => (7, 19)
  | .evclaim _ _ => (7, 20)
  | .evclaimCommit _ => (7, 21)
  | .evdone _ _ => (7, 22)
  | .wfe _ _ => (7, 23)
  | .wfeWake _ _ => (8, 0)
  | .raise _ _ => (8, 1)
  | .fence _ _ => (8, 2)
  | .ld64 _ _ => (8, 3)
  | .st64 _ _ => (8, 4)
  | .ld32 _ _ => (8, 5)
  | .st32 _ _ => (8, 6)
  | .ldl _ _ => (8, 7)
  | .stl _ _ => (8, 8)
  | .deliver _ => (8, 9)
  | .frameEntry _ => (8, 10)
  | .courierDDel _ _ => (8, 11)
  | .courierReadComplete _ => (8, 12)
  | .inTransitRetry _ => (8, 13)
  | .crrResume _ _ => (8, 14)
  | .crrAbandon _ _ => (8, 15)
  | .crrRestart _ _ => (8, 16)
  | .poolFaultTimeout _ => (8, 17)
  | .tableReadComplete _ => (8, 18)
  | .tlbiAll _ => (8, 19)
  | .tlbiPart _ _ => (8, 20)
  | .tlbiVa _ _ _ => (8, 21)
  | .tlbiIpa _ _ _ => (8, 22)
  | .tlbiComplete => (8, 23)
  | .stmHintGo _ _ _ _ _ => (9, 0)
  | .migrationComplete _ => (9, 1)
  | .stageOnlyZeroed => (9, 2)
  | .lend _ _ => (9, 3)
  | .notice _ _ _ => (9, 4)
  | .release _ _ => (9, 5)
  | .loanMsg _ _ => (9, 6)
  | .loanEnd _ _ => (9, 7)
  | .loanZeroingDone _ => (9, 8)
  | .channelFailed _ _ _ => (9, 9)
  | .rebuildComplete _ => (9, 10)
  | .copybackComplete _ => (9, 11)
  | .mirrorWr _ _ _ _ _ => (9, 12)
  | .scrub _ _ _ => (9, 13)
  | .errorWindowStart => (9, 14)
  | .rdS _ _ _ => (9, 15)
  | .rdX _ _ _ => (9, 16)
  | .upg _ _ _ => (9, 17)
  | .rdOnce _ _ _ => (9, 18)
  | .wrLine _ _ _ _ _ => (9, 19)
  | .wrPart _ _ _ _ _ => (9, 20)
  | .cohAtomic _ _ _ _ _ _ _ _ _ _ _ => (9, 21)
  | .tierDataReturn _ => (9, 22)
  | .snpShr _ _ _ => (9, 23)
  | .snpInv _ _ _ _ => (10, 0)
  | .snpInvHome _ _ _ => (10, 1)
  | .snpOnce _ _ _ => (10, 2)
  | .snpShrHome _ _ _ => (10, 3)
  | .ackI _ _ _ => (10, 4)
  | .ackID _ _ => (10, 5)
  | .ackSD _ _ => (10, 6)
  | .ackKeep _ _ => (10, 7)
  | .evict _ _ => (10, 8)
  | .wbData _ _ _ _ => (10, 9)
  | .dataHome _ _ _ _ => (10, 10)
  | .gnt _ _ => (10, 11)
  | .dataS _ _ _ _ => (10, 12)
  | .dataF _ _ _ _ => (10, 13)
  | .dataE _ _ _ _ => (10, 14)
  | .dataM _ _ _ _ => (10, 15)
  | .dataOnce _ _ _ _ => (10, 16)
  | .dataAtom _ _ _ _ => (10, 17)
  | .agentLoad _ _ => (10, 18)
  | .agentStore _ _ _ _ => (10, 19)
  | .agentReplacement _ _ => (10, 20)
  | .holdEnd _ _ => (10, 21)
  | .memrd _ _ _ => (10, 22)
  | .meminv _ _ _ => (10, 23)
  | .memwr _ _ _ _ _ => (11, 0)
  | .memwrptl _ _ _ _ _ _ => (11, 1)
  | .birsp _ _ _ => (11, 2)
  | .biconflict _ _ => (11, 3)
  | .otherM2sOpcode _ _ _ => (11, 4)
  | .biTimeout _ => (11, 5)
  | .edgeAgentLost _ => (11, 6)
  | .agentSweepComplete _ => (11, 7)
  | .cohAgentRearm _ _ => (11, 8)
  | .hdmDecoderCommit _ _ _ _ _ => (11, 9)
  | .efhPortEn _ _ _ => (11, 10)
  | .trainComplete _ => (11, 11)
  | .trainTimeout _ => (11, 12)
  | .alignLock _ => (11, 13)
  | .alignTimeout _ => (11, 14)
  | .negotiate _ _ _ => (11, 15)
  | .fecLockLoss _ => (11, 16)
  | .flitReceive _ _ _ => (11, 17)
  | .nak _ _ => (11, 18)
  | .fabricRd _ _ _ _ _ => (11, 19)
  | .fabricWr _ _ _ _ _ _ _ => (11, 20)
  | .fabricWrPart _ _ _ _ _ _ _ => (11, 21)
  | .fabricAtom _ _ _ _ _ _ _ _ _ _ _ => (11, 22)
  | .fabricRsp _ _ _ _ _ _ => (11, 23)
  | .fabricParcel _ => (12, 0)
  | .fabricCred _ _ => (12, 1)
  | .ctrlRd _ _ _ _ => (12, 2)
  | .ctrlWr _ _ _ _ _ => (12, 3)
  | .requestResendTimeout _ => (12, 4)
  | .offer _ => (12, 5)
  | .offerMsg _ _ _ _ _ _ _ _ => (12, 6)
  | .offerFwd _ _ _ _ _ _ => (12, 7)
  | .accept _ => (12, 8)
  | .acceptMsg _ _ _ _ _ => (12, 9)
  | .grant _ _ _ _ _ _ _ => (12, 10)
  | .offerQuery _ => (12, 11)
  | .query _ _ _ => (12, 12)
  | .queryReply _ _ _ _ => (12, 13)
  | .publish _ => (12, 14)
  | .publishMsg _ _ _ _ _ _ _ => (12, 15)
  | .regionInval _ _ _ => (12, 16)
  | .invalAck _ _ => (12, 17)
  | .regionSet _ _ _ _ _ _ => (12, 18)
  | .regionClear _ _ => (12, 19)
  | .regionForward _ _ _ => (12, 20)
  | .forwardDrained _ => (12, 21)
  | .switchInputArrival _ _ => (12, 22)
  | .tokenRefill => (12, 23)
  | .multicastCopy _ => (13, 0)
  | .tallyMerge => (13, 1)
  | .sweepEnd => (13, 2)
  | .gather _ _ => (13, 3)
  | .scatterAdd _ _ => (13, 4)
  | .rowPut _ _ => (13, 5)
  | .rowLookup _ _ _ _ _ _ => (13, 6)
  | .hotRowLanded _ _ _ _ => (13, 7)
  | .embForwardDrained _ => (13, 8)
  | .searchOrder _ _ => (13, 9)
  | .searchTask _ _ _ _ _ _ _ _ _ _ _ _ _ => (13, 10)
  | .searchSpill _ => (13, 11)
  | .shardResult _ _ _ _ _ _ _ => (13, 12)
  | .postcard _ _ _ _ _ _ _ _ _ _ _ => (13, 13)
  | .suspect _ => (13, 14)
  | .quorumLoss => (13, 15)
  | .restoreGo _ _ => (13, 16)
  | .restoreDone => (13, 17)
  | .rslAdmitGo _ => (13, 18)
  | .selftestDone _ => (13, 19)
  | .admitOrder _ _ => (13, 20)
  | .rehearsalInjection => (13, 21)
  | .memoryRead _ _ => (13, 22)
  | .memoryWrite _ _ _ => (13, 23)
  | .unsupportedRequest => (14, 0)
  | .configurationRequest _ => (14, 1)
  | .doeRequest _ _ => (14, 2)
  | .flr => (14, 3)
  | .hotReset => (14, 4)
  | .dlDown => (14, 5)
  | .perst _ => (14, 6)
  | .hostLinkUp _ _ => (14, 7)
  | .ideFailure _ _ => (14, 8)
  | .identifyMemoryDevice _ => (14, 9)
  | .getPartitionInfo _ => (14, 10)
  | .getHealthInfo _ => (14, 11)
  | .getSupportedLogs _ => (14, 12)
  | .getLog _ _ _ _ => (14, 13)
  | .getEventRecords _ _ => (14, 14)
  | .clearEventRecords _ _ _ _ => (14, 15)
  | .mailboxUnsupported _ _ => (14, 16)
  | .outboxNotice _ _ => (14, 17)
  | .workOrderFetch _ _ => (14, 18)
  | .inboxHeadWrite _ _ => (14, 19)
  | .runPlan _ => (14, 20)
  | .copyOrder _ _ => (14, 21)
  | .fillOrder _ _ => (14, 22)
  | .callSheet _ _ => (14, 23)
  | .resumeOrder _ => (15, 0)
  | .eventEdge _ => (15, 1)
  | .eventRetract _ => (15, 2)
  | .evcPendingClear _ _ _ => (15, 3)
  | .evcRaiseWrite _ _ => (15, 4)
  | .targetSignal _ _ _ => (15, 5)
  | .coreHandlerEntry _ => (15, 6)
  | .smCoreRestart _ _ => (15, 7)
  | .stageDoorCoreRestart => (15, 8)
  | .smxXqRdWrite _ _ => (15, 9)
  | .refclkLoss => (15, 10)
  | .refclkReturn _ => (15, 11)
  | .pllLockLoss _ => (15, 12)
  | .pllRelock => (15, 13)
  | .clkMuxCmdGo _ _ _ _ _ => (15, 14)
  | .muxHung _ => (15, 15)
  | .domainCycleComplete _ => (15, 16)
  | .clkFcntGo _ _ _ _ => (15, 17)
  | .clkFcntDone _ => (15, 18)
  | .pwrActive _ => (15, 19)
  | .pwrIdle _ => (15, 20)
  | .pwrDoze _ => (15, 21)
  | .pwrRest _ => (15, 22)
  | .stageDoorRound _ _ _ _ => (15, 23)
  | .tripRecovery => (16, 0)
  | .inputOvervoltageDisconnect => (16, 1)
  | .undervoltageLockout => (16, 2)
  | .coldReset => (16, 3)
  | .warmReset _ => (16, 4)
  | .secResetCold _ => (16, 5)
  | .secResetWarm _ => (16, 6)
  | .bootDone _ => (16, 7)
  | .storeReady => (16, 8)
  | .imgWrite _ _ => (16, 9)
  | .imgArm _ _ _ => (16, 10)
  | .imgCommit _ _ => (16, 11)
  | .imgSvn _ _ => (16, 12)
  | .secCalGo _ _ _ => (16, 13)
  | .calDone => (16, 14)
  | .wcDrain _ _ _ => (16, 15)
  | .wcPowerOff _ _ => (16, 16)
  | .wcRetrain _ _ _ => (16, 17)
  | .getVersion _ => (16, 18)
  | .getCapabilities _ => (16, 19)
  | .negotiateAlgorithms _ _ => (16, 20)
  | .getDigests _ => (16, 21)
  | .getCertificate _ _ _ _ => (16, 22)
  | .challenge _ _ _ => (16, 23)
  | .getMeasurements _ _ _ => (17, 0)
  | .keyExchange _ _ => (17, 1)
  | .finish _ _ _ => (17, 2)
  | .heartbeat _ _ => (17, 3)
  | .keyUpdate _ _ => (17, 4)
  | .endSession _ _ => (17, 5)
  | .mctpControlAccess _ _ => (17, 6)
  | .hptCfgBar2Write _ _ => (17, 7)
  | .pbStagedDataWrite _ _ _ _ => (17, 8)
  | .pbkFrameStageWrite _ _ _ _ _ _ => (17, 9)
  | .registerWrite _ _ _ => (17, 10)
  | .bypass => (17, 11)
  | .idcode => (17, 12)
  | .samplePreload _ => (17, 13)
  | .extest => (17, 14)
  | .clamp => (17, 15)
  | .highz => (17, 16)
  | .extestPulse => (17, 17)
  | .extestTrain => (17, 18)
  | .testLogicReset => (17, 19)
  | .edgeLinkUp _ _ _ => (17, 20)
  | .edgePortEn _ _ _ => (17, 21)
  | .cellTimeMatch => (17, 22)
  | .rowResult _ _ _ _ => (17, 23)
  | .rowUpdate _ _ _ _ _ _ _ _ _ _ _ => (18, 0)

/-- A command is the row of the table that bears its name. -/
def Statement (i : Instr) : Prop := (rows[(row i).1]?).bind (fun p => p[(row i).2]?) = some (name i)

theorem cueStart : Statement .cueStart := rfl
theorem ledgerRouteReset : ∀ x0, Statement (.ledgerRouteReset x0) := fun _ => rfl
theorem workStart : Statement .workStart := rfl
theorem guardStart : Statement .guardStart := rfl
theorem stagedWrite : ∀ x0 x1 x2, Statement (.stagedWrite x0 x1 x2) := fun _ _ _ => rfl
theorem csCheckGo : ∀ x0, Statement (.csCheckGo x0) := fun _ => rfl
theorem checkDone : Statement .checkDone := rfl
theorem csTakeCueWrite : ∀ x0 x1 x2, Statement (.csTakeCueWrite x0 x1 x2) := fun _ _ _ => rfl
theorem csAbandonGo : ∀ x0, Statement (.csAbandonGo x0) := fun _ => rfl
theorem cueSync : ∀ x0 x1 x2 x3 x4 x5, Statement (.cueSync x0 x1 x2 x3 x4 x5) := fun _ _ _ _ _ _ => rfl
theorem unitStart : ∀ x0 x1, Statement (.unitStart x0 x1) := fun _ _ => rfl
theorem deliveryMiss : ∀ x0 x1, Statement (.deliveryMiss x0 x1) := fun _ _ => rfl
theorem completionMiss : ∀ x0 x1, Statement (.completionMiss x0 x1) := fun _ _ => rfl
theorem understudyLeadMiss : ∀ x0 x1, Statement (.understudyLeadMiss x0 x1) := fun _ _ => rfl
theorem meshParcelArrival : ∀ x0 x1 x2 x3, Statement (.meshParcelArrival x0 x1 x2 x3) := fun _ _ _ _ => rfl
theorem hopCreditReturn : ∀ x0 x1 x2, Statement (.hopCreditReturn x0 x1 x2) := fun _ _ _ => rfl
theorem credParcel : ∀ x0 x1, Statement (.credParcel x0 x1) := fun _ _ => rfl
theorem cancelParcel : ∀ x0 x1 x2 x3 x4, Statement (.cancelParcel x0 x1 x2 x3 x4) := fun _ _ _ _ _ => rfl
theorem statusRecordArrival : ∀ x0 x1 x2, Statement (.statusRecordArrival x0 x1 x2) := fun _ _ _ => rfl
theorem ceLogicFault : ∀ x0, Statement (.ceLogicFault x0) := fun _ => rfl
theorem trpRetireGo : ∀ x0 x1, Statement (.trpRetireGo x0 x1) := fun _ _ => rfl
theorem clockGate : ∀ x0, Statement (.clockGate x0) := fun _ => rfl
theorem nop : ∀ x0 x1, Statement (.nop x0 x1) := fun _ _ => rfl
theorem endUnit : ∀ x0 x1, Statement (.endUnit x0 x1) := fun _ _ => rfl
theorem br : ∀ x0 x1, Statement (.br x0 x1) := fun _ _ => rfl
theorem brz : ∀ x0 x1, Statement (.brz x0 x1) := fun _ _ => rfl
theorem brnz : ∀ x0 x1, Statement (.brnz x0 x1) := fun _ _ => rfl
theorem call : ∀ x0 x1, Statement (.call x0 x1) := fun _ _ => rfl
theorem retn : ∀ x0 x1, Statement (.retn x0 x1) := fun _ _ => rfl
theorem loop : ∀ x0 x1, Statement (.loop x0 x1) := fun _ _ => rfl
theorem waitcue : ∀ x0 x1, Statement (.waitcue x0 x1) := fun _ _ => rfl
theorem waitcueResume : ∀ x0, Statement (.waitcueResume x0) := fun _ => rfl
theorem dlbr : ∀ x0 x1, Statement (.dlbr x0 x1) := fun _ _ => rfl
theorem mfs : ∀ x0 x1, Statement (.mfs x0 x1) := fun _ _ => rfl
theorem mts : ∀ x0 x1, Statement (.mts x0 x1) := fun _ _ => rfl
theorem send : ∀ x0 x1, Statement (.send x0 x1) := fun _ _ => rfl
theorem recv : ∀ x0 x1, Statement (.recv x0 x1) := fun _ _ => rfl
theorem credq : ∀ x0 x1, Statement (.credq x0 x1) := fun _ _ => rfl
theorem rxq : ∀ x0 x1, Statement (.rxq x0 x1) := fun _ _ => rfl
theorem pand : ∀ x0 x1, Statement (.pand x0 x1) := fun _ _ => rfl
theorem por : ∀ x0 x1, Statement (.por x0 x1) := fun _ _ => rfl
theorem pxor : ∀ x0 x1, Statement (.pxor x0 x1) := fun _ _ => rfl
theorem pandn : ∀ x0 x1, Statement (.pandn x0 x1) := fun _ _ => rfl
theorem pnot : ∀ x0 x1, Statement (.pnot x0 x1) := fun _ _ => rfl
theorem pany : ∀ x0 x1, Statement (.pany x0 x1) := fun _ _ => rfl
theorem pcnt : ∀ x0 x1, Statement (.pcnt x0 x1) := fun _ _ => rfl
theorem pfirst : ∀ x0 x1, Statement (.pfirst x0 x1) := fun _ _ => rfl
theorem add : ∀ x0 x1, Statement (.add x0 x1) := fun _ _ => rfl
theorem sub : ∀ x0 x1, Statement (.sub x0 x1) := fun _ _ => rfl
theorem mul : ∀ x0 x1, Statement (.mul x0 x1) := fun _ _ => rfl
theorem mulh : ∀ x0 x1, Statement (.mulh x0 x1) := fun _ _ => rfl
theorem andS : ∀ x0 x1, Statement (.andS x0 x1) := fun _ _ => rfl
theorem orS : ∀ x0 x1, Statement (.orS x0 x1) := fun _ _ => rfl
theorem xorS : ∀ x0 x1, Statement (.xorS x0 x1) := fun _ _ => rfl
theorem shl : ∀ x0 x1, Statement (.shl x0 x1) := fun _ _ => rfl
theorem shr : ∀ x0 x1, Statement (.shr x0 x1) := fun _ _ => rfl
theorem sra : ∀ x0 x1, Statement (.sra x0 x1) := fun _ _ => rfl
theorem min : ∀ x0 x1, Statement (.min x0 x1) := fun _ _ => rfl
theorem max : ∀ x0 x1, Statement (.max x0 x1) := fun _ _ => rfl
theorem slt : ∀ x0 x1, Statement (.slt x0 x1) := fun _ _ => rfl
theorem seq : ∀ x0 x1, Statement (.seq x0 x1) := fun _ _ => rfl
theorem clz : ∀ x0 x1, Statement (.clz x0 x1) := fun _ _ => rfl
theorem popc : ∀ x0 x1, Statement (.popc x0 x1) := fun _ _ => rfl
theorem addi : ∀ x0 x1, Statement (.addi x0 x1) := fun _ _ => rfl
theorem muli : ∀ x0 x1, Statement (.muli x0 x1) := fun _ _ => rfl
theorem andi : ∀ x0 x1, Statement (.andi x0 x1) := fun _ _ => rfl
theorem ori : ∀ x0 x1, Statement (.ori x0 x1) := fun _ _ => rfl
theorem xori : ∀ x0 x1, Statement (.xori x0 x1) := fun _ _ => rfl
theorem shli : ∀ x0 x1, Statement (.shli x0 x1) := fun _ _ => rfl
theorem shri : ∀ x0 x1, Statement (.shri x0 x1) := fun _ _ => rfl
theorem srai : ∀ x0 x1, Statement (.srai x0 x1) := fun _ _ => rfl
theorem slti : ∀ x0 x1, Statement (.slti x0 x1) := fun _ _ => rfl
theorem sltiu : ∀ x0 x1, Statement (.sltiu x0 x1) := fun _ _ => rfl
theorem seqi : ∀ x0 x1, Statement (.seqi x0 x1) := fun _ _ => rfl
theorem li : ∀ x0 x1, Statement (.li x0 x1) := fun _ _ => rfl
theorem aadd : ∀ x0 x1, Statement (.aadd x0 x1) := fun _ _ => rfl
theorem asub : ∀ x0 x1, Statement (.asub x0 x1) := fun _ _ => rfl
theorem aadds : ∀ x0 x1, Statement (.aadds x0 x1) := fun _ _ => rfl
theorem ashl : ∀ x0 x1, Statement (.ashl x0 x1) := fun _ _ => rfl
theorem ashr : ∀ x0 x1, Statement (.ashr x0 x1) := fun _ _ => rfl
theorem aand : ∀ x0 x1, Statement (.aand x0 x1) := fun _ _ => rfl
theorem aor : ∀ x0 x1, Statement (.aor x0 x1) := fun _ _ => rfl
theorem axor : ∀ x0 x1, Statement (.axor x0 x1) := fun _ _ => rfl
theorem altu : ∀ x0 x1, Statement (.altu x0 x1) := fun _ _ => rfl
theorem aeq : ∀ x0 x1, Statement (.aeq x0 x1) := fun _ _ => rfl
theorem aaddi : ∀ x0 x1, Statement (.aaddi x0 x1) := fun _ _ => rfl
theorem alo : ∀ x0 x1, Statement (.alo x0 x1) := fun _ _ => rfl
theorem ahi : ∀ x0 x1, Statement (.ahi x0 x1) := fun _ _ => rfl
theorem s2a : ∀ x0 x1, Statement (.s2a x0 x1) := fun _ _ => rfl
theorem a2s : ∀ x0 x1, Statement (.a2s x0 x1) := fun _ _ => rfl
theorem v2s : ∀ x0 x1, Statement (.v2s x0 x1) := fun _ _ => rfl
theorem s2v : ∀ x0 x1, Statement (.s2v x0 x1) := fun _ _ => rfl
theorem vmov : ∀ x0 x1, Statement (.vmov x0 x1) := fun _ _ => rfl
theorem s2p : ∀ x0 x1, Statement (.s2p x0 x1) := fun _ _ => rfl
theorem p2s : ∀ x0 x1, Statement (.p2s x0 x1) := fun _ _ => rfl
theorem smov : ∀ x0 x1, Statement (.smov x0 x1) := fun _ _ => rfl
theorem amov : ∀ x0 x1, Statement (.amov x0 x1) := fun _ _ => rfl
theorem vadd : ∀ x0 x1, Statement (.vadd x0 x1) := fun _ _ => rfl
theorem vsub : ∀ x0 x1, Statement (.vsub x0 x1) := fun _ _ => rfl
theorem vmul : ∀ x0 x1, Statement (.vmul x0 x1) := fun _ _ => rfl
theorem vmulh : ∀ x0 x1, Statement (.vmulh x0 x1) := fun _ _ => rfl
theorem vmin : ∀ x0 x1, Statement (.vmin x0 x1) := fun _ _ => rfl
theorem vmax : ∀ x0 x1, Statement (.vmax x0 x1) := fun _ _ => rfl
theorem vand : ∀ x0 x1, Statement (.vand x0 x1) := fun _ _ => rfl
theorem vor : ∀ x0 x1, Statement (.vor x0 x1) := fun _ _ => rfl
theorem vxor : ∀ x0 x1, Statement (.vxor x0 x1) := fun _ _ => rfl
theorem vshl : ∀ x0 x1, Statement (.vshl x0 x1) := fun _ _ => rfl
theorem vshr : ∀ x0 x1, Statement (.vshr x0 x1) := fun _ _ => rfl
theorem vsra : ∀ x0 x1, Statement (.vsra x0 x1) := fun _ _ => rfl
theorem vcmp : ∀ x0 x1, Statement (.vcmp x0 x1) := fun _ _ => rfl
theorem vadds : ∀ x0 x1, Statement (.vadds x0 x1) := fun _ _ => rfl
theorem vpopc : ∀ x0 x1, Statement (.vpopc x0 x1) := fun _ _ => rfl
theorem vfadd : ∀ x0 x1, Statement (.vfadd x0 x1) := fun _ _ => rfl
theorem vfsub : ∀ x0 x1, Statement (.vfsub x0 x1) := fun _ _ => rfl
theorem vfmul : ∀ x0 x1, Statement (.vfmul x0 x1) := fun _ _ => rfl
theorem vfma : ∀ x0 x1, Statement (.vfma x0 x1) := fun _ _ => rfl
theorem vfmin : ∀ x0 x1, Statement (.vfmin x0 x1) := fun _ _ => rfl
theorem vfmax : ∀ x0 x1, Statement (.vfmax x0 x1) := fun _ _ => rfl
theorem vfabs : ∀ x0 x1, Statement (.vfabs x0 x1) := fun _ _ => rfl
theorem vfneg : ∀ x0 x1, Statement (.vfneg x0 x1) := fun _ _ => rfl
theorem vfcmp : ∀ x0 x1, Statement (.vfcmp x0 x1) := fun _ _ => rfl
theorem vfexp2 : ∀ x0 x1, Statement (.vfexp2 x0 x1) := fun _ _ => rfl
theorem vflog2 : ∀ x0 x1, Statement (.vflog2 x0 x1) := fun _ _ => rfl
theorem vfrcp : ∀ x0 x1, Statement (.vfrcp x0 x1) := fun _ _ => rfl
theorem vfrsq : ∀ x0 x1, Statement (.vfrsq x0 x1) := fun _ _ => rfl
theorem vfsqrt : ∀ x0 x1, Statement (.vfsqrt x0 x1) := fun _ _ => rfl
theorem vfscl : ∀ x0 x1, Statement (.vfscl x0 x1) := fun _ _ => rfl
theorem cvt : ∀ x0 x1, Statement (.cvt x0 x1) := fun _ _ => rfl
theorem dec : ∀ x0 x1, Statement (.dec x0 x1) := fun _ _ => rfl
theorem qmx : ∀ x0 x1, Statement (.qmx x0 x1) := fun _ _ => rfl
theorem qps4 : ∀ x0 x1, Statement (.qps4 x0 x1) := fun _ _ => rfl
theorem vbcast : ∀ x0 x1, Statement (.vbcast x0 x1) := fun _ _ => rfl
theorem vsplat : ∀ x0 x1, Statement (.vsplat x0 x1) := fun _ _ => rfl
theorem vperm : ∀ x0 x1, Statement (.vperm x0 x1) := fun _ _ => rfl
theorem vrot : ∀ x0 x1, Statement (.vrot x0 x1) := fun _ _ => rfl
theorem vminl : ∀ x0 x1, Statement (.vminl x0 x1) := fun _ _ => rfl
theorem vsuml : ∀ x0 x1, Statement (.vsuml x0 x1) := fun _ _ => rfl
theorem tdot : ∀ x0 x1, Statement (.tdot x0 x1) := fun _ _ => rfl
theorem tdotb : ∀ x0 x1, Statement (.tdotb x0 x1) := fun _ _ => rfl
theorem tdots : ∀ x0 x1, Statement (.tdots x0 x1) := fun _ _ => rfl
theorem tadd : ∀ x0 x1, Statement (.tadd x0 x1) := fun _ _ => rfl
theorem tbase : ∀ x0 x1, Statement (.tbase x0 x1) := fun _ _ => rfl
theorem tmerge : ∀ x0 x1, Statement (.tmerge x0 x1) := fun _ _ => rfl
theorem tpack : ∀ x0 x1, Statement (.tpack x0 x1) := fun _ _ => rfl
theorem tcvt : ∀ x0 x1, Statement (.tcvt x0 x1) := fun _ _ => rfl
theorem tstore : ∀ x0 x1, Statement (.tstore x0 x1) := fun _ _ => rfl
theorem xpopl : ∀ x0 x1, Statement (.xpopl x0 x1) := fun _ _ => rfl
theorem hdist : ∀ x0 x1, Statement (.hdist x0 x1) := fun _ _ => rfl
theorem ldv : ∀ x0 x1, Statement (.ldv x0 x1) := fun _ _ => rfl
theorem ldvi : ∀ x0 x1, Statement (.ldvi x0 x1) := fun _ _ => rfl
theorem ldw : ∀ x0 x1, Statement (.ldw x0 x1) := fun _ _ => rfl
theorem lda : ∀ x0 x1, Statement (.lda x0 x1) := fun _ _ => rfl
theorem ldg : ∀ x0 x1, Statement (.ldg x0 x1) := fun _ _ => rfl
theorem ldp : ∀ x0 x1, Statement (.ldp x0 x1) := fun _ _ => rfl
theorem stv : ∀ x0 x1, Statement (.stv x0 x1) := fun _ _ => rfl
theorem stvi : ∀ x0 x1, Statement (.stvi x0 x1) := fun _ _ => rfl
theorem stw : ∀ x0 x1, Statement (.stw x0 x1) := fun _ _ => rfl
theorem sta : ∀ x0 x1, Statement (.sta x0 x1) := fun _ _ => rfl
theorem stsc : ∀ x0 x1, Statement (.stsc x0 x1) := fun _ _ => rfl
theorem tbar : ∀ x0 x1, Statement (.tbar x0 x1) := fun _ _ => rfl
theorem pbv : ∀ x0 x1, Statement (.pbv x0 x1) := fun _ _ => rfl
theorem pbvi : ∀ x0 x1, Statement (.pbvi x0 x1) := fun _ _ => rfl
theorem pbw : ∀ x0 x1, Statement (.pbw x0 x1) := fun _ _ => rfl
theorem pbg : ∀ x0 x1, Statement (.pbg x0 x1) := fun _ _ => rfl
theorem gld : ∀ x0 x1, Statement (.gld x0 x1) := fun _ _ => rfl
theorem gst : ∀ x0 x1, Statement (.gst x0 x1) := fun _ _ => rfl
theorem gq : ∀ x0 x1, Statement (.gq x0 x1) := fun _ _ => rfl
theorem gmemComplete : ∀ x0 x1 x2, Statement (.gmemComplete x0 x1 x2) := fun _ _ _ => rfl
theorem atomAadd : ∀ x0 x1, Statement (.atomAadd x0 x1) := fun _ _ => rfl
theorem amin : ∀ x0 x1, Statement (.amin x0 x1) := fun _ _ => rfl
theorem amax : ∀ x0 x1, Statement (.amax x0 x1) := fun _ _ => rfl
theorem atomAand : ∀ x0 x1, Statement (.atomAand x0 x1) := fun _ _ => rfl
theorem atomAor : ∀ x0 x1, Statement (.atomAor x0 x1) := fun _ _ => rfl
theorem atomAxor : ∀ x0 x1, Statement (.atomAxor x0 x1) := fun _ _ => rfl
theorem aswap : ∀ x0 x1, Statement (.aswap x0 x1) := fun _ _ => rfl
theorem acas : ∀ x0 x1, Statement (.acas x0 x1) := fun _ _ => rfl
theorem acas128 : ∀ x0 x1, Statement (.acas128 x0 x1) := fun _ _ => rfl
theorem atomComplete : ∀ x0 x1, Statement (.atomComplete x0 x1) := fun _ _ => rfl
theorem sload : ∀ x0 x1, Statement (.sload x0 x1) := fun _ _ => rfl
theorem sstore : ∀ x0 x1, Statement (.sstore x0 x1) := fun _ _ => rfl
theorem sdlv : ∀ x0 x1, Statement (.sdlv x0 x1) := fun _ _ => rfl
theorem sldv : ∀ x0 x1, Statement (.sldv x0 x1) := fun _ _ => rfl
theorem sstv : ∀ x0 x1, Statement (.sstv x0 x1) := fun _ _ => rfl
theorem sunit : ∀ x0 x1, Statement (.sunit x0 x1) := fun _ _ => rfl
theorem dcmp : ∀ x0 x1, Statement (.dcmp x0 x1) := fun _ _ => rfl
theorem enc : ∀ x0 x1, Statement (.enc x0 x1) := fun _ _ => rfl
theorem ptrx : ∀ x0 x1, Statement (.ptrx x0 x1) := fun _ _ => rfl
theorem crc64 : ∀ x0 x1, Statement (.crc64 x0 x1) := fun _ _ => rfl
theorem evclaim : ∀ x0 x1, Statement (.evclaim x0 x1) := fun _ _ => rfl
theorem evclaimCommit : ∀ x0, Statement (.evclaimCommit x0) := fun _ => rfl
theorem evdone : ∀ x0 x1, Statement (.evdone x0 x1) := fun _ _ => rfl
theorem wfe : ∀ x0 x1, Statement (.wfe x0 x1) := fun _ _ => rfl
theorem wfeWake : ∀ x0 x1, Statement (.wfeWake x0 x1) := fun _ _ => rfl
theorem raise : ∀ x0 x1, Statement (.raise x0 x1) := fun _ _ => rfl
theorem fence : ∀ x0 x1, Statement (.fence x0 x1) := fun _ _ => rfl
theorem ld64 : ∀ x0 x1, Statement (.ld64 x0 x1) := fun _ _ => rfl
theorem st64 : ∀ x0 x1, Statement (.st64 x0 x1) := fun _ _ => rfl
theorem ld32 : ∀ x0 x1, Statement (.ld32 x0 x1) := fun _ _ => rfl
theorem st32 : ∀ x0 x1, Statement (.st32 x0 x1) := fun _ _ => rfl
theorem ldl : ∀ x0 x1, Statement (.ldl x0 x1) := fun _ _ => rfl
theorem stl : ∀ x0 x1, Statement (.stl x0 x1) := fun _ _ => rfl
theorem deliver : ∀ x0, Statement (.deliver x0) := fun _ => rfl
theorem frameEntry : ∀ x0, Statement (.frameEntry x0) := fun _ => rfl
theorem courierDDel : ∀ x0 x1, Statement (.courierDDel x0 x1) := fun _ _ => rfl
theorem courierReadComplete : ∀ x0, Statement (.courierReadComplete x0) := fun _ => rfl
theorem inTransitRetry : ∀ x0, Statement (.inTransitRetry x0) := fun _ => rfl
theorem crrResume : ∀ x0 x1, Statement (.crrResume x0 x1) := fun _ _ => rfl
theorem crrAbandon : ∀ x0 x1, Statement (.crrAbandon x0 x1) := fun _ _ => rfl
theorem crrRestart : ∀ x0 x1, Statement (.crrRestart x0 x1) := fun _ _ => rfl
theorem poolFaultTimeout : ∀ x0, Statement (.poolFaultTimeout x0) := fun _ => rfl
theorem tableReadComplete : ∀ x0, Statement (.tableReadComplete x0) := fun _ => rfl
theorem tlbiAll : ∀ x0, Statement (.tlbiAll x0) := fun _ => rfl
theorem tlbiPart : ∀ x0 x1, Statement (.tlbiPart x0 x1) := fun _ _ => rfl
theorem tlbiVa : ∀ x0 x1 x2, Statement (.tlbiVa x0 x1 x2) := fun _ _ _ => rfl
theorem tlbiIpa : ∀ x0 x1 x2, Statement (.tlbiIpa x0 x1 x2) := fun _ _ _ => rfl
theorem tlbiComplete : Statement .tlbiComplete := rfl
theorem stmHintGo : ∀ x0 x1 x2 x3 x4, Statement (.stmHintGo x0 x1 x2 x3 x4) := fun _ _ _ _ _ => rfl
theorem migrationComplete : ∀ x0, Statement (.migrationComplete x0) := fun _ => rfl
theorem stageOnlyZeroed : Statement .stageOnlyZeroed := rfl
theorem lend : ∀ x0 x1, Statement (.lend x0 x1) := fun _ _ => rfl
theorem notice : ∀ x0 x1 x2, Statement (.notice x0 x1 x2) := fun _ _ _ => rfl
theorem release : ∀ x0 x1, Statement (.release x0 x1) := fun _ _ => rfl
theorem loanMsg : ∀ x0 x1, Statement (.loanMsg x0 x1) := fun _ _ => rfl
theorem loanEnd : ∀ x0 x1, Statement (.loanEnd x0 x1) := fun _ _ => rfl
theorem loanZeroingDone : ∀ x0, Statement (.loanZeroingDone x0) := fun _ => rfl
theorem channelFailed : ∀ x0 x1 x2, Statement (.channelFailed x0 x1 x2) := fun _ _ _ => rfl
theorem rebuildComplete : ∀ x0, Statement (.rebuildComplete x0) := fun _ => rfl
theorem copybackComplete : ∀ x0, Statement (.copybackComplete x0) := fun _ => rfl
theorem mirrorWr : ∀ x0 x1 x2 x3 x4, Statement (.mirrorWr x0 x1 x2 x3 x4) := fun _ _ _ _ _ => rfl
theorem scrub : ∀ x0 x1 x2, Statement (.scrub x0 x1 x2) := fun _ _ _ => rfl
theorem errorWindowStart : Statement .errorWindowStart := rfl
theorem rdS : ∀ x0 x1 x2, Statement (.rdS x0 x1 x2) := fun _ _ _ => rfl
theorem rdX : ∀ x0 x1 x2, Statement (.rdX x0 x1 x2) := fun _ _ _ => rfl
theorem upg : ∀ x0 x1 x2, Statement (.upg x0 x1 x2) := fun _ _ _ => rfl
theorem rdOnce : ∀ x0 x1 x2, Statement (.rdOnce x0 x1 x2) := fun _ _ _ => rfl
theorem wrLine : ∀ x0 x1 x2 x3 x4, Statement (.wrLine x0 x1 x2 x3 x4) := fun _ _ _ _ _ => rfl
theorem wrPart : ∀ x0 x1 x2 x3 x4, Statement (.wrPart x0 x1 x2 x3 x4) := fun _ _ _ _ _ => rfl
theorem cohAtomic : ∀ x0 x1 x2 x3 x4 x5 x6 x7 x8 x9 x10, Statement (.cohAtomic x0 x1 x2 x3 x4 x5 x6 x7 x8 x9 x10) := fun _ _ _ _ _ _ _ _ _ _ _ => rfl
theorem tierDataReturn : ∀ x0, Statement (.tierDataReturn x0) := fun _ => rfl
theorem snpShr : ∀ x0 x1 x2, Statement (.snpShr x0 x1 x2) := fun _ _ _ => rfl
theorem snpInv : ∀ x0 x1 x2 x3, Statement (.snpInv x0 x1 x2 x3) := fun _ _ _ _ => rfl
theorem snpInvHome : ∀ x0 x1 x2, Statement (.snpInvHome x0 x1 x2) := fun _ _ _ => rfl
theorem snpOnce : ∀ x0 x1 x2, Statement (.snpOnce x0 x1 x2) := fun _ _ _ => rfl
theorem snpShrHome : ∀ x0 x1 x2, Statement (.snpShrHome x0 x1 x2) := fun _ _ _ => rfl
theorem ackI : ∀ x0 x1 x2, Statement (.ackI x0 x1 x2) := fun _ _ _ => rfl
theorem ackID : ∀ x0 x1, Statement (.ackID x0 x1) := fun _ _ => rfl
theorem ackSD : ∀ x0 x1, Statement (.ackSD x0 x1) := fun _ _ => rfl
theorem ackKeep : ∀ x0 x1, Statement (.ackKeep x0 x1) := fun _ _ => rfl
theorem evict : ∀ x0 x1, Statement (.evict x0 x1) := fun _ _ => rfl
theorem wbData : ∀ x0 x1 x2 x3, Statement (.wbData x0 x1 x2 x3) := fun _ _ _ _ => rfl
theorem dataHome : ∀ x0 x1 x2 x3, Statement (.dataHome x0 x1 x2 x3) := fun _ _ _ _ => rfl
theorem gnt : ∀ x0 x1, Statement (.gnt x0 x1) := fun _ _ => rfl
theorem dataS : ∀ x0 x1 x2 x3, Statement (.dataS x0 x1 x2 x3) := fun _ _ _ _ => rfl
theorem dataF : ∀ x0 x1 x2 x3, Statement (.dataF x0 x1 x2 x3) := fun _ _ _ _ => rfl
theorem dataE : ∀ x0 x1 x2 x3, Statement (.dataE x0 x1 x2 x3) := fun _ _ _ _ => rfl
theorem dataM : ∀ x0 x1 x2 x3, Statement (.dataM x0 x1 x2 x3) := fun _ _ _ _ => rfl
theorem dataOnce : ∀ x0 x1 x2 x3, Statement (.dataOnce x0 x1 x2 x3) := fun _ _ _ _ => rfl
theorem dataAtom : ∀ x0 x1 x2 x3, Statement (.dataAtom x0 x1 x2 x3) := fun _ _ _ _ => rfl
theorem agentLoad : ∀ x0 x1, Statement (.agentLoad x0 x1) := fun _ _ => rfl
theorem agentStore : ∀ x0 x1 x2 x3, Statement (.agentStore x0 x1 x2 x3) := fun _ _ _ _ => rfl
theorem agentReplacement : ∀ x0 x1, Statement (.agentReplacement x0 x1) := fun _ _ => rfl
theorem holdEnd : ∀ x0 x1, Statement (.holdEnd x0 x1) := fun _ _ => rfl
theorem memrd : ∀ x0 x1 x2, Statement (.memrd x0 x1 x2) := fun _ _ _ => rfl
theorem meminv : ∀ x0 x1 x2, Statement (.meminv x0 x1 x2) := fun _ _ _ => rfl
theorem memwr : ∀ x0 x1 x2 x3 x4, Statement (.memwr x0 x1 x2 x3 x4) := fun _ _ _ _ _ => rfl
theorem memwrptl : ∀ x0 x1 x2 x3 x4 x5, Statement (.memwrptl x0 x1 x2 x3 x4 x5) := fun _ _ _ _ _ _ => rfl
theorem birsp : ∀ x0 x1 x2, Statement (.birsp x0 x1 x2) := fun _ _ _ => rfl
theorem biconflict : ∀ x0 x1, Statement (.biconflict x0 x1) := fun _ _ => rfl
theorem otherM2sOpcode : ∀ x0 x1 x2, Statement (.otherM2sOpcode x0 x1 x2) := fun _ _ _ => rfl
theorem biTimeout : ∀ x0, Statement (.biTimeout x0) := fun _ => rfl
theorem edgeAgentLost : ∀ x0, Statement (.edgeAgentLost x0) := fun _ => rfl
theorem agentSweepComplete : ∀ x0, Statement (.agentSweepComplete x0) := fun _ => rfl
theorem cohAgentRearm : ∀ x0 x1, Statement (.cohAgentRearm x0 x1) := fun _ _ => rfl
theorem hdmDecoderCommit : ∀ x0 x1 x2 x3 x4, Statement (.hdmDecoderCommit x0 x1 x2 x3 x4) := fun _ _ _ _ _ => rfl
theorem efhPortEn : ∀ x0 x1 x2, Statement (.efhPortEn x0 x1 x2) := fun _ _ _ => rfl
theorem trainComplete : ∀ x0, Statement (.trainComplete x0) := fun _ => rfl
theorem trainTimeout : ∀ x0, Statement (.trainTimeout x0) := fun _ => rfl
theorem alignLock : ∀ x0, Statement (.alignLock x0) := fun _ => rfl
theorem alignTimeout : ∀ x0, Statement (.alignTimeout x0) := fun _ => rfl
theorem negotiate : ∀ x0 x1 x2, Statement (.negotiate x0 x1 x2) := fun _ _ _ => rfl
theorem fecLockLoss : ∀ x0, Statement (.fecLockLoss x0) := fun _ => rfl
theorem flitReceive : ∀ x0 x1 x2, Statement (.flitReceive x0 x1 x2) := fun _ _ _ => rfl
theorem nak : ∀ x0 x1, Statement (.nak x0 x1) := fun _ _ => rfl
theorem fabricRd : ∀ x0 x1 x2 x3 x4, Statement (.fabricRd x0 x1 x2 x3 x4) := fun _ _ _ _ _ => rfl
theorem fabricWr : ∀ x0 x1 x2 x3 x4 x5 x6, Statement (.fabricWr x0 x1 x2 x3 x4 x5 x6) := fun _ _ _ _ _ _ _ => rfl
theorem fabricWrPart : ∀ x0 x1 x2 x3 x4 x5 x6, Statement (.fabricWrPart x0 x1 x2 x3 x4 x5 x6) := fun _ _ _ _ _ _ _ => rfl
theorem fabricAtom : ∀ x0 x1 x2 x3 x4 x5 x6 x7 x8 x9 x10, Statement (.fabricAtom x0 x1 x2 x3 x4 x5 x6 x7 x8 x9 x10) := fun _ _ _ _ _ _ _ _ _ _ _ => rfl
theorem fabricRsp : ∀ x0 x1 x2 x3 x4 x5, Statement (.fabricRsp x0 x1 x2 x3 x4 x5) := fun _ _ _ _ _ _ => rfl
theorem fabricParcel : ∀ x0, Statement (.fabricParcel x0) := fun _ => rfl
theorem fabricCred : ∀ x0 x1, Statement (.fabricCred x0 x1) := fun _ _ => rfl
theorem ctrlRd : ∀ x0 x1 x2 x3, Statement (.ctrlRd x0 x1 x2 x3) := fun _ _ _ _ => rfl
theorem ctrlWr : ∀ x0 x1 x2 x3 x4, Statement (.ctrlWr x0 x1 x2 x3 x4) := fun _ _ _ _ _ => rfl
theorem requestResendTimeout : ∀ x0, Statement (.requestResendTimeout x0) := fun _ => rfl
theorem offer : ∀ x0, Statement (.offer x0) := fun _ => rfl
theorem offerMsg : ∀ x0 x1 x2 x3 x4 x5 x6 x7, Statement (.offerMsg x0 x1 x2 x3 x4 x5 x6 x7) := fun _ _ _ _ _ _ _ _ => rfl
theorem offerFwd : ∀ x0 x1 x2 x3 x4 x5, Statement (.offerFwd x0 x1 x2 x3 x4 x5) := fun _ _ _ _ _ _ => rfl
theorem accept : ∀ x0, Statement (.accept x0) := fun _ => rfl
theorem acceptMsg : ∀ x0 x1 x2 x3 x4, Statement (.acceptMsg x0 x1 x2 x3 x4) := fun _ _ _ _ _ => rfl
theorem grant : ∀ x0 x1 x2 x3 x4 x5 x6, Statement (.grant x0 x1 x2 x3 x4 x5 x6) := fun _ _ _ _ _ _ _ => rfl
theorem offerQuery : ∀ x0, Statement (.offerQuery x0) := fun _ => rfl
theorem query : ∀ x0 x1 x2, Statement (.query x0 x1 x2) := fun _ _ _ => rfl
theorem queryReply : ∀ x0 x1 x2 x3, Statement (.queryReply x0 x1 x2 x3) := fun _ _ _ _ => rfl
theorem publish : ∀ x0, Statement (.publish x0) := fun _ => rfl
theorem publishMsg : ∀ x0 x1 x2 x3 x4 x5 x6, Statement (.publishMsg x0 x1 x2 x3 x4 x5 x6) := fun _ _ _ _ _ _ _ => rfl
theorem regionInval : ∀ x0 x1 x2, Statement (.regionInval x0 x1 x2) := fun _ _ _ => rfl
theorem invalAck : ∀ x0 x1, Statement (.invalAck x0 x1) := fun _ _ => rfl
theorem regionSet : ∀ x0 x1 x2 x3 x4 x5, Statement (.regionSet x0 x1 x2 x3 x4 x5) := fun _ _ _ _ _ _ => rfl
theorem regionClear : ∀ x0 x1, Statement (.regionClear x0 x1) := fun _ _ => rfl
theorem regionForward : ∀ x0 x1 x2, Statement (.regionForward x0 x1 x2) := fun _ _ _ => rfl
theorem forwardDrained : ∀ x0, Statement (.forwardDrained x0) := fun _ => rfl
theorem switchInputArrival : ∀ x0 x1, Statement (.switchInputArrival x0 x1) := fun _ _ => rfl
theorem tokenRefill : Statement .tokenRefill := rfl
theorem multicastCopy : ∀ x0, Statement (.multicastCopy x0) := fun _ => rfl
theorem tallyMerge : Statement .tallyMerge := rfl
theorem sweepEnd : Statement .sweepEnd := rfl
theorem gather : ∀ x0 x1, Statement (.gather x0 x1) := fun _ _ => rfl
theorem scatterAdd : ∀ x0 x1, Statement (.scatterAdd x0 x1) := fun _ _ => rfl
theorem rowPut : ∀ x0 x1, Statement (.rowPut x0 x1) := fun _ _ => rfl
theorem rowLookup : ∀ x0 x1 x2 x3 x4 x5, Statement (.rowLookup x0 x1 x2 x3 x4 x5) := fun _ _ _ _ _ _ => rfl
theorem hotRowLanded : ∀ x0 x1 x2 x3, Statement (.hotRowLanded x0 x1 x2 x3) := fun _ _ _ _ => rfl
theorem embForwardDrained : ∀ x0, Statement (.embForwardDrained x0) := fun _ => rfl
theorem searchOrder : ∀ x0 x1, Statement (.searchOrder x0 x1) := fun _ _ => rfl
theorem searchTask : ∀ x0 x1 x2 x3 x4 x5 x6 x7 x8 x9 x10 x11 x12, Statement (.searchTask x0 x1 x2 x3 x4 x5 x6 x7 x8 x9 x10 x11 x12) := fun _ _ _ _ _ _ _ _ _ _ _ _ _ => rfl
theorem searchSpill : ∀ x0, Statement (.searchSpill x0) := fun _ => rfl
theorem shardResult : ∀ x0 x1 x2 x3 x4 x5 x6, Statement (.shardResult x0 x1 x2 x3 x4 x5 x6) := fun _ _ _ _ _ _ _ => rfl
theorem postcard : ∀ x0 x1 x2 x3 x4 x5 x6 x7 x8 x9 x10, Statement (.postcard x0 x1 x2 x3 x4 x5 x6 x7 x8 x9 x10) := fun _ _ _ _ _ _ _ _ _ _ _ => rfl
theorem suspect : ∀ x0, Statement (.suspect x0) := fun _ => rfl
theorem quorumLoss : Statement .quorumLoss := rfl
theorem restoreGo : ∀ x0 x1, Statement (.restoreGo x0 x1) := fun _ _ => rfl
theorem restoreDone : Statement .restoreDone := rfl
theorem rslAdmitGo : ∀ x0, Statement (.rslAdmitGo x0) := fun _ => rfl
theorem selftestDone : ∀ x0, Statement (.selftestDone x0) := fun _ => rfl
theorem admitOrder : ∀ x0 x1, Statement (.admitOrder x0 x1) := fun _ _ => rfl
theorem rehearsalInjection : Statement .rehearsalInjection := rfl
theorem memoryRead : ∀ x0 x1, Statement (.memoryRead x0 x1) := fun _ _ => rfl
theorem memoryWrite : ∀ x0 x1 x2, Statement (.memoryWrite x0 x1 x2) := fun _ _ _ => rfl
theorem unsupportedRequest : Statement .unsupportedRequest := rfl
theorem configurationRequest : ∀ x0, Statement (.configurationRequest x0) := fun _ => rfl
theorem doeRequest : ∀ x0 x1, Statement (.doeRequest x0 x1) := fun _ _ => rfl
theorem flr : Statement .flr := rfl
theorem hotReset : Statement .hotReset := rfl
theorem dlDown : Statement .dlDown := rfl
theorem perst : ∀ x0, Statement (.perst x0) := fun _ => rfl
theorem hostLinkUp : ∀ x0 x1, Statement (.hostLinkUp x0 x1) := fun _ _ => rfl
theorem ideFailure : ∀ x0 x1, Statement (.ideFailure x0 x1) := fun _ _ => rfl
theorem identifyMemoryDevice : ∀ x0, Statement (.identifyMemoryDevice x0) := fun _ => rfl
theorem getPartitionInfo : ∀ x0, Statement (.getPartitionInfo x0) := fun _ => rfl
theorem getHealthInfo : ∀ x0, Statement (.getHealthInfo x0) := fun _ => rfl
theorem getSupportedLogs : ∀ x0, Statement (.getSupportedLogs x0) := fun _ => rfl
theorem getLog : ∀ x0 x1 x2 x3, Statement (.getLog x0 x1 x2 x3) := fun _ _ _ _ => rfl
theorem getEventRecords : ∀ x0 x1, Statement (.getEventRecords x0 x1) := fun _ _ => rfl
theorem clearEventRecords : ∀ x0 x1 x2 x3, Statement (.clearEventRecords x0 x1 x2 x3) := fun _ _ _ _ => rfl
theorem mailboxUnsupported : ∀ x0 x1, Statement (.mailboxUnsupported x0 x1) := fun _ _ => rfl
theorem outboxNotice : ∀ x0 x1, Statement (.outboxNotice x0 x1) := fun _ _ => rfl
theorem workOrderFetch : ∀ x0 x1, Statement (.workOrderFetch x0 x1) := fun _ _ => rfl
theorem inboxHeadWrite : ∀ x0 x1, Statement (.inboxHeadWrite x0 x1) := fun _ _ => rfl
theorem runPlan : ∀ x0, Statement (.runPlan x0) := fun _ => rfl
theorem copyOrder : ∀ x0 x1, Statement (.copyOrder x0 x1) := fun _ _ => rfl
theorem fillOrder : ∀ x0 x1, Statement (.fillOrder x0 x1) := fun _ _ => rfl
theorem callSheet : ∀ x0 x1, Statement (.callSheet x0 x1) := fun _ _ => rfl
theorem resumeOrder : ∀ x0, Statement (.resumeOrder x0) := fun _ => rfl
theorem eventEdge : ∀ x0, Statement (.eventEdge x0) := fun _ => rfl
theorem eventRetract : ∀ x0, Statement (.eventRetract x0) := fun _ => rfl
theorem evcPendingClear : ∀ x0 x1 x2, Statement (.evcPendingClear x0 x1 x2) := fun _ _ _ => rfl
theorem evcRaiseWrite : ∀ x0 x1, Statement (.evcRaiseWrite x0 x1) := fun _ _ => rfl
theorem targetSignal : ∀ x0 x1 x2, Statement (.targetSignal x0 x1 x2) := fun _ _ _ => rfl
theorem coreHandlerEntry : ∀ x0, Statement (.coreHandlerEntry x0) := fun _ => rfl
theorem smCoreRestart : ∀ x0 x1, Statement (.smCoreRestart x0 x1) := fun _ _ => rfl
theorem stageDoorCoreRestart : Statement .stageDoorCoreRestart := rfl
theorem smxXqRdWrite : ∀ x0 x1, Statement (.smxXqRdWrite x0 x1) := fun _ _ => rfl
theorem refclkLoss : Statement .refclkLoss := rfl
theorem refclkReturn : ∀ x0, Statement (.refclkReturn x0) := fun _ => rfl
theorem pllLockLoss : ∀ x0, Statement (.pllLockLoss x0) := fun _ => rfl
theorem pllRelock : Statement .pllRelock := rfl
theorem clkMuxCmdGo : ∀ x0 x1 x2 x3 x4, Statement (.clkMuxCmdGo x0 x1 x2 x3 x4) := fun _ _ _ _ _ => rfl
theorem muxHung : ∀ x0, Statement (.muxHung x0) := fun _ => rfl
theorem domainCycleComplete : ∀ x0, Statement (.domainCycleComplete x0) := fun _ => rfl
theorem clkFcntGo : ∀ x0 x1 x2 x3, Statement (.clkFcntGo x0 x1 x2 x3) := fun _ _ _ _ => rfl
theorem clkFcntDone : ∀ x0, Statement (.clkFcntDone x0) := fun _ => rfl
theorem pwrActive : ∀ x0, Statement (.pwrActive x0) := fun _ => rfl
theorem pwrIdle : ∀ x0, Statement (.pwrIdle x0) := fun _ => rfl
theorem pwrDoze : ∀ x0, Statement (.pwrDoze x0) := fun _ => rfl
theorem pwrRest : ∀ x0, Statement (.pwrRest x0) := fun _ => rfl
theorem stageDoorRound : ∀ x0 x1 x2 x3, Statement (.stageDoorRound x0 x1 x2 x3) := fun _ _ _ _ => rfl
theorem tripRecovery : Statement .tripRecovery := rfl
theorem inputOvervoltageDisconnect : Statement .inputOvervoltageDisconnect := rfl
theorem undervoltageLockout : Statement .undervoltageLockout := rfl
theorem coldReset : Statement .coldReset := rfl
theorem warmReset : ∀ x0, Statement (.warmReset x0) := fun _ => rfl
theorem secResetCold : ∀ x0, Statement (.secResetCold x0) := fun _ => rfl
theorem secResetWarm : ∀ x0, Statement (.secResetWarm x0) := fun _ => rfl
theorem bootDone : ∀ x0, Statement (.bootDone x0) := fun _ => rfl
theorem storeReady : Statement .storeReady := rfl
theorem imgWrite : ∀ x0 x1, Statement (.imgWrite x0 x1) := fun _ _ => rfl
theorem imgArm : ∀ x0 x1 x2, Statement (.imgArm x0 x1 x2) := fun _ _ _ => rfl
theorem imgCommit : ∀ x0 x1, Statement (.imgCommit x0 x1) := fun _ _ => rfl
theorem imgSvn : ∀ x0 x1, Statement (.imgSvn x0 x1) := fun _ _ => rfl
theorem secCalGo : ∀ x0 x1 x2, Statement (.secCalGo x0 x1 x2) := fun _ _ _ => rfl
theorem calDone : Statement .calDone := rfl
theorem wcDrain : ∀ x0 x1 x2, Statement (.wcDrain x0 x1 x2) := fun _ _ _ => rfl
theorem wcPowerOff : ∀ x0 x1, Statement (.wcPowerOff x0 x1) := fun _ _ => rfl
theorem wcRetrain : ∀ x0 x1 x2, Statement (.wcRetrain x0 x1 x2) := fun _ _ _ => rfl
theorem getVersion : ∀ x0, Statement (.getVersion x0) := fun _ => rfl
theorem getCapabilities : ∀ x0, Statement (.getCapabilities x0) := fun _ => rfl
theorem negotiateAlgorithms : ∀ x0 x1, Statement (.negotiateAlgorithms x0 x1) := fun _ _ => rfl
theorem getDigests : ∀ x0, Statement (.getDigests x0) := fun _ => rfl
theorem getCertificate : ∀ x0 x1 x2 x3, Statement (.getCertificate x0 x1 x2 x3) := fun _ _ _ _ => rfl
theorem challenge : ∀ x0 x1 x2, Statement (.challenge x0 x1 x2) := fun _ _ _ => rfl
theorem getMeasurements : ∀ x0 x1 x2, Statement (.getMeasurements x0 x1 x2) := fun _ _ _ => rfl
theorem keyExchange : ∀ x0 x1, Statement (.keyExchange x0 x1) := fun _ _ => rfl
theorem finish : ∀ x0 x1 x2, Statement (.finish x0 x1 x2) := fun _ _ _ => rfl
theorem heartbeat : ∀ x0 x1, Statement (.heartbeat x0 x1) := fun _ _ => rfl
theorem keyUpdate : ∀ x0 x1, Statement (.keyUpdate x0 x1) := fun _ _ => rfl
theorem endSession : ∀ x0 x1, Statement (.endSession x0 x1) := fun _ _ => rfl
theorem mctpControlAccess : ∀ x0 x1, Statement (.mctpControlAccess x0 x1) := fun _ _ => rfl
theorem hptCfgBar2Write : ∀ x0 x1, Statement (.hptCfgBar2Write x0 x1) := fun _ _ => rfl
theorem pbStagedDataWrite : ∀ x0 x1 x2 x3, Statement (.pbStagedDataWrite x0 x1 x2 x3) := fun _ _ _ _ => rfl
theorem pbkFrameStageWrite : ∀ x0 x1 x2 x3 x4 x5, Statement (.pbkFrameStageWrite x0 x1 x2 x3 x4 x5) := fun _ _ _ _ _ _ => rfl
theorem registerWrite : ∀ x0 x1 x2, Statement (.registerWrite x0 x1 x2) := fun _ _ _ => rfl
theorem bypass : Statement .bypass := rfl
theorem idcode : Statement .idcode := rfl
theorem samplePreload : ∀ x0, Statement (.samplePreload x0) := fun _ => rfl
theorem extest : Statement .extest := rfl
theorem clamp : Statement .clamp := rfl
theorem highz : Statement .highz := rfl
theorem extestPulse : Statement .extestPulse := rfl
theorem extestTrain : Statement .extestTrain := rfl
theorem testLogicReset : Statement .testLogicReset := rfl
theorem edgeLinkUp : ∀ x0 x1 x2, Statement (.edgeLinkUp x0 x1 x2) := fun _ _ _ => rfl
theorem edgePortEn : ∀ x0 x1 x2, Statement (.edgePortEn x0 x1 x2) := fun _ _ _ => rfl
theorem cellTimeMatch : Statement .cellTimeMatch := rfl
theorem rowResult : ∀ x0 x1 x2 x3, Statement (.rowResult x0 x1 x2 x3) := fun _ _ _ _ => rfl
theorem rowUpdate : ∀ x0 x1 x2 x3 x4 x5 x6 x7 x8 x9 x10, Statement (.rowUpdate x0 x1 x2 x3 x4 x5 x6 x7 x8 x9 x10) := fun _ _ _ _ _ _ _ _ _ _ _ => rfl

end Sys2Proof.Laws.CommandName
end

