-- ==== Sys2Proof/Tests/Slice0.lean ====
section
/-!
SUPPORT. Tests: ill-formed commands that WellFormed refuses, a legal word and a state in which each instruction issues, states and
operands that meet the hypotheses of each statement, clause by clause, and single steps whose results are worked out from the spec.
-/

namespace Sys2Proof.Tests

open Sys2Proof Sys2Proof.Machine

set_option Elab.async false

/-! ### Well-formed commands -/

theorem test_wf_accepts :
    (Instr.nop (.core 0) 0).wf = true ∧ (Instr.credParcel 0 [(0, 1)]).wf = true ∧ (Instr.fabricCred 1 [(0, 0, 6144)]).wf = true ∧
    (Instr.mirrorWr 1 0 0 0 (.line 0 0 0)).wf = true ∧ (Instr.rowResult 0 0 0 (List.replicate 32 0)).wf = true ∧
    (Instr.restoreGo 16 [none]).wf = true ∧ (Instr.memoryWrite 0 [(0, true)] false).wf = true ∧
    (Instr.stageDoorRound (List.replicate 224 0) (List.replicate 224 0) 0 0).wf = true := by decide +kernel

theorem test_wf_cred_parcel : (Instr.credParcel 0 (List.replicate 17 (0, 1))).wf = false := by decide
theorem test_wf_fabric_cred_count : (Instr.fabricCred 1 [(0, 0, 6145)]).wf = false := by decide
theorem test_wf_fabric_cred_length : (Instr.fabricCred 1 (List.replicate 17 (0, 0, 1))).wf = false := by decide +kernel
theorem test_wf_mirror : (Instr.mirrorWr 1 0 0 0 (.whole [0] 0)).wf = false := by decide +kernel
theorem test_wf_hot_row : (Instr.hotRowLanded 0 0 (List.replicate 15 0) 0).wf = false := by decide +kernel
theorem test_wf_row_result : (Instr.rowResult 0 0 0 [0]).wf = false := by decide
theorem test_wf_shard_result : (Instr.shardResult 0 0 0 false 0 0 (List.replicate 1025 (0, 0, 0))).wf = false := by decide +kernel
theorem test_wf_restore : (Instr.restoreGo 16 [some []]).wf = false := by decide
theorem test_wf_memory_write_empty : (Instr.memoryWrite 0 [] false).wf = false := by decide
theorem test_wf_memory_write_long : (Instr.memoryWrite 0 (List.replicate 513 (0, true)) false).wf = false := by decide +kernel
theorem test_wf_round : (Instr.stageDoorRound [] (List.replicate 224 0) 0 0).wf = false := by decide +kernel

/-! ### Where instructions issue -/

/-- An agent that runs a program of four instructions, with given registers. -/
def running (u : Agent) (x : Cx) : State := State.reset.setCx u { x with st := .run, len := 4 }

/-- Whether an instruction issues in a state with a lane enabled, as a test that evaluates. -/
def issues (e : Enc) (ok : Bool) (u : Agent) (f : BitVec 52) (s : State) : Bool :=
  !s.halted && s.mayIssue u && (s.badWord u).isNone && decide ((s.cx u).st = .run) && e.legal (agentProfile u) f && ok && decide ((s.cx u).pc < (s.cx u).len) &&
    (e.regs f).all (fun r => decide (r ∉ (s.cx u).pend)) && maskOf (s.cx u) f != 0

/-- The test says that both hypotheses of the statements about instructions hold. -/
theorem issues_iff {e : Enc} {ok : Bool} {u : Agent} {f : BitVec 52} {s : State} :
    issues e ok u f s = true ↔ Issues e ok u f s ∧ Enabled u f s := by
  simp [issues, Issues, Enabled, and_assoc, Option.isNone_iff_eq_none]

/-- Instruction and word issue in a state, with a lane enabled. -/
def issuesAt (u : Agent) (x : Cx) (p : IsaRow × Nat) : Bool :=
  issues (p.1.enc (BitVec.ofNat 52 p.2)) (p.1.ok (agentProfile u) (BitVec.ofNat 52 p.2)) u (BitVec.ofNat 52 p.2) (running u x)

theorem wit_issue_control : ∀ p ∈ isaControl.zip [0, 0, 0, 0, 0, 0, 0, 0, 0, 0, 0, 1, 0, 0, 0, 0], issuesAt (.ce 0 0) {} p := by decide

theorem wit_issue_scalar : ∀ p ∈ isaScalar.zip (List.replicate 58 0), issuesAt (.ce 0 0) {} p := by decide

theorem wit_issue_vector : ∀ p ∈ isaVector.zip (List.replicate 15 0 ++ List.replicate 15 32768 ++
    [512, 164864, 37888, 40960, 0, 0, 0, 0, 0, 0]), issuesAt (.ce 0 0) {} p := by decide

theorem wit_issue_tally : ∀ p ∈ isaTally.zip [33792, 33792, 33792, 32768, 0, 0, 0, 1024, 0, 287232, 287232], issuesAt (.ce 0 0) {} p := by decide

theorem wit_issue_memory : ∀ p ∈ isaMemory.zip (List.replicate 19 0), issuesAt (.ce 0 0) {} p := by decide

theorem wit_issue_atomic : ∀ p ∈ isaAtom.zip (List.replicate 9 0), issuesAt (.ce 0 0) {} p := by decide

theorem wit_issue_courier : ∀ p ∈ isaCourier.zip [0, 0, 0, 0, 0, 0, 1, 1, 0, 0], issuesAt (.ctx 0) {} p := by decide

theorem wit_issue_control_core : ∀ p ∈ isaControlCore.zip (List.replicate 11 0), issuesAt (.core 0) {} p := by decide

/-- The lists of words above leave out no instruction. -/
theorem wit_issue_every : [isaControl.length, isaScalar.length, isaVector.length, isaTally.length, isaMemory.length, isaAtom.length,
    isaCourier.length, isaControlCore.length] = [16, 58, 40, 11, 19, 9, 10, 11] := by decide

/-- The control profile: its control-flow instructions issue on a core too. -/
theorem wit_issue_core_flow : ∀ p ∈ (isaControl.take 12).zip [0, 0, 0, 0, 0, 0, 0, 0, 0, 0, 0, 1], issuesAt (.core 0) {} p := by decide

theorem wit_IllegalWordRaises :
    (running (.core 0) {}).halted = false ∧ (running (.core 0) {}).mayIssue (.core 0) = true ∧ ((running (.core 0) {}).cx (.core 0)).st = .run ∧
    (encNop.legal 2 (BitVec.ofNat 52 1) && true) = false := by decide

theorem wit_IssueConditions :
    (let s := running (.ce 0 0) { pend := [⟨0, 0⟩] }
     s.halted = false ∧ s.mayIssue (.ce 0 0) = true ∧ s.badWord (.ce 0 0) = none ∧ (s.cx (.ce 0 0)).st = .run ∧ encAdd.legal 0 0 = true ∧
       (s.cx (.ce 0 0)).pc < (s.cx (.ce 0 0)).len ∧ maskOf (s.cx (.ce 0 0)) 0 ≠ 0 ∧ ∃ p ∈ encAdd.regs 0, p ∈ (s.cx (.ce 0 0)).pend) ∧
    (let s := running (.ce 0 0) {}
     let f : BitVec 52 := BitVec.ofNat 52 (2 ^ 51)
     encAdd.legal 0 f = true ∧ (s.cx (.ce 0 0)).pc < (s.cx (.ce 0 0)).len ∧ maskOf (s.cx (.ce 0 0)) f = 0) ∧
    (State.reset.onDoor (fun d => { d with halt := 1 })).halted = true ∧
    (State.reset.cx (.ce 0 0)).st = .idle ∧ (State.reset.cx (.ce 0 0)).cut = none ∧ (running (.ctx 0) {}).mayIssue (.ctx 1) = false ∧
    (((running (.ctx 0) {}).setCx (.ctx 1) { st := .run, len := 4 }).issued (.ctx 0)).mayIssue (.ctx 0) = false ∧ (State.reset.cx (.core 0)).st = .off ∧ fPE (BitVec.ofNat 52 (2 ^ 51)) = true := by decide

/-! ### Control flow, parcels and memory instructions -/

/-- The word with a number. -/
abbrev wordOf (n : Nat) : BitVec 52 := BitVec.ofNat 52 n

theorem wit_ControlFlowResults_branches :
    (let s := running (.ctx 0) { s := [(0, 2)] }
     (issues encBr true (.ctx 0) 3 s ∧ issues encBrz true (.ctx 0) 3 s ∧ issues encBrnz true (.ctx 0) 3 s ∧
       issues encLoop true (.ctx 0) 3 s ∧ issues encCall true (.ctx 0) 3 s ∧ fIMM 3 < (s.cx (.ctx 0)).len ∧
       (s.cx (.ctx 0)).link.length < 4 ∧ (s.cx (.ctx 0)).sr (fA 3) = 2)) ∧
    (let s := running (.core 0) { link := [3] }
     issues encRet true (.core 0) 0 s ∧ (s.cx (.core 0)).link = [3] ∧ 3 < (s.cx (.core 0)).len ∧ (s.cx (.core 0)).handler ≠ [1]) ∧
    (let s := running (.core 0) { link := [3], handler := [1] }
     issues encRet true (.core 0) 0 s ∧ (s.cx (.core 0)).link = [3] ∧ 3 < (s.cx (.core 0)).len ∧ (s.cx (.core 0)).handler = [1]) ∧
    (let s := running (.ce 0 0) {}
     issues encDlbr true (.ce 0 0) 65539 s ∧ fIMM 65539 % 2 ^ 16 < (s.cx (.ce 0 0)).len ∧ fIMM 65539 / 2 ^ 16 ≠ 0) ∧
    (let s := running (.core 0) {}
     issues encDlbr true (.core 0) 3 s ∧ fIMM 3 % 2 ^ 16 < (s.cx (.core 0)).len) ∧
    (State.reset.setCx (.ce 0 0) { st := .cue 0 }).ofs = 0 ∧ ((State.reset.setCx (.ce 0 0) { st := .cue 0 }).cx (.ce 0 0)).st = .cue 0 := by decide

theorem wit_ControlFlowExceptions :
    (let s := running (.core 0) { pc := 4 }
     s.halted = false ∧ (s.cx (.core 0)).st = .run ∧ encNop.legal 2 0 = true ∧ (s.cx (.core 0)).len ≤ (s.cx (.core 0)).pc) ∧
    (let s := running (.core 0) { s := [(1, 2)] }
     let f : BitVec 52 := 4
     let g := wordOf (2 ^ 35 + 4)
     issues encBr true (.core 0) f s ∧ issues encBrz true (.core 0) f s ∧ issues encBrnz true (.core 0) g s ∧
       issues encLoop true (.core 0) g s ∧ issues encCall true (.core 0) f s ∧ (s.cx (.core 0)).sr (fA f) = 0 ∧
       (s.cx (.core 0)).sr (fA g) = 2 ∧ (s.cx (.core 0)).len ≤ fIMM f ∧ (s.cx (.core 0)).len ≤ fIMM g) ∧
    (let s := running (.ce 0 0) { dline := 15 }
     issues encDlbr true (.ce 0 0) 65540 s ∧ (s.cx (.ce 0 0)).len ≤ fIMM 65540 % 2 ^ 16 ∧ fIMM 65540 / 2 ^ 16 ≠ 0 ∧
       (s.cx (.ce 0 0)).dline < s.ofs + 16 * (fIMM 65540 / 2 ^ 16)) ∧
    (let s := running (.ce 0 0) { link := [0, 0, 0, 0] }
     issues encCall true (.ce 0 0) 3 s ∧ fIMM 3 < (s.cx (.ce 0 0)).len ∧ 4 ≤ (s.cx (.ce 0 0)).link.length) ∧
    (let s := running (.core 0) { link := List.replicate 16 0 }
     issues encCall true (.core 0) 3 s ∧ 16 ≤ (s.cx (.core 0)).link.length) ∧
    (let s := running (.core 0) {}
     issues encRet true (.core 0) 0 s ∧ (s.cx (.core 0)).link = []) ∧
    (let s := running (.core 0) { link := [4] }
     issues encRet true (.core 0) 0 s ∧ (s.cx (.core 0)).link = [4] ∧ (s.cx (.core 0)).len ≤ 4) := by decide

/-- The deadline of a core is a free value below 2^21, so a late enough offset meets the hypothesis whatever it is. -/
theorem wit_ControlFlowExceptions_core :
    let s := (running (.core 0) {}).wr Reg.CUE_PHASE_OFFSET (2 ^ 21 - 1)
    let f := wordOf (2 ^ 31 + 4)
    issues encDlbr true (.core 0) f s ∧ (s.cx (.core 0)).len ≤ fIMM f % 2 ^ 16 ∧ fIMM f / 2 ^ 16 ≠ 0 ∧
      (s.fresh 21).1 < s.ofs + 16 * (fIMM f / 2 ^ 16) := by
  have h : ((running (.core 0) {}).wr Reg.CUE_PHASE_OFFSET (2 ^ 21 - 1)).ofs + 16 * (fIMM (wordOf (2 ^ 31 + 4)) / 2 ^ 16) ≥ 2 ^ 21 := by
    decide +kernel
  refine ⟨by decide +kernel, by decide +kernel, by decide +kernel, ?_⟩
  exact Nat.lt_of_lt_of_le (Nat.mod_lt _ (by decide)) h

/-- A troupe with one unit, one outbound and one inbound route, on which CE 0 runs. -/
def troupeState (x : Cx) (w : UnitRt) (o : OutRt) (r : InRt) : State :=
  (running (.ce 0 0) x).setTroupe 0 { img := some { cemap := [0, 0], units := [w.desc] }, units := [w], outs := [o], ins := [r] }

theorem wit_EndOfUnitResults :
    (let s := troupeState {} { desc := { cemask := 3 } } {} {}
     issues encEnd true (.ce 0 0) 0 s ∧ s.proc.cx.sorted = true ∧ s.trp.t.sorted = true ∧
       (s.troupe 0).unit (s.cx (.ce 0 0)).unit = some { desc := { cemask := 3 } } ∧ (s.troupe 0).img.isSome = true ∧
       ∀ img ∈ (s.troupe 0).img, 0 ||| 2 ^ 0 ≠ partMask img { cemask := 3 }) ∧
    issuesAt (.core 0) {} ({ cmd := .endUnit, enc := fun _ => encEnd }, 0) ∧
    issuesAt (.ctx 0) {} ({ cmd := .endUnit, enc := fun _ => encEnd }, 0) := by decide +kernel

theorem wit_ParcelInstructionResults :
    (let s := troupeState {} {} { desc := { credits := 6144 }, cr := 1 } { desc := { slots := 1 }, q := [{}] }
     issues encSend true (.ce 0 0) 0 s ∧ issues encRecv true (.ce 0 0) 0 s ∧ issues encCredq true (.ce 0 0) 0 s ∧
       issues encRxq true (.ce 0 0) 0 s ∧ 
       (s.troupe 0).outs[fB 0]? = some { desc := { credits := 6144 }, cr := 1 } ∧
       (s.troupe 0).ins[fB 0]? = some { desc := { slots := 1 }, q := [{}] } ∧
       ([{}] : List RingSlot).find? (fun q => q.reader.isNone) = some {} ∧ s.trp.flips = [] ∧ s.trp.dead = []) ∧
    (let s := troupeState {} {} { desc := { credits := 6144 } } { desc := { slots := 1 } }
     issues encSend true (.ce 0 0) 0 s ∧ issues encRecv true (.ce 0 0) 0 s ∧ (s.troupe 0).outs[fB 0]? = some { desc := { credits := 6144 } } ∧
       (s.troupe 0).ins[fB 0]? = some { desc := { slots := 1 } } ∧
       ([] : List RingSlot).find? (fun q => q.reader.isNone) = none) := by decide +kernel

theorem wit_TroupeLoadResults :
    let u : Agent := .ce 6399 47
    let s := running u { a := [(0, 393152)] }
    let x := s.cx u
    s.trp.flips = [] ∧ s.trp.dead = [] ∧ issues encLdw true u 0 s ∧ issues encLda true u 0 s ∧ issues encLdp true u 0 s ∧
      issues encLdv true u 0 s ∧ issues encLdvi true u 0 s ∧ issues encLdg true u 0 s ∧ 
      addrAB x 0 % 64 = 0 ∧ addrAB x 0 + 64 = 393216 ∧ addrAI x 0 % 64 = 0 ∧ addrAI x 0 < 393216 ∧
      ∀ l < 16, bitOf (maskOf x 0) l = true → addrAV x 0 l % 4 = 0 ∧ addrAV x 0 l < 393216 := by decide +kernel

theorem wit_TroupeStoreResults :
    (let u : Agent := .ce 6399 47
     let s := running u { a := [(0, 393152)] }
     let x := s.cx u
     issues encStw true u 0 s ∧ issues encSta true u 0 s ∧ issues encStv true u 0 s ∧ issues encStvi true u 0 s ∧ issues encStsc true u 0 s ∧
       maskOf x 0 = 0xFFFF ∧ addrAB x 0 % 64 = 0 ∧ addrAB x 0 < 393216 ∧ addrAI x 0 % 64 = 0 ∧ addrAI x 0 < 393216) ∧
    (let u : Agent := .ce 0 0
     let s := running u { p := [(0, 5)], a := [(0, 392832)] }
     let f := wordOf (2 ^ 51)
     issues encStv true u f s ∧ maskOf (s.cx u) f ≠ 0xFFFF ∧ addrAB (s.cx u) f % 64 = 0 ∧ addrAB (s.cx u) f < 393216 ∧
       (∀ l < 16, bitOf (maskOf (s.cx u) f) l = true → addrAV (s.cx u) f l % 4 = 0 ∧ addrAV (s.cx u) f l < 393216) ∧
       issues encTstore true u 0 s ∧ (s.cx u).ar (fA 0) % 64 = 0 ∧ (s.cx u).ar (fA 0) + 384 ≤ 393216) := by decide +kernel

/-- A running state is canonical. -/
theorem wit_Canonical : (running (.ce 6399 47) { a := [(0, 393152)] }).Canonical := by
  constructor <;> decide +kernel

theorem wit_PromptBookReadResults :
    let u : Agent := .ce 0 0
    let s := running u { a := [(0, 131008)] }
    s.book.lateFrame = [] ∧ issues encPbv true u 0 s ∧ issues encPbvi true u 0 s ∧ issues encPbw true u 0 s ∧ issues encPbg true u 0 s ∧
      addrAB (s.cx u) 0 % 64 = 0 ∧ addrAB (s.cx u) 0 + 64 = 131072 ∧ addrAI (s.cx u) 0 % 64 = 0 ∧
      addrAI (s.cx u) 0 < 131072 ∧ ∀ l < 16, bitOf (maskOf (s.cx u) 0) l = true → addrAV (s.cx u) 0 l % 4 = 0 ∧ addrAV (s.cx u) 0 l < 131072 := by decide +kernel

theorem wit_DeadLetterAndBadAddress :
    (let u : Agent := .ce 0 0
     let s : State := { running u {} with trp := { (running u {}).trp with dead := [(0, true)] } }
     s.trp.flips = [] ∧ issues encLdw true u 0 s ∧ addrAB (s.cx u) 0 % 4 = 0 ∧ addrAB (s.cx u) 0 < 393216 ∧
       s.trp.dead.getD ((393216 * 0 + addrAB (s.cx u) 0) / 8) false = true) ∧
    (let u : Agent := .ce 0 0
     let s := running u { a := [(0, 393216)] }
     issues encLdw true u 0 s ∧ issues encLda true u 0 s ∧ issues encLdv true u 0 s ∧ issues encStw true u 0 s ∧ issues encSta true u 0 s ∧
       issues encPbw true u 0 s ∧ issues encPbv true u 0 s ∧ 393216 ≤ addrAB (s.cx u) 0 ∧ 131072 ≤ addrAB (s.cx u) 0) ∧
    addrAB (((running (.ce 0 0) { a := [(0, 2)] })).cx (.ce 0 0)) 0 % 4 ≠ 0 := by decide +kernel

theorem wit_BarrierResults :
    (let s := troupeState {} { desc := { cemask := 1 } } {} {}
     let w : UnitRt := { desc := { cemask := 1 } }
     issues encTbar true (.ce 0 0) 0 s ∧ (s.troupe 0).unit (s.cx (.ce 0 0)).unit = some w ∧
       (((w.bars.getD (fMOD 0) 0 ||| 2 ^ 0) ||| w.ended) &&& w.desc.cemask) = w.desc.cemask) ∧
    (let w : UnitRt := { desc := { cemask := 3 } }
     (((w.bars.getD (fMOD 0) 0 ||| 2 ^ 0) ||| w.ended) &&& w.desc.cemask) ≠ w.desc.cemask) := by decide +kernel

theorem wit_StoreTransferIssue :
    (let u : Agent := .ce 0 0
     let s := running u { s := [(1, 65536)] }
     let f := wordOf (2 ^ 23)
     let x := s.cx u
     (s.gopsOf (agentKey u)).length < 8 ∧ issues encGld true u f s ∧ issues encGst true u f s ∧ issues encGq true u 0 s ∧
       x.sr (fC f) = 65536 ∧ x.ar (fA f) % 64 = 0 ∧ x.sr (fB f) % 64 = 0 ∧ x.sr (fB f) + 65536 ≤ 393216) ∧
    (let u : Agent := .ce 0 0
     let s := running u { s := [(0, 65600)] }
     issues encGld true u 0 s ∧ 65536 < (s.cx u).sr (fC 0)) ∧
    (let u : Agent := .ce 0 0
     let s := running u {}
     issues encGld true u 0 s ∧ (s.cx u).sr (fC 0) = 0) := by decide +kernel

theorem wit_AtomicIssue :
    let u : Agent := .ce 0 0
    let s := running u {}
    (s.gopsOf (agentKey u)).length < 8 ∧ (∀ p ∈ (s.cx u).pend, p ≠ ⟨0, fD 0⟩ ∧ p ≠ ⟨1, fD 0⟩ ∧ p ≠ ⟨1, fD 0 + 1⟩) ∧ 
      (∀ m ∈ [0, 1, 2], issues (encAtom m [0, 1, 2] false) (atomOk 0 m) u 0 s) ∧
      (∀ m ∈ [3, 4, 5, 6], issues (encAtom m [] false) (atomOk 0 m) u 0 s) ∧
      (∀ m ∈ [7, 8], issues (encAtom m [] true) (atomOk 0 m) u 0 s) ∧ (s.cx u).ar (fA 0) % 16 = 0 := by decide +kernel

/-! ### Courier and control-core instructions -/

/-- Fields at values. -/
def setFields (s : State) (fs : List (Fld × Nat)) : State := fs.foldl (fun s p => s.wr p.1 p.2) s

/-- Partition 0 is enabled, the store has sixteen units, and the shared TLB maps its first 64 KiB to the store's. -/
def mapped (s : State) : State :=
  { setFields s [(Reg.PRT_CTL_EN 0, 1), (Reg.STM_SIZE_UNITS, 16)] with
    xlt := { s.xlt with tlb := [{ part := 0, va := 0, size := 65536, pga := 0, ipa := 0, r1 := true, w1 := true, r2 := true, w2 := true,
                                  lvl1 := 0, lvl2 := 0, leaf := 0, leafSize := 65536 }] } }

/-- The cache of MI die 0 holds the first lines of the store, modified, with their data. -/
def cached (s : State) (ls : List (BitVec 512)) : State := ls.zipIdx.foldl (fun s p => s.setCopy 0 p.2 { st := 4, data := p.1 }) s

/-- Whether an access has been served. -/
def served (r : State × Fetch) : Bool := decide (r.2 = .ok false)

theorem wit_StreamInstructionResults :
    (let u : Agent := .ctx 0
     let s := cached (mapped (running u { s := [(0, 64)] })) [0]
     let x := s.cx u
     let n := x.sr (fB 0)
     issues encSload true u 0 s ∧ issues encSstore true u 0 s ∧ n % 64 = 0 ∧ 0 < n ∧ n ≤ 4096 ∧
       served (s.fetch 0 true (s.ctxPart 0) (x.ar (fA 0)) n (fun s b bs ms => s.slotPut 0 0 b bs ms)) ∧
       served (s.storeVa 0 true (s.ctxPart 0) (x.ar (fA 0)) n (fun s b n =>
         (Memory.bytes s.cour.slot (4096 * (4 * 0 + 0) + b) n, (List.range n).map (fun j => s.slotMarked 0 0 (b + j) 1))))) ∧
    (let u : Agent := .ctx 0
     let s := cached (mapped (running u { s := [(1, 64)] })) [0]
     let f := wordOf (2 ^ 29)
     let x := s.cx u
     issues encSldv true u f s ∧ issues encSstv true u f s ∧ issues encSdlv true u f s ∧ issues encSunit true u 0 s ∧
       x.sr (fB f) = 64 ∧ x.sr (fC f) % 64 = 0 ∧ x.sr (fC f) + 64 ≤ 1024 ∧ x.ar (fA f) = 0 ∧
       served (s.fetch 0 true (s.ctxPart 0) (x.ar (fA f)) 64 (fun s i bs _ => s.vbufPut 0 (x.sr (fC f) + i) bs)) ∧
       served (s.storeVa 0 true (s.ctxPart 0) (x.ar (fA f)) 64 (fun s i n => (s.vbufGet 0 (x.sr (fC f) + i) n, []))) ∧
       sdlvDescOk (x.ar (fA f)) 64 = true ∧ (s.sdlvGo u 0 0 0 64 false 2).2) ∧
    (let u : Agent := .ctx 0
     let s := running u { s := [(0, 63)] }
     issues encSload true u 0 s ∧ issues encSstore true u 0 s ∧ issues encSldv true u 0 s ∧ issues encSstv true u 0 s ∧
       issues encSdlv true u 0 s ∧ sdlvDescOk (2 ^ 38) 64 = false ∧ (s.cx u).sr (fB 0) % 64 ≠ 0) ∧
    (((running (.ctx 0) {}).cx (.ctx 0)).sr (fB 0) = 0 ∧ issues encSload true (.ctx 0) 0 (running (.ctx 0) {}) ∧
      issues encSdlv true (.ctx 0) 0 (running (.ctx 0) {}) ∧ sdlvDescOk (((running (.ctx 0) {}).cx (.ctx 0)).ar (fA 0)) 0 = true) := by decide +kernel

/-- A table in which byte 0 has all of the 4,096 slots. -/
def zeroTable : List Byte := [0, 0x10] ++ List.replicate 510 0

/-- A context whose slot 0 holds the block of 64 zero bytes, and whose table stands at address 0, in its courier's cache. -/
def blockState : State :=
  let s := cached (mapped (running (.ctx 0) { s := [(1, 64)], a := [(1, 1)] })) (0x1000 :: List.replicate 7 0)
  { s with cour := { s.cour with slot := Memory.store [] 0 ((encodeBlock (List.replicate 64 0) zeroTable).getD []) } }

theorem wit_TransformInstructionResults_blocks :
    let u : Agent := .ctx 0
    let s := blockState
    let f := wordOf 1
    let g := wordOf (2 ^ 29 + 4)
    let t := s.fetchTable 0 (s.ctxPart 0) (s.tablesOf 0) 0
    issues encDcmp (1 != 0) u 4 s ∧ (blockHead (s.slotBytes 0 0 4096)).isSome ∧ served t ∧
      (decodeBlock (s.slotBytes 0 0 4096) (t.1.tableBytes 0)) = some (List.replicate 64 0, true) ∧
      issues encEnc (0 != 1) u g s ∧ (s.cx u).sr (fB g) = 64 ∧ s.slotMarked 0 0 0 64 = false ∧
      (encodeBlock (t.1.slotBytes 0 2 64) (t.1.tableBytes 0)).isSome ∧ issues encEnc (1 != 0) u f (running u { s := [(0, 63)] }) := by
  decide +kernel

theorem wit_TransformInstructionResults_words :
    let u : Agent := .ctx 0
    let r := setFields (running u { a := [(1, 1)] })
      [(Reg.PRT_CTL_PTR_AGENT 0, 8), (Reg.XLT_WIN_MAP_EN 32, 1), (Reg.XLT_WIN_SIZE_UNITS 32, 1)]
    let s := { r with cour := { slot := [(0, 5)] }, hst := { bar2 := 2 ^ 40 } }
    let f := wordOf (2 ^ 29 + 32)
    issues encCrc64 true u 0 s ∧ (s.cx u).sr (fB 0) = 0 ∧ issues encCrc64 true u (wordOf (2 ^ 29)) blockState ∧ (blockState.cx u).sr (fB (wordOf (2 ^ 29))) = 64 ∧ issues encPtrx true u f s ∧ (s.cx u).ar (fB f) = 2 ^ 0 ∧
      leBytes ((s.slotBytes 0 0 4096).drop 0 |>.take 8) = 5 ∧ s.pgaToHost (s.ctxPart 0) s.hst.bar2 5 = some (2 ^ 40 + 5) ∧
      issues encPtrx true u 0 s ∧ (s.cx u).ar (fB 0) = 0 := by
  decide +kernel

/-- Core 0 runs with software event 1024 pending or not, which goes to it. -/
def eventState (x : Cx) (pend : Nat) : State :=
  setFields (running (.core 0) x) [(Reg.EVC_PENDING_BITS 16, pend), (Reg.EVC_SRC_EN 1023, 1), (Reg.EVC_SRC_TARGET 1023, 1),
    (Reg.EVC_SRC_PRIO 1023, 3)]

theorem wit_EventInstructionResults :
    (let s := eventState {} 0
     issues encEvclaim true (.core 0) 0 s ∧ s.firstId 0 = 0 ∧ issues encWfe true (.core 0) 0 s ∧ issues encEvdone true (.core 0) 0 s ∧
       s.ev.owner.find? ((s.cx (.core 0)).sr (fA 0)) ≠ some 0) ∧
    (issues encEvclaim true (.core 0) 0 (eventState {} 1) ∧ (eventState {} 1).firstId 0 = 1024) ∧
    (let s := { eventState { s := [(0, 1024)] } 1 with ev := { claims := [⟨0, 1024, 0⟩], owner := [(1024, 0)] } }
     s.ev.claims.find? (fun q => q.core == 0) = some ⟨0, 1024, 0⟩ ∧ s.pendingId 1024 = true ∧ s.regs.sorted = true ∧
       issues encEvdone true (.core 0) 0 s ∧ (s.cx (.core 0)).sr (fA 0) < 2048 ∧
       s.ev.owner.find? ((s.cx (.core 0)).sr (fA 0)) = some 0) ∧
    (let s := { eventState { s := [(0, 1024)] } 0 with ev := { claims := [⟨0, 1024, 0⟩] } }
     s.ev.claims.find? (fun q => q.core == 0) = some ⟨0, 1024, 0⟩ ∧ s.pendingId 1024 = false ∧
       issues encRaise true (.core 0) 0 s ∧ 1024 ≤ (s.cx (.core 0)).sr (fA 0) ∧ (s.cx (.core 0)).sr (fA 0) ≤ 2046 ∧
       issues encFence true (.core 0) 0 s ∧ (s.cxAt (coreKey 0)).st = .run) ∧
    (let s := (eventState {} 1).setCx (.core 0) { st := .wfe }
     (s.cxAt (coreKey 0)).st = .wfe ∧ s.firstId 0 ≠ 0) ∧
    (let s := (eventState {} 0).setCx (.core 0) { st := .wfe }
     (s.cxAt (coreKey 0)).st = .wfe ∧ s.firstId 0 = 0) := by
  decide +kernel

theorem wit_CoreMemoryResults :
    (let u : Agent := .core 15
     let s := running u { a := [(0, 131068)] }
     let x := s.cx u
     issues (encCld 0) (fMOD 0 != 3) u 0 s ∧ issues (encCld 2) (fMOD 0 != 3) u 0 s ∧ issues (encCst 1) (fMOD 0 != 3) u 0 s ∧
       issues (encCst 3) (fMOD 0 != 3) u 0 s ∧ issues (encCi 4) true u 4 s ∧ issues (encCi 5) true u 4 s ∧
       (x.ar (fA 0) + x.ar (fB 0)) % 2 ^ 64 = 262136 ∧ localAddr x 4 % 8 = 0 ∧ localAddr x 4 < 262144 ∧ (⟨0, fD 0⟩ : PendReg) ∉ x.pend ∧
       issues (encCld 0) (fMOD 1 != 3) u 1 s ∧ fMOD 1 = 1) ∧
    (let u : Agent := .core 0
     let s := running u { a := [(0, 131072)] }
     let x := s.cx u
     issues (encCst 1) (fMOD 0 != 3) u 0 s ∧ 262144 ≤ (x.ar (fA 0) + x.ar (fB 0)) % 2 ^ 64 ∧
       issues (encCi 4) true u (wordOf 131072) s ∧ 262144 ≤ localAddr x (wordOf 131072)) := by
  decide +kernel

/-- The exception queue has room after reset. -/
theorem wit_ExceptionEntry :
    (State.reset.rd Reg.SMX_XQ_WR + 65536 - State.reset.rd Reg.SMX_XQ_RD) % 65536 ≠ 256 ∧ (4 : Nat) ≠ 1 := by decide

/-! ### The cue, the call sheet, units and the mesh -/

/-- The state after reset with fields at values. -/
def at_ (fs : List (Fld × Nat)) : State := setFields State.reset fs

theorem wit_StepRunsFrontCommand : { State.reset with pending := [.cueStart, .workStart] }.pending = .cueStart :: [.workStart] ∧
    State.reset.pending = [] := by decide

theorem wit_TakeCueArmsOrIsRefused :
    (let s := at_ [(Reg.CS_STATUS_STATE, 2), (Reg.CS_STATUS_HOLDER, 16), (Reg.CUE_PHASE_PHASE, 1)]
     s.sheetState = 2 ∧ s.rd Reg.CS_STATUS_HOLDER = 16 ∧ s.is1 Reg.CS_STATUS_BUSY = false ∧ s.stepOnlySheet = false ∧
       (s.cueNow + 2 ≤ 2) ∧ (1 = s.cueNow + 1 ∧ s.phase ≠ 2)) ∧
    (at_ [(Reg.CUE_PHASE_PHASE, 2)]).phase = 2 ∧
    (at_ [(Reg.CS_STATUS_HOLDER, 16)]).rd Reg.CS_STATUS_HOLDER ≠ 17 := by decide

theorem wit_CueAndSheetResults_cue :
    (at_ [(Reg.CUE_PHASE_PHASE, 2)]).phase = 2 ∧ (at_ [(Reg.CUE_PHASE_PHASE, 0)]).phase = 0 ∧ (at_ [(Reg.CUE_PHASE_PHASE, 1)]).phase = 1 ∧
    (at_ [(Reg.CUE_PHASE_PHASE, 0)]).trp.t = [] ∧ (at_ [(Reg.CUE_PHASE_PHASE, 0)]).halted = false ∧
    (let s := at_ [(Reg.CUE_PHASE_PHASE, 0), (Reg.CUE_SYNC_LEADER, 1), (Reg.CUE_SYNC_LOCKED, 1)]
     s.deaf 16 = false ∧ s.phase ≠ 3 ∧ 1 ≠ s.device ∧ 1 = s.rd Reg.CUE_SYNC_LEADER ∧ s.is1 Reg.CUE_SYNC_LOCKED = true ∧ s.sheetState ≠ 3) ∧
    (State.reset.phase ≠ 0 ∧ (at_ [(Reg.CUE_PHASE_PHASE, 0), (Reg.CUE_PHASE_OFFSET, 1999)]).ofs = 1999) ∧
    (∀ e ∈ (troupeState {} {} {} {}).trp.t, ∀ x ∈ e.2.units, x.carried = false) := by decide +kernel

theorem wit_CueAndSheetResults_sheet :
    ((Reg.fieldsAt 0x400000).filter (fun f => f.taken && bitsOf (2 ^ 64 - 1) f.lo f.width == 2 ^ f.width - 1)).length ≠ 0 ∧
    State.reset.pairRefused 16 0x400000 = false ∧ (State.reset.judge 16).2 = true ∧ State.reset.sheetState = 0 ∧
    (at_ [(Reg.CS_STATUS_STATE, 1), (Reg.CS_STATUS_HOLDER, 17)]).sheetState = 1 ∧
    (at_ [(Reg.CS_STATUS_STATE, 1), (Reg.CS_STATUS_HOLDER, 17)]).rd Reg.CS_STATUS_HOLDER = 17 ∧
    (let s := at_ [(Reg.CS_STATUS_BUSY, 1), (Reg.CS_STATUS_HOLDER, 16)]
     s.is1 Reg.CS_STATUS_BUSY = true ∧ s.rd Reg.CS_STATUS_HOLDER ≠ 31 ∧ s.sheet.voided = false ∧ s.verdict = none ∧
       ({ s with sheet := { s.sheet with refusedPair := some 0 } }.verdict).isSome = true) ∧
    (at_ [(Reg.CS_STATUS_STATE, 4)]).sheetState = 4 ∧ (at_ [(Reg.CS_STATUS_STATE, 4)]).is1 Reg.CS_STATUS_BUSY = false := by
  decide +kernel

/-- A unit of CE 0 whose program is one instruction. -/
def oneUnit : UnitDesc := { id := 7, cemask := 1 }

/-- Troupe 0 with that unit in a given state of its run. -/
def unitState (x : UnitRt) (fs : List (Fld × Nat)) : State :=
  (at_ fs).setTroupe 0 { img := some { cemap := [0], secs := [[0]], units := [oneUnit] }, units := [x] }

theorem wit_UnitResults_start :
    let s := unitState { desc := oneUnit } [(Reg.CUE_PHASE_PHASE, 1)]
    let img : Img := { cemap := [0], secs := [[0]], units := [oneUnit] }
    let x : UnitRt := { desc := oneUnit }
    (s.troupe 0).img = some img ∧ (s.troupe 0).unit 7 = some x ∧ x.st = .waiting ∧ x.carried = false ∧ s.halted = false ∧ s.phase = 1 ∧ x.desc.start ≤ s.ofs ∧
      x.ended = 0 ∧ s.barred 0 7 = none ∧ x.present = true ∧ s.framesLive img 7 = true ∧
      (∀ c < 48, bitOf (partMask img x.desc) c = true → (s.cxAt (ceKey 0 c)).st = .idle ∧ (s.troupe 0).nextUnit img c = some 7 ∧
        (sectionOf img c).isEmpty = false) ∧ partMask img x.desc = 1 := by decide +kernel

theorem wit_UnitResults_misses :
    (let x : UnitRt := { desc := oneUnit, nd := 1 }
     let s := unitState x [(Reg.CUE_PHASE_OFFSET, 2000)]
     s.halted = false ∧ (s.troupe 0).unit 7 = some x ∧ x.st = .waiting ∧ x.desc.ddel < s.ofs ∧ x.understudy = false ∧ x.present = false ∧
       x.desc.d < s.ofs ∧ x.desc.policy = 0 ∧ s.quarantined 0 7 = false) ∧
    (∀ policy ∈ [0, 1, 2], let x : UnitRt := { desc := { oneUnit with policy := policy }, nd := 1 }
     let s := unitState x [(Reg.CUE_PHASE_OFFSET, 2000), (Reg.TRP_STATE_STATE 0, 1)]
     let t := unitState x [(Reg.CUE_PHASE_OFFSET, 2000)]
     (s.troupe 0).unit 7 = some x ∧ x.desc.ddel < s.ofs ∧ s.quarantined 0 7 = true ∧ (t.troupe 0).unit 7 = some x ∧ x.present = false ∧
       t.quarantined 0 7 = false) ∧
    (let x : UnitRt := { desc := { oneUnit with policy := 1 }, nd := 1, understudy := true }
     let s := unitState x [(Reg.CUE_PHASE_OFFSET, 2000)]
     (s.troupe 0).unit 7 = some x ∧ x.carried = false ∧ x.present = false ∧ x.desc.ddel + x.desc.ulead < s.ofs) ∧
    (unitState { desc := oneUnit } []).trpState 0 = 0 ∧ State.reset.trpState 6399 = 3 := by decide +kernel

theorem wit_UnitResults_retire :
    State.reset.trpState 0 < 2 ∧ (State.reset.sheet.retiring.find? 0).isSome = false ∧ State.reset.is1 Reg.CS_STATUS_BUSY = false ∧
    State.reset.sheetFree = true ∧ State.reset.spareFor 0 = some 6320 := by decide +kernel

/-- Every spare troupe has been retired. -/
def noSpares : State := { State.reset with regs := (List.range 150).map (fun i => ((Reg.TRP_STATE_STATE (6250 + i)).key, 4)) }

theorem noSpares_find? : ∀ (n b i : Nat), i < n → SMap.find?
    ((List.range' b n).map (fun i => ((Reg.TRP_STATE_STATE (6250 + i)).key, 4))) (Reg.TRP_STATE_STATE (6250 + b + i)).key = some 4 := by
  intro n
  induction n with
  | zero => intro b i h; omega
  | succ n ih =>
    intro b i h
    simp only [List.range'_succ, List.map_cons, SMap.find?]
    by_cases hi : i = 0
    · subst hi; simp
    · rw [if_neg (by simp [Fld.key, Reg.TRP_STATE_STATE]; omega)]
      have e : 6250 + b + i = 6250 + (b + 1) + (i - 1) := by omega
      rw [e]; exact ih (b + 1) (i - 1) (by omega)

theorem noSpares_below : ∀ (n b q : Nat), q < 6250 → SMap.find?
    ((List.range' b n).map (fun i => ((Reg.TRP_STATE_STATE (6250 + i)).key, 4))) (Reg.TRP_STATE_STATE q).key = none := by
  intro n
  induction n with
  | zero => intro b q _; rfl
  | succ n ih =>
    intro b q h
    simp only [List.range'_succ, List.map_cons, SMap.find?]
    rw [if_neg (by simp [Fld.key, Reg.TRP_STATE_STATE]; omega)]
    exact ih _ _ h

theorem noSpares_state {q : Nat} (h : q < 6400) : noSpares.trpState q ≠ 3 := by
  unfold State.trpState State.rd noSpares SMap.getD
  simp only [List.range_eq_range']
  by_cases hq : q < 6250
  · rw [noSpares_below 150 0 q hq]; simp [Reg.TRP_STATE_STATE, hq]
  · have e : q = 6250 + 0 + (q - 6250) := by omega
    rw [e, noSpares_find? 150 0 (q - 6250) (by omega)]; simp

/-- With no spare left there is none to reserve. -/
theorem wit_UnitResults_no_spare (t : Nat) : noSpares.spareFor t = none := by
  unfold State.spareFor
  have h : ∀ l : List Nat, (∀ q ∈ l, q < 6400) → l.foldl (fun best q =>
      if noSpares.trpState q ≠ 3 then best
      else match best with
        | none => some q
        | some b => if meshDist t q < meshDist t b then some q else some b) none = none := by
    intro l
    induction l with
    | nil => intro _; rfl
    | cons q l ih =>
      intro hl
      rw [List.foldl_cons, if_pos (noSpares_state (hl q (by simp)))]
      exact ih (fun x hx => hl x (by simp [hx]))
  exact h _ (fun q hq => by simpa using hq)

theorem wit_UnitResults_gate :
    (let s : State := { State.reset with regs := (troupesIn 0).map (fun t => ((Reg.TRP_STATE_STATE t).key, 4)) }
     s.rd (Reg.CLK_REG_POWER 0) = 0 ∧ ∀ t ∈ troupesIn 0, 3 ≤ s.trpState t) ∧
    (∃ t ∈ troupesIn 0, State.reset.trpState t < 3) ∧
    (∀ t ∈ troupesIn 0, ∀ c < 48, (State.reset.cxAt (ceKey t c)).st = .idle) := by decide +kernel

/-- A parcel that waits in router 1 for the link to router 0. -/
def meshState (p : MParcel) : State := State.reset.inject p

theorem wit_MeshResults_hop :
    let good : MParcel := { kind := 1, vl := 1, dst := 0, at_ := 1 }
    let far : MParcel := { kind := 1, vl := 1, dst := 80, at_ := 1 }
    let bad : MParcel := { kind := 7, vl := 1, dst := 0, at_ := 1, tries := 3 }
    let home : MParcel := { kind := 1, vl := 1, dst := 1, at_ := 1 }
    neighbour 0 2 = some 1 ∧ (meshState good).nextParcel 1 (opposite 2) = some good ∧ (meshState far).nextParcel 1 (opposite 2) = some far ∧
      (meshState bad).nextParcel 1 (opposite 2) = some bad ∧ (meshState home).nextParcel 1 4 = some home ∧
      good.wellFormed = true ∧ far.wellFormed = true ∧ bad.wellFormed = false ∧ far.dst ≠ 0 ∧ good.tries ≠ 3 ∧
      (meshState good).halted = false ∧ (meshState good).trp.linkFailed.getD (1 * 8 + opposite 2) false = false := by decide +kernel

/-- A burst of one bit breaks the seal; flips that turn one sealed parcel into another keep it. -/
theorem wit_MeshResults_seal :
    let good : MParcel := { kind := 1, vl := 1, dst := 0, at_ := 1 }
    let other : MParcel := { good with line := 3 }
    good.image ^^^ 1 ≠ good.image ∧ sealGood (good.image ^^^ 1) = false ∧ good.image ^^^ other.image ≠ 0 ∧
      sealGood (good.image ^^^ (good.image ^^^ other.image)) = true := by decide +kernel

/-- A store operation of CE 0 that waits, or of courier context 0. -/
def gopState (g : GOp) (fs : List (Fld × Nat)) : State :=
  { at_ fs with trp := { (at_ fs).trp with gops := [g] } }

theorem wit_MeshResults_store :
    (let g : GOp := { kind := 0, len := 64 }
     let s := gopState g []
     (s.gopsOf (ceKey 0 0))[0]? = some g ∧ s.srch.live.getD 0 false = false ∧ s.curtain 0 = false ∧ (s.poolFor g).isSome = true) ∧
    (let g : GOp := { kind := 0, len := 64 }
     let s := gopState g [(Reg.RSL_CURTAIN_DOWN, 1)]
     let t := { s with xlt := { s.xlt with waits := [(2 ^ 20, { src := 0, part := 0, va := 0, write := false })] } }
     s.curtain 0 = true ∧ s.underway g = false ∧ t.underway g = true ∧ (t.poolFor g).isSome = true) ∧
    (let g : GOp := { agent := 311296, kind := 2, part := 16 }
     ((gopState g []).gopsOf (agentKey (.core 0)))[0]? = some g) ∧
    (let g : GOp := { kind := 2 }
     (gopState g [(Reg.RSL_CURTAIN_DOWN, 1)]).curtain 0 = true ∧ ((gopState g []).gopsOf (agentKey (.ce 0 0)))[0]? = some g ∧
       (gopState g []).curtain 0 = false ∧ (gopState g []).underway g = false ∧ ((gopState g []).poolFor g).isSome = true) ∧
    ((State.reset.setTroupe 0 { outs := [{}], ins := [{}] }).troupe 0).outs[0]? = some ({} : OutRt) ∧
    ((State.reset.setTroupe 0 { outs := [{}], ins := [{}] }).troupe 0).ins[0]? = some ({} : InRt) ∧
    { State.reset with trp := { State.reset.trp with hopBack := [(0, 1)] } }.trp.hopBack.getD 0 0 ≠ 0 := by decide +kernel

/-! ### Couriers, translation and the store -/

/-- The first lines of a store that holds a plan at offset 0 with one entry: 64 bytes with D_del 256, one credit. -/
def planLines : List (BitVec 512) :=
  [1 + 2 ^ 16, BitVec.ofNat 512 (2 ^ 72 + 64 * 2 ^ 96 + 2 ^ 368)] ++ List.replicate 14 0

/-- The delivery that entry 0 of that plan makes. -/
def planJob : Job := { ent := { ddel := 256, length := 64, credits := 1 } }

/-- Context 0 in a state, with a record and fields. -/
def ctxState (st : CxSt) (c : Ctx) (fs : List (Fld × Nat)) : State :=
  (cached (mapped (setFields (State.reset.setCx (.ctx 0) { st := st, len := 1024 }) fs)) planLines).setCtx 0 c

theorem wit_CourierResults_plan :
    let s := ctxState .idle {} [(Reg.CRR_CTX_PLAN_EN 0, 1), (Reg.CUE_PHASE_PHASE, 1)]
    let e := planEntryOf (s.planBytes (s.planOff 0) 0)
    s.is1 (Reg.CRR_CTX_PLAN_EN 0) = true ∧ (s.cxAt (ctxKey 0)).st = .idle ∧ (s.ctx 0).job = none ∧ (s.ctx 0).carry = [] ∧
      (s.ctx 0).next < s.planLen (s.planOff 0) ∧ s.entryOk (s.planOff 0) 0 = true ∧ e.op = 0 ∧ e.counted = true ∧
      s.halted = false ∧ s.servesCarried e = false ∧ s.justCarried e = false ∧ (s.ctx 0).closed.contains (s.ctx 0).next = false ∧ e.start ≤ s.ofs ∧ s.phase = 1 ∧ s.ofs < e.ddel ∧
      s.curtain (s.rd (Reg.CRR_CTX_PLAN_PARTITION 0)) = false := by decide +kernel

theorem wit_CourierResults_reads :
    (let j : Job := { ent := { op := 1, length := 1024 } }
     let s := ctxState .run { job := some j } []
     let r := s.intoSlot 0 false j.part j.ent.src 1024 0
     (s.ctx 0).job = some j ∧ (s.cxAt (ctxKey 0)).st = .run ∧ j.transit = false ∧ j.ent.length ≠ 0 ∧ served r ∧ r.1.rd (Reg.PBK_FRAME_STAGE_OWNER 0) = j.part ∧
       r.1.is1 (Reg.PBK_FRAME_STAGE_COND 0) = false) ∧
    (let s := ctxState .run { job := some planJob } []
     let t := s.setCopy 0 0 { st := 4, marks := 1 }
     let w := { s with xlt := {} }
     (s.ctx 0).job = some planJob ∧ planJob.ent.op = 0 ∧ planJob.sent = false ∧ planJob.transit = false ∧ planJob.ent.comp = false ∧
       (s.cxAt (ctxKey 0)).st = .run ∧ served (s.intoSlot 0 false 0 0 planJob.size 0) ∧
       (t.intoSlot 0 false 0 0 planJob.size 0).2 = .ok true ∧ (w.intoSlot 0 false 0 0 planJob.size 0).2 = .wait ∧
       ((State.reset.setCtx 0 { job := some planJob }).intoSlot 0 false 0 0 planJob.size 0).2 = .stat 0x11 0) := by decide +kernel

theorem wit_CourierResults_late :
    (let s := ctxState .run { job := some planJob } [(Reg.CRR_CTX_PLAN_EN 0, 1), (Reg.CUE_PHASE_OFFSET, 257)]
     (s.ctx 0).job = some planJob ∧ planJob.idx = 0 ∧ planJob.carried = false ∧ 0 < s.planLen (s.planOff 0) ∧ planJob.ent.counted = true ∧
       (s.cxAt (ctxKey 0)).st = .run ∧ (s.ctx 0).closed.contains 0 = false ∧ (s.ctx 0).late.contains 0 = false ∧ (s.ctx 0).carry = [] ∧
       planJob.ent.ddel < s.ofs ∧ s.servesCarried planJob.ent = false ∧ planJob.ent.ulen = 0 ∧ planJob.ent.skip = false) ∧
    (let j : Job := { ent := { op := 1 }, transit := true }
     (j.sent = false ∧ ((ctxState .run { job := some j } []).ctx 0).job = some j ∧ ((ctxState .run { job := some j } []).cxAt (ctxKey 0)).st = .run)) ∧
    (let s := ctxState (.fault 16) { job := some planJob } []
     (s.cxAt (ctxKey 0)).st = .fault 16 ∧ s.is1 (Reg.CRR_CTX_FAULT_ABANDONED 0) = false ∧ (s.ctx 0).job = some planJob ∧ planJob.carried = false) ∧
    ((ctxState (.fault 16) { faultD := some 3 } []).ctx 0).job = none ∧ ((ctxState (.fault 16) { faultD := some 3 } []).ctx 0).faultD = some 3 ∧
    (ctxState (.fault 16) {} [(Reg.CRR_CTX_FAULT_ABANDONED 0, 1)]).is1 (Reg.CRR_CTX_FAULT_ABANDONED 0) = true ∧
    ((ctxState (.stopped 4) {} []).cxAt (ctxKey 0)).st = .stopped 4 ∧
    (let s := ctxState (.fault 16) { waited := 9 } [(Reg.CUE_PHASE_PHASE, 0), (Reg.PRT_CTL_FAULT_CUES 0, 8)]
     (s.cxAt (ctxKey 0)).st = .fault 16 ∧ s.phase = 0 ∧ s.is1 (Reg.CRR_CTX_PLAN_EN 0) = false ∧ s.ctxPart 0 = 0 ∧
       s.rd (Reg.PRT_CTL_FAULT_CUES 0) = 8 ∧ (s.ctx 0).waited = 9) := by decide +kernel

/-- A walk of partition 0 at VA 0, over three levels of stage-2 tables, that has read some of them. -/
def aWalk (seen : List (Nat × Nat)) : Walk := { own := 9, part := 0, va := 0, lo := 0, size := 65536, seen := seen }

/-- That walk in flight, an answer of the home for its next read at hand or not. -/
def walkState (w : Walk) (ans : List (Nat × CAns)) : State :=
  let s := mapped State.reset
  { s with xlt := { s.xlt with tlb := [], walks := [w] }, coh := { s.coh with got := ans } }

/-- Where a walk ends or what it needs next: the slot, or 1 with an entry, 2 with a fault. -/
def walkEnd (r : Except XStop Tlb) : Option Nat × Nat :=
  match r with | .ok _ => (none, 1) | .error (.fault _) => (none, 2) | .error (.need slot) => (some slot, 0)

theorem wit_TranslationResults_walk :
    let seen : List (Nat × Nat) := [(0, 0x1003), (4096, 0x2003), (8192, 13)]
    let s (w : Walk) := walkState w []
    walkEnd ((s (aWalk seen)).walk seen 0 0) = (none, 1) ∧ walkEnd ((s (aWalk [(0, 0)])).walk [(0, 0)] 0 0) = (none, 2) ∧
    walkEnd ((s (aWalk [])).walk [] 0 0) = (some 0, 0) ∧ (s (aWalk [])).xlt.walks[0]? = some (aWalk []) ∧ (s (aWalk [])).halted = false ∧
    (((s (aWalk [])).setDir 0 { st := 8 }).access 0 { kind := 4, r := 35, tk := walkTicket (aWalk []) }).2 = none ∧
    (let q := (walkState (aWalk []) [(walkTicket (aWalk []), { line := 0, kind := 4, data := 0x1003 })]).access 0
       { kind := 4, r := 35, tk := walkTicket (aWalk []) }
     q.2 = some { line := 0, kind := 4, data := 0x1003 } ∧ walkEnd (q.1.walk [(0, 0x1003)] 0 0) = (some 4096, 0) ∧
       walkEnd (q.1.walk [(0, 0)] 0 0) = (none, 2) ∧ walkEnd (q.1.walk seen 0 0) = (none, 1) ∧
       leBytes (((seenBytes (0x1003, 0)).drop 0).take 8) = 0x1003) := by decide +kernel

theorem wit_TranslationResults_fault :
    (let x : XWait := { src := 0, part := 0, va := 5, write := false }
     x.part = (aWalk []).part ∧ (aWalk []).lo ≤ x.va ∧ x.va < (aWalk []).lo + (aWalk []).size ∧ x.res = none ∧ x.src < 65536) ∧
    (65536 ≤ ({ src := 65536, part := 0, va := 0, write := true } : XWait).src ∧
      ({ cause := 3, stage := 1, level := 0 } : XFault).status = 0x10 ∧ ({ cause := 6, stage := 0, level := 0 } : XFault).status ≠ 0x10) := by
  decide +kernel

theorem wit_TranslationResults_tlbi :
    State.reset.is1 Reg.XLT_TLBI_CTL_BUSY = false ∧ State.reset.rd Reg.XLT_TLBI_ADDR_ADDR * 65536 < 2 ^ 53 ∧
    2 ^ 53 ≤ (at_ [(Reg.XLT_TLBI_ADDR_ADDR, 2 ^ 37)]).rd Reg.XLT_TLBI_ADDR_ADDR * 65536 ∧
    (at_ [(Reg.XLT_TLBI_CTL_BUSY, 1)]).is1 Reg.XLT_TLBI_CTL_BUSY = true ∧
    (at_ [(Reg.XLT_TLBI_CTL_BUSY, 1)]).xlt.acc.any (fun e => e.2.drain) = false := by decide +kernel

theorem wit_StoreResults_units :
    State.reset.is1 Reg.STM_HINT_CMD_BUSY = false ∧ 8 + 8 ≤ (at_ [(Reg.STM_SIZE_UNITS, 16)]).rd Reg.STM_SIZE_UNITS ∧
    State.reset.rd Reg.STM_MIG_RATE ≠ 0 ∧ (State.reset.setUnit 3 { moving := some (some 2) }).unitAt 3 = { moving := some (some 2) } ∧
    ((State.reset.setUnit 3 { moving := some none }).unitAt 3).moving = some none ∧ State.reset.vacating = false := by decide +kernel

theorem wit_StoreResults_loans :
    (let s := at_ [(Reg.STM_SIZE_UNITS, 16384), (Reg.STM_LEND_LOG2 3, 30), (Reg.STM_LEND_BORROWER 3, 1), (Reg.RSL_PM_LIVE_LIVE, 2)]
     s.lendOk 3 = true ∧ s.liveMember 1 = true) ∧
    (let s := at_ [(Reg.STM_SIZE_UNITS, 16384), (Reg.STM_LEND_LOG2 3, 30), (Reg.STM_LEND_BORROWER 3, 1), (Reg.RSL_PM_LIVE_LIVE, 1)]
     s.lendOk 3 = true ∧ s.liveMember 1 = false) ∧
    (let s := at_ [(Reg.STM_LEND_STATE 3, 1), (Reg.STM_LEND_BORROWER 3, 1), (Reg.STM_BORROW_STATE 5, 1), (Reg.STM_BORROW_LENDER 5, 1)]
     s.rd (Reg.STM_LEND_STATE 3) = 1 ∧ s.cueNow + 50 ≤ 50 ∧ s.rd (Reg.STM_BORROW_STATE 5) = 1 ∧ (s.store.borrowEnd.find? 5).isNone = true ∧
       s.deaf 16 = false ∧ s.rd (Reg.STM_BORROW_LENDER 5) = 1 ∧ s.rd (Reg.STM_LEND_BORROWER 3) = 1 ∧ (s.store.lendEnd.find? 3).isNone = true) ∧
    ((List.range 16).find? (fun w => State.reset.rd (Reg.STM_BORROW_STATE w) == 0 && !State.reset.store.borrowNext.contains w)) = some 0 ∧
    (let s := { at_ [(Reg.STM_LEND_BORROWER 3, 1)] with store := { lendWait := [3] } }
     s.store.lendWait.contains 3 = true ∧ s.rd (Reg.STM_LEND_BORROWER 3) = 1) ∧
    (let s := at_ [(Reg.STM_LEND_STATE 3, 2), (Reg.STM_BORROW_STATE 5, 2), (Reg.CUE_PHASE_PHASE, 0)]
     s.phase = 0 ∧ s.rd (Reg.STM_LEND_STATE 3) = 2 ∧ s.rd (Reg.STM_LEND1_END_CUE 3) ≤ s.cueNow ∧ s.rd (Reg.STM_BORROW_STATE 5) = 2 ∧
       s.rd (Reg.STM_BORROW1_END_CUE 5) ≤ s.cueNow) ∧
    (let s := { at_ [(Reg.CUE_PHASE_PHASE, 0), (Reg.CUE_COUNT_COUNT, 9)] with store := { lendEnd := [(3, 8)], borrowEnd := [(5, 8)] } }
     s.phase = 0 ∧ s.store.lendEnd.find? 3 = some 8 ∧ s.store.borrowEnd.find? 5 = some 8 ∧ 8 < s.cueNow) ∧
    (at_ [(Reg.STM_LEND_STATE 3, 3)]).rd (Reg.STM_LEND_STATE 3) = 3 ∧ (at_ [(Reg.STM_LEND_STATE 3, 3)]).rd Reg.STM_MIG_RATE ≠ 0 := by decide +kernel

theorem wit_StoreResults_wings :
    State.reset.store.fails.getD 5 0 = 0 ∧ State.reset.failedBeside 5 = [] ∧ State.reset.rd Reg.STM_WINGS_POP ≠ 2 ∧ (at_ [(Reg.STM_WINGS_POP, 2)]).rd Reg.STM_WINGS_POP = 2 ∧
    (let s := at_ [(Reg.STM_WINGS_SHARE, 1), (Reg.STM_REBUILD_CHANNEL, 5), (chField 5, 2)]
     s.rd Reg.STM_WINGS_SHARE ≠ 0 ∧ s.rd Reg.STM_REBUILD_CHANNEL = 5 ∧ s.chState 5 = 2) ∧
    (let s := at_ [(Reg.STM_WINGS_SHARE, 1), (Reg.STM_REBUILD_CHANNEL, 5), (chField 5, 4)]
     s.rd Reg.STM_WINGS_SHARE ≠ 0 ∧ s.rd Reg.STM_REBUILD_CHANNEL = 5 ∧ s.chState 5 = 4) ∧ State.reset.chState 5 ≠ 4 ∧
    ((State.reset.setDir 5 { st := 1, sharers := 4 }).dirAt 5).st ≠ 0 ∧
    ((State.reset.setDir 5 { st := 1, sharers := 4 }).noteUE false).coh.bad.contains 5 = false ∧
    State.reset.answered 1 7 = none ∧ State.reset.mirroredUnits.contains 4 = false ∧
    { State.reset with store := { mirrors := [(8, {})] } }.mirroredUnits.contains 4 = true ∧
    2 * (State.reset.mirroredUnits.length + 1) ≤ (at_ [(Reg.STM_MIRROR_RESERVE_UNITS, 2)]).rd Reg.STM_MIRROR_RESERVE_UNITS ∧
    (at_ [(Reg.STM_SIZE_UNITS, 1)]).inOwn (65535 / 64 * 64) = true := by decide +kernel

/-! ### Coherence and the Efhal fabric -/

/-- Line 5 with a directory entry. -/
def dirState (d : DirEnt) : State := (mapped State.reset).setDir 5 d

theorem wit_HomeRequestResults :
    (∀ code ∈ [1, 2, 3], State.reset.takeMsg { code := code, src := 3, dst := homeNode 5, line := 5, part := 2 } =
      some (State.reset, { code := code, src := 3, dst := homeNode 5, line := 5, part := 2 })) ∧
    (State.reset.dirAt 5).st < 4 ∧ (State.reset.dirAt 5).queue = [] ∧ 4 ≤ ((dirState { st := 8 }).dirAt 5).st ∧
    (dirState { st := 8 }).takeMsg { code := 1, src := 3, dst := homeNode 5, line := 5 } =
      some (dirState { st := 8 }, { code := 1, src := 3, dst := homeNode 5, line := 5 }) ∧
    (let d : DirEnt := { st := 8, tier := true, req := some { kind := 1, r := 3 } }
     let t := (dirState d).tierData 5
     ((dirState d).dirAt 5).tier = true ∧ t.2.isSome = true ∧ (t.1.dirAt 5).req = some { kind := 1, r := 3 } ∧ (t.1.dirAt 5).st = 8) ∧
    (let d : DirEnt := { st := 9, tier := true, acks := 2, req := some { kind := 2, r := 3 } }
     let t := (dirState d).tierData 5
     ((dirState d).dirAt 5).tier = true ∧ t.2.isSome = true ∧ (t.1.dirAt 5).req = some { kind := 2, r := 3 } ∧ (t.1.dirAt 5).st = 9 ∧
       (t.1.dirAt 5).acks ≠ 0) ∧
    atomRemoteOk 0 0 = true ∧ bitOf ({ st := 9, sharers := 8 } : DirEnt).sharers 3 = true := by decide +kernel

/-- A message comes where the wire holds none like it, or it is the next of its kind there. -/
def comesTo (s : State) (m : CMsg) : Bool := match s.takeMsg m with | some (t, n) => t == s && n == m | none => false

theorem wit_CoherentAgentResults_agent :
    (∀ st ∈ [0, 1, 2, 3, 4, 8, 9, 10, 11],
      let s := State.reset.setCopy 2 5 { st := st }
      (s.copyAt 2 5).st = st ∧ (s.copyAt 2 5).hold = false ∧
        (∀ code ∈ [0x10, 0x11, 0x12, 0x13, 0x14, 0x91], comesTo s { code := code, src := homeNode 5, dst := 2, line := 5, r := 7 }) ∧
        (∀ code ∈ [0x25, 0x30, 0x31, 0x32, 0x33], comesTo s { code := code, src := anySrc, dst := 2, line := 5 })) ∧
    ((State.reset.setCopy 2 5 { st := 4, hold := true }).copyAt 2 5).hold = true ∧
    (State.reset.cacheRoom 2 5).2 = true ∧
    (∀ code ∈ [0x34, 0x37], comesTo State.reset { code := code, src := anySrc, dst := 35, line := 5 }) := by decide +kernel

theorem wit_CoherentAgentResults_home :
    (∀ code ∈ [0x20, 0x21, 0x22, 0x23, 0x24, 0x35, 0x36], comesTo State.reset (fromAgent code 2 5)) ∧
    comesTo State.reset { fromAgent 0x20 2 5 with note := some (0x10, 3) } ∧ (State.reset.sweepLine 5).coh.bad.contains 5 = false ∧
    (let d : DirEnt := { st := 9, acks := 6, req := some { kind := 2, r := 3 } }
     comesTo (dirState d) (fromAgent 0x20 2 5) ∧ ((dirState d).sweepLine 5).dirAt 5 = d ∧ bitOf d.acks 2 = true ∧ d.acks ≠ 2 ^ 2) ∧
    (let d : DirEnt := { st := 9, acks := 4, req := some { kind := 2, r := 3 } }
     ((dirState d).sweepLine 5).dirAt 5 = d ∧ d.acks = 2 ^ 2 ∧ d.tier = false) ∧
    (∀ st ∈ [3, 10, 11, 12, 13, 14],
      let d : DirEnt := { st := st, owner := some 2, fh := some 2, req := some { r := 3 } }
      ((dirState d).sweepLine 5).dirAt 5 = d ∧ d.lists 2 = true) ∧
    (((dirState {}).sweepLine 5).dirAt 5).st < 3 := by decide +kernel

theorem wit_EdgeAgentResults :
    (let s := { mapped (at_ [(Reg.COH_AGENT_STATE 25, 1), (Reg.XLT_WIN_MAP_EN 0, 1), (Reg.XLT_WIN_MAP_R 0, 1),
                         (Reg.XLT_WIN_MAP_W 0, 1), (Reg.XLT_WIN_SIZE_UNITS 0, 1)]) with
                xlt := { hdm := [(0, { size := 2 ^ 28, committed := true })] } }
     s.edgeState 0 = 1 ∧
       (∀ write ∈ [false, true], (match s.window 0 64 write with
         | (t, .line l p) => decide (l = 1 ∧ p = 0 ∧ (t.dirAt l).st < 4 ∧ (t.dirAt l).queue = []) | _ => false) = true) ∧
       (∀ write ∈ [false, true], (match s.window 0 (2 ^ 40) write with | (_, .err _) => true | _ => false) = true) ∧
       s.coh.dir.any (fun e => e.2.st == 4 && bitOf e.2.bis 0) = false) ∧
    (let d : DirEnt := { st := 4, bis := 1, sharers := 2 ^ 25 }
     let s := (dirState d).wr (Reg.COH_AGENT_STATE 25) 1
     (s.sweepLine 5).dirAt 5 = d ∧ d.bis = 2 ^ 0 ∧ (s.sweepLine 5).coh.bad.contains 5 = false ∧ s.edgeState 0 = 1 ∧
       s.coh.dir.any (fun e => e.2.st == 4 && bitOf e.2.bis 0) = true) ∧
    (((dirState {}).sweepLine 5).dirAt 5).st ≠ 4 ∧ (at_ [(Reg.COH_AGENT_STATE 25, 2)]).edgeState 0 = 2 ∧
    (at_ [(Reg.COH_AGENT_STATE 25, 3)]).rd (Reg.COH_AGENT_STATE 25) = 3 := by decide +kernel

theorem wit_FabricLinkResults_port :
    (∀ st ∈ [0, 1, 2, 3, 4], (at_ [(Reg.EFH_PORT_STAT_STATE 17, st)]).portState 17 = st) ∧
    (at_ [(Reg.EFH_PORT_CTL_PEER_CHECK 17, 1), (Reg.EFH_PORT_CTL_PEER 17, 2)]).is1 (Reg.EFH_PORT_CTL_PEER_CHECK 17) = true ∧
    (at_ [(Reg.EFH_PORT_CTL_PEER_CHECK 17, 1), (Reg.EFH_PORT_CTL_PEER 17, 2)]).rd (Reg.EFH_PORT_CTL_PEER 17) ≠ 1 ∧
    (at_ [(Reg.EFH_PORT_CTL_PEER_CHECK 17, 0)]).is1 (Reg.EFH_PORT_CTL_PEER_CHECK 17) = false ∧
    ((State.reset.linkAck 17 5).link 17).unacked = [] ∧
    (((State.reset.setLink 17 { unacked := [(0, {})] }).linkAck 17 65535).link 17).unacked ≠ [] ∧
    (((State.reset.setLink 17 { unacked := [(0, {})], fails := 8 }).linkAck 17 65535).link 17).fails = 8 := by decide +kernel

/-- The CRC register after a piece of 31 zero bytes. -/
def crcZeros (c : Nat) : Nat := (List.replicate 31 (0 : Byte)).foldl (crcByte 0xC96C5795D7870F42) c

theorem crcZeros_0 : crcZeros 18446744073709551615 = 151211592990947899 := by decide +kernel
theorem crcZeros_1 : crcZeros 151211592990947899 = 13657400180621429760 := by decide +kernel
theorem crcZeros_2 : crcZeros 13657400180621429760 = 9336504170114628395 := by decide +kernel
theorem crcZeros_3 : crcZeros 9336504170114628395 = 14099407903962750694 := by decide +kernel
theorem crcZeros_4 : crcZeros 14099407903962750694 = 6768989374681846303 := by decide +kernel
theorem crcZeros_5 : crcZeros 6768989374681846303 = 6705212691892282349 := by decide +kernel
theorem crcZeros_6 : crcZeros 6705212691892282349 = 6183841022296043313 := by decide +kernel
theorem crcZeros_7 : crcZeros 6183841022296043313 = 5425723376169859924 := by decide +kernel

/-- The CRC of a flit of zeros. -/
theorem crc64_zeros : crc64 (List.replicate 248 0) = 13021020697539691691 := by
  have h (c : Nat) (m : Nat) : (List.replicate (31 + m) (0 : Byte)).foldl (crcByte 0xC96C5795D7870F42) c =
      (List.replicate m (0 : Byte)).foldl (crcByte 0xC96C5795D7870F42) (crcZeros c) := by
    rw [List.replicate_add, List.foldl_append]; rfl
  unfold crc64
  rw [show (248 : Nat) = 31 + (31 + (31 + (31 + (31 + (31 + (31 + (31 + 0))))))) from rfl, h, h, h, h, h, h, h, h,
    show (2 ^ 64 - 1 : Nat) = 18446744073709551615 from rfl, crcZeros_0, crcZeros_1, crcZeros_2, crcZeros_3, crcZeros_4, crcZeros_5, crcZeros_6, crcZeros_7]
  rfl

theorem wit_FabricLinkResults_flit :
    let x := 13021020697539691691 * 2 ^ 1984
    x < 2 ^ 2048 ∧ crc64 (toLe 248 x) = bitsOf x 1984 64 ∧ bitsOf x 0 16 = ((State.reset.link 17).rx + 1) % 65536 ∧ bitsOf x 48 16 = 0 ∧
      bitOf x 32 = false ∧ bitsOf x 0 16 ≠ (((State.reset.setLink 17 { rx := 5 }).link 17).rx + 1) % 65536 ∧
      crc64 (toLe 248 0) ≠ bitsOf 0 1984 64 := by
  have h : toLe 248 (13021020697539691691 * 2 ^ 1984) = List.replicate 248 0 := by decide +kernel
  have h0 : toLe 248 0 = List.replicate 248 0 := by decide +kernel
  refine ⟨by decide +kernel, ?_, by decide +kernel, by decide +kernel, by decide +kernel, by decide +kernel, ?_⟩
  · rw [h, crc64_zeros]; decide +kernel
  · rw [h0, crc64_zeros]; decide +kernel

/-- The first piece of an IDLE flit. -/
def idlePiece : List Byte := [0, 0, 0, 0, 2] ++ List.replicate 26 0

theorem crcIdle_0 : idlePiece.foldl (crcByte 0xC96C5795D7870F42) 18446744073709551615 = 10698354790244458986 := by decide +kernel
theorem crcIdle_1 : crcZeros 10698354790244458986 = 6192140364826139140 := by decide +kernel
theorem crcIdle_2 : crcZeros 6192140364826139140 = 7434433814248121878 := by decide +kernel
theorem crcIdle_3 : crcZeros 7434433814248121878 = 18357606353225977571 := by decide +kernel
theorem crcIdle_4 : crcZeros 18357606353225977571 = 6408393370163396133 := by decide +kernel
theorem crcIdle_5 : crcZeros 6408393370163396133 = 8913846497472653735 := by decide +kernel
theorem crcIdle_6 : crcZeros 8913846497472653735 = 16397257660973728273 := by decide +kernel
theorem crcIdle_7 : crcZeros 16397257660973728273 = 11412242809791076506 := by decide +kernel

/-- The CRC of an IDLE flit with no credits. -/
theorem crc64_idle : crc64 (idlePiece ++ List.replicate 217 0) = 7034501263918475109 := by
  have h (c : Nat) (m : Nat) : (List.replicate (31 + m) (0 : Byte)).foldl (crcByte 0xC96C5795D7870F42) c =
      (List.replicate m (0 : Byte)).foldl (crcByte 0xC96C5795D7870F42) (crcZeros c) := by
    rw [List.replicate_add, List.foldl_append]; rfl
  unfold crc64
  rw [List.foldl_append, show (217 : Nat) = 31 + (31 + (31 + (31 + (31 + (31 + (31 + 0)))))) from rfl, h, h, h, h, h, h, h,
    show (2 ^ 64 - 1 : Nat) = 18446744073709551615 from rfl, crcIdle_0, crcIdle_1, crcIdle_2, crcIdle_3, crcIdle_4, crcIdle_5, crcIdle_6, crcIdle_7]
  rfl

theorem wit_FabricLinkResults_idle :
    let x := 2 ^ 33 + 7034501263918475109 * 2 ^ 1984
    x < 2 ^ 2048 ∧ crc64 (toLe 248 x) = bitsOf x 1984 64 ∧ bitsOf x 33 3 = 1 ∧ bitsOf x 48 16 = 0 := by
  have h : toLe 248 (2 ^ 33 + 7034501263918475109 * 2 ^ 1984) = idlePiece ++ List.replicate 217 0 := by decide +kernel
  refine ⟨by decide +kernel, ?_, by decide +kernel, by decide +kernel⟩
  rw [h, crc64_idle]; decide +kernel

/-- The store has sixteen units, and devices 0 to 2 are live members. -/
def fabricState (fs : List (Fld × Nat)) : State := at_ ([(Reg.STM_SIZE_UNITS, 16), (Reg.RSL_PM_LIVE_LIVE, 7)] ++ fs)

theorem wit_FabricRequestResults_lines :
    (let s := fabricState [(Reg.EFH_REGION0_STATE 3, 1), (Reg.EFH_REGION0_LOG2 3, 21), (Reg.EFH_REGION1_OWNER_DEV 3, 1),
                           (Reg.EFH_REGION1_OWNER_PART 3, 3)]
     s.deaf 3 = false ∧ s.homeWay 1 3 64 false false = .at_ 64 ∧ s.homeWay 1 3 64 true false = .at_ 64 ∧
       s.homeWay 2 3 64 false false = .stat 0x21 ∧ s.homeWay 2 3 64 true false = .stat 0x21 ∧ s.askedFar (farTicket 1 7 false) = false ∧
       s.answered 1 7 = none ∧ atomRemoteOk 0 0 = true) ∧
    (let s := fabricState [(Reg.EFH_REGION0_STATE 3, 4), (Reg.EFH_REGION0_LOG2 3, 21), (Reg.EFH_REGION2_TARGET 3, 2 ^ 30)]
     (∀ write ∈ [false, true], s.homeWay 1 3 64 write false = .pass 3 (2 ^ 51 + 64)) ∧ s.askedFar (farTicket 1 7 false) = false ∧
       s.answered 1 7 = none) ∧
    ({ State.reset with efh := { done := [{ src := 1, id := 7, ans := {} }] } }).answered 1 7 = some {} ∧
    (let q : FReq := { id := 7, dest := 1, kind := 1, own := 5 }
     [q].find? (fun q => q.id == 7 && q.ans.isNone) = some q ∧ ([q].find? (fun q => q.id == 7 && q.ans.isNone && (q.dest == 1 || false))) = some q ∧ q.own < 2 ^ 31) ∧
    State.reset.rd Reg.EFH_CTL_FM_DEVICE = 0 ∧ State.reset.rd Reg.EFH_CTL_FM_DEVICE ≠ 1 := by decide +kernel

/-- A PARCEL for inbound route 2 of logical troupe 5. -/
def dataParcel : FabParcel := { op := 8, cls := 7, src := 1, arg := parcelArg 5 2 0 false 0 9 }

theorem wit_FabricRequestResults_parcel :
    (parcelOf dataParcel.num).1 = dataParcel ∧ (parcelOf dataParcel.num).2 = true ∧ dataParcel.wellFormed = true ∧
    State.reset.deaf dataParcel.part = false ∧ bitsOf dataParcel.arg 19 2 ≠ 2 ∧ State.reset.physOf (bitsOf dataParcel.arg 0 13) = some 5 := by
  decide +kernel

/-- An outstanding work order of partition 0, with its operation and its words. -/
def orderState (o : Order) (fs : List (Fld × Nat)) : State := { fabricState fs with ord := { list := [o] } }

theorem wit_OwnershipResults_orders :
    (∀ op ∈ [0x10, 0x11, 0x12],
      let o : Order := { op := op }
      (orderState o []).orderAt 0 = some o ∧ (orderState o []).mayStart o = true ∧
        bitOf (orderState o []).res.lostDevices (pgaDev (o.by_ 8 8)) = false ∧
        (((orderState o []).setOrder { o with started := true }).recallRange (o.by_ 8 8)
          (((orderState o []).setOrder { o with started := true }).regionSpan (o.by_ 8 8))).2 = true) := by decide +kernel

theorem wit_OwnershipResults_home :
    (let s := fabricState [(Reg.EFH_REGION0_STATE 3, 1), (Reg.EFH_REGION1_OWNER_DEV 3, 1)]
     s.entryAt 0 = some 3 ∧ s.rd (Reg.EFH_REGION0_STATE 3) = 1 ∧ s.ownsAt 3 1 0 0 = true ∧ s.is1 (Reg.EFH_REGION0_PUB 3) = false ∧
       s.liveMember 2 = true ∧ s.entryAt (2 ^ 21) = none) ∧
    (let s := fabricState [(Reg.EFH_REGION0_STATE 3, 2), (Reg.EFH_REGION1_OFFER_DEV 3, 2), (Reg.CUE_PHASE_PHASE, 0), (Reg.CUE_COUNT_COUNT, 4)]
     s.entryAt 0 = some 3 ∧ s.rd (Reg.EFH_REGION0_STATE 3) = 2 ∧ s.rd (Reg.EFH_REGION1_OFFER_DEV 3) = 2 ∧
       s.rd (Reg.EFH_REGION1_OFFER_PART 3) = 0 ∧ s.rd (Reg.EFH_REGION1_EPOCH 3) = 0 ∧ s.phase = 0 ∧ (s.efh.hand.getD 3 {}).cue + 4 ≤ s.cueNow ∧
       (s.efh.hand.getD 3 {}).reply = none) ∧
    (fabricState [(Reg.EFH_REGION0_STATE 3, 1), (Reg.EFH_REGION1_OWNER_DEV 3, 1), (Reg.EFH_REGION0_PUB 3, 1)]).is1
      (Reg.EFH_REGION0_PUB 3) = true ∧
    (let s := { fabricState [(Reg.EFH_REGION0_STATE 3, 1)] with efh := { withdraw := [(3, { left := 2 })] } }
     s.entryAt 0 = some 3 ∧ s.efh.withdraw.find? 3 = some { left := 2 } ∧ bitOf 2 1 = true) ∧
    (State.reset.recallRange 0 (2 ^ 21)).2 = true ∧
    (({ State.reset with coh := { dir := [(0, { st := 8 })] } } : State).recallRange 0 (2 ^ 21)).2 = false := by decide +kernel

theorem wit_OwnershipResults_receiver :
    ((List.range 64).find? (fun j => State.reset.rd (Reg.EFH_OFFER0_STATE j) == 0)) = some 0 ∧ pgaDev 0 = 0 ∧
    (let o : Order := { op := 0x11, ext := [7] }
     (orderState o []).ord.list.find? (fun o => o.op == 0x10 + 1 && o.part == 0 && o.ext == [7]) = some o) ∧
    (let s := at_ [(Reg.EFH_OFFER0_STATE 0, 1)]
     s.logEntry 0 ((1 + 2 ^ 32 - 1) % 2 ^ 32) = some 0 ∧ s.rd (Reg.EFH_OFFER0_STATE 0) = 1) := by decide +kernel

theorem wit_OwnershipResults_commands :
    (let s := fabricState [(Reg.STM_SIZE_UNITS, 32)]
     s.is1 Reg.EFH_REGION_CMD_BUSY = false ∧ 0 % 2 ^ 21 = 0 ∧ pgaDev 0 = s.device ∧ pgaCtl 0 = false ∧
       pgaOff 0 + 2 ^ 21 ≤ 65536 * s.rd Reg.STM_SIZE_UNITS) ∧
    (let s := at_ [(Reg.CUE_PHASE_PHASE, 0), (Reg.EFH_REGION0_STATE 3, 4), (Reg.CUE_COUNT_COUNT, 8)]
     s.phase = 0 ∧ s.rd (Reg.EFH_REGION0_STATE 3) = 4 ∧ s.efh.idle.getD 3 0 + 8 ≤ s.cueNow) := by decide +kernel

/-! ### The switch, embedding tables and search -/

theorem wit_SwitchResults_arrival :
    State.reset.halted = false ∧ State.reset.sw.copies = [] ∧ State.reset.sw.held = [] ∧ State.reset.rhLink 0 0 = false ∧ State.reset.deaf 0 = false ∧
    (let bad : FabParcel := { op := 0 }
     (parcelOf bad.num).1 = bad ∧ (parcelOf bad.num).2 = true ∧ bad.wellFormed = false ∧ (parcelOf 1).2 = false ∧
       (parcelOf 0x6000).1.wellFormed = false) ∧
    (let rd : FabParcel := { op := 1, cls := 2 }
     (parcelOf rd.num).1 = rd ∧ (parcelOf rd.num).2 = true ∧ rd.wellFormed = true ∧ rd.mcast = false ∧ rd.op ≠ 8 ∧ State.reset.portFor rd = some 19) ∧
    (let many : FabParcel := { op := 1, cls := 2, mcast := true }
     many.wellFormed = true ∧ State.reset.rd (Reg.SWX_MCAST_MASK many.dst) % 2 ^ 20 = 0) := by decide +kernel

/-- A reduction of two parts on device 0, troupe 0, route 0, and a parcel of it. -/
def redFields : List (Fld × Nat) := [(Reg.SWX_RED_DEF0_EN 4, 1), (Reg.SWX_RED_DEF1_ACC 4, 1), (Reg.SWX_RED_DEF1_NEED 4, 2)]

/-- A TALLY parcel of that reduction. -/
def tallyParcel : FabParcel := { op := 8, cls := 5, arg := parcelArg 0 0 1 false 0 0, pl := 2 ^ 448 }

theorem wit_SwitchResults_merge :
    (let s := at_ redFields
     (parcelOf tallyParcel.num).1 = tallyParcel ∧ (parcelOf tallyParcel.num).2 = true ∧ tallyParcel.wellFormed = true ∧
       bitsOf tallyParcel.arg 19 2 = 1 ∧ s.redFor 0 0 0 = some 4 ∧ s.redMerges 4 = true ∧ s.rhLink 3 0 = false ∧ s.deaf 0 = false ∧ tallyParcel.mcast = false) ∧
    (let a : Accum := { red := 4 }
     let s := { at_ redFields with sw := { mergeQ := [(3, tallyParcel.num)], acc := [a] } }
     let t := (s.setSw { s.sw with mergeQ := [] }).hopCredit 3 5
     s.sw.mergeQ = (3, tallyParcel.num) :: [] ∧ bitsOf tallyParcel.pl 448 32 = 1 ∧ t.redFor 0 0 0 = some 4 ∧ t.redMerges 4 = true ∧
       t.sw.acc.find? (fun a => a.red == 4 && a.reduce == bitsOf tallyParcel.pl 416 32 && a.elem == bitsOf tallyParcel.pl 384 32) = some a ∧
       a.void = false ∧ (a.merge tallyParcel.pl (tallyParcel.poison || tallyPoison (BitVec.ofNat 512 tallyParcel.pl))).count < 2) := by decide +kernel

theorem wit_SwitchResults_cells :
    (let j : CopyJob := { input := 3, p := ({ op := 1, cls := 2, mcast := true } : FabParcel).num, ports := [2] }
     let s := State.reset.setSw { State.reset.sw with copies := [j] }
     s.sw.copies.find? (fun j => j.input == 3) = some j ∧ s.sharedOk 2 = true ∧ (s.judgeDrop 3 2 2 j.colour).2 = false) ∧
    (let s := State.reset.setSw { State.reset.sw with cells := [(0, { cls := 2 })], pig := [(18, [0])] }
     s.pigeon 2 2 = [0] ∧ (s.sw.cells.getD 0 {}).back = false) ∧
    (at_ [(Reg.SWX_AUDIT_EN, 1)]).is1 Reg.SWX_AUDIT_EN = true ∧
    (let s := (at_ [(Reg.SWX_AUDIT_EN, 1)]).setSw { State.reset.sw with cells := [(0, {})] }
     s.sw.cells.keys.filter (fun n => !s.sw.pig.vals.flatten.contains n) = [0]) := by decide +kernel

/-- Words of an order that names one index. -/
def oneIndex : Nat := 2 ^ 96

/-- The order of embedding and search, where it stands after a free context has taken it. -/
def takenBy (s : State) (o : Order) (p : State → Order → Bool) : Bool :=
  match s.serving o 0 with | some q => !q.1.gaveUp 0 && p q.1 q.2 | none => false

theorem wit_EmbeddingAndSearchResults_orders :
    (∀ op ∈ [4, 5, 6, 7],
      let o : Order := { op := op }
      let i : Order := { op := op, part := 1, words := oneIndex }
      (orderState o []).orderAt 0 = some o ∧ (orderState o []).mayStart o = true ∧ o.by_ 12 4 = 0 ∧ (orderState o []).embJob o = none ∧
        (orderState o []).srchJob o = none ∧ i.by_ 12 4 = 1 ∧ i.by_ 9 1 % 4 = 0 ∧
        (orderState i []).rd (Reg.EMB_TABLE0_PARTITION (i.by_ 8 1)) ≠ i.part ∧
        (orderState i []).rd (Reg.SRC_INDEX0_PARTITION (i.by_ 8 1)) ≠ i.part) ∧
    (let o : Order := { op := 4, words := oneIndex }
     let s := { orderState o [] with emb := { jobs := [(0, {})] }, srch := { jobs := [(0, {})] } }
     s.embJob o = some {} ∧ s.srchJob o = some {} ∧ s.curtain 0 = false ∧
       takenBy s o (fun r p => decide (r.embJob p = some {} ∧ r.srchJob p = some {}))) := by decide +kernel

/-- Rows of 64 bytes from offset 0, whose slots the row cache has modified, and a request of a kind at the home of row 0. -/
def rowState (kind : Nat) : State :=
  let s := at_ [(Reg.EMB_TABLE0_ROW16 0, 4), (Reg.EMB_TABLE0_SHARDS 0, 1)]
  let t := { s with emb := { s.emb with held := [{ src := 1, part := 2, id := 7, n := 0, table := 0, row := 0, kind := kind }] } }
  (List.range 4).foldl (fun (t : State) l => t.setCopy rowAgent (t.lineKey (64 * l)) { st := 4 }) t

theorem wit_EmbeddingAndSearchResults_rows :
    State.reset.emb.held = [] ∧ State.reset.emb.fwd.find? (fun f => f.table == 0 && f.row == 0) = none ∧
    ({ State.reset with emb := { fwd := [{ k := 3 }] } } : State).emb.fwd.find? (fun f => f.table == 0 && f.row == 0) = some { k := 3 } ∧
    State.reset.emb.coming.any (fun c => c.2 == (0, 0)) = false ∧
    ({ State.reset with emb := { coming := [(3, 0, 0)] } } : State).emb.coming.any (fun c => c.2 == (0, 0)) = true ∧
    (State.reset.rowAt 0 0).isSome = true ∧ (at_ [(Reg.EFH_CTL_DEVICE, 1)]).rowAt 0 0 = none ∧
    (match (rowState 0).rowAt 0 0 with
     | some a => !(rowState 0).hubWaits a.sel && ((rowState 0).rowLines ((rowState 0).rowBankOf 0 0) ((rowState 0).activeSlot a) 64 false).2 &&
         [1, 3].all (fun kind => ((rowState kind).rowLines ((rowState kind).rowBankOf 0 0) ((rowState kind).activeSlot a) 64 true).2) &&
         ((rowState 3).rowLines ((rowState 3).rowBankOf 0 0) (a.base + a.stride * (1 - (rowState 3).selector a)) 64 true).2
     | none => false) = true ∧
    (let s : State := { State.reset with emb := { coming := [(3, 0, 0)] } }
     s.emb.coming.find? (fun c => c.2 == (0, 0)) = some (3, 0, 0) ∧ (s.rowAt 0 0).isSome = true ∧ s.emb.held = []) ∧
    (let s := { at_ [(Reg.CUE_PHASE_PHASE, 0), (Reg.CUE_COUNT_COUNT, 8)] with emb := { fwd := [{ k := 3 }] } }
     s.emb.fwd.find? (fun f => f.k == 3) = some { k := 3 } ∧ s.phase = 0 ∧ 0 + 8 ≤ s.cueNow) ∧
    (let o : Order := { op := 5 }
     let s := { orderState o [] with emb := { jobs := [(7, { out := [(0, 1)] })] } }
     s.emb.jobs.find? 7 = some { out := [(0, 1)] } ∧ s.ord.list.find? (fun o => o.id == 0) = some o ∧ o.ctx = none) := by decide +kernel

theorem wit_EmbeddingAndSearchResults_search :
    State.reset.halted = false ∧ State.reset.curtain 0 = false ∧ (at_ [(Reg.RSL_CURTAIN_DOWN, 1)]).curtain 0 = true ∧
    (let s := { at_ [(Reg.CUE_PHASE_PHASE, 1), (Reg.CUE_PERIOD_PERIOD, 300000), (Reg.CUE_PHASE_OFFSET, 292000)] with
                  srch := { live := [(6249, true)] } }
     s.phase = 1 ∧ s.rd Reg.CUE_PERIOD_PERIOD ≤ s.ofs + 8299 ∧ s.ofs + 6251 ≤ s.rd Reg.CUE_PERIOD_PERIOD ∧
       s.srch.live.getD 6249 false = true ∧ s.srch.run = []) ∧
    (let o : Order := { op := 7 }
     let x : SQuery := { left := 8 }
     let s := { orderState o [] with srch := { jobs := [(7, { qs := [(2, x)] })] } }
     s.srch.jobs.find? 7 = some { qs := [(2, x)] } ∧ s.ord.list.find? (fun o => o.id == 0) = some o ∧ bitOf x.left 3 = true) := by
  decide +kernel

/-! ### Resilience, port H, work orders, events and cores -/

theorem wit_ResilienceResults_postcards :
    bitOf ({ State.reset with res := { lostDevices := 2 } } : State).res.lostDevices 1 = true ∧ bitOf 4 2 = true ∧ bitOf 0 2 = false ∧
    (let s := at_ [(Reg.RSL_PM_LIVE_LIVE, 5), (Reg.CUE_SYNC_LEADER, 0)]
     s.halted = false ∧ bitOf s.res.lostDevices 1 = false ∧ bitOf s.live 1 = false ∧ bitOf s.res.lostDevices 2 = false ∧ bitOf s.live 2 = true ∧ s.rd Reg.CUE_SYNC_LEADER ≠ 2 ∧ 0 = s.cueNow ∧
       s.bit Reg.RSL_PM_SUSPECT_SUSPECT 2 = false ∧ 2 ≠ s.device ∧ s.res.pm.missed.getD 2 0 < 8) ∧
    ({ State.reset with res := { pm := { missed := [(2, 8)] } } } : State).res.pm.missed.getD 2 0 = 8 ∧
    (let s := { at_ [(Reg.RSL_PM_MEMBERS_MEMBERS, 7), (Reg.CUE_PHASE_PHASE, 0)] with res := { pm := { noQuorum := 8 } } }
     s.phase = 0 ∧ s.rd Reg.RSL_PM_MEMBERS_MEMBERS ≠ 0 ∧ 8 ≤ s.res.pm.noQuorum ∧ s.is1 Reg.RSL_PM_STATE_FENCED = false) := by decide +kernel

theorem wit_ResilienceResults_restore :
    State.reset.is1 Reg.RSL_RESTORE_CMD_BUSY = false ∧ State.reset.rd Reg.RSL_RESTORE_CMD_STEP = 0 ∧
    (let s := at_ [(Reg.RSL_RESTORE_CMD_STEP, 1)]
     s.rd Reg.RSL_RESTORE_CMD_STEP ≠ 0 ∧ s.rd Reg.RSL_RESTORE_UNIT_COUNT = 0) ∧
    (let s := fabricState [(Reg.RSL_RESTORE_CMD_STEP, 1), (Reg.RSL_RESTORE_UNIT_COUNT, 1), (Reg.RSL_RESTORE_CMD_SOURCE, 1)]
     s.rd Reg.RSL_RESTORE_UNIT_COUNT = 1 ∧ s.rd Reg.RSL_RESTORE_UNIT_FIRST < s.rd Reg.STM_SIZE_UNITS ∧
       s.rd Reg.RSL_RESTORE_CMD_SOURCE ≠ s.device ∧ bitOf s.res.lostDevices (s.rd Reg.RSL_RESTORE_CMD_SOURCE) = false) ∧
    (at_ [(Reg.RSL_RESTORE_CMD_BUSY, 1)]).is1 Reg.RSL_RESTORE_CMD_BUSY = true ∧
    (at_ [(Reg.RSL_PM_STATE_JOINING, 1)]).is1 Reg.RSL_PM_STATE_JOINING = true ∧ (at_ [(Reg.RSL_ADMIT_TEST, 1)]).rd Reg.RSL_ADMIT_TEST = 1 := by
  decide +kernel

theorem wit_ResilienceResults_admit :
    let o : Order := { op := 0x22, words := 2 ^ 64 }
    let i : Order := { o with started := true }
    let p := [(Reg.OBX_RING_PRIV 0, 1)]
    (orderState o []).orderAt 0 = some o ∧ (orderState o []).mayStart o = true ∧ (orderState o []).is1 (Reg.OBX_RING_PRIV (boxNo 0 0)) = false ∧
      (orderState o p).is1 (Reg.OBX_RING_PRIV (boxNo 0 0)) = true ∧ (orderState o p).device = (orderState o p).rd Reg.EFH_CTL_FM_DEVICE ∧
      (orderState o p).bit Reg.RSL_PM_LIVE_LIVE (o.by_ 8 1) = true ∧ (orderState i p).orderAt 0 = some i ∧ (orderState i p).mayStart i = true := by
  decide +kernel

theorem wit_ResilienceResults_rehearsal :
    let s := at_ [(Reg.RSL_RH_CTL_EN, 1), (Reg.RSL_RH_CTL_INTERVAL, 2), (Reg.RSL_RH_CTL_KINDS, 1), (Reg.RSL_RH_CTL_CUES, 1), (Reg.CUE_PHASE_PHASE, 0)]
    s.is1 Reg.RSL_RH_CTL_EN = true ∧ s.rd Reg.RSL_RH_CTL_INTERVAL ≠ 0 ∧ s.phase = 0 ∧ s.cueNow % s.rd Reg.RSL_RH_CTL_INTERVAL = 0 ∧
      s.res.rhKind = none ∧ s.rd Reg.RSL_RH_CTL_KINDS = 1 ∧ s.rd Reg.RSL_RH_CTL_CUES ≠ 0 ∧ s.res.rhNext < 4 := by decide +kernel

/-- Port H up, its memory space enabled or not, BAR0 at 2^32 and BAR2 at 2^40. -/
def hostState (mem : Bool) : State :=
  { at_ [(Reg.HPT_LINK_UP, 1), (Reg.SEC_BOOT_DONE, 1), (Reg.CLK_ROOT_REF_OK, 1)] with
    hst := { mem := mem, bar0 := 2 ^ 32, bar2 := 2 ^ 40, bar4 := 2 ^ 31, cfg := [(0, 5)] } }

theorem wit_HostPortResults :
    (hostState false).hostUp = true ∧ (hostState false).hostServes = false ∧ (hostState true).hostServes = true ∧
    (hostState true).barOf 0 1 = none ∧ (hostState true).barOf (2 ^ 32 + 2 ^ 26 - 1) 1 = some (0, 2 ^ 26 - 1) ∧
    (hostState true).barOf (2 ^ 40 + 64) 64 = some (2, 64) ∧ (hostState true).barOf (2 ^ 31) 4 = some (4, 0) ∧
    (hostState true).hst.cfg.find? 0 = some 5 ∧ (hostState true).halted = false ∧ (hostState true).hst.perst = false ∧
    (hostState true).is1 Reg.CLK_ROOT_REF_OK = true ∧ (at_ [(halfOf 7, 1)]).mailboxUp 7 = true := by decide +kernel

/-- Outbox 0 and Inbox 0 of partition 0 enabled, a TAIL line in the store, the last accepted TAIL. -/
def boxState (line tail : Nat) : State :=
  { fabricState [(Reg.OBX_TAIL_EN 0, 1), (Reg.IBX_RING_EN 0, 1)] with store := { mem := Memory.store [] 0 (toLe 4 line) }, ord := { tail := [(0, tail)] } }

theorem wit_WorkOrderResults_boxes :
    boxNo 0 0 = 0 ∧ (boxState 1 0).is1 (Reg.OBX_TAIL_EN 0) = true ∧
    ((boxState 1 0).tailLine 0 + 2 ^ 32 - (boxState 1 0).rd (Reg.OBX_STATE_HEAD 0)) % 2 ^ 32 ≤ 2 ^ (boxState 1 0).rd (Reg.OBX_RING_LOG2 0) ∧
    2 ^ (boxState (2 ^ 31) 0).rd (Reg.OBX_RING_LOG2 0) < ((boxState (2 ^ 31) 0).tailLine 0 + 2 ^ 32 - (boxState (2 ^ 31) 0).rd (Reg.OBX_STATE_HEAD 0)) % 2 ^ 32 ∧
    (boxState (2 ^ 31) 0).ord.badRaised = false ∧
    (boxState 1 1).ord.tail.getD 0 0 ≠ (boxState 1 1).rd (Reg.OBX_STATE_HEAD 0) ∧ (boxState 1 1).ord.list.length < 4096 ∧
    ((boxState 1 1).reserveSlot (boxNo 0 ((boxState 1 1).rd (Reg.OBX_RING_INBOX 0)))).isSome = true ∧ (boxState 1 1).boxTurn 0 = true ∧
    (let q := (boxState 1 1).access 0 { kind := 4, r := 33, part := 16, tk := 2 ^ 45 }
     q.2.isSome = true ∧ (q.1.reserveSlot 0).isSome = true) ∧
    (((boxState 1 1).setDir 0 { st := 8 }).access 0 { kind := 4, r := 33, part := 16, tk := 2 ^ 45 }).2 = none ∧
    (({ boxState 1 1 with regs := [((Reg.OBX_TAIL_EN 0).key, 1)] } : State).reserveSlot 0) = none ∧
    ((boxState 0 0).rd (Reg.IBX_STATE_WRITTEN 0) + 2 ^ 32 - (boxState 0 0).headLine 0) % 2 ^ 32 ≤ 2 ^ (boxState 0 0).rd (Reg.IBX_RING_LOG2 0) := by
  decide +kernel

/-- One work order of context 0's partition over a mapped store. -/
def workState (o : Order) (fs : List (Fld × Nat)) : State :=
  { cached (mapped (at_ fs)) (List.replicate 4 0) with ord := { list := [o] } }

theorem wit_WorkOrderResults_orders :
    (let o : Order := { op := 1, words := oneIndex }
     let s := workState o [(Reg.HST_STREAMS_EN 0, 1)]
     s.orderAt 0 = some o ∧ s.mayStart o = true ∧ o.started = false ∧ s.is1 (Reg.HST_STREAMS_EN o.part) = true ∧
       s.ord.streams.find? (4096 * o.part + o.by_ 8 2) = none ∧ o.by_ 12 4 ≠ 0 ∧ s.curtain o.part = false ∧
       (workState o [(Reg.RSL_CURTAIN_DOWN, 1)]).curtain o.part = true ∧ (workState o []).is1 (Reg.HST_STREAMS_EN o.part) = false ∧
       ({ op := 1 } : Order).by_ 12 4 = 0) ∧
    (let o : Order := { op := 2, words := 64 * 2 ^ 192 }
     let s := workState o []
     s.mayStart o = true ∧ o.by_ 24 8 = 64 ∧ s.curtain o.part = false ∧ takenBy s o (fun _ _ => true)) ∧
    (let o : Order := { op := 3, words := 64 * 2 ^ 128 }
     (workState o []).mayStart o = true ∧ o.by_ 16 8 = 64 ∧ takenBy (workState o []) o (fun _ _ => true)) ∧
    (let o : Order := { op := 0x20, words := 2 ^ 128, core := some 0 }
     let s := workState o []
     s.mayStart o = true ∧ o.by_ 16 4 = 1 ∧ o.broken = false ∧ s.coreStopped 0 = false ∧ o.ext = [] ∧ (∀ x ∈ s.ord.list, x.op = 0x20 → o.id ≤ x.id) ∧
       takenBy s o (fun r p => decide (p.ext = []) && served (r.fetchBuf 0 o.part (p.by_ 8 8) (16 * p.by_ 16 4)))) ∧
    (let o : Order := { op := 0x21 }
     (workState o []).mayStart o = true ∧ (workState o [(Reg.CRR_CTX_PLAN_EN 0, 1)]).is1 (Reg.CRR_CTX_PLAN_EN (o.by_ 8 2)) = true ∧
       (workState o [(Reg.CRR_CTX_PLAN_PARTITION 0, 3)]).rd (Reg.CRR_CTX_PLAN_PARTITION (o.by_ 8 2)) ≠ o.part) := by decide +kernel

theorem wit_WorkOrderResults_lines :
    (let o : Order := { op := 2, words := 64 * 2 ^ 192 + 64 * 2 ^ 128 }
     let s := workState o []
     let a := s.readVa 65536 0 false (ctxKey 0) o.part (o.by_ 8 8)
     o.held = none ∧ o.lost = false ∧ 64 * o.done < o.by_ 24 8 ∧ (match a.2 with | .line _ _ => true | _ => false) = true ∧
       (match (a.1.writeVa 65536 0 false (ctxKey 0) o.part (o.by_ 16 8) 0 0 (2 ^ 64 - 1)).2 with | .line _ _ => true | _ => false) = true) ∧
    (let o : Order := { op := 3, words := 64 * 2 ^ 128 }
     64 * o.done < o.by_ 16 8 ∧ (match ((workState o []).writeVa 65536 0 false (ctxKey 0) o.part (o.by_ 8 8) 0 0 (2 ^ 64 - 1)).2 with
       | .line _ _ => true | _ => false) = true) := by decide +kernel

theorem wit_EventAndCoreResults :
    idAssigned 1 = true ∧ (at_ [(Reg.CUE_SYNC_LOCKED, 1)]).retractable 36 = true ∧ State.reset.retractable 1 = false ∧
    State.reset.pendingId 1024 = false ∧ (at_ [(Reg.EVC_PENDING_BITS 16, 1)]).pendingId 1024 = true ∧
    (let s := { State.reset.setCx (.core 0) { st := .run } with ev := { latch := [(0, 1), (16, 1)], signal := [(0, true)] } }
     s.ev.latch.getD 0 0 ≠ 0 ∧ s.ev.latch.getD 16 0 ≠ 0 ∧ (s.cxAt (coreKey 0)).st ≠ .wfe ∧ s.ev.signal.getD 0 false = true) ∧
    (at_ [(Reg.EVC_MOD_GAP 16, 1)]).rd (Reg.EVC_MOD_GAP 16) ≠ 0 ∧
    ({ at_ [(Reg.HPT_LINK_UP, 1)] with hst := { msixEn := true, msix := [(3, { mask := false })] } }.msixOpen 3 = true) ∧
    State.reset.msixOpen 3 = false ∧
    (let s := setFields (State.reset.setCx (.core 0) { st := .idle, len := 4 }) [(Reg.EVC_CORE_IE 0, 1)]
     (s.cxAt (coreKey 0)).st = .idle ∧ s.is1 (Reg.EVC_CORE_IE 0) = true ∧ s.is1 (Reg.EVC_CORE_IN_HANDLER 0) = false ∧
       (s.cxAt (coreKey 0)).link.length < 16) ∧
    ((State.reset.setCx (.core 0) { st := .stopped 4 }).cxAt (coreKey 0)).st = .stopped 4 ∧ (∀ c < 16, State.reset.coreUp c = false) ∧
    (∃ c < 16, (State.reset.setCx (.core 0) { st := .run }).coreUp c = true) ∧
    (let s := at_ [(Reg.SMX_XQ_WR, 1)]
     (1 + 65536 - s.rd Reg.SMX_XQ_RD) % 65536 ≤ (s.rd Reg.SMX_XQ_WR + 65536 - s.rd Reg.SMX_XQ_RD) % 65536 ∧
       (s.rd Reg.SMX_XQ_WR + 65536 - s.rd Reg.SMX_XQ_RD) % 65536 < (2 + 65536 - s.rd Reg.SMX_XQ_RD) % 65536) := by decide +kernel

/-! ### Clocks, power, the boot, the protocols -/

theorem wit_ClockAndPowerResults_clocks :
    State.reset.halted = false ∧ ((State.reset.wr Reg.CLK_MUX_CMD_REGION 160).muxCheck 160 4 65535).2 = false ∧
    ((State.reset.wr Reg.CLK_MUX_CMD_REGION 160).muxCheck 160 4 (State.reset.expected 160 (State.reset.inputOf 160))).2 = true ∧
    State.reset.rd (Reg.CLK_REG_POWER 160) = 0 ∧ State.reset.rd (Reg.CLK_REG_POWER 0) = 0 ∧ State.reset.door.muxCmd ≠ some 160 ∧
    (at_ [(Reg.CLK_REG_POWER 0, 3)]).rd (Reg.CLK_REG_POWER 0) = 3 ∧ State.reset.is1 Reg.CLK_FCNT_BUSY = false ∧
    (at_ [(Reg.CLK_FCNT_BUSY, 1)]).is1 Reg.CLK_FCNT_BUSY = true := by decide +kernel

theorem wit_ClockAndPowerResults_power :
    State.reset.door.halt = 0 ∧ State.reset.rd Reg.PWR_CTL_STATE = 0 ∧ (at_ [(Reg.PRT_LAYOUT_COUNT_COUNT 0, 1)]).placed = true ∧
    State.reset.placed = false ∧
    (let s := (at_ [(Reg.SDR_INPUT_VOLT, 4800)]).onDoor (fun d => { d with halt := 2, trip := true })
     s.door.halt = 2 ∧ s.door.trip = true ∧ (∀ r < 224, (s.tempOf r).1 ≤ 159 * (s.tempOf r).2) ∧ 4600 ≤ s.rd Reg.SDR_INPUT_VOLT) ∧
    (State.reset.onDoor (fun d => { d with halt := 1 })).door.halt = 1 ∧
    (at_ [(Reg.CLK_ROOT_LOCK, 3)]).bit Reg.CLK_ROOT_LOCK 1 = true ∧ (at_ [(Reg.CLK_ROOT_REF_OK, 1)]).is1 Reg.CLK_ROOT_REF_OK = true ∧
    (at_ [(Reg.CLK_ROOT_LOCK, 3)]).rd Reg.CLK_ROOT_LOCK ≠ 2 ^ 25 - 1 := by decide +kernel

theorem wit_ClockAndPowerResults_round :
    (State.reset.sampleRound [] [] 4800 0).door.halt = 0 := by decide +kernel

theorem wit_ClockAndPowerResults_round_rest :
    ((State.reset.onDoor (fun d => { d with halt := 2 })).sampleRound [] [] 4800 0).door.halt = 2 := by decide +kernel

theorem wit_ResetAndBootResults :
    State.reset.is1 Reg.SEC_BOOT_DONE = false ∧
    (let s := at_ [(Reg.SEC_BOOT_DONE, 1)]
     s.is1 Reg.SEC_BOOT_DONE = true ∧ s.is1 Reg.SEC_BOOT_RECOVERY = false ∧ s.is1 Reg.SEC_BOOT_STORE_READY = false) ∧
    State.reset.is1 Reg.SEC_IMG_CMD_BUSY = false ∧ State.reset.door.trial.contains 2 = false ∧
    (State.reset.onDoor (fun d => { d with trial := [2], wrote := [2] })).door.trial.contains 2 = true ∧
    State.reset.door.arm = none ∧ (State.reset.onDoor (fun d => { d with wrote := [2] })).door.wrote.contains 2 = true ∧
    State.reset.cueNow + 2 ≤ 2 ∧ State.reset.door.wrote.contains 2 = false ∧ State.reset.is1 Reg.SEC_CAL_CMD_BUSY = false ∧
    State.reset.portState 3 ≠ 4 ∧ (at_ [(Reg.EFH_PORT_STAT_STATE 3, 4)]).portState 3 = 4 ∧ (at_ [(Reg.SEC_CAL_CMD_BUSY, 1)]).is1 Reg.SEC_CAL_CMD_BUSY = true ∧
    (∀ c < 32, c % 2 = 5 % 2 → State.reset.chState c = 0) ∧ (at_ [(chField 5, 3)]).chState 5 = 3 ∧ State.reset.chState 5 ≠ 3 := by
  decide +kernel

theorem wit_SecurityProtocolResults :
    State.reset.spdmUp = false ∧ (at_ [(Reg.SEC_BOOT_DONE, 1)]).spdmUp = true ∧ State.reset.door.algs.contains 9 = false ∧
    (State.reset.onDoor (fun d => { d with algs := [9] })).door.algs.contains 9 = true ∧ State.reset.session 9 5 = none ∧
    (State.reset.onDoor (fun d => { d with sessions := [{ via := 9, id := 5 }] })).session 9 5 = some { via := 9, id := 5 } ∧
    (State.reset.onDoor (fun d => { d with sessions := [{ via := 9, id := 5, up := true }] })).session 9 5 = some { via := 9, id := 5, up := true } := by
  decide +kernel

theorem wit_RegisterAndTestPortResults :
    Reg.HPT_CFG_BAR2_LOG2.key ≠ Reg.CUE_PHASE_PHASE.key ∧ Reg.HPT_CFG_BAR2_LOG2.allows 40 = true ∧ Reg.HPT_CFG_BAR2_LOG2.allows 63 = false ∧
    State.reset.is1 (Reg.PBK_FRAME_STAGE_COND 127) = false ∧ State.reset.answers false 0x10000 = true ∧
    (State.reset.onDoor (fun d => { d with halt := 1 })).answers false 0x10000 = false ∧
    (State.reset.onDoor (fun d => { d with halt := 4 })).door.halt = 4 ∧
    (let s := at_ [(Reg.EDG_PORT_EN 3, 1), (Reg.EDG_PORT_BIF 3, 1)]
     s.is1 (Reg.EDG_PORT_EN (7 / 2)) = true ∧ s.is1 (Reg.EDG_PORT_BIF (7 / 2)) = true ∧ s.edgeState 7 = 0) ∧
    (at_ [(Reg.EDG_PORT_EN 3, 1)]).is1 (Reg.EDG_PORT_BIF (6 / 2)) = false := by decide +kernel

theorem wit_ParcelEncodingKeepsEveryField :
    let p : FabParcel := { op := 63, cls := 7, level := 3, src := 63, dst := 255, part := 15, tag := 2 ^ 16 - 1, arg := 2 ^ 47 - 1, pl := 2 ^ 512 - 1 }
    p.op < 2 ^ 6 ∧ p.cls < 2 ^ 3 ∧ p.level < 2 ^ 2 ∧ p.src < 2 ^ 6 ∧ p.dst < 2 ^ 8 ∧ p.part < 2 ^ 4 ∧ p.tag < 2 ^ 16 ∧ p.arg < 2 ^ 47 ∧
      p.pl < 2 ^ 512 := by decide +kernel

/-- The state after reset is canonical, and a step from it answers a next state. -/
theorem wit_StepKeepsCanonical : State.reset.Canonical ∧ ∃ t, step State.reset = .next t := by
  refine ⟨?_, ⟨_, rfl⟩⟩
  constructor <;> decide +kernel

/-! ### Worked examples of the spec

The expected values are those of the examples in the text of the named files. -/

/-- 05_oahan_model.md: the word of "SEND v12 on route 5, last, where some lane of p2 is clear". -/
theorem test_word_send :
    let w : Word := 0x400D0060A0000001
    let f : BitVec 52 := w.setWidth 52
    w.toNat / 2 ^ 58 = encSend.major ∧ w.toNat / 2 ^ 52 % 64 = encSend.minor ∧ fPE f = true ∧ fPINV f = true ∧ fPSEL f = 2 ∧ fA f = 12 ∧
      fB f = 5 ∧ fMOD f = 1 ∧ encSend.legal 0 f = true ∧ wordLegal w = true := by decide +kernel

/-- 06_oahan_operations.md: the first TDOTB of the example. -/
theorem test_word_tdotb :
    let w : Word := 0x2810004121039C83
    let f : BitVec 52 := w.setWidth 52
    w.toNat / 2 ^ 58 = encTdotb.major ∧ w.toNat / 2 ^ 52 % 64 = encTdotb.minor ∧ fA f = 8 ∧ fB f = 9 ∧ fC f = 2 ∧ fTA f = 14 ∧ fTB f = 14 ∧
      fTS f = 1 ∧ fMOD f = 3 ∧ encTdotb.legal 0 f = true ∧ dotOk f = true ∧ wordLegal w = true := by decide +kernel

/-- 04_arithmetic.md: a PS4 block of scale 0x7A and step byte 0xE4: element 20 of code 0xD is −0.1875, element 50 of code 7 is 1.75. -/
theorem test_ps4_elements :
    ((blockVal 16 0xE47A 20 0xD).toF fmt32 false 0 false 0).1 = 0xBE400000 ∧
    ((blockVal 16 0xE47A 50 0x7).toF fmt32 false 0 false 0).1 = 0x3FE00000 := by decide +kernel

/-- 04_arithmetic.md: that block meets the bfloat16 activation 3.0 under base −8: T = 1,200, and TCVT to bfloat16 gives 0x4096. -/
theorem test_tally_ps4 :
    let x := ({} : TLane).addTerms (-8) [(blockVal 16 0xE47A 50 0x7).mul (elemVal 4 0x4040), (blockVal 16 0xE47A 20 0xD).mul (elemVal 4 0x4040)]
    x.t.toInt = 1200 ∧ x.f = 0 ∧ (x.toFloat (-8) 4 0 false 0).1 = 0x4096 := by decide +kernel

/-- The five bfloat16 products of the example of 04_arithmetic.md. -/
def fiveProducts : List (FV × Bool) :=
  [(0x4700, 0x4700), (0x3F80, 0x3F80), (0xC700, 0x4700), (0x3FC0, 0x3C80), (0x3DC0, 0x3D00)].map
    (fun p => (elemVal 4 p.1).mul (elemVal 4 p.2))

/-- 04_arithmetic.md: two devices merge to T = 262, and one lane in another order gives T = 262, with no flag. -/
theorem test_tally_orders :
    let a := ({} : TLane).addTerms (-8) (fiveProducts.take 2)
    let b := ({} : TLane).addTerms (-8) (fiveProducts.drop 2)
    let c := a.merge (-8) b.t (-8) b.f.toNat false
    let d := ({} : TLane).addTerms (-8) [fiveProducts.getD 4 (.nan, false), fiveProducts.getD 2 (.nan, false), fiveProducts.getD 3 (.nan, false),
      fiveProducts.getD 1 (.nan, false), fiveProducts.getD 0 (.nan, false)]
    a.t = 0x4000000100 ∧ b.t.toNat % 2 ^ 64 = 0xFFFFFFC000000006 ∧ c.t = 262 ∧ c.f = 0 ∧ d = c ∧ (c.toFloat (-8) 4 0 false 0).1 = 0x3F83 := by
  decide +kernel

/-- 04_arithmetic.md: that tally to E4M3: 0x39 with NX under stochastic rounding with the random word of TID, STEP and IDX 0; 0x38 under RNE. -/
theorem test_stochastic :
    srWord 0 0 0 = 0 ∧ (⟨262, 0⟩ : TLane).toFloat (-8) 6 4 false (srWord 0 0 0) = (0x39, flNX) ∧
    ((⟨262, 0⟩ : TLane).toFloat (-8) 6 0 false 0).1 = 0x38 := by decide +kernel

/-- 09_couriers.md: the check value of the CRC over the ASCII bytes "123456789". -/
theorem test_crc64 : crc64 [0x31, 0x32, 0x33, 0x34, 0x35, 0x36, 0x37, 0x38, 0x39] = 0x995DC9BBDF1939FA := by decide +kernel

/-- 01_overview.md: troupe (47, 61) lies on CT14. -/
theorem test_troupe_die : Reg.trpDie (80 * 61 + 47) = 14 := by decide

/-- 08_store.md: the Wings place of own-store offset 0x12345000: stripe 2,663, position 9, channel WC19. -/
theorem test_wings_place :
    wingsGroup 0x12345000 = 1 ∧ wingsStripe 0x12345000 = 2663 ∧ wingsPos 0x12345000 = 9 ∧ wingsChannel 0x12345000 = 19 := by decide

/-- 10_addresses_partitions.md: the stage-1 indices of VA 0x7F1234560000. -/
theorem test_walk_indices :
    (List.range 5).map (fun l => lvlIndex 1 l 0x7F1234560000) = [0, 0xFE, 0x48, 0x1A2, 0x16] := by decide

/-- 11_coherence.md: offset 0x12345678 is homed at slice 3. -/
theorem test_slice : sliceOf (0x12345678 / 64) = 3 := by decide

/-- 15_embeddings.md: index 1,000,003 of table 5 lies on device 3, with slot 0 at DATA + 0x7A1200 and its selector in bit 4 of byte SEL + 7,812. -/
theorem test_embedding_row :
    let s := at_ [(Reg.EFH_CTL_DEVICE, 3), (Reg.EMB_TABLE0_ROW16 5, 3), (Reg.EMB_TABLE0_SHARDS 5, 16)]
    s.rowAt 5 1000003 = some { base := 0x7A1200, stride := 64, sel := 7812, bit := 4 } := by decide +kernel

/-! ### Single steps -/

/-- The state an outcome answers, or the state after reset. -/
def after (o : Host.Outcome State Fault Refusal) : State := match o with | .next t => t | _ => State.reset

/-- R175: ADD wraps modulo 2^32; with SAT, signed, it limits and sets SAT. -/
theorem test_add :
    (let r := after (exec (.add (.ce 0 0) 0) (running (.ce 0 0) { s := [(0, 0xFFFFFFFF)] }))
     (r.cx (.ce 0 0)).sr 0 = 0xFFFFFFFE ∧ (r.cx (.ce 0 0)).flags = 0 ∧ (r.cx (.ce 0 0)).pc = 1) ∧
    (let f := wordOf (2 ^ 19)
     let r := after (exec (.add (.ce 0 0) f) (running (.ce 0 0) { s := [(0, 0x7FFFFFFF)] }))
     fSAT f = true ∧ (r.cx (.ce 0 0)).sr 0 = 0x7FFFFFFF ∧ (r.cx (.ce 0 0)).flags = flSAT) := by decide +kernel

/-- R193, R194: STW then LDW; the bytes are little-endian, and the byte after them stays zero. -/
theorem test_store_load :
    let s := running (.ce 1 0) { s := [(1, 0x11223344)], a := [(0, 16)] }
    let r := after (exec (.stw (.ce 1 0) (wordOf (2 ^ 23))) s)
    let t := after (exec (.ldw (.ce 1 0) 0) r)
    r.trp.sram = [(393232, 0x44), (393233, 0x33), (393234, 0x22), (393235, 0x11)] ∧ (t.cx (.ce 1 0)).sr 0 = 0x11223344 ∧ (t.cx (.ce 1 0)).pc = 2 := by
  decide +kernel

/-- R151, R164: a fetch beyond LENGTH in a courier context stops it with cause PC and records the index. -/
theorem test_pc_exception :
    let r := after (exec (.nop (.ctx 5) 0) (running (.ctx 5) { pc := 4 }))
    (r.cx (.ctx 5)).st = .stopped 2 ∧ (r.proc.xq.map (fun e => (e.2.cause, e.2.pc, e.2.detail))) = [(2, 4, 4)] ∧ r.pendingId 49 = true := by
  decide +kernel

/-- R460, R53: the holder's write arms the sheet for the next cue but one. -/
theorem test_take_cue :
    (after (exec (.csTakeCueWrite 16 false 2) (at_ [(Reg.CS_STATUS_STATE, 2), (Reg.CS_STATUS_HOLDER, 16)]))).sheetState = 3 := by decide

/-- R516, R521: a raised software event is pending, and its claim makes it active. -/
theorem test_event_claim :
    let s := { eventState {} 1 with ev := { claims := [⟨0, 1024, 3⟩] } }
    let r := after (exec (.evclaimCommit 0) s)
    r.pendingId 1024 = false ∧ r.activeId 1024 = true ∧ (r.cx (.core 0)).sr 3 = 1024 := by decide +kernel

/-- R33: an idle step of the running cue moves the offset on by one. -/
theorem test_tick : (after (step (at_ [(Reg.CUE_PHASE_PHASE, 1), (Reg.CUE_PHASE_OFFSET, 5)]))).ofs = 6 := by decide

/-- 00_scope.md: a COPY of zero length completes with ST_OK and writes its record, whatever its addresses are. -/
theorem test_copy_nothing :
    let o : Order := { op := 2, words := 0x700000000000 * 2 ^ 64 }
    let r := after (exec (.copyOrder 0 0) (workState o []))
    r.ord.list = [] ∧ r.rd (Reg.IBX_STATE_WRITTEN 0) = 1 := by decide +kernel

/-- AtomicMemoryResult: at the bounds of the operands, for the narrowest and the widest access. -/
theorem test_hyps_atomic :
    ((4 : Nat) = 4 ∨ (4 : Nat) = 8 ∨ (4 : Nat) = 16) ∧ (1 : Nat) < 2 ∧ 2 ^ 32 - 1 < 2 ^ (8 * 4) ∧ 2 ^ 128 - 1 < 2 ^ (8 * 16) ∧
    atomNew 0 4 0 0 0 (2 ^ 32 - 1) 2 0 = 1 ∧ atomNew 1 4 0 0 0 (2 ^ 31) 5 0 = 2 ^ 31 ∧ atomNew 1 4 1 0 0 (2 ^ 31) 5 0 = 5 ∧
    atomNew 7 16 0 0 0 9 4 9 = 4 ∧ atomNew 7 16 0 0 0 9 4 8 = 9 := by
  decide

/-- TranscendentalSpecialValues: a magnitude above zero. -/
theorem test_hyps_transcendental : 0 < 1 ∧ vfSqrt 0 false 0 (.fin true 1 0) = (0x7FC00000, flNV) := by decide +kernel

end Sys2Proof.Tests
end

section
/-!
PROOFS. The write of CS_TAKE_CUE (R51, R53, R56): who may make it, when it arms the sheet, and when it is refused.
-/

namespace Sys2Proof.Machine

/-- R53, R56: a write of CS_TAKE_CUE with this STEP and this CUE is permitted: the cue lies far enough ahead, and STEP is set where the sheet
needs it. -/
def State.TakeCuePermitted (s : State) (step : Bool) (cue : Nat) : Prop :=
  cue ≠ 0 ∧ (s.cueNow + 2 ≤ cue ∨ (cue = s.cueNow + 1 ∧ s.phase ≠ 2)) ∧ (step = true ∨ s.stepOnlySheet = false)

/-- R51: a CHECKED sheet, of which `h` is the holder and no check runs, judges the take cue that `h` writes. -/
structure State.JudgesTakeCue (s : State) (h : Nat) : Prop where
  checked : s.sheetState = 2
  holder : s.rd Reg.CS_STATUS_HOLDER = h
  idle : s.is1 Reg.CS_STATUS_BUSY = false

theorem exec_csTakeCueWrite_halted {s : State} (hs : s.halted = true) (h : Fin 18) (step : Bool) (cue : BitVec 48) :
    exec (.csTakeCueWrite h step cue) s = .next s :=
  if_pos hs

theorem exec_csTakeCueWrite_running {s : State} (hs : s.halted = false) (h : Fin 18) (step : Bool) (cue : BitVec 48) :
    exec (.csTakeCueWrite h step cue) s = .next (s.writeTakeCue h.val step cue.toNat) :=
  if_neg (ne_true_of_eq_false hs)

theorem State.writeTakeCue_not_holder {s : State} {h : Nat} (hh : s.rd Reg.CS_STATUS_HOLDER ≠ h) (step : Bool) (cue : Nat) :
    s.writeTakeCue h step cue = s :=
  if_pos (.inr (.inl hh))

theorem State.writeTakeCue_permitted {s : State} {h : Nat} {step : Bool} {cue : Nat} (hj : s.JudgesTakeCue h)
    (hp : s.TakeCuePermitted step cue) :
    s.writeTakeCue h step cue =
      ((s.wr Reg.CS_TAKE_CUE_CUE cue).wr Reg.CS_TAKE_CUE_STEP (b2n step)).wr Reg.CS_STATUS_STATE 3 := by
  obtain ⟨hzero, hahead, hstep⟩ := hp
  simp [State.writeTakeCue, hj.checked, hj.holder, hj.idle, hzero, hahead, hstep]

theorem State.writeTakeCue_not_permitted {s : State} {h : Nat} {step : Bool} {cue : Nat} (hj : s.JudgesTakeCue h)
    (hp : ¬ s.TakeCuePermitted step cue) :
    s.writeTakeCue h step cue = s.wr Reg.CS_STATUS_ARM_ERR 1 := by
  simp only [State.TakeCuePermitted] at hp
  simp [State.writeTakeCue, hj.checked, hj.holder, hj.idle, hp]

/-- Settles O35: the holder's write is judged by `TakeCuePermitted` (R53, R56), and a write by anyone else is turned away before that (R51). -/
theorem takeCueArmsOrIsRefused : Obligations.TakeCueArmsOrIsRefused := by
  unfold Obligations.TakeCueArmsOrIsRefused
  constructor
  · intro h step cue s hs hchecked hholder hidle
    have hj : s.JudgesTakeCue h.val := ⟨hchecked, hholder, hidle⟩
    rw [exec_csTakeCueWrite_running hs]
    constructor
    · intro hp
      rw [State.writeTakeCue_permitted hj hp]
    · intro hp
      rw [State.writeTakeCue_not_permitted hj hp]
  · intro h step cue s hh
    cases hs : s.halted with
    | true => exact exec_csTakeCueWrite_halted hs h step cue
    | false => rw [exec_csTakeCueWrite_running hs, State.writeTakeCue_not_holder hh]

end Sys2Proof.Machine
end

section
/-!
PROOFS. The issue of an instruction (R138, R141, R151, R264): when it waits, does nothing, is not issued, or raises PC at fetch, once for
the issue path and then for every row of the instruction set.
-/

namespace Sys2Proof.Machine

/-! ### The one path by which every instruction issues -/

/-- R138, R141, R159: an agent fetches a legal word within LENGTH in its turn, so that only its mask and the writes pending on its registers
are left to check: what `Issues` asks, but for the pending writes. -/
structure Fetches (e : Enc) (ok : Bool) (u : Agent) (f : BitVec 52) (s : State) : Prop where
  unhalted : s.halted = false
  turn : s.mayIssue u = true
  word : s.badWord u = none
  run : (s.cx u).st = .run
  legal : e.legal (agentProfile u) f = true
  rule : ok = true
  inside : (s.cx u).pc < (s.cx u).len

section
variable {u : Agent} {e : Enc} {f : BitVec 52} {ok wh : Bool} {w : CxSt} {b : Cx → State → Body} {s : State}

theorem Cx.canIssue_of_run {x : Cx} (h : x.st = .run) (w : CxSt) : x.canIssue w = true := by simp [Cx.canIssue, h]

theorem State.issueFault_of_fetches (h : Fetches e ok u f s) : s.issueFault u e f ok = none := by
  simp [State.issueFault, h.legal, h.rule, h.word, Nat.not_le.mpr h.inside]

/-- R151: a fetch at or above LENGTH raises PC with the index as its detail. -/
theorem issueW_overrun (hh : s.halted = false) (ht : s.mayIssue u = true) (hr : (s.cx u).st = .run)
    (hl : e.legal (agentProfile u) f = true) (ho : ok = true) (hp : (s.cx u).len ≤ (s.cx u).pc) :
    issueW u e f ok wh w b s = s.exception u 2 (s.cx u).pc := by
  simp [issueW, State.issueFault, hh, ht, Cx.canIssue_of_run hr, hl, ho, hp]

/-- R141: a zero mask comes before everything else, even a pending write. -/
theorem issueW_masked (h : Fetches e ok u f s) (hm : maskOf (s.cx u) f = 0) :
    issueW u e f ok true w b s = s.advance u := by
  simp [issueW, h.unhalted, h.turn, Cx.canIssue_of_run h.run, State.issueFault_of_fetches h, Cx.masked, hm]

/-- R138: a pending write on a register that the instruction names holds it at issue. -/
theorem issueW_held (h : Fetches e ok u f s) (hm : wh = true → Enabled u f s) (hp : ∃ p ∈ e.regs f, p ∈ (s.cx u).pend) :
    issueW u e f ok wh w b s = s.setCx u { s.cx u with st := .hold } := by
  have hmask : (s.cx u).masked f wh = false := by
    cases wh with
    | false => rfl
    | true => simpa [Enabled, Cx.masked] using hm rfl
  have hwaits : (s.cx u).waits e f = true := by simpa [Cx.waits] using hp
  simp [issueW, h.unhalted, h.turn, Cx.canIssue_of_run h.run, State.issueFault_of_fetches h, hmask, hwaits]

theorem issueW_stopped_device (h : s.halted = true) : issueW u e f ok wh w b s = s :=
  if_pos (.inl h)

/-- R264, log entry 102: a context issues nothing while a ready context of its courier comes before it. -/
theorem issueW_out_of_turn (h : s.mayIssue u = false) : issueW u e f ok wh w b s = s :=
  if_pos (.inr (by rw [h]; rfl))

/-- R138, R166: an agent whose context does not run issues nothing, unless an exception of its unit has stopped it within this clk. -/
theorem issueW_not_running (hw : (s.cx u).canIssue w = false) (hc : (s.cx u).cut ≠ some (s.cueNow, s.ofs)) :
    issueW u e f ok wh w b s = s := by
  simp [issueW, hw, hc]

end

/-- A context that is stopped, idle, halted or off does not issue, whatever its instruction waits for at issue. -/
theorem Cx.not_canIssue_of_not_running {x : Cx} {w : CxSt} (hw : w ∈ [CxSt.run, .recv, .credit])
    (h : (∃ c, x.st = .stopped c) ∨ x.st = .idle ∨ x.st = .halt ∨ x.st = .off) : x.canIssue w = false := by
  simp only [List.mem_cons, List.not_mem_nil, or_false] at hw
  rcases h with ⟨c, h⟩ | h | h | h <;> rcases hw with rfl | rfl | rfl <;> simp [Cx.canIssue, h]

/-- R141: an instruction that has changed nothing retires with its context as it was. -/
theorem State.advance_of_run {s : State} {u : Agent} (h : (s.cx u).st = .run) : s.advance u = s.retire u (s.cx u) := by
  simp [State.advance, State.retire, h]

/-! ### Every instruction takes that path -/

/-- A row's command is an issue of the row's encoding, under the row's rules, with some body; where it waits at issue, it waits for a parcel
(RECV) or for a credit (SEND, SDLV). -/
def IsaRow.IssuesByPath (r : IsaRow) : Prop :=
  ∃ w ∈ [CxSt.run, .recv, .credit], ∃ body : Agent → BitVec 52 → Cx → State → Body, ∀ u f s,
    exec (r.cmd u f) s = .next (issueW u (r.enc f) f (r.ok (agentProfile u) f) r.whole w (body u f) s)

/-- Row by row, the meaning of the command is the issue of the row's encoding, with the wait and the body that the meaning itself shows: the
table of instructions agrees with the model. -/
theorem isaRows_issuesByPath : ∀ r ∈ isaRows, r.IssuesByPath := by
  simp only [isaRows, isaControl, isaScalar, isaVector, isaTally, isaMemory, isaAtom, isaCourier, isaControlCore,
    List.forall_mem_append, List.forall_mem_cons, List.not_mem_nil, false_implies, implies_true, and_true]
  and_intros <;> exact ⟨_, by simp, _, fun _ _ _ => rfl⟩

/-- R141: no predicate register, and so no mask, in the control profile. -/
theorem Enc.not_legal_control_of_PE (e : Enc) {f : BitVec 52} (h : fPE f = true) : e.legal 2 f = false := by
  simp [Enc.legal, h]

/-- Settles O4: each clause is a law of the issue path, and every row takes that path. -/
theorem issueConditions : Obligations.IssueConditions := by
  unfold Obligations.IssueConditions
  refine ⟨?held, ?masked, ?notIssued, ?control⟩
  case held =>
    intro r hr u f s hh ht hw hrun hl ho hp hm hpend
    obtain ⟨w, -, body, hexec⟩ := isaRows_issuesByPath r hr
    rw [hexec, issueW_held ⟨hh, ht, hw, hrun, hl, ho, hp⟩ hm hpend]
  case masked =>
    intro r hr hwhole u f s hh ht hw hrun hl ho hp hm
    obtain ⟨w, -, body, hexec⟩ := isaRows_issuesByPath r hr
    rw [hexec, hwhole, issueW_masked ⟨hh, ht, hw, hrun, hl, ho, hp⟩ hm, State.advance_of_run hrun]
  case notIssued =>
    intro r hr u f s h
    obtain ⟨w, hwait, body, hexec⟩ := isaRows_issuesByPath r hr
    rw [hexec]
    rcases h with hh | ht | ⟨hcut, hst⟩
    · rw [issueW_stopped_device hh]
    · rw [issueW_out_of_turn ht]
    · rw [issueW_not_running (Cx.not_canIssue_of_not_running hwait hst) hcut]
  case control =>
    intro r _ f hPE
    exact Enc.not_legal_control_of_PE (r.enc f) hPE

end Sys2Proof.Machine
end

section
/-!
PROOFS. Control flow (R130, R150 to R153): what the body of each CTRL instruction hands back where it issues, and from that its results
and its exceptions.
-/

namespace Sys2Proof.Machine

/-! ### What becomes of a body's answer -/

/-- The state after an instruction that `u` issued in `s`, once its body has answered (R151 for a branch). -/
def Body.outcome (u : Agent) (s : State) : Body → State
  | .go s' => s'.advance u
  | .br s' target =>
    if (s.cx u).len ≤ target then s.exception u 2 target
    else (s'.setCx u { s'.cx u with pc := target, st := .run }).issued u
  | .wait s' st => s'.setCx u { s'.cx u with st := st }
  | .exc c d => s.exception u c d

section
variable {u : Agent} {s : State}

/-- Where an instruction issues and executes, `Body.outcome` of its body's answer is the whole of the issue path. -/
theorem issue_eq_outcome {e : Enc} {f : BitVec 52} {ok : Bool} {b : Cx → State → Body} (hI : Issues e ok u f s) (hE : Enabled u f s) :
    issue u e f ok b s = (b (s.cx u) s).outcome u s := by
  rw [issue, issueW_issues hI fun _ => hE]
  cases b (s.cx u) s <;> rfl

theorem Issues.running {e : Enc} {f : BitVec 52} {ok : Bool} (hI : Issues e ok u f s) : (s.cx u).st = .run := by
  obtain ⟨-, -, -, hrun, -⟩ := hI
  exact hrun

@[simp] theorem Body.outcome_wait (s' : State) (st : CxSt) : (Body.wait s' st).outcome u s = s'.setCx u { s'.cx u with st := st } := rfl

@[simp] theorem Body.outcome_exc (c d : Nat) : (Body.exc c d).outcome u s = s.exception u c d := rfl

theorem Body.outcome_go_of_run {s' : State} (h : (s'.cx u).st = .run) : (Body.go s').outcome u s = s'.retire u (s'.cx u) :=
  State.advance_of_run h

theorem Body.outcome_go_setCx {y : Cx} (h : (s.cx u).st = .run) (hpc : y.pc = (s.cx u).pc) (hst : y.st = (s.cx u).st) :
    (Body.go (s.setCx u y)).outcome u s = s.retire u y :=
  State.advance_setCx h hpc hst

/-- R151: the target of a taken branch lies beyond the running section. -/
theorem Body.outcome_br_beyond {s' : State} {t : Nat} (h : (s.cx u).len ≤ t) : (Body.br s' t).outcome u s = s.exception u 2 t :=
  if_pos h

theorem Body.outcome_br_within {s' : State} {t : Nat} (h : t < (s.cx u).len) : (Body.br s' t).outcome u s = s'.branch u (s'.cx u) t :=
  if_neg (Nat.not_le.mpr h)

theorem State.branch_setCx {y : Cx} (hy : y.st = .run) (t : Nat) : (s.setCx u y).branch u ((s.setCx u y).cx u) t = s.branch u y t := by
  rw [State.cx_setCx_run s u y hy, State.branch, State.branch, State.setCx_setCx_run s u y _ hy]
  rfl

/-- R150: a branch whose body changed the agent's own context is one write of that context. -/
theorem Body.outcome_br_setCx {y : Cx} {t : Nat} (h : t < (s.cx u).len) (hy : y.st = .run) :
    (Body.br (s.setCx u y) t).outcome u s = s.branch u y t := by
  rw [Body.outcome_br_within h, State.branch_setCx hy]

end

/-! ### What each instruction's body answers -/

section
variable {u : Agent} {f : BitVec 52} {s : State}

theorem exec_br (hI : Issues encBr true u f s) (hE : Enabled u f s) :
    exec (.br u f) s = .next ((Body.br s (fIMM f)).outcome u s) :=
  congrArg _ (issue_eq_outcome hI hE)

theorem exec_brz (hI : Issues encBrz true u f s) (hE : Enabled u f s) :
    exec (.brz u f) s = .next ((if (s.cx u).sr (fA f) = 0 then Body.br s (fIMM f) else .go s).outcome u s) :=
  congrArg _ (issue_eq_outcome hI hE)

theorem exec_brnz (hI : Issues encBrnz true u f s) (hE : Enabled u f s) :
    exec (.brnz u f) s = .next ((if (s.cx u).sr (fA f) = 0 then Body.go s else .br s (fIMM f)).outcome u s) :=
  congrArg _ (issue_eq_outcome hI hE)

theorem exec_loop (hI : Issues encLoop true u f s) (hE : Enabled u f s) :
    exec (.loop u f) s = .next ((
      if (s.cx u).sr (fA f) = 0 then Body.go s
      else if (s.cx u).sr (fA f) = 1 then .go (s.setCx u ((s.cx u).setS (fA f) ((s.cx u).sr (fA f) - 1)))
      else .br (s.setCx u ((s.cx u).setS (fA f) ((s.cx u).sr (fA f) - 1))) (fIMM f)).outcome u s) :=
  congrArg _ (issue_eq_outcome hI hE)

theorem exec_call (hI : Issues encCall true u f s) (hE : Enabled u f s) :
    exec (.call u f) s = .next ((
      if (s.cx u).len ≤ fIMM f then Body.exc 2 (fIMM f)
      else if linkDepth (agentProfile u) ≤ (s.cx u).link.length then .exc 3 (fIMM f)
      else .br (s.setCx u { s.cx u with link := ((s.cx u).pc + 1) :: (s.cx u).link }) (fIMM f)).outcome u s) :=
  congrArg _ (issue_eq_outcome hI hE)

/-- R523: a RET that does not pop the entry a signal pushed leaves no handler. -/
theorem State.leaveHandler_of_ne {d : Nat} (h : (s.cx u).handler ≠ [d]) : s.leaveHandler u d = s := by
  cases u with
  | ce t c => rfl
  | ctx k => rfl
  | core n => exact if_neg h

theorem State.leaveHandler_of_eq {n : Fin 16} {d : Nat} (h : (s.cx (.core n)).handler = [d]) :
    s.leaveHandler (.core n) d =
      (s.setCx (.core n) { s.cx (.core n) with handler := [] }).wr (Reg.EVC_CORE_IN_HANDLER n.val) 0 :=
  if_pos h

theorem exec_retn_empty (hI : Issues encRet true u f s) (hE : Enabled u f s) (hl : (s.cx u).link = []) :
    exec (.retn u f) s = .next ((Body.exc 3 0).outcome u s) := by
  change execRetn u f s = _
  simp only [execRetn, issue_eq_outcome hI hE, hl]

theorem exec_retn_pop {r : Nat} {rest : List Nat} (hI : Issues encRet true u f s) (hE : Enabled u f s) (hl : (s.cx u).link = r :: rest) :
    exec (.retn u f) s = .next
      ((Body.br ((s.setCx u { s.cx u with link := rest }).leaveHandler u (rest.length + 1)) r).outcome u s) := by
  change execRetn u f s = _
  simp only [execRetn, issue_eq_outcome hI hE, hl]

theorem exec_waitcue (hI : Issues encWaitcue true u f s) (hE : Enabled u f s) :
    exec (.waitcue u f) s = .next ((if fIMM f ≤ s.ofs then Body.go s else .wait s (.cue (fIMM f))).outcome u s) :=
  congrArg _ (issue_eq_outcome hI hE)

/-- R153: the answer of DLBR's body with a deadline `d` at a cue offset `o`, in the state `s'` that reading the deadline leaves. -/
def dlbrBody (f : BitVec 52) (d o : Nat) (s' : State) : Body :=
  if fIMM f / 2 ^ 16 ≠ 0 ∧ d < o + 16 * (fIMM f / 2 ^ 16) then .br s' (fIMM f % 2 ^ 16) else .go s'

theorem exec_dlbr_unit (hI : Issues encDlbr true u f s) (hE : Enabled u f s) (hu : agentProfile u ≠ 2) :
    exec (.dlbr u f) s = .next ((dlbrBody f (s.cx u).dline s.ofs s).outcome u s) := by
  change execDlbr u f s = _
  simp only [execDlbr, issue_eq_outcome hI hE, if_neg hu, dlbrBody]

/-- A core runs no unit: its deadline is a free value (log entry 2), and drawing it changes nothing else. -/
theorem exec_dlbr_core {n : Fin 16} (hI : Issues encDlbr true (.core n) f s) (hE : Enabled (.core n) f s) :
    exec (.dlbr (.core n) f) s = .next ((dlbrBody f (s.fresh 21).1 s.ofs (s.fresh 21).2).outcome (.core n) s) :=
  congrArg _ (issue_eq_outcome hI hE)

theorem exec_mfs (hI : Issues (encMfs (bitOf (fMOD f) 1)) (sprListed (agentProfile u) (fA f)) u f s) (hE : Enabled u f s) :
    exec (.mfs u f) s = .next ((Body.go (s.setCx u
      (if bitOf (fMOD f) 1 then (s.cx u).setA (fD f) (s.spr u (s.cx u) (fA f))
       else (s.cx u).setS (fD f) (s.spr u (s.cx u) (fA f))))).outcome u s) :=
  congrArg _ (issue_eq_outcome hI hE)

end

end Sys2Proof.Machine
end

section
/-!
PROOFS. The results of CTRL within LENGTH (R150, R152, R153) and its exceptions PC and STACK (R151), read off from what each body answers.
-/

namespace Sys2Proof.Machine

/-! ### Special registers, waits and the link stack -/

theorem nop_gives : Gives .nop encNop anyWord fun _ x => x :=
  gives_of_issueR (fun _ _ _ => rfl) (fun _ _ => rfl) fun _ _ => rfl

theorem mts_gives : Gives .mts encMts (fun _ f => bitOf (fMOD f) 0) fun f x => { x with flags := x.sr (fA f) % 64 } :=
  gives_of_issueR (fun _ _ _ => rfl) (fun _ _ => rfl) fun _ _ => rfl

/-- R130: MFS writes its destination alone, in either register file. -/
theorem exec_mfs_retire {u : Agent} {f : BitVec 52} {s : State}
    (hI : Issues (encMfs (bitOf (fMOD f) 1)) (sprListed (agentProfile u) (fA f)) u f s) (hE : Enabled u f s) :
    exec (.mfs u f) s = .next (s.retire u
      (if bitOf (fMOD f) 1 then (s.cx u).setA (fD f) (s.spr u (s.cx u) (fA f))
       else (s.cx u).setS (fD f) (s.spr u (s.cx u) (fA f)))) := by
  rw [exec_mfs hI hE, Body.outcome_go_setCx (hI.running)] <;> split <;> rfl

/-- R152: an agent in WAITCUE whose offset has come goes on at the next index. -/
theorem exec_waitcueResume_reached {u : Agent} {s : State} {o : Nat} (hh : s.halted = false) (hst : (s.cx u).st = .cue o)
    (ho : o ≤ s.ofs) :
    exec (.waitcueResume u) s = .next (s.setCx u { s.cx u with st := .run, pc := (s.cx u).pc + 1 }) := by
  change execWaitcueResume u s = _
  simp [execWaitcueResume, hh, hst, ho]

@[simp] theorem State.cx_setCx_self (s : State) (u : Agent) (y : Cx) : (s.setCx u y).cx u = y :=
  State.cxAt_setCxAt_self s (agentKey u) y

@[simp] theorem State.cx_wr (s : State) (u : Agent) (f : Fld) (x : Nat) : (s.wr f x).cx u = s.cx u := rfl

@[simp] theorem State.cx_branch_self (s : State) (u : Agent) (y : Cx) (t : Nat) :
    (s.branch u y t).cx u = { y with pc := t, st := .run } :=
  State.cx_setCx_self s u _

@[simp] theorem State.rd_branch (s : State) (u : Agent) (y : Cx) (t : Nat) (f : Fld) : (s.branch u y t).rd f = s.rd f := rfl

/-- Settles O17: each clause is the branch of the body's answer that its hypotheses select. -/
theorem controlFlowResults : Obligations.ControlFlowResults := by
  unfold Obligations.ControlFlowResults
  refine ⟨nop_gives, mts_gives, fun u f s => exec_mfs_retire, ?br, ?brz, ?brnz, ?loop, ?call, ?ret, ?waitcue,
    fun u s o => exec_waitcueResume_reached, ?dlbrUnit, ?dlbrCore, ?retHandler⟩
  case br =>
    intro u f s hI hE ht
    rw [exec_br hI hE, Body.outcome_br_within ht]
  case brz =>
    intro u f s hI hE ht
    rw [exec_brz hI hE]
    split
    · rw [Body.outcome_br_within ht]
    · rw [Body.outcome_go_of_run (hI.running)]
  case brnz =>
    intro u f s hI hE ht
    rw [exec_brnz hI hE, ite_not]
    split
    · rw [Body.outcome_go_of_run (hI.running)]
    · rw [Body.outcome_br_within ht]
  case loop =>
    intro u f s hI hE ht
    have hrun := hI.running
    rw [exec_loop hI hE]
    split
    · rw [Body.outcome_go_of_run hrun]
    · split
      next hone => rw [Body.outcome_go_setCx hrun, hone] <;> rfl
      next =>
        rw [Body.outcome_br_setCx ht]
        exact hrun
  case call =>
    intro u f s hI hE ht hroom
    rw [exec_call hI hE, if_neg (Nat.not_le.mpr ht), linkDepth, if_neg (Nat.not_le.mpr hroom), Body.outcome_br_setCx ht]
    exact hI.running
  case ret =>
    intro u f s r rest hI hE hl hr hh
    rw [exec_retn_pop hI hE hl, State.leaveHandler_of_ne (by rwa [State.cx_setCx_self]), Body.outcome_br_setCx hr]
    exact hI.running
  case waitcue =>
    intro u f s hI hE
    rw [exec_waitcue hI hE]
    split
    · rw [Body.outcome_go_of_run (hI.running)]
    · rw [Body.outcome_wait]
  case dlbrUnit =>
    intro u f s hI hE hu ht
    rw [exec_dlbr_unit hI hE hu, dlbrBody]
    split
    · rw [Body.outcome_br_within ht]
    · rw [Body.outcome_go_of_run (hI.running)]
  case dlbrCore =>
    intro n f s hI hE ht q
    rw [exec_dlbr_core hI hE, dlbrBody]
    split
    · exact congrArg _ (Body.outcome_br_within ht)
    · exact congrArg _ (Body.outcome_go_of_run (hI.running))
  case retHandler =>
    intro n f s r rest hI hE hl hr hh
    rw [exec_retn_pop hI hE hl, Body.outcome_br_within hr, State.leaveHandler_of_eq (by rwa [State.cx_setCx_self])]
    refine ⟨_, rfl, ?_, ?_, rfl, rfl, rfl⟩
    · simp
    · simp

/-- Settles O18: a taken target beyond LENGTH raises PC, and the link stack raises STACK, before any effect. -/
theorem controlFlowExceptions : Obligations.ControlFlowExceptions := by
  unfold Obligations.ControlFlowExceptions
  refine ⟨?fetch, ?br, ?brz, ?brnz, ?loop, ?dlbrUnit, ?dlbrCore, ?callTarget, ?callFull, ?retEmpty, ?retTarget⟩
  case fetch =>
    intro r hr u f s hh ht hrun hl ho hp
    obtain ⟨w, -, body, hexec⟩ := isaRows_issuesByPath r hr
    rw [hexec, issueW_overrun hh ht hrun hl ho hp]
  case br =>
    intro u f s hI hE ht
    rw [exec_br hI hE, Body.outcome_br_beyond ht]
  case brz =>
    intro u f s hI hE hz ht
    rw [exec_brz hI hE, if_pos hz, Body.outcome_br_beyond ht]
  case brnz =>
    intro u f s hI hE hz ht
    rw [exec_brnz hI hE, if_neg hz, Body.outcome_br_beyond ht]
  case loop =>
    intro u f s hI hE htwo ht
    rw [exec_loop hI hE, if_neg (by omega), if_neg (by omega), Body.outcome_br_beyond ht]
  case dlbrUnit =>
    intro u f s hI hE hu ht hn hd
    rw [exec_dlbr_unit hI hE hu, dlbrBody, if_pos ⟨hn, hd⟩, Body.outcome_br_beyond ht]
  case dlbrCore =>
    intro n f s hI hE ht hn hd
    rw [exec_dlbr_core hI hE, dlbrBody, if_pos ⟨hn, hd⟩, Body.outcome_br_beyond ht]
  case callTarget =>
    intro u f s hI hE ht
    rw [exec_call hI hE, if_pos ht, Body.outcome_exc]
  case callFull =>
    intro u f s hI hE ht hfull
    rw [exec_call hI hE, if_neg (Nat.not_le.mpr ht), linkDepth, if_pos hfull, Body.outcome_exc]
  case retEmpty =>
    intro u f s hI hE hl
    rw [exec_retn_empty hI hE hl, Body.outcome_exc]
  case retTarget =>
    intro u f s r rest hI hE hl ht
    rw [exec_retn_pop hI hE hl, Body.outcome_br_beyond ht]

end Sys2Proof.Machine
end
section
/-!
PROOFS. The 640 bits of a fabric parcel (R391): each field stands at its own place, and the seal is a 32-bit CRC over the rest.
-/

namespace Sys2Proof.Machine

/-! ### The CRC fits its field -/

/-- A reflected CRC stays within the width of its polynomial. -/
theorem crcByte_lt {w poly c : Nat} (hpoly : poly < 2 ^ w) (hw : 8 ≤ w) (hc : c < 2 ^ w) (b : Byte) : crcByte poly c b < 2 ^ w := by
  have hstep : ∀ c < 2 ^ w, (if c % 2 = 1 then (c / 2) ^^^ poly else c / 2) < 2 ^ w := by
    intro c hc
    have hhalf : c / 2 < 2 ^ w := by omega
    split
    · exact Nat.xor_lt_two_pow hhalf hpoly
    · exact hhalf
  have hb : b.toNat < 2 ^ w := Nat.lt_of_lt_of_le b.isLt (Nat.pow_le_pow_right (by omega) hw)
  exact List.foldlRecOn (motive := (· < 2 ^ w)) (List.range 8) _ (Nat.xor_lt_two_pow hc hb) fun c hc _ _ => hstep c hc

theorem crc32c_lt (bs : List Byte) : crc32c bs < 2 ^ 32 :=
  Nat.xor_lt_two_pow
    (List.foldlRecOn (motive := (· < 2 ^ 32)) bs _ (by decide) fun _ hc b _ => crcByte_lt (by decide) (by decide) hc b) (by decide)

theorem b2n_lt (b : Bool) : b2n b < 2 := by cases b <;> decide

theorem bitOf_eq_of_bitsOf {x k : Nat} {b : Bool} (h : bitsOf x k 1 = b2n b) : bitOf x k = b := by
  cases b <;> simp_all [bitOf, bitsOf, b2n]

/-! ### The places of the fields -/

/-- R391: the widths of a parcel's fields. -/
structure FabParcel.Fits (p : FabParcel) : Prop where
  op : p.op < 2 ^ 6
  cls : p.cls < 2 ^ 3
  level : p.level < 2 ^ 2
  src : p.src < 2 ^ 6
  dst : p.dst < 2 ^ 8
  part : p.part < 2 ^ 4
  tag : p.tag < 2 ^ 16
  arg : p.arg < 2 ^ 47
  pl : p.pl < 2 ^ 512

section
variable {p : FabParcel}

theorem FabParcel.Fits.header_lt (h : p.Fits) : p.header < 2 ^ 96 := by
  obtain ⟨hop, hcls, hlevel, hsrc, hdst, hpart, htag, harg, -⟩ := h
  have hmcast := b2n_lt p.mcast
  have hmark := b2n_lt p.mark
  have hpoison := b2n_lt p.poison
  have hrsvd := b2n_lt p.rsvd
  rw [FabParcel.header]
  omega

theorem FabParcel.Fits.num_mod (h : p.Fits) : p.num % 2 ^ 96 = p.header := by
  have hheader := h.header_lt
  rw [FabParcel.num]
  omega

theorem FabParcel.Fits.num_seal (h : p.Fits) : bitsOf p.num 96 32 = sealOf p.header p.pl := by
  have hheader := h.header_lt
  have hseal : sealOf p.header p.pl < 2 ^ 32 := crc32c_lt _
  rw [bitsOf, FabParcel.num]
  omega

theorem FabParcel.Fits.num_pl (h : p.Fits) : bitsOf p.num 128 512 = p.pl := by
  have hheader := h.header_lt
  have hseal : sealOf p.header p.pl < 2 ^ 32 := crc32c_lt _
  have hpl := h.pl
  rw [bitsOf, FabParcel.num]
  omega

theorem FabParcel.Fits.num_lt (h : p.Fits) : p.num < 2 ^ 640 := by
  have hheader := h.header_lt
  have hseal : sealOf p.header p.pl < 2 ^ 32 := crc32c_lt _
  have hpl := h.pl
  rw [FabParcel.num]
  omega

/-- A field of the header is read from the header alone. -/
theorem FabParcel.Fits.num_field (h : p.Fits) {lo w : Nat} (hw : lo + w ≤ 96) : bitsOf p.num lo w = bitsOf p.header lo w := by
  rw [← h.num_mod, bitsOf, bitsOf, show (2 : Nat) ^ 96 = 2 ^ lo * (2 ^ w * 2 ^ (96 - (lo + w))) by
    rw [← pow_add, ← pow_add]; congr 1; omega, Nat.mod_mul_right_div_self, Nat.mod_mul_right_mod]

/-- R391: the header's fields, each read at its place. -/
theorem FabParcel.Fits.header_fields (h : p.Fits) :
    bitsOf p.header 0 6 = p.op ∧ bitsOf p.header 6 3 = p.cls ∧ bitsOf p.header 9 1 = b2n p.mcast ∧ bitsOf p.header 10 1 = b2n p.mark ∧
    bitsOf p.header 11 1 = b2n p.poison ∧ bitsOf p.header 12 2 = p.level ∧ bitsOf p.header 14 6 = p.src ∧
    bitsOf p.header 20 8 = p.dst ∧ bitsOf p.header 28 4 = p.part ∧ bitsOf p.header 32 16 = p.tag ∧
    bitsOf p.header 48 47 = p.arg ∧ bitsOf p.header 95 1 = b2n p.rsvd := by
  obtain ⟨hop, hcls, hlevel, hsrc, hdst, hpart, htag, harg, -⟩ := h
  have hmcast := b2n_lt p.mcast
  have hmark := b2n_lt p.mark
  have hpoison := b2n_lt p.poison
  have hrsvd := b2n_lt p.rsvd
  simp only [bitsOf, FabParcel.header]
  and_intros <;> omega

theorem FabParcel.Fits.parcelOf_num (h : p.Fits) : parcelOf p.num = (p, true) := by
  obtain ⟨hop, hcls, hmcast, hmark, hpoison, hlevel, hsrc, hdst, hpart, htag, harg, hrsvd⟩ := h.header_fields
  rw [← h.num_field (by decide)] at hop hcls hmcast hmark hpoison hlevel hsrc hdst hpart htag harg hrsvd
  simp only [parcelOf, h.num_mod, h.num_seal, h.num_pl, hop, hcls, bitOf_eq_of_bitsOf hmcast, bitOf_eq_of_bitsOf hmark,
    bitOf_eq_of_bitsOf hpoison, hlevel, hsrc, hdst, hpart, htag, harg, bitOf_eq_of_bitsOf hrsvd, beq_self_eq_true]

end

/-- Settles O59: the fields of a parcel that fits are read back from their places, and the seal covers the header and payload read back. -/
theorem parcelEncodingKeepsEveryField : Obligations.ParcelEncodingKeepsEveryField := by
  unfold Obligations.ParcelEncodingKeepsEveryField
  intro p hop hcls hlevel hsrc hdst hpart htag harg hpl
  have h : p.Fits := ⟨hop, hcls, hlevel, hsrc, hdst, hpart, htag, harg, hpl⟩
  exact ⟨h.parcelOf_num, h.num_lt⟩

end Sys2Proof.Machine
end
section
/-!
PROOFS. Every step keeps the canonical form of the memories and of the register file: one lemma per operation of the state, in the order of the
model's files, and one case per command.
-/

namespace Sys2Proof.Machine

/-! ### The canonical form of an answer -/

def Res.Canonical : Res → Prop
  | .next t => t.Canonical
  | _ => False

/-- Whatever an instruction's body does, it leaves a state in canonical form. -/
def Body.Canonical : Body → Prop
  | .go t => t.Canonical
  | .br t _ => t.Canonical
  | .wait t _ => t.Canonical
  | .exc _ _ => True

/-- A core's access leaves a state in canonical form. -/
def CRes.Canonical : CRes → Prop
  | .wait t => t.Canonical
  | .addr => True
  | .done t _ _ => t.Canonical

/-- A step of a hint job leaves a state in canonical form. -/
def HintStep.Canonical : HintStep → Prop
  | .done t _ => t.Canonical
  | .wait => True
  | .full => True

theorem State.canonical_iff {s : State} : s.Canonical ↔ s.trp.sram.wf = true ∧ s.book.live.wf = true ∧ s.book.staged.wf = true ∧
    s.cour.slot.wf = true ∧ s.proc.loc.wf = true ∧ s.store.mem.wf = true ∧ s.regs.sorted = true :=
  ⟨fun ⟨a, b, c, d, e, f, g⟩ => ⟨a, b, c, d, e, f, g⟩, fun ⟨a, b, c, d, e, f, g⟩ => ⟨a, b, c, d, e, f, g⟩⟩

section

variable {β : Type} {s : State}

/-- A loop of operations that keep the form keeps it. -/
theorem State.Canonical.foldl {f : State → β → State} (hf : ∀ s b, s.Canonical → (f s b).Canonical) (l : List β) {s : State}
    (h : s.Canonical) : (l.foldl f s).Canonical := by
  induction l generalizing s with
  | nil => exact h
  | cons b l ih => exact ih (hf _ _ h)

/-- The same for a loop that carries another value along. -/
theorem State.Canonical.foldl_fst {α : Type} {f : State × α → β → State × α} (hf : ∀ q b, q.1.Canonical → (f q b).1.Canonical)
    (l : List β) {q : State × α} (h : q.1.Canonical) : (l.foldl f q).1.Canonical := by
  induction l generalizing q with
  | nil => exact h
  | cons b l ih => exact ih (hf _ _ h)

theorem State.Canonical.of_fst {α : Type} {q : State × α} {t : State} {x : α} (h : q.1.Canonical) (e : q = (t, x)) : t.Canonical := by
  subst e
  exact h

/-- Only these seven parts of a state bear on its form. -/
theorem State.Canonical.of_same {t : State} (h : s.Canonical) (htrp : t.trp.sram = s.trp.sram) (hbook : t.book.live = s.book.live)
    (hstaged : t.book.staged = s.book.staged) (hcour : t.cour.slot = s.cour.slot) (hproc : t.proc.loc = s.proc.loc)
    (hstore : t.store.mem = s.store.mem) (hregs : t.regs = s.regs) : t.Canonical :=
  ⟨htrp ▸ h.sram, hbook ▸ h.live, hstaged ▸ h.staged, hcour ▸ h.slot, hproc ▸ h.loc, hstore ▸ h.mem, hregs ▸ h.regs⟩

theorem State.Canonical.withPending (h : s.Canonical) (x) : { s with pending := x }.Canonical := h.of_same rfl rfl rfl rfl rfl rfl rfl
theorem State.Canonical.withStaged (h : s.Canonical) (x) : { s with staged := x }.Canonical := h.of_same rfl rfl rfl rfl rfl rfl rfl
theorem State.Canonical.withSheet (h : s.Canonical) (x) : { s with sheet := x }.Canonical := h.of_same rfl rfl rfl rfl rfl rfl rfl
theorem State.Canonical.withXlt (h : s.Canonical) (x) : { s with xlt := x }.Canonical := h.of_same rfl rfl rfl rfl rfl rfl rfl
theorem State.Canonical.withCoh (h : s.Canonical) (x) : { s with coh := x }.Canonical := h.of_same rfl rfl rfl rfl rfl rfl rfl
theorem State.Canonical.withEfh (h : s.Canonical) (x) : { s with efh := x }.Canonical := h.of_same rfl rfl rfl rfl rfl rfl rfl
theorem State.Canonical.withSw (h : s.Canonical) (x) : { s with sw := x }.Canonical := h.of_same rfl rfl rfl rfl rfl rfl rfl
theorem State.Canonical.withOrd (h : s.Canonical) (x) : { s with ord := x }.Canonical := h.of_same rfl rfl rfl rfl rfl rfl rfl
theorem State.Canonical.withEmb (h : s.Canonical) (x) : { s with emb := x }.Canonical := h.of_same rfl rfl rfl rfl rfl rfl rfl
theorem State.Canonical.withSrch (h : s.Canonical) (x) : { s with srch := x }.Canonical := h.of_same rfl rfl rfl rfl rfl rfl rfl
theorem State.Canonical.withEv (h : s.Canonical) (x) : { s with ev := x }.Canonical := h.of_same rfl rfl rfl rfl rfl rfl rfl
theorem State.Canonical.withRes (h : s.Canonical) (x) : { s with res := x }.Canonical := h.of_same rfl rfl rfl rfl rfl rfl rfl
theorem State.Canonical.withHst (h : s.Canonical) (x) : { s with hst := x }.Canonical := h.of_same rfl rfl rfl rfl rfl rfl rfl
theorem State.Canonical.withDoor (h : s.Canonical) (x) : { s with door := x }.Canonical := h.of_same rfl rfl rfl rfl rfl rfl rfl
theorem State.Canonical.withSent (h : s.Canonical) (x) : { s with sent := x }.Canonical := h.of_same rfl rfl rfl rfl rfl rfl rfl
theorem State.Canonical.withFree (h : s.Canonical) (x) : { s with free := x }.Canonical := h.of_same rfl rfl rfl rfl rfl rfl rfl

theorem State.Canonical.withProc (h : s.Canonical) {x : Proc} (hx : x.loc = s.proc.loc) : { s with proc := x }.Canonical :=
  h.of_same rfl rfl rfl rfl hx rfl rfl

theorem State.Canonical.withTrp (h : s.Canonical) {x : Troupes} (hx : x.sram = s.trp.sram) : { s with trp := x }.Canonical :=
  h.of_same hx rfl rfl rfl rfl rfl rfl

theorem State.Canonical.withBook (h : s.Canonical) {x : Book} (hlive : x.live = s.book.live) (hstaged : x.staged = s.book.staged) :
    { s with book := x }.Canonical :=
  h.of_same rfl hlive hstaged rfl rfl rfl rfl

theorem State.Canonical.withCour (h : s.Canonical) {x : Couriers} (hx : x.slot = s.cour.slot) : { s with cour := x }.Canonical :=
  h.of_same rfl rfl rfl hx rfl rfl rfl

theorem State.Canonical.withStagedSheet (h : s.Canonical) (x y) : { s with staged := x, sheet := y }.Canonical :=
  h.of_same rfl rfl rfl rfl rfl rfl rfl

theorem State.Canonical.withEvOrd (h : s.Canonical) (x y) : { s with ev := x, ord := y }.Canonical := h.of_same rfl rfl rfl rfl rfl rfl rfl
theorem State.Canonical.withCohStore (h : s.Canonical) (x) {y : Store} (hy : y.mem = s.store.mem) : { s with coh := x, store := y }.Canonical :=
  h.of_same rfl rfl rfl rfl rfl hy rfl

theorem State.Canonical.storeSram (h : s.Canonical) (a bs) :
    ({ s with trp := { s.trp with sram := Memory.store s.trp.sram a bs } } : State).Canonical :=
  ⟨Memory.wf_store bs a h.sram, h.live, h.staged, h.slot, h.loc, h.mem, h.regs⟩

theorem State.Canonical.storeLive (h : s.Canonical) (a bs) :
    ({ s with book := { s.book with live := Memory.store s.book.live a bs } } : State).Canonical :=
  ⟨h.sram, Memory.wf_store bs a h.live, h.staged, h.slot, h.loc, h.mem, h.regs⟩

theorem State.Canonical.storeStaged (h : s.Canonical) (a bs) :
    ({ s with book := { s.book with staged := Memory.store s.book.staged a bs } } : State).Canonical :=
  ⟨h.sram, h.live, Memory.wf_store bs a h.staged, h.slot, h.loc, h.mem, h.regs⟩

theorem State.Canonical.storeSlot (h : s.Canonical) (a bs) :
    ({ s with cour := { s.cour with slot := Memory.store s.cour.slot a bs } } : State).Canonical :=
  ⟨h.sram, h.live, h.staged, Memory.wf_store bs a h.slot, h.loc, h.mem, h.regs⟩

theorem State.Canonical.storeLocal (h : s.Canonical) (a bs) :
    ({ s with proc := { s.proc with loc := Memory.store s.proc.loc a bs } } : State).Canonical :=
  ⟨h.sram, h.live, h.staged, h.slot, Memory.wf_store bs a h.loc, h.mem, h.regs⟩

theorem State.Canonical.storeMem (h : s.Canonical) (a bs) :
    ({ s with store := { s.store with mem := Memory.store s.store.mem a bs } } : State).Canonical :=
  ⟨h.sram, h.live, h.staged, h.slot, h.loc, Memory.wf_store bs a h.mem, h.regs⟩

theorem State.Canonical.withStore (h : s.Canonical) {x : Store} (hx : x.mem = s.store.mem) : { s with store := x }.Canonical :=
  h.of_same rfl rfl rfl rfl rfl hx rfl
end

variable {s : State}

section

open State.Canonical

-- A thread of its own for each of these many short proofs would not fit in the memory of the check.
set_option Elab.async false

variable {s : State}

/-! ### Registers, counters, memories and events -/

theorem State.Canonical.wr (h : s.Canonical) (f x) : (s.wr f x).Canonical := State.wr_canonical h f x

theorem State.Canonical.wrStaged (h : s.Canonical) (f x) : (s.wrStaged f x).Canonical := by
  unfold State.wrStaged
  grind [withStaged]

theorem State.Canonical.setBit (h : s.Canonical) (f b) : (s.setBit f b).Canonical := by
  unfold State.setBit
  grind [wr]

theorem State.Canonical.clrBit (h : s.Canonical) (f b) : (s.clrBit f b).Canonical := by
  unfold State.clrBit
  grind [wr]

theorem State.Canonical.satAdd (h : s.Canonical) (f n) : (s.satAdd f n).Canonical := by
  unfold State.satAdd
  grind [wr]

theorem State.Canonical.wrapAdd (h : s.Canonical) (f n) : (s.wrapAdd f n).Canonical := by
  unfold State.wrapAdd
  grind [wr]

theorem State.Canonical.send (h : s.Canonical) (m) : (s.send m).Canonical := by
  unfold State.send
  grind [withSent]

theorem State.Canonical.internalError (h : s.Canonical) : (s.internalError).Canonical := by
  unfold State.internalError
  grind [send, foldl]

theorem State.Canonical.fresh (h : s.Canonical) (w) : (s.fresh w).2.Canonical := h.withFree _

theorem State.Canonical.forget (h : s.Canonical) (own) : (s.forget own).Canonical := h.of_same rfl rfl rfl rfl rfl rfl rfl

theorem State.Canonical.setCxAt (h : s.Canonical) (k c) : (s.setCxAt k c).Canonical := by
  unfold State.setCxAt
  grind [withProc]

theorem State.Canonical.setCx (h : s.Canonical) (u c) : (s.setCx u c).Canonical := by
  unfold State.setCx
  grind [setCxAt]

theorem State.Canonical.latch (h : s.Canonical) (t) : (s.latch t).Canonical := by
  unfold State.latch
  grind [withEv]

theorem State.Canonical.settleLatches (h : s.Canonical) : (s.settleLatches).Canonical := by
  unfold State.settleLatches
  grind [withEv]

theorem State.Canonical.raise (h : s.Canonical) (i) : (s.raise i).Canonical := by
  unfold State.raise
  grind [setBit, latch, foldl]

theorem State.Canonical.unpend (h : s.Canonical) (i) : (s.unpend i).Canonical := by
  unfold State.unpend
  grind [settleLatches, clrBit]

theorem State.Canonical.softRaise (h : s.Canonical) (i) : (s.softRaise i).Canonical := by
  unfold State.softRaise
  grind [raise, satAdd]

theorem State.Canonical.sramWrite (h : s.Canonical) (t a bs) : (s.sramWrite t a bs).Canonical := State.sramWrite_canonical h t a bs

theorem State.Canonical.sramLine (h : s.Canonical) (t line bs poison) : (s.sramLine t line bs poison).Canonical := by
  unfold State.sramLine
  grind [sramWrite, withTrp]

theorem State.Canonical.setTroupe (h : s.Canonical) (t x) : (s.setTroupe t x).Canonical := by
  unfold State.setTroupe
  grind [withTrp]

theorem State.Canonical.setCtx (h : s.Canonical) (k c) : (s.setCtx k c).Canonical := by
  unfold State.setCtx
  grind [withCour]

theorem State.Canonical.writeXRec (h : s.Canonical) (x) : (s.writeXRec x).Canonical := by
  unfold State.writeXRec
  grind [satAdd, wrapAdd, withProc]

/-! ### Parcels of the mesh and the fabric -/

theorem State.Canonical.sendFab (h : s.Canonical) (input p extra) : (s.sendFab input p extra).Canonical := by
  unfold State.sendFab
  grind [send]

theorem State.Canonical.fabMsg (h : s.Canonical) (op dst part fs extra) : (s.fabMsg op dst part fs extra).Canonical := by
  unfold State.fabMsg
  grind [sendFab]

theorem State.Canonical.fabReq (h : s.Canonical) (src part id kind dst target mask marks op x fwd) : (s.fabReq src part id kind dst target mask
    marks op x fwd).Canonical := by
  unfold State.fabReq
  grind [sendFab]

theorem State.Canonical.fabRsp (h : s.Canonical) (dst id status marks fwd x) : (s.fabRsp dst id status marks fwd x).Canonical := by
  unfold State.fabRsp
  grind [sendFab, withSw]

theorem State.Canonical.credsTo (h : s.Canonical) (dev at_ es) : (s.credsTo dev at_ es).Canonical := by
  unfold State.credsTo
  grind [sendFab, foldl]

theorem State.Canonical.credTo (h : s.Canonical) (dev at_ troupe route n) : (s.credTo dev at_ troupe route n).Canonical := by
  unfold State.credTo
  grind [credsTo]

/-! ### The mesh and its credits -/

theorem State.Canonical.ungate (h : s.Canonical) (r) : (s.ungate r).Canonical := by
  unfold State.ungate
  grind [wr]

theorem State.Canonical.inject (h : s.Canonical) (p) : (s.inject p).Canonical := by
  unfold State.inject
  grind [withTrp]

theorem State.Canonical.ledgerAdd (h : s.Canonical) (f) : (s.ledgerAdd f).Canonical := by
  unfold State.ledgerAdd
  grind [withRes]

theorem State.Canonical.tokenAdd (h : s.Canonical) (p c f) : (s.tokenAdd p c f).Canonical := by
  unfold State.tokenAdd
  grind [withRes]

theorem State.Canonical.credBack (h : s.Canonical) (t dst toCtx route n) : (s.credBack t dst toCtx route n).Canonical := by
  unfold State.credBack
  grind [inject, withTrp]

theorem State.Canonical.returnCredits (h : s.Canonical) (t rs) : (s.returnCredits t rs).Canonical := by
  unfold State.returnCredits
  grind [credBack, credsTo, foldl]

theorem State.Canonical.returnCredit (h : s.Canonical) (t src srcRoute) : (s.returnCredit t src srcRoute).Canonical := by
  unfold State.returnCredit
  grind [returnCredits]

theorem State.Canonical.dlvCredit (h : s.Canonical) (t p) : (s.dlvCredit t p).Canonical := by
  unfold State.dlvCredit
  grind [credBack]

theorem State.Canonical.dropTok (h : s.Canonical) (part tok) : (s.dropTok part tok).Canonical := by
  unfold State.dropTok
  grind [tokenAdd]

theorem State.Canonical.freeSlot (h : s.Canonical) (p) : (s.freeSlot p).Canonical := by
  unfold State.freeSlot
  grind [withTrp]

theorem State.Canonical.dropParcel (h : s.Canonical) (p) : (s.dropParcel p).Canonical := by
  unfold State.dropParcel
  grind [withTrp]

theorem State.Canonical.countCancelled (h : s.Canonical) (t n) : (s.countCancelled t n).Canonical := by
  unfold State.countCancelled
  grind [ledgerAdd, satAdd]

theorem State.Canonical.landTok (h : s.Canonical) (p tok) : (s.landTok p tok).Canonical := by
  unfold State.landTok
  grind [tokenAdd]

theorem State.Canonical.ringArrive (h : s.Canonical) (t p x) : (s.ringArrive t p x).Canonical := by
  unfold State.ringArrive
  grind [satAdd, landTok, returnCredit, dropTok, countCancelled, setTroupe, sramLine]

theorem State.Canonical.statusArrive (h : s.Canonical) (t unit status) : (s.statusArrive t unit status).Canonical := by
  unfold State.statusArrive
  grind [setTroupe]

theorem State.Canonical.dlvArrive (h : s.Canonical) (t p x) : (s.dlvArrive t p x).Canonical := by
  unfold State.dlvArrive
  grind [dlvCredit, countCancelled, ledgerAdd, sramLine, statusArrive]

theorem State.Canonical.credArrive (h : s.Canonical) (t pairs) : (s.credArrive t pairs).Canonical := by
  unfold State.credArrive
  grind [setTroupe]

theorem State.Canonical.cancelArrive (h : s.Canonical) (t route unit cue isDlv) : (s.cancelArrive t route unit cue isDlv).Canonical := by
  unfold State.cancelArrive
  grind [setTroupe, dropTok, countCancelled, returnCredits, foldl]

theorem State.Canonical.endWork (h : s.Canonical) (k) : (s.endWork k).Canonical := by
  unfold State.endWork
  grind [forget, setCtx, setCxAt]

theorem State.Canonical.injectDlv (h : s.Canonical) (k it) : (s.injectDlv k it).Canonical := by
  unfold State.injectDlv
  grind [ledgerAdd, inject, setCtx]

theorem State.Canonical.pumpGo (h : s.Canonical) (k fuel) : (s.pumpGo k fuel).Canonical := by
  induction fuel generalizing s with
  | zero => exact h
  | succ fuel ih =>
    unfold State.pumpGo
    grind [setCtx, injectDlv, endWork]

theorem State.Canonical.pump (h : s.Canonical) (k) : (s.pump k).Canonical := by
  unfold State.pump
  grind [pumpGo]

theorem State.Canonical.courierCred (h : s.Canonical) (k t pairs) : (s.courierCred k t pairs).Canonical := by
  unfold State.courierCred
  grind [setCtx, pump, foldl]

theorem State.Canonical.gateLeave (h : s.Canonical) (p pl) : (s.gateLeave p pl).Canonical := by
  unfold State.gateLeave
  grind [sendFab]

theorem State.Canonical.cycleDrop (h : s.Canonical) (t p) : (s.cycleDrop t p).Canonical := by
  unfold State.cycleDrop
  grind [dropTok, countCancelled, dlvCredit, returnCredit]

theorem State.Canonical.leaveTok (h : s.Canonical) (p) : (s.leaveTok p).Canonical := by
  unfold State.leaveTok
  grind [ledgerAdd, tokenAdd]

theorem State.Canonical.eject (h : s.Canonical) (t p) : (s.eject t p).Canonical := by
  unfold State.eject
  grind [ungate, leaveTok, gateLeave, dlvCredit, returnCredit, cycleDrop, dlvArrive, ringArrive, credArrive, courierCred, cancelArrive]

theorem State.Canonical.turned (h : s.Canonical) (r od p) : (s.turned r od p).Canonical := by
  unfold State.turned
  grind [withTrp]

theorem State.Canonical.sealFails (h : s.Canonical) (t r od p) : (s.sealFails t r od p).Canonical := by
  unfold State.sealFails
  grind [freeSlot, dropParcel, raise, satAdd, withTrp]

theorem State.Canonical.takeParcel (h : s.Canonical) (t dir p) : (s.takeParcel t dir p).Canonical := by
  fun_cases State.takeParcel s t dir p
  · exact h.satAdd _ _
  · exact h.eject _ _
  · exact (h.withTrp (by rfl)).inject _

theorem State.Canonical.meshArrive (h : s.Canonical) (t dir flips) : (s.meshArrive t dir flips).Canonical := by
  unfold State.meshArrive
  grind [eject, dropParcel, turned, sealFails, takeParcel, freeSlot]

theorem State.Canonical.hopReturn (h : s.Canonical) (t dir vl) : (s.hopReturn t dir vl).Canonical := by
  unfold State.hopReturn
  grind [withTrp]

/-! ### Units, frames and contexts -/

theorem State.Canonical.noteCond (h : s.Canonical) (p b) : (s.noteCond p b).Canonical := by
  unfold State.noteCond
  grind [withRes]

theorem State.Canonical.cancelOutputs (h : s.Canonical) (t u) : (s.cancelOutputs t u).Canonical := by
  unfold State.cancelOutputs
  grind [inject, foldl]

theorem State.Canonical.stopCEs (h : s.Canonical) (t u st) : (s.stopCEs t u st).Canonical := by
  unfold State.stopCEs
  grind [setCxAt, foldl]

theorem State.Canonical.endTok (h : s.Canonical) (t done k) : (s.endTok t done k).Canonical := by
  unfold State.endTok
  grind [tokenAdd]

theorem State.Canonical.releaseSlots (h : s.Canonical) (t u why) : (s.releaseSlots t u why).Canonical := by
  unfold State.releaseSlots
  grind [setTroupe, endTok, ledgerAdd, returnCredits, foldl]

theorem State.Canonical.settleToks (h : s.Canonical) (t u done) : (s.settleToks t u done).Canonical := by
  unfold State.settleToks
  grind [setTroupe, endTok, foldl]

theorem State.Canonical.rewindSlots (h : s.Canonical) (t u) : (s.rewindSlots t u).Canonical := by
  unfold State.rewindSlots
  grind [setTroupe]

theorem State.Canonical.partialTokens (h : s.Canonical) (t u) : (s.partialTokens t u).Canonical := by
  unfold State.partialTokens
  grind [tokenAdd, foldl]

theorem State.Canonical.completeUnit (h : s.Canonical) (t u) : (s.completeUnit t u).Canonical := by
  unfold State.completeUnit
  grind [setTroupe, settleToks, releaseSlots, partialTokens, noteCond]

theorem State.Canonical.carryAlert (h : s.Canonical) (t u) : (s.carryAlert t u).Canonical := by
  unfold State.carryAlert
  grind [raise, setTroupe]

theorem State.Canonical.cancelOne (h : s.Canonical) (t u st) : (s.cancelOne t u st).Canonical := by
  unfold State.cancelOne
  grind [stopCEs, cancelOutputs, settleToks, releaseSlots, setTroupe]

theorem State.Canonical.cancelUnit (h : s.Canonical) (t u b) : (s.cancelUnit t u b).Canonical := by
  unfold State.cancelUnit
  grind [noteCond, cancelOne, foldl]

theorem State.Canonical.carryOne (h : s.Canonical) (t u) : (s.carryOne t u).Canonical := by
  unfold State.carryOne
  grind [noteCond, cancelOne, stopCEs, cancelOutputs, rewindSlots, setTroupe, satAdd, carryAlert]

theorem State.Canonical.carryUnit (h : s.Canonical) (t u) : (s.carryUnit t u).Canonical := by
  unfold State.carryUnit
  grind [carryOne, foldl]

theorem State.Canonical.releaseUnread (h : s.Canonical) (t u) : (s.releaseUnread t u).Canonical := by
  unfold State.releaseUnread
  grind [setTroupe, ledgerAdd, dropTok, returnCredits, foldl]

theorem State.Canonical.missUnit (h : s.Canonical) (t u k) : (s.missUnit t u k).Canonical := by
  unfold State.missUnit
  grind [satAdd, cancelUnit, noteCond, releaseUnread, cancelOne, setTroupe, carryUnit]

theorem State.Canonical.settleBarrier (h : s.Canonical) (t u id) : (s.settleBarrier t u id).Canonical := by
  fun_cases State.settleBarrier s t u id
  · exact h
  · exact foldl (fun s c h => by dsimp only; split; exacts [h.setCxAt _ _, h]) _ (h.setTroupe _ _)
  · exact h

theorem State.Canonical.startUnit (h : s.Canonical) (t u) : (s.startUnit t u).Canonical := by
  unfold State.startUnit
  extract_lets tr p
  split
  next img x himg hx =>
    split
    · exact h
    split
    · exact h.cancelUnit _ _ _
    split
    · exact h
    split
    · exact h.missUnit _ _ _
    extract_lets mask takers empty s₁ ended s₂ s₃ s₄
    have h₁ : s₁.Canonical := foldl (fun s c h => by split; exacts [h, h.setCxAt _ _]) _ h
    have h₂ : s₂.Canonical := by grind [satAdd]
    have h₄ : s₄.Canonical := by grind [setTroupe, settleBarrier, foldl]
    split
    · exact h₄.completeUnit _ _
    · exact h₄
  next => exact h

theorem State.Canonical.endCE (h : s.Canonical) (t c u) : (s.endCE t c u).Canonical := by
  unfold State.endCE
  extract_lets k s₁ src s₂ s₃
  have h₂ : s₂.Canonical := (h.setCxAt _ _).setTroupe _ _
  have h₃ : s₃.Canonical := foldl (fun _ _ h => h.settleBarrier _ _ _) _ h₂
  split
  · split
    · exact h₃.completeUnit _ _
    · exact h₃
  · exact h₃

theorem State.Canonical.moveTroupe (h : s.Canonical) (t to_) : (s.moveTroupe t to_).Canonical := by
  unfold State.moveTroupe
  grind [wr]

theorem State.Canonical.logicFault (h : s.Canonical) (t) : (s.logicFault t).Canonical := by
  unfold State.logicFault
  grind [raise, moveTroupe, cancelOutputs, cancelUnit, setCxAt, foldl]

theorem State.Canonical.ceRecord (h : s.Canonical) (t c cause detail) : (s.ceRecord t c cause detail).Canonical := by
  unfold State.ceRecord
  grind [setCxAt, writeXRec, raise]

theorem State.Canonical.cutCEs (h : s.Canonical) (t u c) : (s.cutCEs t u c).Canonical := by
  unfold State.cutCEs
  grind [setCxAt, foldl]

theorem State.Canonical.ceException (h : s.Canonical) (t c cause detail) : (s.ceException t c cause detail).Canonical := by
  unfold State.ceException
  grind [logicFault, ceRecord, cancelUnit, cutCEs]

theorem State.Canonical.lateFault (h : s.Canonical) (u cause detail) : (s.lateFault u cause detail).Canonical := by
  unfold State.lateFault
  grind [logicFault, ceRecord]

theorem State.Canonical.exception (h : s.Canonical) (u cause detail) : (s.exception u cause detail).Canonical := by
  unfold State.exception
  grind [ceException, setCxAt, writeXRec, raise, settleLatches]

/-! ### Faults and the issue of an instruction -/

theorem State.Canonical.issued (h : s.Canonical) (u) : (s.issued u).Canonical := by
  unfold State.issued
  grind [withCour]

theorem State.Canonical.advance (h : s.Canonical) (u) : (s.advance u).Canonical := by
  unfold State.advance
  grind [issued, setCx]

theorem issueW_canonical (h : s.Canonical) {u e f extra whole w body} (hbody : (body (s.cx u) s).Canonical) :
    (issueW u e f extra whole w body s).Canonical := by
  unfold issueW
  grind [lateFault, exception, advance, setCx,
    issued, Body.Canonical]

theorem issue_canonical (h : s.Canonical) {u e f extra body} (hbody : (body (s.cx u) s).Canonical) :
    (issue u e f extra body s).Canonical :=
  issueW_canonical h hbody

theorem issueL_canonical (h : s.Canonical) {u e f extra body} (hbody : (body (s.cx u) s).Canonical) :
    (issueL u e f extra body s).Canonical :=
  issueW_canonical h hbody

theorem issueR_canonical (h : s.Canonical) {u e f extra op} : (issueR u e f extra op s).Canonical :=
  issue_canonical h (h.setCx _ _)

theorem issueV_canonical (h : s.Canonical) {u e f extra op} : (issueV u e f extra op s).Canonical :=
  issueL_canonical h (h.setCx _ _)

/-! ### The store: units, frames and channels -/

theorem State.Canonical.setDead (h : s.Canonical) (cw b) : (s.setDead cw b).Canonical := by
  unfold State.setDead
  grind [withStore]

theorem State.Canonical.storeWrite (h : s.Canonical) (a bs) : (s.storeWrite a bs).Canonical := by
  have h := foldl (fun _ c h => h.setDead c false) (wholeCws a bs.length) h
  exact ⟨h.sram, h.live, h.staged, h.slot, h.loc, Memory.wf_store _ _ h.mem, h.regs⟩

theorem State.Canonical.storeZero (h : s.Canonical) (a n) : (s.storeZero a n).Canonical :=
  ⟨h.sram, h.live, h.staged, h.slot, h.loc, Memory.wf_filter _ h.mem, h.regs⟩

theorem State.Canonical.wingsLost (h : s.Canonical) (l) : (s.wingsLost l).Canonical := by
  unfold State.wingsLost
  grind [raise, setBit, withStore]

theorem State.Canonical.frameGone (h : s.Canonical) (u) : (s.frameGone u).Canonical := by
  unfold State.frameGone
  grind [withStore]

theorem State.Canonical.slotWritten (h : s.Canonical) (u) : (s.slotWritten u).Canonical := by
  unfold State.slotWritten
  grind [withStore]

theorem State.Canonical.setRebuild (h : s.Canonical) (ch r) : (s.setRebuild ch r).Canonical := by
  unfold State.setRebuild
  grind [withStore]

theorem State.Canonical.showRebuild (h : s.Canonical) (ch) : (s.showRebuild ch).Canonical := by
  unfold State.showRebuild
  grind [wr]

theorem State.Canonical.startRebuild (h : s.Canonical) (ch) : (s.startRebuild ch).Canonical := by
  unfold State.startRebuild
  grind [setRebuild, wr, showRebuild]

theorem State.Canonical.secondFailure (h : s.Canonical) (ch o rows done) : (s.secondFailure ch o rows done).Canonical := by
  unfold State.secondFailure
  grind [wingsLost]

theorem State.Canonical.channelFailed (h : s.Canonical) (ch rows done) : (s.channelFailed ch rows done).Canonical := by
  unfold State.channelFailed
  grind [setRebuild, raise, startRebuild, wr, secondFailure, wingsLost, withStore]

theorem State.Canonical.rebuildStripe (h : s.Canonical) (off) : (s.rebuildStripe off).Canonical := by
  unfold State.rebuildStripe
  grind [showRebuild, setRebuild]

theorem State.Canonical.rebuildCue (h : s.Canonical) : (s.rebuildCue).Canonical := by
  unfold State.rebuildCue
  grind [showRebuild, setRebuild, foldl]

theorem State.Canonical.channelError (h : s.Canonical) (ch ue) : (s.channelError ch ue).Canonical := by
  unfold State.channelError
  grind [channelFailed, withStore]

theorem State.Canonical.noteUE (h : s.Canonical) (marked) : (s.noteUE marked).Canonical := by
  unfold State.noteUE
  grind [satAdd, raise, withStore]

theorem State.Canonical.putWord (h : s.Canonical) (cw x) : (s.putWord cw x).Canonical := (h.storeMem _ _).setDead _ _

theorem State.Canonical.cwError (h : s.Canonical) (cw e) : (s.cwError cw e).Canonical := by
  unfold State.cwError
  grind [satAdd, channelError, noteUE, setDead, putWord, withStore]

theorem State.Canonical.storeCheck (h : s.Canonical) (a n) : (s.storeCheck a n).Canonical := by
  unfold State.storeCheck
  grind [cwError, withRes, foldl]

theorem State.Canonical.sramError (h : s.Canonical) (t w e) : (s.sramError t w e).Canonical := by
  unfold State.sramError
  grind [satAdd, raise, noteUE, withTrp]

theorem State.Canonical.sramCheck (h : s.Canonical) (t addrs) : (s.sramCheck t addrs).Canonical := by
  unfold State.sramCheck
  grind [sramError, foldl]

theorem State.Canonical.countUE (h : s.Canonical) (t n) : (s.countUE t n).Canonical := by
  unfold State.countUE
  grind [satAdd]

theorem State.Canonical.scrubStore (h : s.Canonical) (off cw bits) : (s.scrubStore off cw bits).Canonical := by
  unfold State.scrubStore
  grind [cwError, withStore, foldl]

theorem execErrorWindowStart_canonical (h : s.Canonical) : Res.Canonical (execErrorWindowStart s) := by
  unfold execErrorWindowStart
  grind [withStore, Res.Canonical]

/-! ### Troupe SRAM and the Prompt Book -/

theorem State.Canonical.recallEdges (h : s.Canonical) (line mask forRead) : (s.recallEdges line mask forRead).Canonical := by
  unfold State.recallEdges
  grind [send, withCoh, foldl]

theorem State.Canonical.passedOn (h : s.Canonical) (i) : (s.passedOn i).Canonical := by
  unfold State.passedOn
  grind [satAdd, withEfh]

theorem State.Canonical.fabric (h : s.Canonical) (q) : (s.fabric q).1.Canonical := by
  unfold State.fabric
  grind [passedOn, fabReq, withEfh]

theorem State.Canonical.forwardMirror (h : s.Canonical) (off) : (s.forwardMirror off).Canonical := by
  unfold State.forwardMirror
  grind [fabReq, withEfh]

theorem State.Canonical.tierPut (h : s.Canonical) (off x m) : (s.tierPut off x m).Canonical := by
  unfold State.tierPut
  grind [storeWrite, rebuildStripe, setDead, withStore, foldl]

theorem State.Canonical.tierMark (h : s.Canonical) (off) : (s.tierMark off).Canonical := by
  unfold State.tierMark
  grind [setDead, foldl]

theorem State.Canonical.tierMasked (h : s.Canonical) (off x mask) : (s.tierMasked off x mask).Canonical := by
  unfold State.tierMasked
  grind [storeWrite, setDead, foldl]

theorem State.Canonical.countOwner (h : s.Canonical) (code) : (s.countOwner code).Canonical := by
  unfold State.countOwner
  grind [satAdd]

theorem State.Canonical.reach (h : s.Canonical) (part p write) : (s.reach part p write).1.Canonical := by
  unfold State.reach
  grind [countOwner]

theorem State.Canonical.haltCtx (h : s.Canonical) (k) : (s.haltCtx k).Canonical := by
  unfold State.haltCtx
  grind [satAdd, forget, setCtx, setCxAt]

theorem State.Canonical.teardown (h : s.Canonical) (p) : (s.teardown p).Canonical := by
  unfold State.teardown
  grind [raise, setBit, haltCtx, cancelUnit, foldl]

/-! ### The home of a line -/

theorem State.Canonical.setDir (h : s.Canonical) (line d) : (s.setDir line d).Canonical := by
  unfold State.setDir
  grind [withCoh]

theorem State.Canonical.lostTo (h : s.Canonical) (part code) : (s.lostTo part code).Canonical := by
  unfold State.lostTo
  grind [teardown]

theorem State.Canonical.winErr (h : s.Canonical) (f) : (s.winErr f).Canonical := by
  unfold State.winErr
  grind [satAdd, raise, withXlt]

theorem State.Canonical.proxySend (h : s.Canonical) (line part kind x mask win) : (s.proxySend line part kind x mask win).Canonical := by
  unfold State.proxySend
  grind [reach, lostTo, winErr, passedOn, fabReq, withEfh]

theorem State.Canonical.tierStart (h : s.Canonical) (line part) : (s.tierStart line part).Canonical := by
  unfold State.tierStart
  grind [proxySend]

theorem State.Canonical.tierData (h : s.Canonical) (line) : (s.tierData line).1.Canonical := by
  unfold State.tierData
  grind [storeCheck, lostTo, withEfh]

theorem State.Canonical.tierWrite (h : s.Canonical) (line part x win) : (s.tierWrite line part x win).Canonical := by
  unfold State.tierWrite
  grind [tierPut, proxySend]

theorem State.Canonical.mirrorLine (h : s.Canonical) (line) : (s.mirrorLine line).Canonical := by
  unfold State.mirrorLine
  grind [forwardMirror]

theorem State.Canonical.post (h : s.Canonical) (m) : (s.post m).Canonical := by
  unfold State.post
  grind [withCoh]

theorem State.Canonical.takeMsg (h : s.Canonical) (m) {t} {x} (e : s.takeMsg m = some (t, x)) : t.Canonical := by
  unfold State.takeMsg at e
  grind [withCoh]

theorem State.Canonical.homeMsg (h : s.Canonical) (code a line r) : (s.homeMsg code a line r).Canonical := by
  unfold State.homeMsg
  grind [post]

theorem State.Canonical.homeData (h : s.Canonical) (code a line x) : (s.homeData code a line x).Canonical := by
  unfold State.homeData
  grind [post]

theorem State.Canonical.edgeMsg (h : s.Canonical) (name g line) : (s.edgeMsg name g line).Canonical := by
  unfold State.edgeMsg
  grind [send]

theorem State.Canonical.edgeData (h : s.Canonical) (g line x ndr) : (s.edgeData g line x ndr).Canonical := by
  unfold State.edgeData
  grind [edgeMsg, send]

theorem State.Canonical.fwdAll (h : s.Canonical) (code line mask r) : (s.fwdAll code line mask r).Canonical := by
  unfold State.fwdAll
  grind [homeMsg, foldl]

theorem State.Canonical.respond (h : s.Canonical) (src id a keep) : (s.respond src id a keep).Canonical := by
  unfold State.respond
  grind [fabRsp, withEfh]

theorem State.Canonical.answer (h : s.Canonical) (line q status x) : (s.answer line q status x).Canonical := by
  unfold State.answer
  grind [respond, homeData, send, withCoh]

theorem State.Canonical.markLine (h : s.Canonical) (line) : (s.markLine line).Canonical := by
  unfold State.markLine
  grind [satAdd, tierMark, proxySend]

theorem State.Canonical.protoLog (h : s.Canonical) (line msg st agent side) : (s.protoLog line msg st agent side).Canonical := by
  unfold State.protoLog
  grind [satAdd, wr]

theorem State.Canonical.sweepEntry (h : s.Canonical) (line g) : (s.sweepEntry line g).Canonical := by
  unfold State.sweepEntry
  grind [markLine, satAdd, setDir]

theorem State.Canonical.sweepLine (h : s.Canonical) (line) : (s.sweepLine line).Canonical := by
  unfold State.sweepLine
  grind [sweepEntry, foldl]

theorem State.Canonical.dropLine (h : s.Canonical) (line) : (s.dropLine line).Canonical := by
  unfold State.dropLine
  grind [withCoh]

theorem State.Canonical.dropWire (h : s.Canonical) (line) : (s.dropWire line).Canonical := by
  unfold State.dropWire
  grind [homeMsg, withCoh, foldl]

theorem State.Canonical.protoError (h : s.Canonical) (line msg st agent side again) :
    (s.protoError line msg st agent side again).Canonical := by
  unfold State.protoError
  extract_lets s₁ s₂ src s₃ d s₄ lost held e q q' s₅
  have h₃ : s₃.Canonical := ((((h.sweepLine _).protoLog _ _ _ _ _).raise _).internalError).withCoh _
  have h₄ : s₄.Canonical := ((h₃.dropLine _).dropWire _).markLine _
  split
  · exact h₄.setDir _ _
  · exact foldl (fun s g h => by split; exacts [h.edgeMsg _ _ _, h]) _ (h₄.setDir _ _)

theorem State.Canonical.entryError (h : s.Canonical) (line agent) : (s.entryError line agent).Canonical := by
  unfold State.entryError
  grind [protoError]

theorem State.Canonical.atomicDo (h : s.Canonical) (line q x) : (s.atomicDo line q x).1.Canonical := by
  unfold State.atomicDo
  grind [wrapAdd, answer]

theorem State.Canonical.intoBuffer (h : s.Canonical) (line d x) : (s.intoBuffer line d x).Canonical := by
  unfold State.intoBuffer
  grind [setDir, mirrorLine, withCoh]

theorem State.Canonical.homeWrite (h : s.Canonical) (line part x win quiet) : (s.homeWrite line part x win quiet).Canonical := by
  unfold State.homeWrite
  grind [tierWrite, mirrorLine]

theorem State.Canonical.finish (h : s.Canonical) (line d q x) : (s.finish line d q x).Canonical := by
  fun_cases State.finish s line d q x <;>
    grind [homeData, setDir, homeMsg, answer, homeWrite, atomicDo, intoBuffer, edgeData, edgeMsg]

theorem State.Canonical.tierReturn (h : s.Canonical) (line) : (s.tierReturn line).Canonical := by
  unfold State.tierReturn
  grind [tierData, winErr, answer, setDir, finish]

theorem State.Canonical.startRead (h : s.Canonical) (line d q) : (s.startRead line d q).Canonical := by
  unfold State.startRead
  grind [finish, tierStart, setDir, tierReturn]

theorem State.Canonical.serveInvalidate (h : s.Canonical) (line d q) : (s.serveInvalidate line d q).Canonical := by
  unfold State.serveInvalidate
  grind [recallEdges, setDir, finish, fwdAll, tierStart, tierReturn]

theorem State.Canonical.serveOwned (h : s.Canonical) (line d q o) : (s.serveOwned line d q o).Canonical := by
  unfold State.serveOwned
  grind [homeMsg, setDir]

theorem State.Canonical.serveBuffered (h : s.Canonical) (line d q) : (s.serveBuffered line d q).Canonical := by
  unfold State.serveBuffered
  grind [setDir, answer, edgeData, mirrorLine, atomicDo, intoBuffer, finish, tierWrite, withCoh]

theorem State.Canonical.serveStable (h : s.Canonical) (line q) : (s.serveStable line q).Canonical := by
  unfold State.serveStable
  grind [finish, setDir, startRead, serveBuffered, serveOwned, recallEdges, homeMsg, serveInvalidate]

theorem State.Canonical.makeRoom (h : s.Canonical) (line) : (s.makeRoom line).1.Canonical := by
  unfold State.makeRoom
  grind [sweepLine, wrapAdd, entryError, serveStable, foldl, foldl_fst]

theorem State.Canonical.makePlace (h : s.Canonical) (line) : (s.makePlace line).1.Canonical := by
  unfold State.makePlace
  grind [setDir, tierWrite, foldl, foldl_fst]

theorem State.Canonical.serve (h : s.Canonical) (line q) : (s.serve line q).Canonical := by
  unfold State.serve
  grind [sweepLine, entryError, setDir, protoError, proxySend, edgeMsg, tierData, finish, makeRoom, makePlace, serveStable, withCoh]

theorem State.Canonical.drain (h : s.Canonical) (fuel line) : (s.drain fuel line).Canonical := by
  induction fuel generalizing s with
  | zero => exact h
  | succ fuel ih =>
    unfold State.drain
    grind [setDir, serve]

theorem State.Canonical.retryWaiting (h : s.Canonical) : (s.retryWaiting).Canonical := by
  unfold State.retryWaiting
  grind [setDir, serve, withCoh, foldl]

theorem State.Canonical.homeDone (h : s.Canonical) (line) : (s.homeDone line).Canonical := by
  unfold State.homeDone
  grind [drain, retryWaiting]

theorem State.Canonical.request (h : s.Canonical) (line q) : (s.request line q).Canonical := by
  unfold State.request
  grind [setDir, homeDone, serve]

theorem State.Canonical.setCopy (h : s.Canonical) (a line c) : (s.setCopy a line c).Canonical := by
  unfold State.setCopy
  grind [withCoh]

theorem State.Canonical.agentMsg (h : s.Canonical) (code a line) : (s.agentMsg code a line).Canonical := by
  unfold State.agentMsg
  grind [post]

theorem State.Canonical.agentData (h : s.Canonical) (code a r line c) : (s.agentData code a r line c).Canonical := by
  unfold State.agentData
  grind [post]

theorem State.Canonical.agentReq (h : s.Canonical) (code a line part) : (s.agentReq code a line part).Canonical := by
  unfold State.agentReq
  grind [post]

theorem State.Canonical.agentError (h : s.Canonical) (a line msg fwd) : (s.agentError a line msg fwd).Canonical := by
  unfold State.agentError
  grind [setCopy, post]

theorem State.Canonical.actFwd (h : s.Canonical) (a line msg r) : (s.actFwd a line msg r).Canonical := by
  unfold State.actFwd
  grind [agentMsg, setCopy, agentData, agentError]

theorem State.Canonical.fwdArrive (h : s.Canonical) (a line msg r) : (s.fwdArrive a line msg r).Canonical := by
  unfold State.fwdArrive
  grind [setCopy, actFwd]

theorem State.Canonical.unpark (h : s.Canonical) (a line) : (s.unpark a line).Canonical := by
  unfold State.unpark
  grind [actFwd, setCopy]

theorem State.Canonical.touchCopy (h : s.Canonical) (a line) : (s.touchCopy a line).Canonical := by
  unfold State.touchCopy
  grind [setCopy, withCoh]

theorem State.Canonical.tell (h : s.Canonical) (tk line kind x) : (s.tell tk line kind x).Canonical := by
  unfold State.tell
  grind [withCoh]

theorem State.Canonical.storeHit (h : s.Canonical) (a line y) : (s.storeHit a line y).Canonical := by
  unfold State.storeHit
  grind [touchCopy, setCopy, tell, mirrorLine]

theorem State.Canonical.storeDone (h : s.Canonical) (a line) : (s.storeDone a line).Canonical := by
  unfold State.storeDone
  grind [storeHit, setCopy]

theorem State.Canonical.replaceCopy (h : s.Canonical) (a line) : (s.replaceCopy a line).Canonical := by
  unfold State.replaceCopy
  grind [unpark, agentMsg, setCopy, agentData]

theorem State.Canonical.cacheRoom (h : s.Canonical) (a line) : (s.cacheRoom a line).1.Canonical := by
  unfold State.cacheRoom
  grind [replaceCopy, foldl, foldl_fst]

theorem State.Canonical.agentDo (h : s.Canonical) (a line part tk st) : (s.agentDo a line part tk st).Canonical := by
  unfold State.agentDo
  grind [setCopy, cacheRoom, agentReq, tell, touchCopy, storeHit]

theorem State.Canonical.retryLater (h : s.Canonical) (a line) : (s.retryLater a line).Canonical := by
  unfold State.retryLater
  grind [agentDo, setCopy, foldl]

theorem State.Canonical.dataArrive (h : s.Canonical) (a line code x) : (s.dataArrive a line code x).Canonical := by
  unfold State.dataArrive
  grind [unpark, retryLater, setCopy, agentError]

theorem State.Canonical.dataMArrive (h : s.Canonical) (a line x) : (s.dataMArrive a line x).Canonical := by
  unfold State.dataMArrive
  grind [retryLater, storeDone, setCopy, agentError]

theorem State.Canonical.gntArrive (h : s.Canonical) (a line) : (s.gntArrive a line).Canonical := by
  unfold State.gntArrive
  grind [retryLater, storeDone, setCopy, agentError]

theorem State.Canonical.takeGot (h : s.Canonical) (tk line kind) : (s.takeGot tk line kind).1.Canonical := by
  unfold State.takeGot
  grind [withCoh]

theorem State.Canonical.access (h : s.Canonical) (line q) : (s.access line q).1.Canonical := by
  unfold State.access
  grind [takeGot, request]

theorem State.Canonical.countHit (h : s.Canonical) (a hit) : (s.countHit a hit).Canonical := by
  unfold State.countHit
  grind [satAdd]

theorem State.Canonical.agentNew (h : s.Canonical) (a line part tk st) : (s.agentNew a line part tk st).Canonical := by
  unfold State.agentNew
  grind [agentDo, countHit]

theorem State.Canonical.agentAccess (h : s.Canonical) (a line part tk st) : (s.agentAccess a line part tk st).1.Canonical := by
  unfold State.agentAccess
  grind [takeGot, agentNew]

theorem State.Canonical.readLine (h : s.Canonical) (who part tk line) : (s.readLine who part tk line).1.Canonical := by
  unfold State.readLine
  grind [agentAccess, access, Res.Canonical]

theorem State.Canonical.atomLine (h : s.Canonical) (line q) : (s.atomLine line q).1.Canonical := by
  unfold State.atomLine
  grind [access]

theorem State.Canonical.writeLine (h : s.Canonical) (who part tk line x marks mask) : (s.writeLine who part tk line x marks mask).1.Canonical := by
  unfold State.writeLine
  grind [agentAccess, access, Res.Canonical]

theorem State.Canonical.hubWrite (h : s.Canonical) (p bs) : (s.hubWrite p bs).Canonical := by
  unfold State.hubWrite
  grind [request]

theorem State.Canonical.hubLine (h : s.Canonical) (off x) : (s.hubLine off x).Canonical := by
  unfold State.hubLine
  grind [request]

theorem State.Canonical.hubPart (h : s.Canonical) (off x mask) : (s.hubPart off x mask).Canonical := by
  unfold State.hubPart
  grind [request]

theorem State.Canonical.beginRead (h : s.Canonical) (who part tk line) : (s.beginRead who part tk line).Canonical := by
  unfold State.beginRead
  grind [agentNew, request]

theorem State.Canonical.readAll (h : s.Canonical) (who part tk lines) : (s.readAll who part tk lines).1.Canonical := by
  unfold State.readAll
  grind [beginRead, withCoh, foldl, foldl_fst]

theorem State.Canonical.hubBytes (h : s.Canonical) (fuel off bs) : (s.hubBytes fuel off bs).Canonical := by
  induction fuel generalizing s off bs with
  | zero => exact h
  | succ fuel ih =>
    unfold State.hubBytes
    grind [hubWrite]

/-! ### Translation -/

theorem State.Canonical.logFault (h : s.Canonical) (p src va write f) : (s.logFault p src va write f).Canonical := by
  unfold State.logFault
  grind [satAdd, wr, raise]

theorem State.Canonical.ctxFault (h : s.Canonical) (k va write status) : (s.ctxFault k va write status).Canonical := by
  unfold State.ctxFault
  grind [setCxAt, wr, satAdd, raise, setCtx]

theorem State.Canonical.tlbFill (h : s.Canonical) (e) : (s.tlbFill e).Canonical := by
  unfold State.tlbFill
  grind [withXlt]

theorem State.Canonical.tlbTouch (h : s.Canonical) (e) : (s.tlbTouch e).Canonical := by
  unfold State.tlbTouch
  grind [withXlt]

theorem State.Canonical.useTlb (h : s.Canonical) (src va acc e) : (s.useTlb src va acc e).1.Canonical := by
  unfold State.useTlb
  grind [logFault, Res.Canonical]

theorem State.Canonical.fillMicro (h : s.Canonical) (c e) : (s.fillMicro c e).Canonical := by
  unfold State.fillMicro
  grind [fresh, withXlt]

theorem State.Canonical.translate (h : s.Canonical) (own src c p va acc) : (s.translate own src c p va acc).1.Canonical := by
  unfold State.translate
  grind [satAdd, logFault, useTlb, fillMicro, tlbTouch, wrapAdd, withXlt, Res.Canonical]

theorem State.Canonical.walkFault (h : s.Canonical) (w f) : (s.walkFault w f).Canonical := by
  unfold State.walkFault
  grind [logFault, ctxFault, withXlt, withRes, foldl]

theorem execTableReadComplete_canonical (h : s.Canonical) (n) : (execTableReadComplete n s).Canonical := by
  unfold execTableReadComplete
  split
  · exact h
  split
  · exact h
  next w hw =>
  extract_lets rest ended
  have hended : ∀ (s : State) r, s.Canonical → (ended s r).Canonical := by
    grind [withXlt, tlbFill, walkFault]
  clear_value ended
  grind [Res.Canonical, access, withXlt]

theorem State.Canonical.restartWalks (h : s.Canonical) : (s.restartWalks).Canonical := by
  unfold State.restartWalks
  grind [forget, withXlt, foldl]

theorem State.Canonical.dropTlb (h : s.Canonical) (p) : (s.dropTlb p).Canonical := by
  unfold State.dropTlb
  grind [restartWalks, withXlt]

theorem State.Canonical.drainOn (h : s.Canonical) (p) : (s.drainOn p).Canonical := by
  unfold State.drainOn
  grind [withXlt]

theorem State.Canonical.tlbi (h : s.Canonical) (h op p count) : (s.tlbi h op p count).Canonical := by
  unfold State.tlbi
  grind [wr, raise, dropTlb, drainOn]

theorem execTlbiAll_canonical (h : s.Canonical) (h) : (execTlbiAll h s).Canonical := by
  unfold execTlbiAll
  grind [tlbi, Res.Canonical]

theorem execTlbiPart_canonical (h : s.Canonical) (h p) : (execTlbiPart h p s).Canonical := by
  unfold execTlbiPart
  grind [tlbi, Res.Canonical]

theorem execTlbiVa_canonical (h : s.Canonical) (h p count) : (execTlbiVa h p count s).Canonical := by
  unfold execTlbiVa
  grind [tlbi, Res.Canonical]

theorem execTlbiIpa_canonical (h : s.Canonical) (h p count) : (execTlbiIpa h p count s).Canonical := by
  unfold execTlbiIpa
  grind [tlbi, Res.Canonical]

theorem execTlbiComplete_canonical (h : s.Canonical) : (execTlbiComplete s).Canonical := by
  unfold execTlbiComplete
  grind [raise, wr, Res.Canonical]

/-! ### Transfers to and from the store -/

theorem State.Canonical.keepAcc (h : s.Canonical) (own x) : (s.keepAcc own x).Canonical := by
  unfold State.keepAcc
  grind [withXlt]

theorem State.Canonical.endAcc {q : State × LRes} (h : q.1.Canonical) (own) : (State.endAcc own q).1.Canonical := by
  unfold State.endAcc
  split
  · exact h
  · exact h.withXlt _

theorem State.Canonical.readOn (h : s.Canonical) (who own part x) : (s.readOn who own part x).1.Canonical := by
  unfold State.readOn
  grind [readLine, fabric, countHit, lostTo, Res.Canonical]

theorem State.Canonical.writeOn (h : s.Canonical) (who own part x d marks mask) : (s.writeOn who own part x d marks mask).1.Canonical := by
  unfold State.writeOn
  grind [writeLine, fabric, countHit, lostTo, Res.Canonical]

theorem State.Canonical.checkPga (h : s.Canonical) (own part addr kind p write) : (s.checkPga own part addr kind p write).1.Canonical := by
  unfold State.checkPga
  grind [reach, keepAcc]

theorem State.Canonical.readPga (h : s.Canonical) (who own part p) : (s.readPga who own part p).1.Canonical := by
  unfold State.readPga
  grind [endAcc, readOn, checkPga, Res.Canonical]

theorem State.Canonical.writePga (h : s.Canonical) (who own part p x marks mask) : (s.writePga who own part p x marks mask).1.Canonical := by
  unfold State.writePga
  grind [endAcc, writeOn, checkPga, Res.Canonical]

theorem State.Canonical.checkVa (h : s.Canonical) (own src c part va acc) : (s.checkVa own src c part va acc).1.Canonical := by
  unfold State.checkVa
  grind [translate, checkPga]

theorem State.Canonical.countPass (h : s.Canonical) (c who began) : (s.countPass c who began).Canonical := by
  unfold State.countPass
  grind [countHit]

theorem State.Canonical.readVa (h : s.Canonical) (src c alloc own part va) : (s.readVa src c alloc own part va).1.Canonical := by
  unfold State.readVa
  grind [checkVa, endAcc, readOn, countPass, Res.Canonical]

theorem State.Canonical.writeVa (h : s.Canonical) (src c alloc own part va x marks mask) : (s.writeVa src c alloc own part va x marks
    mask).1.Canonical := by
  unfold State.writeVa
  grind [checkVa, endAcc, writeOn, countPass, Res.Canonical]

theorem State.Canonical.sramPut (h : s.Canonical) (t a x m) : (s.sramPut t a x m).Canonical := by
  unfold State.sramPut
  grind [sramWrite, withTrp, foldl]

theorem State.Canonical.pushGop (h : s.Canonical) (u x g regs) : (s.pushGop u x g regs).Canonical := by
  unfold State.pushGop
  grind [setCx, withTrp]

theorem gmemIssue_canonical (h : s.Canonical) (u f kind x) : (gmemIssue u f kind x s).Canonical := by
  unfold gmemIssue
  grind [setCx, pushGop, Body.Canonical]

theorem execGld_canonical (h : s.Canonical) (u f) : (execGld u f s).Canonical :=
  issue_canonical h (by grind [gmemIssue_canonical, Body.Canonical])

theorem execGst_canonical (h : s.Canonical) (u f) : (execGst u f s).Canonical :=
  issue_canonical h (by grind [gmemIssue_canonical, Body.Canonical])

theorem execGq_canonical (h : s.Canonical) (u f) : (execGq u f s).Canonical :=
  issue_canonical h (by grind [setCx, Body.Canonical])

theorem State.Canonical.setGop (h : s.Canonical) (g) : (s.setGop g).Canonical := by
  unfold State.setGop
  grind [withTrp]

theorem State.Canonical.freePool (h : s.Canonical) (g) : (s.freePool g).Canonical := by
  unfold State.freePool
  grind [endWork]

theorem State.Canonical.endGop (h : s.Canonical) (g status upd regs) : (s.endGop g status upd regs).Canonical := by
  unfold State.endGop
  grind [freePool, forget, setCxAt, withTrp]

theorem State.Canonical.poolFor (h : s.Canonical) (g) {t} {x} (e : s.poolFor g = some (t, x)) : t.Canonical := by
  unfold State.poolFor at e
  grind [setGop, setCxAt]

theorem State.Canonical.gmemGo (h : s.Canonical) (c fuel g) : (s.gmemGo c fuel g).Canonical := by
  induction fuel generalizing s g with
  | zero => exact h.setGop g
  | succ fuel ih =>
    unfold State.gmemGo
    grind [endGop, setGop, readVa, writeVa, sramCheck, sramPut, countUE, foldl]

theorem State.Canonical.gmemNext (h : s.Canonical) (t c n) : (s.gmemNext t c n).Canonical := by
  unfold State.gmemNext
  grind [endGop, poolFor, gmemGo]

theorem atomIssue_canonical (h : s.Canonical) (u f minor x) : (atomIssue u f minor x s).Canonical := by
  unfold atomIssue
  grind [pushGop, Body.Canonical]

theorem execAtomAadd_canonical (h : s.Canonical) (u f) : (execAtomAadd u f s).Canonical :=
  issue_canonical h (by grind [atomIssue_canonical, Body.Canonical])

theorem execAmin_canonical (h : s.Canonical) (u f) : (execAmin u f s).Canonical :=
  issue_canonical h (by grind [atomIssue_canonical, Body.Canonical])

theorem execAmax_canonical (h : s.Canonical) (u f) : (execAmax u f s).Canonical :=
  issue_canonical h (by grind [atomIssue_canonical, Body.Canonical])

theorem execAtomAand_canonical (h : s.Canonical) (u f) : (execAtomAand u f s).Canonical :=
  issue_canonical h (by grind [atomIssue_canonical, Body.Canonical])

theorem execAtomAor_canonical (h : s.Canonical) (u f) : (execAtomAor u f s).Canonical :=
  issue_canonical h (by grind [atomIssue_canonical, Body.Canonical])

theorem execAtomAxor_canonical (h : s.Canonical) (u f) : (execAtomAxor u f s).Canonical :=
  issue_canonical h (by grind [atomIssue_canonical, Body.Canonical])

theorem execAswap_canonical (h : s.Canonical) (u f) : (execAswap u f s).Canonical :=
  issue_canonical h (by grind [atomIssue_canonical, Body.Canonical])

theorem execAcas_canonical (h : s.Canonical) (u f) : (execAcas u f s).Canonical :=
  issue_canonical h (by grind [atomIssue_canonical, Body.Canonical])

theorem execAcas128_canonical (h : s.Canonical) (u f) : (execAcas128 u f s).Canonical :=
  issue_canonical h (by grind [atomIssue_canonical, Body.Canonical])

theorem State.Canonical.endAtom (h : s.Canonical) (g status old) : (s.endAtom g status old).Canonical := by
  unfold State.endAtom
  grind [endGop]

theorem State.Canonical.atomOn (h : s.Canonical) (g p w) : (s.atomOn g p w).Canonical := by
  unfold State.atomOn
  grind [atomLine, endAtom, fabric, lostTo]

theorem State.Canonical.countAtom (h : s.Canonical) (c began x) : (s.countAtom c began x).Canonical := by
  unfold State.countAtom
  grind [countHit]

theorem State.Canonical.atomVa (h : s.Canonical) (g c) : (s.atomVa g c).Canonical := by
  unfold State.atomVa
  grind [checkVa, endAtom, atomOn, countAtom]

theorem State.Canonical.atomPga (h : s.Canonical) (g) : (s.atomPga g).Canonical := by
  unfold State.atomPga
  grind [atomOn, checkPga, endAtom]

theorem execAtomComplete_canonical (h : s.Canonical) (u n) : (execAtomComplete u n s).Canonical := by
  unfold execAtomComplete
  grind [atomPga, endAtom, poolFor, atomVa, Res.Canonical]

/-! ### Hints, migration and the scrub -/

theorem State.Canonical.setUnit (h : s.Canonical) (u x) : (s.setUnit u x).Canonical := by
  unfold State.setUnit
  grind [withStore]

theorem State.Canonical.demote (h : s.Canonical) (u) : (s.demote u).Canonical := by
  unfold State.demote
  grind [setUnit, wrapAdd, frameGone]

theorem State.Canonical.promote (h : s.Canonical) (u f) : (s.promote u f).Canonical := by
  unfold State.promote
  grind [setUnit]

theorem State.Canonical.promoteWaiters (h : s.Canonical) (fuel) : (s.promoteWaiters fuel).Canonical := by
  induction fuel generalizing s with
  | zero => exact h
  | succ fuel ih =>
    unfold State.promoteWaiters
    grind [promote]

theorem State.Canonical.refill (h : s.Canonical) : (s.refill).Canonical := by
  unfold State.refill
  grind [promoteWaiters]

theorem State.Canonical.seek (h : s.Canonical) (u hint) {t} {x} (e : s.seek u hint = some (t, x)) : t.Canonical := by
  unfold State.seek at e
  grind [promote, satAdd, setUnit, refill, demote]

theorem State.Canonical.seekAgain (h : s.Canonical) (u) : (s.seekAgain u).Canonical := by
  unfold State.seekAgain
  grind [seek, setUnit]

theorem State.Canonical.applyHint (h : s.Canonical) (u hint mirror) : (s.applyHint u hint mirror).Canonical := by
  unfold State.applyHint
  grind [setUnit, demote, refill, seek, HintStep.Canonical]

theorem State.Canonical.setJob (h : s.Canonical) (j) : (s.setJob j).Canonical := by
  unfold State.setJob
  grind [withStore]

theorem State.Canonical.mirrorUnit (h : s.Canonical) (q u) : (s.mirrorUnit q u).Canonical := by
  unfold State.mirrorUnit
  grind [fabReq, foldl]

theorem State.Canonical.sendCopy (h : s.Canonical) (u) : (s.sendCopy u).Canonical := by
  unfold State.sendCopy
  grind [mirrorUnit, withEfh]

theorem State.Canonical.hintGo (h : s.Canonical) (fuel) : (s.hintGo fuel).Canonical := by
  induction fuel generalizing s with
  | zero => exact h
  | succ fuel ih =>
    unfold State.hintGo
    split
    · exact h
    next j _ =>
    have hstep := h.applyHint j.next j.hint j.mirror
    grind [setJob, setUnit, sendCopy, HintStep.Canonical]

theorem State.Canonical.hintSettle (h : s.Canonical) : (s.hintSettle).Canonical := by
  unfold State.hintSettle
  grind [hintGo, wr, withStore]

theorem State.Canonical.goHint (h : s.Canonical) (h) : (s.goHint h).Canonical := by
  unfold State.goHint
  grind [wr, hintSettle, setJob]

theorem execStmHintGo_canonical (h : s.Canonical) (h first count hint mirror) : (execStmHintGo h first count hint mirror s).Canonical := by
  unfold execStmHintGo
  grind [wr, goHint, Res.Canonical]

theorem execMigrationComplete_canonical (h : s.Canonical) (u) : (execMigrationComplete u s).Canonical := by
  unfold execMigrationComplete
  grind [hintSettle, wrapAdd, setUnit, rebuildStripe, slotWritten, seekAgain, refill, retryWaiting, foldl, Res.Canonical]

theorem execStageOnlyZeroed_canonical (h : s.Canonical) : (execStageOnlyZeroed s).Canonical := by
  unfold execStageOnlyZeroed
  grind [wr, Res.Canonical]

theorem State.Canonical.takeGib (h : s.Canonical) (old) : (s.takeGib old).Canonical := by
  unfold State.takeGib
  grind [storeZero, wr, seekAgain, setUnit, demote, refill, withCoh, foldl]

theorem execChannelFailed_canonical (h : s.Canonical) (ch half done) : (execChannelFailed ch half done s).Canonical := by
  unfold execChannelFailed
  grind [channelFailed, Res.Canonical]

theorem execRebuildComplete_canonical (h : s.Canonical) (ch) : (execRebuildComplete ch s).Canonical := by
  unfold execRebuildComplete
  grind [wr, setRebuild, raise, Res.Canonical]

theorem State.Canonical.startCopyback (h : s.Canonical) (ch) : (s.startCopyback ch).Canonical := by
  unfold State.startCopyback
  grind [setRebuild, wr, showRebuild, withStore]

theorem execCopybackComplete_canonical (h : s.Canonical) (ch) : (execCopybackComplete ch s).Canonical := by
  unfold execCopybackComplete
  grind [wr, withStore, Res.Canonical]

theorem State.Canonical.loftCmd (h : s.Canonical) (h op i endCue) : (s.loftCmd h op i endCue).Canonical := by
  unfold State.loftCmd
  grind [wr, fabMsg, withStore]

theorem execLend_canonical (h : s.Canonical) (h i) : (execLend h i s).Canonical := by
  unfold execLend
  grind [loftCmd, Res.Canonical]

theorem execNotice_canonical (h : s.Canonical) (h i endCue) : (execNotice h i endCue s).Canonical := by
  unfold execNotice
  grind [loftCmd, Res.Canonical]

theorem execRelease_canonical (h : s.Canonical) (h w) : (execRelease h w s).Canonical := by
  unfold execRelease
  grind [loftCmd, Res.Canonical]

theorem execLoanMsg_canonical (h : s.Canonical) (src m) : (execLoanMsg src m s).Canonical := by
  unfold execLoanMsg
  grind [fabMsg, wr, raise, withStore, Res.Canonical]

theorem State.Canonical.takeLoans (h : s.Canonical) : (s.takeLoans).Canonical := by
  unfold State.takeLoans
  grind [wr, withStore, foldl]

theorem State.Canonical.endLend (h : s.Canonical) (i) : (s.endLend i).Canonical := ((h.storeZero _ _).withCohStore _ (by rfl)).wr _ _

theorem State.Canonical.endBorrow (h : s.Canonical) (w) : (s.endBorrow w).Canonical := by
  unfold State.endBorrow
  grind [wr, raise, withStore]

theorem execLoanEnd_canonical (h : s.Canonical) (lender i) : (execLoanEnd lender i s).Canonical := by
  unfold execLoanEnd
  grind [endLend, endBorrow, Res.Canonical]

theorem execLoanZeroingDone_canonical (h : s.Canonical) (i) : (execLoanZeroingDone i s).Canonical := by
  unfold execLoanZeroingDone
  grind [wr, Res.Canonical]

theorem State.Canonical.mirrorPut (h : s.Canonical) (u k at_ bs marks) : (s.mirrorPut u k at_ bs marks).Canonical := by
  unfold State.mirrorPut
  grind [withStore, foldl]

theorem execMirrorWr_canonical (h : s.Canonical) (src id unit step m) : (execMirrorWr src id unit step m s).Canonical := by
  unfold execMirrorWr
  grind [respond, mirrorPut, send, Res.Canonical]

theorem State.Canonical.copyAnswered (h : s.Canonical) (u ok) : (s.copyAnswered u ok).Canonical := by
  unfold State.copyAnswered
  grind [hintSettle, setUnit, setJob]

theorem State.Canonical.takeMirror (h : s.Canonical) (oldEn oldPartner) : (s.takeMirror oldEn oldPartner).Canonical := by
  unfold State.takeMirror
  grind [sendCopy, foldl]

/-! ### Messages of the coherence protocol -/

theorem State.Canonical.reqArrive (h : s.Canonical) (code a line part) : (s.reqArrive code a line part).Canonical := by
  unfold State.reqArrive
  grind [takeMsg, request]

theorem execRdS_canonical (h : s.Canonical) (a line part) : (execRdS a line part s).Canonical := by
  unfold execRdS
  grind [reqArrive, Res.Canonical]

theorem execRdX_canonical (h : s.Canonical) (a line part) : (execRdX a line part s).Canonical := by
  unfold execRdX
  grind [reqArrive, Res.Canonical]

theorem execUpg_canonical (h : s.Canonical) (a line part) : (execUpg a line part s).Canonical := by
  unfold execUpg
  grind [reqArrive, Res.Canonical]

theorem execRdOnce_canonical (h : s.Canonical) (r line part) : (execRdOnce r line part s).Canonical := by
  unfold execRdOnce
  grind [request, Res.Canonical]

theorem execWrLine_canonical (h : s.Canonical) (r line part x marks) : (execWrLine r line part x marks s).Canonical := by
  unfold execWrLine
  grind [request, Res.Canonical]

theorem execWrPart_canonical (h : s.Canonical) (r line part mask x) : (execWrPart r line part mask x s).Canonical := by
  unfold execWrPart
  grind [request, Res.Canonical]

theorem execCohAtomic_canonical (h : s.Canonical) (r line part off minor wide8 ta rm srw opnd cmp) : (execCohAtomic r line part off minor wide8 ta
    rm srw opnd cmp s).Canonical := by
  unfold execCohAtomic
  grind [request, Res.Canonical]

theorem execTierDataReturn_canonical (h : s.Canonical) (line) : (execTierDataReturn line s).Canonical := by
  unfold execTierDataReturn
  grind [homeDone, tierReturn, Res.Canonical]

theorem State.Canonical.rspArrive (h : s.Canonical) (m) {act} (hact : ∀ s : State, s.Canonical → (act s).Canonical) : (s.rspArrive m
    act).Canonical := by
  unfold State.rspArrive
  grind [takeMsg, sweepLine, entryError, protoError, homeDone]

theorem State.Canonical.ackInv (h : s.Canonical) (line a) : (s.ackInv line a).Canonical := by
  unfold State.ackInv
  grind [finish, setDir]

theorem State.Canonical.holderGone (h : s.Canonical) (line a) : (s.holderGone line a).Canonical := by
  unfold State.holderGone
  grind [setDir]

theorem State.Canonical.ownerDone (h : s.Canonical) (line) : (s.ownerDone line).Canonical := by
  unfold State.ownerDone
  grind [tierWrite, setDir, finish]

theorem State.Canonical.onceDone (h : s.Canonical) (line) : (s.onceDone line).Canonical := by
  unfold State.onceDone
  grind [finish]

theorem execAckI_canonical (h : s.Canonical) (a line err) : (execAckI a line err s).Canonical := by
  unfold execAckI
  grind [rspArrive, ackInv, holderGone, setDir, protoError, Res.Canonical]

theorem execAckID_canonical (h : s.Canonical) (a m) : (execAckID a m s).Canonical := by
  unfold execAckID
  grind [rspArrive, setDir, ownerDone, protoError, Res.Canonical]

theorem execAckSD_canonical (h : s.Canonical) (a m) : (execAckSD a m s).Canonical := by
  unfold execAckSD
  grind [rspArrive, setDir, ownerDone, protoError, Res.Canonical]

theorem execAckKeep_canonical (h : s.Canonical) (a m) : (execAckKeep a m s).Canonical := by
  unfold execAckKeep
  grind [rspArrive, onceDone, setDir, protoError, Res.Canonical]

theorem execEvict_canonical (h : s.Canonical) (a m) : (execEvict a m s).Canonical := by
  unfold execEvict
  grind [rspArrive, homeMsg, setDir, holderGone, Res.Canonical]

theorem execWbData_canonical (h : s.Canonical) (a line x marks) : (execWbData a line x marks s).Canonical := by
  unfold execWbData
  grind [rspArrive, setDir, homeMsg, tierWrite, holderGone, protoError, Res.Canonical]

theorem execDataHome_canonical (h : s.Canonical) (a line x marks) : (execDataHome a line x marks s).Canonical := by
  unfold execDataHome
  grind [rspArrive, ownerDone, setDir, protoError, Res.Canonical]

theorem execDataOnce_canonical (h : s.Canonical) (r line x marks) : (execDataOnce r line x marks s).Canonical := by
  unfold execDataOnce
  grind [rspArrive, onceDone, setDir, takeMsg, withCoh, Res.Canonical]

theorem execDataAtom_canonical (h : s.Canonical) (r line old status) : (execDataAtom r line old status s).Canonical := by
  unfold execDataAtom
  grind [takeMsg, withCoh, Res.Canonical]

theorem State.Canonical.fwdTaken (h : s.Canonical) (code a line r) : (s.fwdTaken code a line r).Canonical := by
  unfold State.fwdTaken
  grind [takeMsg, fwdArrive]

theorem execSnpShr_canonical (h : s.Canonical) (a line r) : (execSnpShr a line r s).Canonical := by
  unfold execSnpShr
  grind [fwdTaken, Res.Canonical]

theorem execSnpInv_canonical (h : s.Canonical) (a line r nodata) : (execSnpInv a line r nodata s).Canonical := by
  unfold execSnpInv
  grind [fwdTaken, Res.Canonical]

theorem execSnpInvHome_canonical (h : s.Canonical) (a line r) : (execSnpInvHome a line r s).Canonical := by
  unfold execSnpInvHome
  grind [fwdTaken, Res.Canonical]

theorem execSnpOnce_canonical (h : s.Canonical) (a line r) : (execSnpOnce a line r s).Canonical := by
  unfold execSnpOnce
  grind [fwdTaken, Res.Canonical]

theorem execSnpShrHome_canonical (h : s.Canonical) (a line r) : (execSnpShrHome a line r s).Canonical := by
  unfold execSnpShrHome
  grind [fwdTaken, Res.Canonical]

theorem State.Canonical.datTaken (h : s.Canonical) (code a line x marks) {act} (hact : ∀ s : State, s.Canonical → (act s).Canonical) : (s.datTaken
    code a line x marks act).Canonical := by
  unfold State.datTaken
  grind [takeMsg]

theorem execAgentLoad_canonical (h : s.Canonical) (a line) : (execAgentLoad a line s).Canonical := by
  unfold execAgentLoad
  grind [agentNew, Res.Canonical]

theorem execAgentStore_canonical (h : s.Canonical) (a line mask x) : (execAgentStore a line mask x s).Canonical := by
  unfold execAgentStore
  grind [agentNew, Res.Canonical]

theorem execAgentReplacement_canonical (h : s.Canonical) (a line) : (execAgentReplacement a line s).Canonical := by
  unfold execAgentReplacement
  grind [replaceCopy, Res.Canonical]

theorem execHoldEnd_canonical (h : s.Canonical) (a line) : (execHoldEnd a line s).Canonical := by
  unfold execHoldEnd
  grind [unpark, setCopy, Res.Canonical]

theorem State.Canonical.window (h : s.Canonical) (g hpa write) : (s.window g hpa write).1.Canonical := by
  fun_cases State.window s g hpa write <;> grind [reach]

theorem State.Canonical.poisonRead (h : s.Canonical) (g hpa) : (s.poisonRead g hpa).Canonical := by
  unfold State.poisonRead
  grind [send]

theorem State.Canonical.edgeRead (h : s.Canonical) (g hpa mv) : (s.edgeRead g hpa mv).Canonical := by
  unfold State.edgeRead
  grind [poisonRead, winErr, window, request]

theorem execMemrd_canonical (h : s.Canonical) (g hpa mv) : (execMemrd g hpa mv s).Canonical := by
  unfold execMemrd
  grind [edgeRead, Res.Canonical]

theorem execMeminv_canonical (h : s.Canonical) (g hpa mv) : (execMeminv g hpa mv s).Canonical := by
  unfold execMeminv
  grind [edgeRead, Res.Canonical]

theorem State.Canonical.edgeWrite (h : s.Canonical) (g hpa kind mv mask x poison) : (s.edgeWrite g hpa kind mv mask x poison).Canonical := by
  unfold State.edgeWrite
  grind [send, winErr, window, homeWrite, tierData, proxySend, edgeMsg, request]

theorem execMemwr_canonical (h : s.Canonical) (g hpa mv x poison) : (execMemwr g hpa mv x poison s).Canonical := by
  unfold execMemwr
  grind [edgeWrite, Res.Canonical]

theorem execMemwrptl_canonical (h : s.Canonical) (g hpa mv mask x poison) : (execMemwrptl g hpa mv mask x poison s).Canonical := by
  unfold execMemwrptl
  grind [edgeWrite, Res.Canonical]

theorem State.Canonical.birspTake (h : s.Canonical) (line g kind) : (s.birspTake line g kind).Canonical := by
  unfold State.birspTake
  grind [edgeMsg, setDir, homeDone]

theorem execBirsp_canonical (h : s.Canonical) (g line kind) : (execBirsp g line kind s).Canonical := by
  unfold execBirsp
  grind [sweepLine, homeDone, entryError, birspTake, protoError, Res.Canonical]

theorem execBiconflict_canonical (h : s.Canonical) (g line) : (execBiconflict g line s).Canonical := by
  unfold execBiconflict
  grind [edgeMsg, Res.Canonical]

theorem execOtherM2sOpcode_canonical (h : s.Canonical) (g hpa write) : (execOtherM2sOpcode g hpa write s).Canonical := by
  unfold execOtherM2sOpcode
  grind [winErr, send, poisonRead, Res.Canonical]

theorem State.Canonical.edgeLost (h : s.Canonical) (g) : (s.edgeLost g).Canonical := by
  unfold State.edgeLost
  grind [raise, wr, satAdd, markLine, birspTake, foldl]

theorem execBiTimeout_canonical (h : s.Canonical) (g) : (execBiTimeout g s).Canonical := by
  unfold execBiTimeout
  grind [edgeLost, satAdd, Res.Canonical]

theorem execEdgeAgentLost_canonical (h : s.Canonical) (g) : (execEdgeAgentLost g s).Canonical := by
  unfold execEdgeAgentLost
  grind [wr, edgeLost, withXlt, Res.Canonical]

theorem execAgentSweepComplete_canonical (h : s.Canonical) (g) : (execAgentSweepComplete g s).Canonical := by
  unfold execAgentSweepComplete
  grind [homeDone, sweepEntry, wr, foldl, Res.Canonical]

theorem State.Canonical.cohRearm (h : s.Canonical) (h n) : (s.cohRearm h n).Canonical := by
  unfold State.cohRearm
  grind [wr]

theorem execCohAgentRearm_canonical (h : s.Canonical) (h n) : (execCohAgentRearm h n s).Canonical := by
  unfold execCohAgentRearm
  grind [cohRearm, Res.Canonical]

theorem execHdmDecoderCommit_canonical (h : s.Canonical) (g k base size ways) : (execHdmDecoderCommit g k base size ways s).Canonical := by
  unfold execHdmDecoderCommit
  grind [withXlt, Res.Canonical]

/-! ### Work orders -/

theorem State.Canonical.setOrder (h : s.Canonical) (o) : (s.setOrder o).Canonical := by
  unfold State.setOrder
  grind [withOrd]

theorem State.Canonical.dropOrder (h : s.Canonical) (o) : (s.dropOrder o).Canonical := by
  unfold State.dropOrder
  grind [withOrd]

theorem State.Canonical.reserveSlot (h : s.Canonical) (q) {t} (e : s.reserveSlot q = some t) : t.Canonical := by
  unfold State.reserveSlot at e
  grind [wrapAdd]

theorem State.Canonical.record (h : s.Canonical) (o status info pos final) : (s.record o status info pos final).Canonical := by
  unfold State.record
  grind [internalError, hubWrite, wr, wrapAdd, latch]

theorem State.Canonical.complete (h : s.Canonical) (o status info) : (s.complete o status info).Canonical := by
  unfold State.complete
  grind [record, dropOrder]

/-! ### The Efhal fabric -/

theorem State.Canonical.passOn (h : s.Canonical) (entry kind src part id target mask marks op x) : (s.passOn entry kind src part id target mask
    marks op x).Canonical := by
  unfold State.passOn
  grind [fabReq, passedOn]

theorem State.Canonical.serveFabric (h : s.Canonical) (kind src part id p fwd q op) : (s.serveFabric kind src part id p fwd q op).Canonical := by
  unfold State.serveFabric
  grind [respond, countOwner, passOn, request]

theorem execFabricRd_canonical (h : s.Canonical) (src part id line fwd) : (execFabricRd src part id line fwd s).Canonical := by
  unfold execFabricRd
  grind [serveFabric, Res.Canonical]

theorem execFabricWr_canonical (h : s.Canonical) (src part id line x marks fwd) : (execFabricWr src part id line x marks fwd s).Canonical := by
  unfold execFabricWr
  grind [serveFabric, Res.Canonical]

theorem execFabricWrPart_canonical (h : s.Canonical) (src part id line mask x fwd) : (execFabricWrPart src part id line mask x fwd s).Canonical :=
    by
  unfold execFabricWrPart
  grind [serveFabric, Res.Canonical]

theorem execFabricAtom_canonical (h : s.Canonical) (src part id line off minor wide8 ta opnd cmp fwd) : (execFabricAtom src part id line off minor
    wide8 ta opnd cmp fwd s).Canonical := by
  unfold execFabricAtom
  grind [respond, serveFabric, Res.Canonical]

theorem execFabricRsp_canonical (h : s.Canonical) (src id status marks data fwd) : (execFabricRsp src id status marks data fwd s).Canonical := by
  unfold execFabricRsp
  grind [lostTo, winErr, copyAnswered, withEfh, Res.Canonical]

theorem State.Canonical.resend (h : s.Canonical) (q) : (s.resend q).Canonical := by
  unfold State.resend
  grind [mirrorUnit, fabReq]

theorem State.Canonical.resendTo (h : s.Canonical) (d) : (s.resendTo d).Canonical := by
  unfold State.resendTo
  grind [resend, foldl]

theorem execFabricParcel_canonical (h : s.Canonical) (p) : (execFabricParcel p s).Canonical := by
  unfold execFabricParcel
  grind [credTo, inject, ledgerAdd, Res.Canonical]

theorem State.Canonical.outCredit (h : s.Canonical) (dev troupe route) : (s.outCredit dev troupe route).Canonical := by
  unfold State.outCredit
  grind [setTroupe]

theorem execFabricCred_canonical (h : s.Canonical) (src entries) : (execFabricCred src entries s).Canonical := by
  unfold execFabricCred
  grind [outCredit, foldl, Res.Canonical]

theorem State.Canonical.recallRange (h : s.Canonical) (base size) : (s.recallRange base size).1.Canonical := by
  unfold State.recallRange
  grind [request, foldl, foldl_fst]

theorem State.Canonical.ownMsg (h : s.Canonical) (code src part id region epoch fields fwd) : (s.ownMsg code src part id region epoch fields
    fwd).Canonical := by
  unfold State.ownMsg
  grind [sendFab]

theorem State.Canonical.sendOwner (h : s.Canonical) (o code fields) : (s.sendOwner o code fields).Canonical := by
  unfold State.sendOwner
  grind [complete, setOrder, ownMsg, withEfh]

theorem State.Canonical.ownerOrder (h : s.Canonical) (n op clean code fields) : (s.ownerOrder n op clean code fields).Canonical := by
  unfold State.ownerOrder
  grind [setOrder, recallRange, sendOwner]

theorem execOffer_canonical (h : s.Canonical) (n) : (execOffer n s).Canonical := by
  unfold execOffer
  grind [ownerOrder, Res.Canonical]

theorem execAccept_canonical (h : s.Canonical) (n) : (execAccept n s).Canonical := by
  unfold execAccept
  grind [ownerOrder, Res.Canonical]

theorem execPublish_canonical (h : s.Canonical) (n) : (execPublish n s).Canonical := by
  unfold execPublish
  grind [ownerOrder, Res.Canonical]

theorem State.Canonical.grant (h : s.Canonical) (dev kind part id region status epoch) : (s.grant dev kind part id region status epoch).Canonical
    := by
  unfold State.grant
  grind [fabMsg]

theorem State.Canonical.passMsg (h : s.Canonical) (i fwd code src part id epoch fields) {refuse} (hrefuse : ∀ s : State, s.Canonical → (refuse
    s).Canonical) : (s.passMsg i fwd code src part id epoch fields refuse).Canonical := by
  unfold State.passMsg
  grind [passedOn, ownMsg]

theorem execOfferMsg_canonical (h : s.Canonical) (src part id region epoch rdev rpart fwd) : (execOfferMsg src part id region epoch rdev rpart fwd
    s).Canonical := by
  unfold execOfferMsg
  grind [grant, passMsg, countOwner, wr, fabMsg, withEfh, Res.Canonical]

theorem execOfferFwd_canonical (h : s.Canonical) (src region epoch fromDev fromPart toPart) : (execOfferFwd src region epoch fromDev fromPart
    toPart s).Canonical := by
  unfold execOfferFwd
  grind [satAdd, wr, raise, Res.Canonical]

theorem execAcceptMsg_canonical (h : s.Canonical) (src part id region epoch) : (execAcceptMsg src part id region epoch s).Canonical := by
  unfold execAcceptMsg
  grind [grant, satAdd, withEfh, Res.Canonical]

theorem execGrant_canonical (h : s.Canonical) (src kind part id region status epoch) : (execGrant src kind part id region status epoch
    s).Canonical := by
  unfold execGrant
  grind [wr, complete, withEfh, Res.Canonical]

theorem execOfferQuery_canonical (h : s.Canonical) (i) : (execOfferQuery i s).Canonical := by
  unfold execOfferQuery
  grind [fabMsg, Res.Canonical]

theorem execQuery_canonical (h : s.Canonical) (src region epoch) : (execQuery src region epoch s).Canonical := by
  unfold execQuery
  grind [fabMsg, Res.Canonical]

theorem execQueryReply_canonical (h : s.Canonical) (src region epoch logged) : (execQueryReply src region epoch logged s).Canonical := by
  unfold execQueryReply
  grind [withEfh, Res.Canonical]

theorem State.Canonical.startWithdraw (h : s.Canonical) (i dev part id) : (s.startWithdraw i dev part id).Canonical := by
  unfold State.startWithdraw
  grind [fabMsg, withEfh, foldl]

theorem execPublishMsg_canonical (h : s.Canonical) (src part id region epoch mode fwd) : (execPublishMsg src part id region epoch mode fwd
    s).Canonical := by
  unfold execPublishMsg
  grind [grant, satAdd, passMsg, countOwner, wr, startWithdraw, Res.Canonical]

theorem execRegionInval_canonical (h : s.Canonical) (src region log2) : (execRegionInval src region log2 s).Canonical := by
  unfold execRegionInval
  grind [recallRange, fabMsg, Res.Canonical]

theorem execInvalAck_canonical (h : s.Canonical) (src region) : (execInvalAck src region s).Canonical := by
  unfold execInvalAck
  grind [withEfh, Res.Canonical]

theorem State.Canonical.goRegion (h : s.Canonical) (h) : (s.goRegion h).Canonical := by
  unfold State.goRegion
  grind [raise, wr]

theorem State.Canonical.regionCmd (h : s.Canonical) (h entry op) : (s.regionCmd h entry op).Canonical := by
  unfold State.regionCmd
  grind [goRegion, wr]

theorem execRegionSet_canonical (h : s.Canonical) (h entry pga log2 dev part) : (execRegionSet h entry pga log2 dev part s).Canonical := by
  unfold execRegionSet
  grind [wr, regionCmd, Res.Canonical]

theorem execRegionClear_canonical (h : s.Canonical) (h entry) : (execRegionClear h entry s).Canonical := by
  unfold execRegionClear
  grind [regionCmd, Res.Canonical]

theorem execRegionForward_canonical (h : s.Canonical) (h entry target) : (execRegionForward h entry target s).Canonical := by
  unfold execRegionForward
  grind [regionCmd, wr, Res.Canonical]

theorem State.Canonical.freeRegion (h : s.Canonical) (i) : (s.freeRegion i).Canonical := by
  unfold State.freeRegion
  grind [wr, withEfh, foldl]

theorem State.Canonical.endHand (h : s.Canonical) (i) : (s.endHand i).Canonical := by
  unfold State.endHand
  grind [grant, withEfh, foldl]

theorem State.Canonical.takeRegionCmd (h : s.Canonical) : (s.takeRegionCmd).Canonical := by
  unfold State.takeRegionCmd
  grind [raise, wr, endHand, wrapAdd, freeRegion, withEfh]

theorem State.Canonical.resolve (h : s.Canonical) (i h give) : (s.resolve i h give).Canonical := by
  unfold State.resolve
  grind [wr, grant, countOwner, withEfh, foldl]

theorem State.Canonical.takeRegions (h : s.Canonical) : (s.takeRegions).Canonical := by
  unfold State.takeRegions
  grind [takeRegionCmd, wr, resolve, raise, wrapAdd, grant, withEfh, foldl]

theorem execForwardDrained_canonical (h : s.Canonical) (entry) : (execForwardDrained entry s).Canonical := by
  unfold execForwardDrained
  grind [raise, freeRegion, Res.Canonical]

theorem execRequestResendTimeout_canonical (h : s.Canonical) (id) : (execRequestResendTimeout id s).Canonical := by
  unfold execRequestResendTimeout
  grind [resend, Res.Canonical]

theorem State.Canonical.regionsLost (h : s.Canonical) (d) : (s.regionsLost d).Canonical := by
  unfold State.regionsLost
  grind [wr, raise, setBit, complete, withEfh, foldl]

/-! ### Stream instructions -/

theorem State.Canonical.slotPut (h : s.Canonical) (k m b bs marks) : (s.slotPut k m b bs marks).Canonical :=
  ⟨h.sram, h.live, h.staged, Memory.wf_store _ _ h.slot, h.loc, h.mem, h.regs⟩

theorem State.Canonical.setProg (h : s.Canonical) (k n dead) : (s.setProg k n dead).Canonical := by
  unfold State.setProg
  grind [setCtx]

theorem State.Canonical.fetchGo (h : s.Canonical) (k alloc part va len) {put} (hput : ∀ s o bs ms, s.Canonical → (put s o bs ms).Canonical) (fuel)
    : (s.fetchGo k alloc part va len put fuel).1.Canonical := by
  induction fuel generalizing s with
  | zero => exact h
  | succ fuel ih =>
    unfold State.fetchGo
    grind [setProg, readVa]

theorem State.Canonical.fetch (h : s.Canonical) (k alloc part va len) {put} (hput : ∀ s o bs ms, s.Canonical → (put s o bs ms).Canonical) :
    (s.fetch k alloc part va len put).1.Canonical := h.fetchGo _ _ _ _ _ hput _

theorem State.Canonical.storeGo (h : s.Canonical) (k alloc part va len get fuel) : (s.storeGo k alloc part va len get fuel).1.Canonical := by
  induction fuel generalizing s with
  | zero => exact h
  | succ fuel ih =>
    unfold State.storeGo
    grind [setProg, writeVa]

theorem State.Canonical.storeVa (h : s.Canonical) (k alloc part va len get) : (s.storeVa k alloc part va len get).1.Canonical := by
  unfold State.storeVa
  grind [storeGo]

theorem strmWait_canonical (h : s.Canonical) (u f) : (strmWait u f s).Canonical := by
  unfold strmWait
  grind [setCtx, Body.Canonical]

theorem strmStat_canonical (h : s.Canonical) (u f write code va) : (strmStat u f write code va s).Canonical := by
  unfold strmStat
  grind [ctxFault, setCtx, setCx, Body.Canonical]

theorem strmEnd_canonical {q : State × Fetch} (h : q.1.Canonical) (u f write) : (strmEnd u f write q).Canonical := by
  unfold strmEnd
  grind [strmWait_canonical, strmStat_canonical, setCtx, setCx, Body.Canonical]

theorem strmLen_canonical (h : s.Canonical) (u f max x) {body} (hbody : body.Canonical) : (strmLen u f max x s body).Canonical := by
  unfold strmLen
  grind [setCx, Body.Canonical]

theorem execSload_canonical (h : s.Canonical) (u f) : (execSload u f s).Canonical :=
  issue_canonical h (by grind [strmLen_canonical, strmEnd_canonical, fetch, slotPut, Body.Canonical])

theorem execSstore_canonical (h : s.Canonical) (u f) : (execSstore u f s).Canonical :=
  issue_canonical h (by grind [strmLen_canonical, strmEnd_canonical, storeVa, Body.Canonical])

theorem State.Canonical.sdlvGo (h : s.Canonical) (u k m d n last fuel) : (s.sdlvGo u k m d n last fuel).1.Canonical := by
  induction fuel generalizing s with
  | zero => exact h
  | succ fuel ih =>
    unfold State.sdlvGo
    grind [setProg, injectDlv]

theorem execSdlv_canonical (h : s.Canonical) (u f) : (execSdlv u f s).Canonical :=
  issueW_canonical h (by grind [setCx, strmLen_canonical, sdlvGo, Body.Canonical])

theorem State.Canonical.vbufPut (h : s.Canonical) (k b bs) : (s.vbufPut k b bs).Canonical := by
  unfold State.vbufPut
  grind [setCxAt, foldl]

theorem execSldv_canonical (h : s.Canonical) (u f) : (execSldv u f s).Canonical :=
  issue_canonical h (by grind [strmLen_canonical, strmEnd_canonical, fetch, vbufPut, Body.Canonical])

theorem execSstv_canonical (h : s.Canonical) (u f) : (execSstv u f s).Canonical :=
  issue_canonical h (by grind [strmLen_canonical, strmEnd_canonical, storeVa, Body.Canonical])

theorem execSunit_canonical (h : s.Canonical) (u f) : (execSunit u f s).Canonical :=
  issue_canonical h (by grind [setCx, Body.Canonical])

theorem State.Canonical.fetchTable (h : s.Canonical) (k part tables t) : (s.fetchTable k part tables t).1.Canonical := by
  unfold State.fetchTable
  grind [fetch, setCtx]

theorem xfrmTable_canonical {q : State × Fetch} (h : q.1.Canonical) (u f) {op} (hop : ∀ s : State, s.Canonical → (op s).Canonical) : (xfrmTable u
    f q op).Canonical := by
  unfold xfrmTable
  grind [strmWait_canonical, strmStat_canonical]

theorem execDcmp_canonical (h : s.Canonical) (u f) : (execDcmp u f s).Canonical :=
  issue_canonical h (by grind [setCx, xfrmTable_canonical, fetchTable, slotPut, setCtx, Body.Canonical])

theorem execEnc_canonical (h : s.Canonical) (u f) : (execEnc u f s).Canonical :=
  issue_canonical h (by
    extract_lets k n
    split
    · exact h.setCx _ _
    split
    · exact h.setCx _ _
    split
    · exact h.setCx _ _
    exact xfrmTable_canonical (h.fetchTable _ _ _ _) _ _ (fun s h => by
      split
      exacts [h.setCx _ _, (h.slotPut _ _ _ _ _).setCx _ _]))

theorem execPtrx_canonical (h : s.Canonical) (u f) : (execPtrx u f s).Canonical :=
  issue_canonical h (by
    extract_lets k m base sel conv
    split
    next t bad e =>
    refine setCx (of_fst (foldl_fst ?_ _ h) e) _ _
    intro q i hq
    clear_value conv
    grind [slotPut])

theorem execCrc64_canonical (h : s.Canonical) (u f) : (execCrc64 u f s).Canonical :=
  issue_canonical h (by grind [setCx, Body.Canonical])

/-! ### Serving an access -/

theorem State.Canonical.serving (h : s.Canonical) (o k) {t} {x} (e : s.serving o k = some (t, x)) : t.Canonical := by
  unfold State.serving at e
  grind [setCxAt, setCtx, setOrder]

theorem State.Canonical.unserve (h : s.Canonical) (o) : (s.unserve o).Canonical := by
  unfold State.unserve
  grind [endWork, setCtx]

theorem State.Canonical.finishOrder (h : s.Canonical) (o status info) : (s.finishOrder o status info).Canonical := by
  unfold State.finishOrder
  grind [complete, unserve]

theorem State.Canonical.after {q : State × Fetch} (h : q.1.Canonical) (k write) {served ended} (hserved : ∀ s dead, s.Canonical → (served s
    dead).Canonical)
    (hended : ∀ s c, s.Canonical → (ended s c).Canonical) : (State.after q k write served ended).Canonical := by
  unfold State.after
  grind [ctxFault]

theorem State.Canonical.fetchBuf (h : s.Canonical) (k part va n) : (s.fetchBuf k part va n).1.Canonical := by
  unfold State.fetchBuf
  grind [fetch, setCtx]

theorem State.Canonical.storeBytes (h : s.Canonical) (k part va bs dead) : (s.storeBytes k part va bs dead).1.Canonical := by
  unfold State.storeBytes
  grind [storeVa]

/-! ### Embedding orders -/

theorem State.Canonical.rowWay (h : s.Canonical) (bank line) : (s.rowWay bank line).1.Canonical := by
  unfold State.rowWay
  grind [replaceCopy, withEmb, foldl, foldl_fst]

theorem State.Canonical.rowLine (h : s.Canonical) (bank write l) : (s.rowLine bank write l).1.Canonical := by
  unfold State.rowLine
  grind [agentDo, rowWay, withEmb]

theorem State.Canonical.rowLines (h : s.Canonical) (bank off n write) : (s.rowLines bank off n write).1.Canonical := by
  unfold State.rowLines
  grind [rowLine, foldl, foldl_fst]

theorem State.Canonical.rowUsed1 (h : s.Canonical) (bank line) : (s.rowUsed1 bank line).Canonical := by
  unfold State.rowUsed1
  grind [satAdd, withEmb]

theorem State.Canonical.rowUsed (h : s.Canonical) (bank off n) : (s.rowUsed bank off n).Canonical := by
  unfold State.rowUsed
  grind [rowUsed1, foldl]

theorem State.Canonical.rowWrite (h : s.Canonical) (off bs dead) : (s.rowWrite off bs dead).Canonical := by
  unfold State.rowWrite
  grind [storeHit, foldl]

theorem State.Canonical.halveRows (h : s.Canonical) : (s.halveRows).Canonical := by
  unfold State.halveRows
  grind [withEmb]

theorem State.Canonical.rowAnswer (h : s.Canonical) (q status bs) : (s.rowAnswer q status bs).Canonical := by
  unfold State.rowAnswer
  grind [send]

theorem State.Canonical.rowForward (h : s.Canonical) (q dest) : (s.rowForward q dest).Canonical := by
  unfold State.rowForward
  grind [send]

theorem State.Canonical.detAdd (h : s.Canonical) (q) {t} (e : s.detAdd q = some t) : t.Canonical := by
  unfold State.detAdd at e
  grind [withEmb]

theorem State.Canonical.rowRead (h : s.Canonical) (q off n) : (s.rowRead q off n).Canonical := by
  unfold State.rowRead
  grind [rowAnswer]

theorem State.Canonical.rowAdd (h : s.Canonical) (q off n) : (s.rowAdd q off n).Canonical := by
  unfold State.rowAdd
  grind [rowAnswer, rowWrite]

theorem State.Canonical.rowPut (h : s.Canonical) (q off n) : (s.rowPut q off n).Canonical := by
  unfold State.rowPut
  grind [rowWrite, rowAnswer, withEmb]

theorem State.Canonical.detApply (h : s.Canonical) (q off n) : (s.detApply q off n).Canonical := by
  unfold State.detApply
  grind [rowAnswer, rowWrite, withEmb, foldl]

theorem State.Canonical.rowMove (h : s.Canonical) (q off n) : (s.rowMove q off n).Canonical := by
  unfold State.rowMove
  grind [send, foldl]

theorem State.Canonical.rowServe (h : s.Canonical) (q off) : (s.rowServe q off).1.Canonical := by
  unfold State.rowServe
  grind [rowLines, rowUsed, rowRead, rowAdd, rowPut, detApply, rowMove]

theorem State.Canonical.rowDet (h : s.Canonical) (q) : (s.rowDet q).Canonical := by
  unfold State.rowDet
  grind [rowAnswer, detAdd, satAdd, withEmb]

theorem State.Canonical.rowPass (h : s.Canonical) (q f) : (s.rowPass q f).Canonical := by
  unfold State.rowPass
  grind [rowAnswer, rowForward, satAdd, withEmb]

theorem State.Canonical.rowIssue (h : s.Canonical) (q a) : (s.rowIssue q a).1.Canonical := by
  unfold State.rowIssue
  grind [rowDet, rowServe]

theorem State.Canonical.rowMeet (h : s.Canonical) (q behind) : (s.rowMeet q behind).1.Canonical := by
  unfold State.rowMeet
  grind [rowServe, rowPass, rowAnswer, satAdd, rowIssue]

theorem State.Canonical.serveHeld (h : s.Canonical) : s.serveHeld.Canonical := by
  unfold State.serveHeld
  exact (foldl_fst (fun q b h => by grind [rowMeet]) _ h).withEmb _

theorem State.Canonical.rowArrive (h : s.Canonical) (q) : (s.rowArrive q).Canonical := by
  unfold State.rowArrive
  grind [serveHeld, withEmb]

theorem execRowLookup_canonical (h : s.Canonical) (src part id n table row) : (execRowLookup src part id n table row s).Canonical := by
  unfold execRowLookup
  grind [rowArrive, Res.Canonical]

theorem execRowUpdate_canonical (h : s.Canonical) (src part id n table row kind base f32 data dead) : (execRowUpdate src part id n table row kind
    base f32 data dead s).Canonical := by
  unfold execRowUpdate
  grind [rowArrive, Res.Canonical]

theorem State.Canonical.flipRows (h : s.Canonical) (old) : (s.flipRows old).Canonical := by
  unfold State.flipRows
  grind [hubWrite, withEmb, foldl]

theorem State.Canonical.closeDet (h : s.Canonical) (old) : (s.closeDet old).1.Canonical := by
  unfold State.closeDet
  grind [rowAnswer, withEmb, foldl, foldl_fst]

theorem State.Canonical.freezeRows (h : s.Canonical) (old) : (s.freezeRows old).1.Canonical := by
  unfold State.freezeRows
  grind [wr, withEmb, foldl, foldl_fst]

theorem State.Canonical.takeEmb (h : s.Canonical) (old) : (s.takeEmb old).Canonical := by
  have h₀ := h.flipRows old
  unfold State.takeEmb
  extract_lets s₀
  split
  next s₁ dets e₁ =>
  split
  next s₂ moves e₂ =>
  have h₁ : s₁.Canonical := by grind [closeDet]
  have h₂ : s₂.Canonical := by grind [freezeRows]
  extract_lets held src s₃ s₄
  have h₄ : s₄.Canonical := (h₂.withEmb _).serveHeld
  split
  · exact h₄.halveRows
  · exact h₄

theorem execHotRowLanded_canonical (h : s.Canonical) (table row data marks) : (execHotRowLanded table row data marks s).Canonical := by
  unfold execHotRowLanded
  grind [hubPart, wr, serveHeld, withEmb, foldl, Res.Canonical]

theorem execEmbForwardDrained_canonical (h : s.Canonical) (k) : (execEmbForwardDrained k s).Canonical := by
  unfold execEmbForwardDrained
  grind [raise, wr, withEmb, Res.Canonical]

theorem State.Canonical.setJobE (h : s.Canonical) (j) : (s.setJobE j).Canonical := by
  unfold State.setJobE
  grind [withEmb]

theorem State.Canonical.embDone (h : s.Canonical) (o status) : (s.embDone o status).Canonical := by
  unfold State.embDone
  grind [finishOrder, withEmb]

theorem State.Canonical.gatherWrite (h : s.Canonical) (o k fuel) : (s.gatherWrite o k fuel).Canonical := by
  induction fuel generalizing s with
  | zero => exact h
  | succ fuel ih =>
    unfold State.gatherWrite
    grind [embDone, setJobE, after, storeBytes]

theorem State.Canonical.embSettle (h : s.Canonical) (o k) : (s.embSettle o k).Canonical := by
  unfold State.embSettle
  grind [gatherWrite, embDone]

theorem State.Canonical.embSend (h : s.Canonical) (o j index data dead) : (s.embSend o j index data dead).Canonical := by
  unfold State.embSend
  grind [setJobE, satAdd, lostTo, rowForward]

theorem State.Canonical.embRead (h : s.Canonical) (o k fuel) : (s.embRead o k fuel).Canonical := by
  induction fuel generalizing s with
  | zero => exact h
  | succ fuel ih =>
    unfold State.embRead
    grind [embSettle, after, fetchBuf, embSend, embDone]

theorem State.Canonical.embOrder (h : s.Canonical) (n k op) : (s.embOrder n k op).Canonical := by
  fun_cases State.embOrder s n k op <;> grind [embDone, serving, withEfh, setJobE, embRead]

theorem execGather_canonical (h : s.Canonical) (n k) : (execGather n k s).Canonical := by
  unfold execGather
  grind [embOrder, Res.Canonical]

theorem execScatterAdd_canonical (h : s.Canonical) (n k) : (execScatterAdd n k s).Canonical := by
  unfold execScatterAdd
  grind [embOrder, Res.Canonical]

theorem execRowPut_canonical (h : s.Canonical) (n k) : (execRowPut n k s).Canonical := by
  unfold execRowPut
  grind [embOrder, Res.Canonical]

theorem State.Canonical.lostIndex (h : s.Canonical) (j o i) : (s.lostIndex j o i).Canonical := by
  unfold State.lostIndex
  grind [setJobE, lostTo, embSettle]

theorem execRowResult_canonical (h : s.Canonical) (id n status data) : (execRowResult id n status data s).Canonical := by
  unfold execRowResult
  grind [lostIndex, setJobE, embSettle, Res.Canonical]

theorem State.Canonical.embLost (h : s.Canonical) (d) : (s.embLost d).Canonical := by
  unfold State.embLost
  grind [lostTo, setJobE, foldl]

theorem State.Canonical.rowServed (h : s.Canonical) (a) : (s.rowServed a).Canonical := by
  unfold State.rowServed
  grind [serveHeld]

theorem execDataS_canonical (h : s.Canonical) (a line x marks) : (execDataS a line x marks s).Canonical := by
  unfold execDataS
  grind [rowServed, datTaken, dataArrive, Res.Canonical]

theorem execDataF_canonical (h : s.Canonical) (a line x marks) : (execDataF a line x marks s).Canonical := by
  unfold execDataF
  grind [rowServed, datTaken, dataArrive, Res.Canonical]

theorem execDataE_canonical (h : s.Canonical) (a line x marks) : (execDataE a line x marks s).Canonical := by
  unfold execDataE
  grind [rowServed, datTaken, dataArrive, Res.Canonical]

theorem execDataM_canonical (h : s.Canonical) (a line x marks) : (execDataM a line x marks s).Canonical := by
  unfold execDataM
  grind [rowServed, datTaken, dataMArrive, Res.Canonical]

theorem execGnt_canonical (h : s.Canonical) (a line) : (execGnt a line s).Canonical := by
  unfold execGnt
  grind [rowServed, datTaken, gntArrive, Res.Canonical]

/-! ### The call sheet -/

theorem State.Canonical.clearFail (h : s.Canonical) : (s.clearFail).Canonical := by
  unfold State.clearFail
  grind [wr]

theorem State.Canonical.judge (h : s.Canonical) (h) : (s.judge h).1.Canonical := by
  unfold State.judge
  grind [satAdd, wr, clearFail, withSheet]

theorem State.Canonical.refusePair (h : s.Canonical) (h x) : (s.refusePair h x).Canonical := by
  unfold State.refusePair
  grind [judge, withSheet]

theorem State.Canonical.stageReg (h : s.Canonical) (h x v mask) : (s.stageReg h x v mask).Canonical := by
  unfold State.stageReg
  grind [refusePair, judge, wrStaged, foldl]

theorem execStagedWrite_canonical (h : s.Canonical) (h off x) : (execStagedWrite h off x s).Canonical := by
  unfold execStagedWrite
  grind [stageReg, Res.Canonical]

theorem State.Canonical.goCheck (h : s.Canonical) (h) : (s.goCheck h).Canonical := by
  unfold State.goCheck
  grind [wr, withSheet]

theorem execCsCheckGo_canonical (h : s.Canonical) (h) : (execCsCheckGo h s).Canonical := by
  unfold execCsCheckGo
  grind [goCheck, Res.Canonical]

theorem State.Canonical.writeTakeCue (h : s.Canonical) (h step cue) : (s.writeTakeCue h step cue).Canonical := by
  unfold State.writeTakeCue
  grind [wr]

theorem execCsTakeCueWrite_canonical (h : s.Canonical) (h step cue) : (execCsTakeCueWrite h step cue s).Canonical := by
  unfold execCsTakeCueWrite
  grind [writeTakeCue, Res.Canonical]

theorem State.Canonical.restoreFrame (h : s.Canonical) (f) : (s.restoreFrame f).Canonical := (((h.storeStaged _ _).wr _ _).wr _ _).wr _ _

theorem State.Canonical.dropRetirements (h : s.Canonical) : (s.dropRetirements).Canonical := by
  unfold State.dropRetirements
  grind [wr, moveTroupe, withSheet, foldl]

theorem State.Canonical.abandon (h : s.Canonical) (cause) : (s.abandon cause).Canonical :=
  (foldl (fun _ f h => h.restoreFrame f) _
    (((((h.wr _ _).wr _ _).wr _ _).wr _ _).withStagedSheet _ _)).dropRetirements.raise _

theorem State.Canonical.goAbandon (h : s.Canonical) (h) : (s.goAbandon h).Canonical := by
  unfold State.goAbandon
  grind [wr, abandon]

theorem execCsAbandonGo_canonical (h : s.Canonical) (h) : (execCsAbandonGo h s).Canonical := by
  unfold execCsAbandonGo
  grind [goAbandon, Res.Canonical]

theorem State.Canonical.bookWrite (hs : s.Canonical) (h f b bs) : (s.bookWrite h f b bs).Canonical := by
  unfold State.bookWrite
  grind [storeStaged, wr, refusePair, judge]

theorem execPbStagedDataWrite_canonical (h : s.Canonical) (h f word x) : (execPbStagedDataWrite h f word x s).Canonical := by
  unfold execPbStagedDataWrite
  grind [bookWrite, Res.Canonical]

theorem State.Canonical.frameWrite (h : s.Canonical) (h f owner cond done tag) : (s.frameWrite h f owner cond done tag).Canonical := by
  unfold State.frameWrite
  grind [wr, refusePair, judge]

theorem execPbkFrameStageWrite_canonical (h : s.Canonical) (h f owner cond done tag) : (execPbkFrameStageWrite h f owner cond done tag
    s).Canonical := by
  unfold execPbkFrameStageWrite
  grind [frameWrite, Res.Canonical]

theorem State.Canonical.swapFrames (h : s.Canonical) (taken) : (s.swapFrames taken).Canonical := by
  have hswap : ∀ (s : State) f, s.Canonical → ({ s with book := { s.book with
      live := Memory.store s.book.live (1024 * f) (Memory.bytes s.book.staged (1024 * f) 1024)
      lateFrame := s.book.lateFrame.erase f } } : State).Canonical :=
    fun s f h => (h.storeLive _ _).withBook rfl rfl
  unfold State.swapFrames
  grind [wr, wrapAdd, satAdd, foldl]

theorem State.Canonical.zeroTroupe (h : s.Canonical) (t) : (s.zeroTroupe t).Canonical :=
  ⟨Memory.wf_filter _ h.sram, h.live, h.staged, h.slot, h.loc, h.mem, h.regs⟩

theorem State.Canonical.goRetire (h : s.Canonical) (h t) : (s.goRetire h t).Canonical := by
  unfold State.goRetire
  grind [wr, raise, judge, moveTroupe, zeroTroupe, ungate, wrStaged, withSheet]

theorem execTrpRetireGo_canonical (h : s.Canonical) (h t) : (execTrpRetireGo h t s).Canonical := by
  unfold execTrpRetireGo
  grind [goRetire, Res.Canonical]

/-! ### Courier plans -/

theorem State.Canonical.setJobOf (h : s.Canonical) (k j) : (s.setJobOf k j).Canonical := by
  unfold State.setJobOf
  grind [setCtx]

theorem State.Canonical.queueChunk (h : s.Canonical) (k j bs poison) : (s.queueChunk k j bs poison).Canonical := by
  unfold State.queueChunk
  grind [setJobOf, setCtx, pump]

theorem State.Canonical.cancelDelivery (h : s.Canonical) (k j) : (s.cancelDelivery k j).Canonical := by
  unfold State.cancelDelivery
  grind [setCtx, inject]

theorem State.Canonical.failFault (h : s.Canonical) (k) : (s.failFault k).Canonical := by
  unfold State.failFault
  grind [setCtx, setCxAt]

theorem State.Canonical.discardFault (h : s.Canonical) (k) : (s.discardFault k).Canonical := by
  unfold State.discardFault
  grind [wr, failFault]

theorem State.Canonical.stopEntry (h : s.Canonical) (k j) : (s.stopEntry k j).Canonical := by
  unfold State.stopEntry
  grind [setCtx, endWork]

theorem State.Canonical.understudy (h : s.Canonical) (k j) : (s.understudy k j).Canonical := by
  unfold State.understudy
  grind [cancelDelivery, forget, discardFault, satAdd, storeCheck, setCtx, setJobOf, pump]

theorem State.Canonical.badChunk (h : s.Canonical) (k j size format) : (s.badChunk k j size format).Canonical := by
  unfold State.badChunk
  grind [satAdd, raise, understudy, queueChunk, withCour]

theorem State.Canonical.readEnded (h : s.Canonical) (k j code va) : (s.readEnded k j code va).Canonical := by
  unfold State.readEnded
  grind [ctxFault, setJobOf, injectDlv, raise, haltCtx, wr, stopEntry, satAdd]

theorem State.Canonical.intoSlot (h : s.Canonical) (k alloc part va len m) : (s.intoSlot k alloc part va len m).1.Canonical := by
  unfold State.intoSlot
  grind [fetch, slotPut]

theorem State.Canonical.decodeChunk (h : s.Canonical) (k j) : (s.decodeChunk k j).Canonical := by
  unfold State.decodeChunk
  grind [badChunk, setCtx, queueChunk]

theorem State.Canonical.indexRead (h : s.Canonical) (k j e) : (s.indexRead k j e).Canonical := by
  unfold State.indexRead
  grind [badChunk, queueChunk, setJobOf]

theorem State.Canonical.deliverRead (h : s.Canonical) (k j) : (s.deliverRead k j).Canonical := by
  unfold State.deliverRead
  grind [readEnded, intoSlot, badChunk, queueChunk, indexRead, setJobOf, fetchTable, decodeChunk]

theorem State.Canonical.startEntry (h : s.Canonical) (k frame) {run} (hrun : ∀ (s : State) j, s.Canonical → (run s j).Canonical) : (s.startEntry k
    frame run).Canonical := by
  fun_cases State.startEntry s k frame run <;> grind [wr, setCtx, setCxAt, satAdd]

theorem execDeliver_canonical (h : s.Canonical) (k) : (execDeliver k s).Canonical := by
  unfold execDeliver
  grind [startEntry, issued, Res.Canonical]

theorem execCourierReadComplete_canonical (h : s.Canonical) (k) : (execCourierReadComplete k s).Canonical := by
  unfold execCourierReadComplete
  grind [issued, deliverRead, Res.Canonical]

theorem execInTransitRetry_canonical (h : s.Canonical) (k) : (execInTransitRetry k s).Canonical := by
  unfold execInTransitRetry
  grind [satAdd, setJobOf, issued, deliverRead, Res.Canonical]

theorem State.Canonical.frameFailed (h : s.Canonical) (k) : (s.frameFailed k).Canonical := by
  unfold State.frameFailed
  grind [endWork, satAdd]

theorem State.Canonical.fillFrame (h : s.Canonical) (k j bs) : (s.fillFrame k j bs).Canonical := by
  unfold State.fillFrame
  grind [storeStaged, wr, endWork, frameFailed, judge]

theorem State.Canonical.frameRead (h : s.Canonical) (k j) : (s.frameRead k j).Canonical := by
  unfold State.frameRead
  grind [endWork, intoSlot, satAdd, fillFrame, readEnded, raise, haltCtx, frameFailed]

theorem execFrameEntry_canonical (h : s.Canonical) (k) : (execFrameEntry k s).Canonical := by
  unfold execFrameEntry
  grind [issued, frameRead, startEntry, Res.Canonical]

theorem State.Canonical.passFault (h : s.Canonical) (k i) : (s.passFault k i).Canonical := by
  unfold State.passFault
  grind [setCtx, wr]

theorem State.Canonical.lateEntry (h : s.Canonical) (k i running j) : (s.lateEntry k i running j).Canonical := by
  unfold State.lateEntry
  grind [setCtx, passFault, understudy, setJobOf, setCxAt, cancelDelivery, discardFault, endWork]

theorem State.Canonical.courierDDel (h : s.Canonical) (k i) : (s.courierDDel k i).Canonical := by
  unfold State.courierDDel
  grind [setCtx, satAdd, lateEntry]

theorem execCourierDDel_canonical (h : s.Canonical) (k i) : (execCourierDDel k i s).Canonical := by
  unfold execCourierDDel
  grind [courierDDel, Res.Canonical]

theorem State.Canonical.abandonFault (h : s.Canonical) (k) : (s.abandonFault k).Canonical := by
  unfold State.abandonFault
  grind [failFault, stopEntry, setCtx]

theorem State.Canonical.ctxAction (h : s.Canonical) (k act) : (s.ctxAction k act).Canonical := by
  unfold State.ctxAction
  grind [wr, setCtx, setCxAt, abandonFault]

theorem State.Canonical.ctxCtl (h : s.Canonical) (h k resume abandon restart) : (s.ctxCtl h k resume abandon restart).Canonical := by
  unfold State.ctxCtl
  grind [ctxAction, wr]

theorem execCrrResume_canonical (h : s.Canonical) (h k) : (execCrrResume h k s).Canonical := by
  unfold execCrrResume
  grind [ctxCtl, Res.Canonical]

theorem execCrrAbandon_canonical (h : s.Canonical) (h k) : (execCrrAbandon h k s).Canonical := by
  unfold execCrrAbandon
  grind [ctxCtl, Res.Canonical]

theorem execCrrRestart_canonical (h : s.Canonical) (h k) : (execCrrRestart h k s).Canonical := by
  unfold execCrrRestart
  grind [ctxCtl, Res.Canonical]

theorem execPoolFaultTimeout_canonical (h : s.Canonical) (k) : (execPoolFaultTimeout k s).Canonical := by
  unfold execPoolFaultTimeout
  grind [abandonFault, Res.Canonical]

theorem State.Canonical.takeCtx (h : s.Canonical) (k planTaken) : (s.takeCtx k planTaken).Canonical := by
  unfold State.takeCtx
  grind [wr, setCtx, setCxAt, endWork, failFault]

theorem State.Canonical.takeLoads (h : s.Canonical) : (s.takeLoads).Canonical := by
  unfold State.takeLoads
  grind [wr, foldl]

/-! ### Control flow and units -/

theorem execEndUnit_canonical (h : s.Canonical) (u f) : (execEndUnit u f s).Canonical :=
  issue_canonical h (by grind [endCE, endWork, setCxAt, Body.Canonical])

theorem execBr_canonical (h : s.Canonical) (u f) : (execBr u f s).Canonical :=
  issue_canonical h (by grind [Body.Canonical])

theorem execBrz_canonical (h : s.Canonical) (u f) : (execBrz u f s).Canonical :=
  issue_canonical h (by grind [Body.Canonical])

theorem execBrnz_canonical (h : s.Canonical) (u f) : (execBrnz u f s).Canonical :=
  issue_canonical h (by grind [Body.Canonical])

theorem execCall_canonical (h : s.Canonical) (u f) : (execCall u f s).Canonical :=
  issue_canonical h (by grind [setCx, Body.Canonical])

theorem State.Canonical.leaveHandler (h : s.Canonical) (u depth) : (s.leaveHandler u depth).Canonical := by
  unfold State.leaveHandler
  grind [wr, setCxAt]

theorem execRetn_canonical (h : s.Canonical) (u f) : (execRetn u f s).Canonical :=
  issue_canonical h (by grind [leaveHandler, setCx, Body.Canonical])

theorem execLoop_canonical (h : s.Canonical) (u f) : (execLoop u f s).Canonical :=
  issue_canonical h (by grind [setCx, Body.Canonical])

theorem execWaitcue_canonical (h : s.Canonical) (u f) : (execWaitcue u f s).Canonical :=
  issue_canonical h (by grind [Body.Canonical])

theorem execWaitcueResume_canonical (h : s.Canonical) (u) : (execWaitcueResume u s).Canonical := by
  unfold execWaitcueResume
  grind [setCx, Res.Canonical]

theorem execDlbr_canonical (h : s.Canonical) (u f) : (execDlbr u f s).Canonical :=
  issue_canonical h (by grind [fresh, Body.Canonical])

theorem execMfs_canonical (h : s.Canonical) (u f) : (execMfs u f s).Canonical :=
  issue_canonical h (by grind [setCx, Body.Canonical])

theorem State.Canonical.countToken (h : s.Canonical) (t tok) : (s.countToken t tok).Canonical := by
  unfold State.countToken
  grind [tokenAdd]

theorem State.Canonical.sendParcel (h : s.Canonical) (t r o x data last) : (s.sendParcel t r o x data last).Canonical := by
  unfold State.sendParcel
  grind [setTroupe, ledgerAdd, inject, countToken]

theorem execSend_canonical (h : s.Canonical) (u f) : (execSend u f s).Canonical :=
  issueW_canonical h (by grind [sendParcel, Body.Canonical])

theorem State.Canonical.readSlot (h : s.Canonical) (t r unit skip) : (s.readSlot t r unit skip).Canonical := by
  unfold State.readSlot
  grind [setTroupe, releaseSlots]

theorem execRecv_canonical (h : s.Canonical) (u f) : (execRecv u f s).Canonical :=
  issueW_canonical h (by grind [setCx, sramCheck, countUE, readSlot, Body.Canonical])

theorem execCredq_canonical (h : s.Canonical) (u f) : (execCredq u f s).Canonical :=
  issue_canonical h (by grind [setCx, Body.Canonical])

theorem execRxq_canonical (h : s.Canonical) (u f) : (execRxq u f s).Canonical :=
  issue_canonical h (by grind [setCx, Body.Canonical])

/-! ### Tallies and troupe memory -/

theorem execTbase_canonical (h : s.Canonical) (u f) : (execTbase u f s).Canonical :=
  issue_canonical h (by grind [setCx, foldl, Body.Canonical])

theorem execTstore_canonical (h : s.Canonical) (u f) : (execTstore u f s).Canonical :=
  issue_canonical h (by grind [sramWrite, Body.Canonical])

theorem ldSram_canonical (h : s.Canonical) (u x a n put) : (ldSram u x s a n put).Canonical := by
  unfold ldSram
  grind [sramCheck, countUE, setCx, Body.Canonical]

theorem State.Canonical.sramModify (h : s.Canonical) (t addrs) : (s.sramModify t addrs).Canonical := by
  unfold State.sramModify
  grind [sramCheck, countUE]

theorem stSram_canonical (h : s.Canonical) (u a n y) : (stSram u s a n y).Canonical := by
  unfold stSram
  grind [sramWrite, sramModify, Body.Canonical]

theorem State.Canonical.sramWords (h : s.Canonical) (t ws) : (s.sramWords t ws).Canonical := by
  unfold State.sramWords
  grind [sramModify, sramWrite, foldl]

theorem gatherLanes_canonical (h : s.Canonical) (u x f addr) : (gatherLanes u x f s addr).Canonical := by
  unfold gatherLanes
  grind [sramCheck, countUE, setCx, foldl, Body.Canonical]

theorem ldLanes_canonical (h : s.Canonical) (u x f a) : (ldLanes u x f s a).Canonical := by
  unfold ldLanes
  grind [gatherLanes_canonical, Body.Canonical]

theorem execLdv_canonical (h : s.Canonical) (u f) : (execLdv u f s).Canonical :=
  issueL_canonical h (by grind [ldLanes_canonical, Body.Canonical])

theorem execLdvi_canonical (h : s.Canonical) (u f) : (execLdvi u f s).Canonical :=
  issueL_canonical h (by grind [ldLanes_canonical, Body.Canonical])

theorem execLdw_canonical (h : s.Canonical) (u f) : (execLdw u f s).Canonical :=
  issue_canonical h (by grind [ldSram_canonical, Body.Canonical])

theorem execLda_canonical (h : s.Canonical) (u f) : (execLda u f s).Canonical :=
  issue_canonical h (by grind [ldSram_canonical, Body.Canonical])

theorem execLdg_canonical (h : s.Canonical) (u f) : (execLdg u f s).Canonical :=
  issueL_canonical h (by grind [gatherLanes_canonical, Body.Canonical])

theorem execLdp_canonical (h : s.Canonical) (u f) : (execLdp u f s).Canonical :=
  issue_canonical h (by grind [ldSram_canonical, Body.Canonical])

theorem stLanes_canonical (h : s.Canonical) (u x f a n) : (stLanes u x f s a n).Canonical := by
  unfold stLanes
  grind [sramWrite, sramWords, Body.Canonical]

theorem execStv_canonical (h : s.Canonical) (u f) : (execStv u f s).Canonical :=
  issueL_canonical h (by grind [stLanes_canonical, Body.Canonical])

theorem execStvi_canonical (h : s.Canonical) (u f) : (execStvi u f s).Canonical :=
  issueL_canonical h (by grind [stLanes_canonical, Body.Canonical])

theorem execStw_canonical (h : s.Canonical) (u f) : (execStw u f s).Canonical :=
  issue_canonical h (by grind [stSram_canonical, Body.Canonical])

theorem execSta_canonical (h : s.Canonical) (u f) : (execSta u f s).Canonical :=
  issue_canonical h (by grind [stSram_canonical, Body.Canonical])

theorem execStsc_canonical (h : s.Canonical) (u f) : (execStsc u f s).Canonical :=
  issueL_canonical h (by grind [sramWords, Body.Canonical])

theorem execTbar_canonical (h : s.Canonical) (u f) : (execTbar u f s).Canonical :=
  issue_canonical h (by grind [setTroupe, setCx, settleBarrier, Body.Canonical])

theorem ldBook_canonical (h : s.Canonical) (u x a n put) : (ldBook u x s a n put).Canonical := by
  unfold ldBook
  grind [setCx, Body.Canonical]

theorem execPbv_canonical (h : s.Canonical) (u f) : (execPbv u f s).Canonical :=
  issue_canonical h (by grind [ldBook_canonical, Body.Canonical])

theorem execPbvi_canonical (h : s.Canonical) (u f) : (execPbvi u f s).Canonical :=
  issue_canonical h (by grind [ldBook_canonical, Body.Canonical])

theorem execPbw_canonical (h : s.Canonical) (u f) : (execPbw u f s).Canonical :=
  issue_canonical h (by grind [ldBook_canonical, Body.Canonical])

theorem execPbg_canonical (h : s.Canonical) (u f) : (execPbg u f s).Canonical :=
  issueL_canonical h (by grind [setCx, foldl, Body.Canonical])

/-! ### The checks of a call sheet -/

theorem execCheckDone_canonical (h : s.Canonical) : (execCheckDone s).Canonical := by
  unfold execCheckDone
  grind [wr, raise, clearFail, withSheet, Res.Canonical]

/-! ### Events and their signals -/

theorem execEventEdge_canonical (h : s.Canonical) (id) : (execEventEdge id s).Canonical := by
  unfold execEventEdge
  grind [raise, Res.Canonical]

theorem execEventRetract_canonical (h : s.Canonical) (id) : (execEventRetract id s).Canonical := by
  unfold execEventRetract
  grind [unpend, Res.Canonical]

theorem State.Canonical.clearPending (h : s.Canonical) (h w mask) : (s.clearPending h w mask).Canonical := by
  unfold State.clearPending
  grind [settleLatches, wr]

theorem execEvcPendingClear_canonical (h : s.Canonical) (h w mask) : (execEvcPendingClear h w mask s).Canonical := by
  unfold execEvcPendingClear
  grind [clearPending, Res.Canonical]

theorem execEvcRaiseWrite_canonical (h : s.Canonical) (h id) : (execEvcRaiseWrite h id s).Canonical := by
  unfold execEvcRaiseWrite
  grind [softRaise, Res.Canonical]

theorem State.Canonical.msixSignal (h : s.Canonical) (v) : (s.msixSignal v).Canonical := by
  unfold State.msixSignal
  grind [send, withHst]

theorem State.Canonical.msixFlush (h : s.Canonical) : (s.msixFlush).Canonical := by
  unfold State.msixFlush
  grind [msixSignal, withHst, foldl]

theorem State.Canonical.clearLatch (h : s.Canonical) (t) : (s.clearLatch t).Canonical := by
  unfold State.clearLatch
  grind [withEv]

theorem execTargetSignal_canonical (h : s.Canonical) (t gap old) : (execTargetSignal t gap old s).Canonical := by
  unfold execTargetSignal
  grind [msixSignal, clearLatch, withEv, Res.Canonical]

theorem execCoreHandlerEntry_canonical (h : s.Canonical) (c) : (execCoreHandlerEntry c s).Canonical := by
  unfold execCoreHandlerEntry
  grind [clearLatch, wr, setCxAt, Res.Canonical]

theorem State.Canonical.restartCore (h : s.Canonical) (c) : (s.restartCore c).Canonical :=
  ((foldl (fun _ _ h => h.clrBit _ _) _ h |>.setCxAt _ _).withEvOrd _ _).wr _ _

theorem State.Canonical.goRestart (h : s.Canonical) (h c) : (s.goRestart h c).Canonical := by
  unfold State.goRestart
  grind [restartCore]

theorem execSmCoreRestart_canonical (h : s.Canonical) (h c) : (execSmCoreRestart h c s).Canonical := by
  unfold execSmCoreRestart
  grind [goRestart, Res.Canonical]

theorem execStageDoorCoreRestart_canonical (h : s.Canonical) : (execStageDoorCoreRestart s).Canonical := by
  unfold execStageDoorCoreRestart
  grind [restartCore, foldl, Res.Canonical]

theorem State.Canonical.writeXqRd (h : s.Canonical) (h rd) : (s.writeXqRd h rd).Canonical := by
  unfold State.writeXqRd
  grind [wr]

theorem execSmxXqRdWrite_canonical (h : s.Canonical) (h rd) : (execSmxXqRdWrite h rd s).Canonical := by
  unfold execSmxXqRdWrite
  grind [writeXqRd, Res.Canonical]

theorem execEvclaim_canonical (h : s.Canonical) (u f) : (execEvclaim u f s).Canonical :=
  issue_canonical h (by grind [setCx, withEv, Body.Canonical])

theorem execEvclaimCommit_canonical (h : s.Canonical) (c) : (execEvclaimCommit c s).Canonical := by
  unfold execEvclaimCommit
  grind [setCxAt, setBit, clrBit, settleLatches, satAdd, withEv, Res.Canonical]

theorem State.Canonical.eventDone (h : s.Canonical) (c i) : (s.eventDone c i).Canonical := by
  unfold State.eventDone
  grind [clrBit, satAdd, withEv]

theorem execEvdone_canonical (h : s.Canonical) (u f) : (execEvdone u f s).Canonical :=
  issue_canonical h (by grind [eventDone, Body.Canonical])

theorem execWfe_canonical (h : s.Canonical) (u f) : (execWfe u f s).Canonical :=
  issue_canonical h (by grind [Body.Canonical])

theorem execWfeWake_canonical (h : s.Canonical) (c timeout) : (execWfeWake c timeout s).Canonical := by
  unfold execWfeWake
  grind [setCxAt, clearLatch, Res.Canonical]

theorem execRaise_canonical (h : s.Canonical) (u f) : (execRaise u f s).Canonical :=
  issue_canonical h (by grind [softRaise, Body.Canonical])

/-! ### The switch -/

theorem State.Canonical.setSw (h : s.Canonical) (w) : (s.setSw w).Canonical := by
  unfold State.setSw
  grind [withSw]

theorem State.Canonical.enqueue (h : s.Canonical) (port x) : (s.enqueue port x).Canonical := by
  unfold State.enqueue
  grind [setSw]

theorem State.Canonical.setLink (h : s.Canonical) (n l) : (s.setLink n l).Canonical := by
  unfold State.setLink
  grind [setSw]

theorem State.Canonical.flitOut (h : s.Canonical) (n seq nak f) : (s.flitOut n seq nak f).Canonical := by
  unfold State.flitOut
  grind [send]

theorem State.Canonical.flitSend (h : s.Canonical) (n f) : (s.flitSend n f).Canonical := by
  unfold State.flitSend
  grind [setLink, flitOut]

theorem State.Canonical.idleSend (h : s.Canonical) (n nak) : (s.idleSend n nak).Canonical := by
  unfold State.idleSend
  grind [flitOut]

theorem State.Canonical.creditSend (h : s.Canonical) (n c k) : (s.creditSend n c k).Canonical := by
  unfold State.creditSend
  grind [flitSend]

theorem State.Canonical.hopCredit (h : s.Canonical) (i c) : (s.hopCredit i c).Canonical := by
  unfold State.hopCredit
  grind [creditSend]

theorem State.Canonical.portFailed (h : s.Canonical) (n) : (s.portFailed n).Canonical := by
  unfold State.portFailed
  grind [setSw, setLink, wr]

theorem State.Canonical.depart (h : s.Canonical) (port c p) : (s.depart port c p).Canonical := by
  unfold State.depart
  grind [setSw, flitSend, satAdd, send]

theorem State.Canonical.colour (h : s.Canonical) (i c) : (s.colour i c).1.Canonical := by
  unfold State.colour
  grind [setSw]

theorem State.Canonical.judgeDrop (h : s.Canonical) (i port c k) : (s.judgeDrop i port c k).1.Canonical := by
  unfold State.judgeDrop
  grind [setSw]

theorem State.Canonical.dropFab (h : s.Canonical) (p) : (s.dropFab p).Canonical := by
  unfold State.dropFab
  grind [setSw, credTo, ledgerAdd, satAdd]

theorem State.Canonical.switchAdmit (h : s.Canonical) (i port k p credit) : (s.switchAdmit i port k p credit).Canonical := by
  unfold State.switchAdmit
  grind [judgeDrop, dropFab, depart, hopCredit, enqueue]

theorem State.Canonical.switchJoin (h : s.Canonical) (i port p credit) : (s.switchJoin i port p credit).Canonical := by
  unfold State.switchJoin
  grind [colour, switchAdmit]

theorem State.Canonical.voidRed (h : s.Canonical) (n) : (s.voidRed n).Canonical := by
  unfold State.voidRed
  grind [setSw, raise, satAdd]

theorem State.Canonical.switchRoute (h : s.Canonical) (i p) : (s.switchRoute i p).Canonical := by
  unfold State.switchRoute
  grind [setSw, hopCredit, satAdd, colour, switchAdmit, voidRed, switchJoin, dropFab]

theorem State.Canonical.switchArrive (h : s.Canonical) (i raw) : (s.switchArrive i raw).Canonical := by
  unfold State.switchArrive
  grind [hopCredit, raise, satAdd, setSw, depart, switchRoute]

theorem execSwitchInputArrival_canonical (h : s.Canonical) (i p) : (execSwitchInputArrival i p s).Canonical := by
  unfold execSwitchInputArrival
  grind [switchArrive, Res.Canonical]

theorem execTokenRefill_canonical (h : s.Canonical) : (execTokenRefill s).Canonical := by
  unfold execTokenRefill
  grind [setSw, foldl, Res.Canonical]

theorem State.Canonical.releaseHeld (h : s.Canonical) (i c) : (s.releaseHeld i c).Canonical := by
  unfold State.releaseHeld
  grind [switchRoute, setSw, foldl]

theorem State.Canonical.copyGo (h : s.Canonical) (i fuel) : (s.copyGo i fuel).Canonical := by
  induction fuel generalizing s with
  | zero => exact h
  | succ fuel ih =>
    unfold State.copyGo
    grind [judgeDrop, enqueue, setSw, hopCredit, releaseHeld]

theorem execMulticastCopy_canonical (h : s.Canonical) (i) : (execMulticastCopy i s).Canonical := by
  unfold execMulticastCopy
  grind [copyGo, Res.Canonical]

theorem State.Canonical.popCell (h : s.Canonical) (port c) : (s.popCell port c).Canonical := by
  unfold State.popCell
  grind [setSw, hopCredit, depart]

theorem execCellTimeMatch_canonical (h : s.Canonical) : (execCellTimeMatch s).Canonical := by
  unfold execCellTimeMatch
  grind [popCell, setSw, foldl, Res.Canonical]

theorem State.Canonical.redResult (h : s.Canonical) (n a b) : (s.redResult n a b).Canonical := by
  unfold State.redResult
  grind [setSw, switchRoute, enqueue, dropFab]

theorem execTallyMerge_canonical (h : s.Canonical) : (execTallyMerge s).Canonical := by
  unfold execTallyMerge
  grind [hopCredit, setSw, credTo, switchJoin, dropFab, ledgerAdd, redResult, Res.Canonical]

theorem State.Canonical.freeVoid (h : s.Canonical) : (s.freeVoid).Canonical := by
  unfold State.freeVoid
  grind [setSw]

theorem State.Canonical.switchAudit (h : s.Canonical) : (s.switchAudit).1.Canonical := by
  unfold State.switchAudit
  grind [setSw, raise, wr]

theorem execSweepEnd_canonical (h : s.Canonical) : (execSweepEnd s).Canonical := by
  unfold execSweepEnd
  grind [setSw, raise, satAdd, ledgerAdd, Res.Canonical]

theorem State.Canonical.portEnable (h : s.Canonical) (n en) : (s.portEnable n en).Canonical := by
  unfold State.portEnable
  grind [wr, portFailed]

theorem execEfhPortEn_canonical (h : s.Canonical) (h n en) : (execEfhPortEn h n en s).Canonical := by
  unfold execEfhPortEn
  grind [portEnable, Res.Canonical]

theorem State.Canonical.portMove (h : s.Canonical) (n from_ to_) : (s.portMove n from_ to_).Canonical := by
  unfold State.portMove
  grind [wr]

theorem execTrainComplete_canonical (h : s.Canonical) (n) : (execTrainComplete n s).Canonical := by
  unfold execTrainComplete
  grind [portMove, wr, Res.Canonical]

theorem execTrainTimeout_canonical (h : s.Canonical) (n) : (execTrainTimeout n s).Canonical := by
  unfold execTrainTimeout
  grind [portMove, Res.Canonical]

theorem execAlignLock_canonical (h : s.Canonical) (n) : (execAlignLock n s).Canonical := by
  unfold execAlignLock
  grind [send, portMove, Res.Canonical]

theorem execAlignTimeout_canonical (h : s.Canonical) (n) : (execAlignTimeout n s).Canonical := by
  unfold execAlignTimeout
  grind [portFailed, Res.Canonical]

theorem execNegotiate_canonical (h : s.Canonical) (n level dev) : (execNegotiate n level dev s).Canonical := by
  unfold execNegotiate
  grind [portFailed, wr, raise, Res.Canonical]

theorem State.Canonical.portsUp (h : s.Canonical) : (s.portsUp).Canonical := by
  unfold State.portsUp
  grind [setLink, wr, creditSend, foldl]

theorem execFecLockLoss_canonical (h : s.Canonical) (n) : (execFecLockLoss n s).Canonical := by
  unfold execFecLockLoss
  grind [portFailed, Res.Canonical]

theorem State.Canonical.linkAck (h : s.Canonical) (n ack) : (s.linkAck n ack).Canonical := by
  unfold State.linkAck
  grind [flitSend, setLink, foldl]

theorem State.Canonical.linkNak (h : s.Canonical) (n ack) : (s.linkNak n ack).Canonical := by
  unfold State.linkNak
  grind [linkAck, raise, portFailed, satAdd, setLink, flitOut, foldl]

theorem execNak_canonical (h : s.Canonical) (n ack) : (execNak n ack s).Canonical := by
  unfold execNak
  grind [linkNak, Res.Canonical]

theorem State.Canonical.slotArrive (h : s.Canonical) (n raw) : (s.slotArrive n raw).Canonical := by
  unfold State.slotArrive
  grind [hopCredit, satAdd, switchArrive]

theorem execFlitReceive_canonical (h : s.Canonical) (n f fec) : (execFlitReceive n f fec s).Canonical := by
  unfold execFlitReceive
  grind [satAdd, linkAck, linkNak, idleSend, setLink, setSw, slotArrive, foldl, Res.Canonical]

/-! ### Search orders -/

theorem State.Canonical.readRanges (h : s.Canonical) (t tk rs) : (s.readRanges t tk rs).1.Canonical := by
  unfold State.readRanges
  grind [readAll]

theorem State.Canonical.srchCount (h : s.Canonical) (c) : (s.srchCount c).Canonical := by
  unfold State.srchCount
  grind [satAdd]

theorem State.Canonical.taskDone (h : s.Canonical) (x) : (s.taskDone x).Canonical := by
  unfold State.taskDone
  grind [send, wrapAdd]

theorem State.Canonical.taskStart (h : s.Canonical) (x ce free) : (s.taskStart x ce free).Canonical := by
  unfold State.taskStart
  grind [taskDone, srchCount, withSrch]

theorem State.Canonical.takeTasks (h : s.Canonical) (fuel) : (s.takeTasks fuel).Canonical := by
  induction fuel generalizing s with
  | zero => exact h
  | succ fuel ih =>
    unfold State.takeTasks
    grind [withSrch, taskStart]

theorem State.Canonical.pumpTasks (h : s.Canonical) : (s.pumpTasks).Canonical := by
  unfold State.pumpTasks
  grind [takeTasks]

theorem execSearchTask_canonical (h : s.Canonical) (src part id q index shard clsR k w probes require exclude code) : (execSearchTask src part id
    q index shard clsR k w probes require exclude code s).Canonical := by
  unfold execSearchTask
  grind [pumpTasks, withSrch, Res.Canonical]

theorem State.Canonical.srchRead (h : s.Canonical) (ce n) : (s.srchRead ce n).Canonical := by
  fun_cases State.srchRead s ce n <;> grind [readRanges, srchCount, withSrch, taskDone, pumpTasks]

theorem execGmemComplete_canonical (h : s.Canonical) (t c n) : (execGmemComplete t c n s).Canonical := by
  unfold execGmemComplete
  grind [srchRead, gmemNext, Res.Canonical]

theorem State.Canonical.rehomeTask (h : s.Canonical) (x) : (s.rehomeTask x).Canonical := by
  unfold State.rehomeTask
  grind [satAdd, withSrch]

theorem State.Canonical.startSearch (h : s.Canonical) : (s.startSearch).Canonical := by
  unfold State.startSearch
  grind [pumpTasks, rehomeTask, withSrch, foldl]

theorem State.Canonical.spillBytes (h : s.Canonical) : (s.spillBytes).2.Canonical := by
  unfold State.spillBytes
  grind [withFree]

theorem execSearchSpill_canonical (h : s.Canonical) (t) : (execSearchSpill t s).Canonical := by
  unfold execSearchSpill
  grind [spillBytes, hubBytes, withSrch, foldl, Res.Canonical]

theorem State.Canonical.restartTasks (h : s.Canonical) (lost) : (s.restartTasks lost).Canonical := by
  unfold State.restartTasks
  grind [satAdd, withSrch]

theorem State.Canonical.takeSearch (h : s.Canonical) : (s.takeSearch).Canonical := by
  unfold State.takeSearch
  grind [satAdd, restartTasks, withSrch]

theorem State.Canonical.dropTasks (h : s.Canonical) (p) : (s.dropTasks p).Canonical := by
  unfold State.dropTasks
  grind [withSrch]

theorem State.Canonical.setJobS (h : s.Canonical) (j) : (s.setJobS j).Canonical := by
  unfold State.setJobS
  grind [withSrch]

theorem State.Canonical.srchDone (h : s.Canonical) (o status) : (s.srchDone o status).Canonical := by
  unfold State.srchDone
  grind [finishOrder, withSrch]

theorem State.Canonical.sendTasks (h : s.Canonical) (o j q x) : (s.sendTasks o j q x).1.Canonical := by
  unfold State.sendTasks
  grind [send, lostTo, foldl, foldl_fst]

theorem State.Canonical.srchWrite (h : s.Canonical) (o c fuel) : (s.srchWrite o c fuel).Canonical := by
  induction fuel generalizing s with
  | zero => exact h
  | succ fuel ih =>
    unfold State.srchWrite
    grind [srchDone, after, storeBytes, satAdd, setJobS]

theorem State.Canonical.srchSend (h : s.Canonical) (o c fuel) : (s.srchSend o c fuel).Canonical := by
  induction fuel generalizing s with
  | zero => exact h
  | succ fuel ih =>
    unfold State.srchSend
    grind [srchWrite, after, fetchBuf, setJobS, sendTasks, srchDone]

theorem execSearchOrder_canonical (h : s.Canonical) (n k) : (execSearchOrder n k s).Canonical := by
  fun_cases execSearchOrder n k s <;>
    grind [Res.Canonical, srchDone, serving, withEfh, setJobS,
      srchSend]

theorem State.Canonical.queryEnd (h : s.Canonical) (o j q x) : (s.queryEnd o j q x).1.Canonical := by
  unfold State.queryEnd
  grind [sendTasks]

theorem execShardResult_canonical (h : s.Canonical) (id q shard dead visited skipped list) : (execShardResult id q shard dead visited skipped list
    s).Canonical := by
  unfold execShardResult
  grind [queryEnd, setJobS, srchWrite, foldl, Res.Canonical]

theorem State.Canonical.srchLost (h : s.Canonical) (d) : (s.srchLost d).Canonical := by
  unfold State.srchLost
  grind [lostTo, setJobS, foldl]

/-! ### Commands of a unit -/

theorem execUnitStart_canonical (h : s.Canonical) (t unit) : (execUnitStart t unit s).Canonical := by
  unfold execUnitStart
  grind [startUnit, ungate, Res.Canonical]

theorem execDeliveryMiss_canonical (h : s.Canonical) (t unit) : (execDeliveryMiss t unit s).Canonical := by
  unfold execDeliveryMiss
  grind [missUnit, Res.Canonical]

theorem execCompletionMiss_canonical (h : s.Canonical) (t unit) : (execCompletionMiss t unit s).Canonical := by
  unfold execCompletionMiss
  grind [missUnit, Res.Canonical]

theorem execUnderstudyLeadMiss_canonical (h : s.Canonical) (t unit) : (execUnderstudyLeadMiss t unit s).Canonical := by
  unfold execUnderstudyLeadMiss
  grind [missUnit, Res.Canonical]

theorem execMeshParcelArrival_canonical (h : s.Canonical) (t dir head body) : (execMeshParcelArrival t dir head body s).Canonical := by
  unfold execMeshParcelArrival
  grind [meshArrive, Res.Canonical]

theorem execHopCreditReturn_canonical (h : s.Canonical) (t dir vl) : (execHopCreditReturn t dir vl s).Canonical := by
  unfold execHopCreditReturn
  grind [hopReturn, Res.Canonical]

theorem execCredParcel_canonical (h : s.Canonical) (t pairs) : (execCredParcel t pairs s).Canonical := by
  unfold execCredParcel
  grind [credArrive, Res.Canonical]

theorem execCancelParcel_canonical (h : s.Canonical) (t route unit cue delivery) : (execCancelParcel t route unit cue delivery s).Canonical := by
  unfold execCancelParcel
  grind [cancelArrive, Res.Canonical]

theorem execStatusRecordArrival_canonical (h : s.Canonical) (t unit status) : (execStatusRecordArrival t unit status s).Canonical := by
  unfold execStatusRecordArrival
  grind [statusArrive, Res.Canonical]

theorem execCeLogicFault_canonical (h : s.Canonical) (t) : (execCeLogicFault t s).Canonical := by
  unfold execCeLogicFault
  grind [logicFault, Res.Canonical]

theorem execClockGate_canonical (h : s.Canonical) (r) : (execClockGate r s).Canonical := by
  unfold execClockGate
  grind [wr, Res.Canonical]

/-! ### Outboxes and Inboxes -/

theorem State.Canonical.setTail (h : s.Canonical) (q x) : (s.setTail q x).Canonical := by
  unfold State.setTail
  grind [withOrd]

theorem execOutboxNotice_canonical (h : s.Canonical) (p i) : (execOutboxNotice p i s).Canonical := by
  fun_cases execOutboxNotice p i s
  case case3 => exact h.satAdd _ _
  case case4 => exact ((h.satAdd _ _).withOrd _).raise _
  case case5 => exact h.setTail _ _
  all_goals exact h

theorem execInboxHeadWrite_canonical (h : s.Canonical) (p j) : (execInboxHeadWrite p j s).Canonical := by
  fun_cases execInboxHeadWrite p j s
  · exact h
  · exact h.setTail _ _
  · exact h

theorem State.Canonical.stall (h : s.Canonical) (q) : (s.stall q).Canonical := by
  unfold State.stall
  grind [satAdd, withOrd]

theorem execWorkOrderFetch_canonical (h : s.Canonical) (p i) : (execWorkOrderFetch p i s).Canonical := by
  unfold execWorkOrderFetch
  grind [reserveSlot, stall, access, wr, complete, withOrd, Res.Canonical]

theorem State.Canonical.takeBoxes (h : s.Canonical) (ch) : (s.takeBoxes ch).Canonical := by
  unfold State.takeBoxes
  grind [setTail, wr, foldl]

theorem State.Canonical.setStream (h : s.Canonical) (key x) : (s.setStream key x).Canonical := by
  unfold State.setStream
  grind [withOrd]

theorem State.Canonical.dropStream (h : s.Canonical) (key o) : (s.dropStream key o).Canonical := by
  unfold State.dropStream
  grind [dropOrder, withOrd]

theorem execRunPlan_canonical (h : s.Canonical) (n) : (execRunPlan n s).Canonical := by
  unfold execRunPlan
  grind [complete, setStream, setOrder, Res.Canonical]

theorem State.Canonical.feedStream (h : s.Canonical) (key x) : (s.feedStream key x).Canonical := by
  unfold State.feedStream
  grind [reserveSlot, stall, setStream, hubWrite]

theorem State.Canonical.feedStreams (h : s.Canonical) : (s.feedStreams).Canonical := by
  unfold State.feedStreams
  grind [feedStream, foldl]

theorem State.Canonical.endStream (h : s.Canonical) (key x status) : (s.endStream key x status).Canonical := by
  unfold State.endStream
  grind [reserveSlot, stall, record, dropStream]

theorem State.Canonical.recordStream (h : s.Canonical) (key x) : (s.recordStream key x).Canonical := by
  unfold State.recordStream
  grind [endStream, setStream, hubWrite, dropStream, record]

theorem State.Canonical.recordStreams (h : s.Canonical) : (s.recordStreams).Canonical := by
  unfold State.recordStreams
  grind [recordStream, foldl]

theorem State.Canonical.linesEnd (h : s.Canonical) (o status i) : (s.linesEnd o status i).Canonical := by
  unfold State.linesEnd
  grind [finishOrder]

theorem State.Canonical.copyLines (h : s.Canonical) (k fuel o) : (s.copyLines k fuel o).Canonical := by
  induction fuel generalizing s o with
  | zero => exact h
  | succ fuel ih =>
    unfold State.copyLines
    grind [linesEnd, writeVa, setOrder, ctxFault, readVa]

theorem State.Canonical.fillLines (h : s.Canonical) (k fuel o) : (s.fillLines k fuel o).Canonical := by
  induction fuel generalizing s o with
  | zero => exact h
  | succ fuel ih =>
    unfold State.fillLines
    grind [linesEnd, writeVa, setOrder, ctxFault]

theorem State.Canonical.linesOrder (h : s.Canonical) (n k op len) {go} (hgo : ∀ s o, s.Canonical → (go s o).Canonical) : (s.linesOrder n k op len
    go).Canonical := by
  unfold State.linesOrder
  grind [complete, finishOrder, serving, linesEnd]

theorem execCopyOrder_canonical (h : s.Canonical) (n k) : (execCopyOrder n k s).Canonical := by
  unfold execCopyOrder
  grind [linesOrder, copyLines, Res.Canonical]

theorem execFillOrder_canonical (h : s.Canonical) (n k) : (execFillOrder n k s).Canonical := by
  unfold execFillOrder
  grind [linesOrder, fillLines, Res.Canonical]

theorem State.Canonical.stagePair (h : s.Canonical) (p x v) : (s.stagePair p x v).Canonical := by
  unfold State.stagePair
  grind [bookWrite, frameWrite, stageReg]

theorem State.Canonical.stagePairs (h : s.Canonical) (o k) : (s.stagePairs o k).Canonical := by
  unfold State.stagePairs
  grind [finishOrder, setOrder, unserve, stagePair, goCheck, foldl]

theorem State.Canonical.breakSheet (h : s.Canonical) (o) : (s.breakSheet o).Canonical := by
  unfold State.breakSheet
  grind [finishOrder, abandon]

theorem execCallSheet_canonical (h : s.Canonical) (n k) : (execCallSheet n k s).Canonical := by
  have hcore : ∀ {c : Prop} [Decidable c] {o₁ o₂ t o}, (if c then (s.setOrder o₁, o₁) else (s, o₂)) = (t, o) → t.Canonical := by
    grind [setOrder]
  fun_cases execCallSheet n k s
  case case4 => exact h.complete _ _ _
  case case5 => exact h.breakSheet _
  case case8 | case10 | case17 => exact hcore ‹_›
  case case9 | case13 | case14 => exact (hcore ‹_›).complete _ _ _
  case case11 => exact ((hcore ‹_›).writeTakeCue _ _ _).setOrder _
  case case12 => exact ((hcore ‹_›).writeTakeCue _ _ _).complete _ _ _
  case case15 | case16 => exact (hcore ‹_›).finishOrder _ _ _
  case case18 => exact ((hcore ‹_›).serving _ _ ‹_›).stagePairs _ _
  case case19 => exact (((hcore ‹_›).serving _ _ ‹_›).fetchBuf _ _ _ _).of_fst ‹_›
  case case20 => exact ((((hcore ‹_›).serving _ _ ‹_›).fetchBuf _ _ _ _).of_fst ‹_›).finishOrder _ _ _
  case case21 => exact ((((hcore ‹_›).serving _ _ ‹_›).fetchBuf _ _ _ _).of_fst ‹_›).stagePairs _ _
  all_goals exact h

theorem State.Canonical.sheetTaken (h : s.Canonical) : (s.sheetTaken).Canonical := by
  unfold State.sheetTaken
  grind [complete]

theorem execResumeOrder_canonical (h : s.Canonical) (n) : (execResumeOrder n s).Canonical := by
  unfold execResumeOrder
  grind [complete, ctxAction, Res.Canonical]

theorem execAdmitOrder_canonical (h : s.Canonical) (n failed) : (execAdmitOrder n failed s).Canonical := by
  unfold execAdmitOrder
  grind [complete, setOrder, Res.Canonical]

theorem State.Canonical.admitDone (h : s.Canonical) (d) : (s.admitDone d).Canonical := by
  unfold State.admitDone
  grind [complete, foldl]

theorem State.Canonical.curtainOrders (h : s.Canonical) (p) : (s.curtainOrders p).Canonical := by
  unfold State.curtainOrders
  grind [endStream, finishOrder, srchDone, embDone, foldl]

/-! ### Resilience -/

theorem State.Canonical.imbalance (h : s.Canonical) (p n) : (s.imbalance p n).Canonical := by
  unfold State.imbalance
  grind [satAdd, raise, setBit]

theorem State.Canonical.auditLedgers (h : s.Canonical) : (s.auditLedgers).1.Canonical := by
  unfold State.auditLedgers
  grind [satAdd, imbalance, withRes, foldl, foldl_fst]

theorem State.Canonical.abortStep (h : s.Canonical) (p) : (s.abortStep p).Canonical := by
  unfold State.abortStep
  grind [raise, setBit]

theorem State.Canonical.resetRoute (h : s.Canonical) (t i) : (s.resetRoute t i).Canonical := by
  unfold State.resetRoute
  grind [setTroupe, dropTok, ledgerAdd, foldl]

theorem execLedgerRouteReset_canonical (h : s.Canonical) (p) : (execLedgerRouteReset p s).Canonical := by
  unfold execLedgerRouteReset
  grind [resetRoute, withRes, foldl, Res.Canonical]

theorem State.Canonical.reestablish (h : s.Canonical) (p) : (s.reestablish p).Canonical :=
  ((foldl (fun _ t h => h.setTroupe t _) _ h).ledgerAdd _).of_same rfl rfl rfl rfl rfl rfl rfl

theorem State.Canonical.curtainCtx (h : s.Canonical) (k) : (s.curtainCtx k).Canonical := by
  unfold State.curtainCtx
  grind [cancelDelivery, setCtx, discardFault, endWork]

theorem State.Canonical.curtainGops (h : s.Canonical) (p) : (s.curtainGops p).Canonical := by
  unfold State.curtainGops
  grind [endGop, endAtom, foldl]

theorem State.Canonical.curtainReds (h : s.Canonical) (p) : (s.curtainReds p).Canonical := by
  unfold State.curtainReds
  grind [voidRed, foldl]

theorem State.Canonical.lowerCurtain (h : s.Canonical) (p) : (s.lowerCurtain p).Canonical := by
  unfold State.lowerCurtain
  grind [raise, satAdd, setBit, cancelUnit, ledgerAdd, curtainCtx, dropTasks, curtainOrders, curtainGops, abandon, curtainReds, reestablish,
    withRes, foldl]

theorem State.Canonical.liftCurtains (h : s.Canonical) : (s.liftCurtains).Canonical := by
  unfold State.liftCurtains
  grind [clrBit, foldl]

theorem State.Canonical.fabricLost (h : s.Canonical) (d) : (s.fabricLost d).Canonical := by
  unfold State.fabricLost
  grind [winErr, lostTo, copyAnswered, withEfh, foldl]

theorem State.Canonical.fence (h : s.Canonical) : (s.fence).Canonical := by
  unfold State.fence
  grind [raise, wr, lowerCurtain, teardown, fabricLost, foldl]

theorem State.Canonical.settleLeader (h : s.Canonical) : (s.settleLeader).Canonical := by
  unfold State.settleLeader
  grind [wr, withRes]

theorem State.Canonical.endLoansTo (h : s.Canonical) (d) : (s.endLoansTo d).Canonical := by
  unfold State.endLoansTo
  grind [endLend, foldl]

theorem State.Canonical.noteLost (h : s.Canonical) (d) : (s.noteLost d).Canonical := by
  unfold State.noteLost
  grind [withRes]

theorem State.Canonical.takeVerdict (h : s.Canonical) (d) : (s.takeVerdict d).Canonical := by
  unfold State.takeVerdict
  grind [raise, wrapAdd, clrBit, fence, endLoansTo, settleLeader, fabricLost, noteLost, srchLost, embLost, regionsLost, lowerCurtain, foldl]

theorem State.Canonical.takeRhVerdict (h : s.Canonical) (d) : (s.takeRhVerdict d).Canonical := by
  unfold State.takeRhVerdict
  grind [lowerCurtain, withRes, foldl]

theorem State.Canonical.takePostmark (h : s.Canonical) : (s.takePostmark).Canonical := by
  unfold State.takePostmark
  grind [wr, takeVerdict, takeRhVerdict, withRes, foldl]

theorem execPostcard_canonical (h : s.Canonical) (src cue ofs flags coord heard suspect verdict rhSuspect rhVerdict skewPs) : (execPostcard src
    cue ofs flags coord heard suspect verdict rhSuspect rhVerdict skewPs s).Canonical := by
  unfold execPostcard
  grind [satAdd, wr, raise, clrBit, unpend, withRes, Res.Canonical]

theorem execSuspect_canonical (h : s.Canonical) (j) : (execSuspect j s).Canonical := by
  unfold execSuspect
  grind [raise, setBit, Res.Canonical]

theorem execQuorumLoss_canonical (h : s.Canonical) : (execQuorumLoss s).Canonical := by
  unfold execQuorumLoss
  grind [fence, Res.Canonical]

theorem State.Canonical.restoreUnit (h : s.Canonical) (u lines) : (s.restoreUnit u lines).Canonical := by
  unfold State.restoreUnit
  grind [hubLine, withRes, foldl]

theorem State.Canonical.missingUnit (h : s.Canonical) (u) : (s.missingUnit u).Canonical := by
  unfold State.missingUnit
  grind [satAdd, hubLine, foldl]

theorem State.Canonical.chooseSlot (h : s.Canonical) (u step) : (s.chooseSlot u step).2.Canonical := by
  unfold State.chooseSlot
  grind [withStore]

theorem State.Canonical.restoreEnd (h : s.Canonical) (r) : (s.restoreEnd r).Canonical := by
  unfold State.restoreEnd
  grind [raise, wr]

theorem State.Canonical.settleReady (h : s.Canonical) : (s.settleReady).Canonical := by
  unfold State.settleReady
  grind [wr, withStore]

theorem State.Canonical.goRestore (h : s.Canonical) (h slots) : (s.goRestore h slots).Canonical := by
  unfold State.goRestore
  grind [restoreEnd, wr, restoreUnit, missingUnit, chooseSlot, send, foldl]

theorem execRestoreGo_canonical (h : s.Canonical) (h slots) : (execRestoreGo h slots s).Canonical := by
  unfold execRestoreGo
  grind [goRestore, Res.Canonical]

theorem execRestoreDone_canonical (h : s.Canonical) : (execRestoreDone s).Canonical := by
  unfold execRestoreDone
  grind [settleReady, restoreEnd, Res.Canonical]

theorem execRslAdmitGo_canonical (h : s.Canonical) (h) : (execRslAdmitGo h s).Canonical := by
  unfold execRslAdmitGo
  grind [wr, Res.Canonical]

theorem execSelftestDone_canonical (h : s.Canonical) (pass) : (execSelftestDone pass s).Canonical := by
  unfold execSelftestDone
  grind [settleReady, raise, wr, Res.Canonical]

theorem State.Canonical.admitDevices (h : s.Canonical) (added) : (s.admitDevices added).Canonical := by
  unfold State.admitDevices
  grind [wr, raise, reestablish, settleLeader, admitDone, withRes, foldl]

theorem State.Canonical.resumeParts (h : s.Canonical) : (s.resumeParts).Canonical := by
  unfold State.resumeParts
  grind [reestablish, withRes, foldl]

theorem State.Canonical.ageInjection (h : s.Canonical) : (s.ageInjection).Canonical := by
  unfold State.ageInjection
  grind [wr, withRes]

theorem execRehearsalInjection_canonical (h : s.Canonical) : (execRehearsalInjection s).Canonical := by
  unfold execRehearsalInjection
  grind [wr, wrapAdd, raise, withRes, Res.Canonical]

theorem State.Canonical.rhRejoin (h : s.Canonical) : (s.rhRejoin).Canonical := by
  unfold State.rhRejoin
  grind [withRes, foldl]

theorem State.Canonical.corrected (h : s.Canonical) : (s.corrected).Canonical := by
  unfold State.corrected
  grind [satAdd]

theorem State.Canonical.cacheError (h : s.Canonical) (a line cw) : (s.cacheError a line cw).Canonical := by
  unfold State.cacheError
  grind [agentDo, replaceCopy, noteUE, setCopy]

theorem State.Canonical.slotError (h : s.Canonical) (k) : (s.slotError k).Canonical := by
  unfold State.slotError
  grind [badChunk, noteUE]

theorem State.Canonical.cellError (h : s.Canonical) (n) : (s.cellError n).Canonical := by
  unfold State.cellError
  grind [setSw, raise, satAdd, hopCredit]

theorem execScrub_canonical (h : s.Canonical) (arr cw bits) : (execScrub arr cw bits s).Canonical := by
  unfold execScrub
  grind [scrubStore, corrected, noteUE, cacheError, slotError, cellError, logicFault, withCoh, withTrp, withBook, Res.Canonical]

/-! ### Resets, boot and registers -/

theorem State.Canonical.onDoor (h : s.Canonical) (f) : (s.onDoor f).Canonical := by
  unfold State.onDoor
  grind [withDoor]

theorem State.Canonical.deviceReset (h : s.Canonical) (warm cause) : (s.deviceReset warm cause).Canonical := by
  unfold State.deviceReset
  extract_lets base r₁ r₂ r₃ r₄
  have hbase : base.Canonical := by
    refine ⟨rfl, rfl, rfl, rfl, rfl, ?_, ?_⟩
    · cases warm
      · rfl
      · exact h.mem
    · cases warm
      · exact SMap.sorted_filter _ h.regs
      · exact SMap.sorted_filter _ h.regs
  have h₂ : r₂.Canonical := by grind [wr, satAdd]
  grind [wr, raise]

theorem execColdReset_canonical (h : s.Canonical) : (execColdReset s).Canonical := by
  unfold execColdReset
  grind [onDoor, deviceReset, Res.Canonical]

theorem execWarmReset_canonical (h : s.Canonical) (cause) : (execWarmReset cause s).Canonical := by
  unfold execWarmReset
  grind [deviceReset, Res.Canonical]

theorem State.Canonical.goReset (h : s.Canonical) (h warm) : (s.goReset h warm).Canonical := by
  unfold State.goReset
  grind [deviceReset]

theorem State.Canonical.setMeas (h : s.Canonical) (k m) : (s.setMeas k m).Canonical := by
  unfold State.setMeas
  grind [wr, foldl]

theorem State.Canonical.extend (h : s.Canonical) (k value) : (s.extend k value).Canonical := by
  unfold State.extend
  grind [setMeas]

theorem State.Canonical.extendFree (h : s.Canonical) (k) : (s.extendFree k).Canonical := by
  unfold State.extendFree
  grind [fresh, setMeas]

theorem State.Canonical.digestOf (h : s.Canonical) (kind slot) : (s.digestOf kind slot).2.Canonical := by
  unfold State.digestOf
  grind [fresh, onDoor]

theorem State.Canonical.svnOf (h : s.Canonical) (kind slot) : (s.svnOf kind slot).2.Canonical := by
  unfold State.svnOf
  grind [fresh, onDoor]

theorem State.Canonical.clocksUp (h : s.Canonical) : (s.clocksUp).Canonical := by
  unfold State.clocksUp
  grind [wr, foldl]

theorem State.Canonical.bootKind (h : s.Canonical) (fails kind) : (s.bootKind fails kind).1.Canonical := by
  unfold State.bootKind
  grind [raise, wr]

theorem State.Canonical.measureBoot (h : s.Canonical) : (s.measureBoot).Canonical := by
  unfold State.measureBoot
  grind [digestOf, extend, extendFree, foldl]

theorem State.Canonical.loadCode (h : s.Canonical) (stores ws) : (s.loadCode stores ws).Canonical := by
  unfold State.loadCode
  grind [withProc, foldl]

theorem State.Canonical.loadBoot (h : s.Canonical) : (s.loadBoot).Canonical := by
  unfold State.loadBoot
  grind [setCxAt, loadCode, foldl]

theorem execBootDone_canonical (h : s.Canonical) (fails) : (execBootDone fails s).Canonical := by
  unfold execBootDone
  grind [clocksUp, bootKind, wr, restartCore, loadBoot, measureBoot, raise, foldl, Res.Canonical]

theorem State.Canonical.applyRetired (h : s.Canonical) : (s.applyRetired).Canonical := by
  unfold State.applyRetired
  grind [moveTroupe, wr, foldl]

theorem State.Canonical.wingsUp (h : s.Canonical) : s.wingsUp.Canonical := by
  unfold State.wingsUp
  extract_lets pops ref odd s₁ s₂ s₃
  have h₂ : s₂.Canonical := ((h.wr _ _).wr _ _).wr _ _
  have h₃ : s₃.Canonical := foldl (by grind [setBit, channelFailed, foldl]) _ h₂
  exact foldl (by grind [wr, showRebuild]) _ h₃

theorem execStoreReady_canonical (h : s.Canonical) : (execStoreReady s).Canonical := by
  unfold execStoreReady
  grind [applyRetired, wr, wingsUp, raise, settleLeader, Res.Canonical]

theorem State.Canonical.imgWrite (h : s.Canonical) (kind) : (s.imgWrite kind).Canonical := by
  unfold State.imgWrite
  grind [wr, raise, onDoor]

theorem State.Canonical.imgArm (h : s.Canonical) (kind cue) : (s.imgArm kind cue).Canonical := by
  unfold State.imgArm
  grind [wr, onDoor]

theorem State.Canonical.imgCommit (h : s.Canonical) (kind) : (s.imgCommit kind).Canonical := by
  unfold State.imgCommit
  grind [wr, onDoor]

theorem State.Canonical.imgSvn (h : s.Canonical) (kind) : (s.imgSvn kind).Canonical := by
  unfold State.imgSvn
  grind [wr, svnOf, raise]

theorem State.Canonical.goImg (h : s.Canonical) (h) : (s.goImg h).Canonical := by
  unfold State.goImg
  grind [wr, imgWrite, imgArm, imgCommit, imgSvn]

theorem State.Canonical.imgCmd (h : s.Canonical) (h op kind cue) : (s.imgCmd h op kind cue).Canonical := by
  unfold State.imgCmd
  grind [wr, goImg]

theorem execImgWrite_canonical (h : s.Canonical) (h kind) : (execImgWrite h kind s).Canonical := by
  unfold execImgWrite
  grind [imgCmd, Res.Canonical]

theorem execImgArm_canonical (h : s.Canonical) (h kind cue) : (execImgArm h kind cue s).Canonical := by
  unfold execImgArm
  grind [imgCmd, Res.Canonical]

theorem execImgCommit_canonical (h : s.Canonical) (h kind) : (execImgCommit h kind s).Canonical := by
  unfold execImgCommit
  grind [imgCmd, Res.Canonical]

theorem execImgSvn_canonical (h : s.Canonical) (h kind) : (execImgSvn h kind s).Canonical := by
  unfold execImgSvn
  grind [imgCmd, Res.Canonical]

theorem State.Canonical.updateTaken (h : s.Canonical) (kind) : (s.updateTaken kind).Canonical := by
  unfold State.updateTaken
  grind [wr, digestOf, extend, setMeas, onDoor, raise]

theorem State.Canonical.revokeKeys (h : s.Canonical) : (s.revokeKeys).Canonical := by
  unfold State.revokeKeys
  grind [digestOf, wr]

theorem State.Canonical.takeFirmware (h : s.Canonical) : (s.takeFirmware).Canonical := by
  unfold State.takeFirmware
  grind [restartCore, setCxAt, loadCode, updateTaken, foldl]

theorem State.Canonical.takeDie (h : s.Canonical) (m) : (s.takeDie m).Canonical := by
  unfold State.takeDie
  grind [setCxAt, loadCode, foldl]

theorem State.Canonical.takeUpdates (h : s.Canonical) : (s.takeUpdates).Canonical := by
  unfold State.takeUpdates
  grind [takeFirmware, takeDie, updateTaken, onDoor, wr]

theorem State.Canonical.goCal (h : s.Canonical) (h) : (s.goCal h).Canonical := by
  unfold State.goCal
  grind [wr]

theorem execSecCalGo_canonical (h : s.Canonical) (h port lanes) : (execSecCalGo h port lanes s).Canonical := by
  unfold execSecCalGo
  grind [goCal, wr, Res.Canonical]

theorem execCalDone_canonical (h : s.Canonical) : (execCalDone s).Canonical := by
  unfold execCalDone
  grind [fresh, wr, onDoor, raise, extendFree, Res.Canonical]

theorem State.Canonical.wcDrain (h : s.Canonical) (ch done) : (s.wcDrain ch done).Canonical := by
  unfold State.wcDrain
  grind [raise, wr, channelFailed]

theorem State.Canonical.wcPowerOff (h : s.Canonical) (ch) : (s.wcPowerOff ch).Canonical := by
  unfold State.wcPowerOff
  grind [raise, wr, onDoor]

theorem State.Canonical.wcRetrain (h : s.Canonical) (ch ok) : (s.wcRetrain ch ok).Canonical := by
  unfold State.wcRetrain
  grind [raise, wr, onDoor, startCopyback]

theorem State.Canonical.goWc (h : s.Canonical) (h ok done) : (s.goWc h ok done).Canonical := by
  unfold State.goWc
  grind [wcDrain, wcPowerOff, wcRetrain]

theorem State.Canonical.wcCmd (h : s.Canonical) (h op ch ok done) : (s.wcCmd h op ch ok done).Canonical := by
  unfold State.wcCmd
  grind [goWc, wr]

theorem execWcDrain_canonical (h : s.Canonical) (h ch done) : (execWcDrain h ch done s).Canonical := by
  unfold execWcDrain
  grind [wcCmd, Res.Canonical]

theorem execWcPowerOff_canonical (h : s.Canonical) (h ch) : (execWcPowerOff h ch s).Canonical := by
  unfold execWcPowerOff
  grind [wcCmd, Res.Canonical]

theorem execWcRetrain_canonical (h : s.Canonical) (h ch ok) : (execWcRetrain h ch ok s).Canonical := by
  unfold execWcRetrain
  grind [wcCmd, Res.Canonical]

theorem State.Canonical.spdm (h : s.Canonical) (via name args bytes) : (s.spdm via name args bytes).Canonical := by
  unfold State.spdm
  grind [send, Res.Canonical]

theorem State.Canonical.signed (h : s.Canonical) (via name args bytes) : (s.signed via name args bytes).Canonical := by
  unfold State.signed
  grind [spdm, fresh, Res.Canonical]

theorem execGetVersion_canonical (h : s.Canonical) (via) : (execGetVersion via s).Canonical := by
  unfold execGetVersion
  grind [spdm, Res.Canonical]

theorem execGetCapabilities_canonical (h : s.Canonical) (via) : (execGetCapabilities via s).Canonical := by
  unfold execGetCapabilities
  grind [spdm, Res.Canonical]

theorem execNegotiateAlgorithms_canonical (h : s.Canonical) (via offered) : (execNegotiateAlgorithms via offered s).Canonical := by
  unfold execNegotiateAlgorithms
  grind [onDoor, spdm, Res.Canonical]

theorem execGetDigests_canonical (h : s.Canonical) (via) : (execGetDigests via s).Canonical := by
  unfold execGetDigests
  grind [spdm, Res.Canonical]

theorem execGetCertificate_canonical (h : s.Canonical) (via slot offset length) : (execGetCertificate via slot offset length s).Canonical := by
  unfold execGetCertificate
  grind [spdm, Res.Canonical]

theorem execChallenge_canonical (h : s.Canonical) (via slot nonce) : (execChallenge via slot nonce s).Canonical := by
  unfold execChallenge
  grind [spdm, signed, Res.Canonical]

theorem execGetMeasurements_canonical (h : s.Canonical) (via index sign) : (execGetMeasurements via index sign s).Canonical := by
  unfold execGetMeasurements
  grind [spdm, signed, Res.Canonical]

theorem execKeyExchange_canonical (h : s.Canonical) (via share) : (execKeyExchange via share s).Canonical := by
  unfold execKeyExchange
  grind [spdm, fresh, onDoor, signed, Res.Canonical]

theorem execFinish_canonical (h : s.Canonical) (via id good) : (execFinish via id good s).Canonical := by
  unfold execFinish
  grind [spdm, onDoor, Res.Canonical]

theorem State.Canonical.inSession (h : s.Canonical) (via id name f) : (s.inSession via id name f).Canonical := by
  unfold State.inSession
  grind [spdm, onDoor, Res.Canonical]

theorem execHeartbeat_canonical (h : s.Canonical) (via id) : (execHeartbeat via id s).Canonical := by
  unfold execHeartbeat
  grind [inSession, Res.Canonical]

theorem execKeyUpdate_canonical (h : s.Canonical) (via id) : (execKeyUpdate via id s).Canonical := by
  unfold execKeyUpdate
  grind [inSession, Res.Canonical]

theorem execEndSession_canonical (h : s.Canonical) (via id) : (execEndSession via id s).Canonical := by
  unfold execEndSession
  grind [inSession, Res.Canonical]

/-! ### Clocks and power -/

theorem execRefclkLoss_canonical (h : s.Canonical) : (execRefclkLoss s).Canonical := by
  unfold execRefclkLoss
  grind [wr, satAdd, onDoor, Res.Canonical]

theorem execRefclkReturn_canonical (h : s.Canonical) (volts) : (execRefclkReturn volts s).Canonical := by
  unfold execRefclkReturn
  grind [deviceReset, wr, Res.Canonical]

theorem execPllLockLoss_canonical (h : s.Canonical) (die) : (execPllLockLoss die s).Canonical := by
  unfold execPllLockLoss
  grind [fence, raise, clrBit, Res.Canonical]

theorem execPllRelock_canonical (h : s.Canonical) : (execPllRelock s).Canonical := by
  unfold execPllRelock
  grind [deviceReset, wr, Res.Canonical]

theorem State.Canonical.muxCheck (h : s.Canonical) (r inp count) : (s.muxCheck r inp count).1.Canonical := by
  unfold State.muxCheck
  grind [wr]

theorem State.Canonical.muxTo (h : s.Canonical) (r inp) : (s.muxTo r inp).Canonical := by
  unfold State.muxTo
  grind [onDoor, wr]

theorem State.Canonical.reclock (h : s.Canonical) (r) : (s.reclock r).1.Canonical := by
  unfold State.reclock
  grind [wr, muxCheck, muxTo]

theorem State.Canonical.takeDivisions (h : s.Canonical) : (s.takeDivisions).Canonical := by
  unfold State.takeDivisions
  grind [reclock, raise, foldl]

theorem State.Canonical.goMux (h : s.Canonical) (h window hang) : (s.goMux h window hang).Canonical := by
  unfold State.goMux
  grind [raise, wr, muxCheck, onDoor, muxTo]

theorem execClkMuxCmdGo_canonical (h : s.Canonical) (h region inp window hang) : (execClkMuxCmdGo h region inp window hang s).Canonical := by
  unfold execClkMuxCmdGo
  grind [goMux, wr, Res.Canonical]

theorem execMuxHung_canonical (h : s.Canonical) (r) : (execMuxHung r s).Canonical := by
  unfold execMuxHung
  grind [raise, wr, onDoor, cancelUnit, fence, foldl, Res.Canonical]

theorem State.Canonical.cycleTroupe (h : s.Canonical) (t) : (s.cycleTroupe t).Canonical := by
  unfold State.cycleTroupe
  grind [setTroupe, zeroTroupe]

theorem execDomainCycleComplete_canonical (h : s.Canonical) (r) : (execDomainCycleComplete r s).Canonical := by
  unfold execDomainCycleComplete
  grind [cycleTroupe, wr, muxTo, onDoor, raise, satAdd, foldl, Res.Canonical]

theorem State.Canonical.goFcnt (h : s.Canonical) (h) : (s.goFcnt h).Canonical := by
  unfold State.goFcnt
  grind [wr]

theorem execClkFcntGo_canonical (h : s.Canonical) (h window region inp) : (execClkFcntGo h window region inp s).Canonical := by
  unfold execClkFcntGo
  grind [goFcnt, wr, Res.Canonical]

theorem execClkFcntDone_canonical (h : s.Canonical) (count) : (execClkFcntDone count s).Canonical := by
  unfold execClkFcntDone
  grind [wr, Res.Canonical]

theorem State.Canonical.goRest (h : s.Canonical) : s.goRest.Canonical := by
  have hclear : ∀ s : State, s.Canonical →
      ({ s with proc := {}, trp := {}, cour := {}, xlt := {}, coh := {}, efh := {}, sw := {}, ord := {}, emb := {}, srch := {} } :
        State).Canonical :=
    fun s h => ⟨rfl, h.live, h.staged, rfl, rfl, h.mem, h.regs⟩
  unfold State.goRest
  grind [fresh, wr, onDoor, foldl]

theorem State.Canonical.goPower (h : s.Canonical) (h req) : (s.goPower h req).Canonical := by
  unfold State.goPower
  grind [raise, wr, deviceReset, onDoor]

theorem State.Canonical.powerTo (h : s.Canonical) (req was) : (s.powerTo req was).Canonical := by
  unfold State.powerTo
  grind [cycleTroupe, wr, foldl]

theorem State.Canonical.takePower (h : s.Canonical) (p) : (s.takePower p).Canonical := by
  unfold State.takePower
  grind [onDoor, goRest, wr, powerTo, raise]

theorem State.Canonical.shown (h : s.Canonical) (m) : (s.shown m).2.Canonical := by
  unfold State.shown
  grind [fresh]

theorem State.Canonical.sampleRound (h : s.Canonical) (temps volts input amps) : (s.sampleRound temps volts input amps).Canonical := by
  unfold State.sampleRound
  grind [onDoor, shown, wr, foldl]

theorem State.Canonical.throttle (h : s.Canonical) (r) : (s.throttle r).1.Canonical := by
  unfold State.throttle
  grind [satAdd, wr, reclock, foldl, foldl_fst]

theorem State.Canonical.tripNow (h : s.Canonical) (cause) : (s.tripNow cause).Canonical := by
  unfold State.tripNow
  grind [raise, satAdd, wr, onDoor, goRest]

theorem State.Canonical.countRounds (h : s.Canonical) : (s.countRounds).Canonical := by
  unfold State.countRounds
  grind [onDoor]

theorem State.Canonical.takeDoorProgram (h : s.Canonical) : (s.takeDoorProgram).Canonical := by
  unfold State.takeDoorProgram
  grind [onDoor, revokeKeys, updateTaken]

theorem State.Canonical.roundRules (h : s.Canonical) (alarmed) : (s.roundRules alarmed).Canonical := by
  unfold State.roundRules
  extract_lets s₁ s₂ limit s₃
  have h₂ : s₂.Canonical := by grind [raise, countRounds]
  have h₃ : s₃.Canonical := h₂.onDoor _
  have hstep (q : State × Bool) (r : Nat) (h : q.1.Canonical) :
      (match q.1.throttle r with | (s, c) => (s, q.2 || c)).1.Canonical := by
    have ht := h.throttle r
    generalize q.1.throttle r = p at ht ⊢
    exact ht
  have hfold := foldl_fst hstep (List.range 224) (show (s₃, false).1.Canonical from h₃)
  grind [tripNow, takeDoorProgram, raise]

theorem execStageDoorRound_canonical (h : s.Canonical) (temps volts input amps) : (execStageDoorRound temps volts input amps s).Canonical := by
  unfold execStageDoorRound
  grind [sampleRound, roundRules, Res.Canonical]

theorem execTripRecovery_canonical (h : s.Canonical) : (execTripRecovery s).Canonical := by
  unfold execTripRecovery
  grind [deviceReset, Res.Canonical]

theorem State.Canonical.clearStore (h : s.Canonical) (m) : ({ s with store := { modules := m } } : State).Canonical :=
  ⟨h.sram, h.live, h.staged, h.slot, h.loc, rfl, h.regs⟩

theorem State.Canonical.disconnect (h : s.Canonical) : s.disconnect.Canonical := (h.goRest.clearStore _).onDoor _

theorem execInputOvervoltageDisconnect_canonical (h : s.Canonical) : (execInputOvervoltageDisconnect s).Canonical := by
  unfold execInputOvervoltageDisconnect
  grind [disconnect, Res.Canonical]

theorem execUndervoltageLockout_canonical (h : s.Canonical) : (execUndervoltageLockout s).Canonical := by
  unfold execUndervoltageLockout
  grind [disconnect, Res.Canonical]

/-! ### The control space -/

theorem State.Canonical.touch (h : s.Canonical) (x) : (s.touch x).Canonical := by
  unfold State.touch
  grind [ungate]

theorem State.Canonical.writeFld (h : s.Canonical) (w f) : (s.writeFld w f).Canonical := by
  unfold State.writeFld
  grind [wr]

theorem State.Canonical.writePlain (h : s.Canonical) (w) : (s.writePlain w).Canonical := by
  unfold State.writePlain
  grind [writeFld, foldl]

theorem State.Canonical.freeSlots_ (h : s.Canonical) (n) : (s.freeSlots_ n).2.Canonical := by
  unfold State.freeSlots_
  grind [withFree]

theorem State.Canonical.portCtlWrite (h : s.Canonical) (w n) : (s.portCtlWrite w n).Canonical := by
  unfold State.portCtlWrite
  grind [writeFld, portEnable]

theorem State.Canonical.edgeEnable (h : s.Canonical) (k en) : (s.edgeEnable k en).Canonical := by
  unfold State.edgeEnable
  grind [wr, edgeLost]

theorem State.Canonical.writeBar2 (h : s.Canonical) (v) : (s.writeBar2 v).Canonical := by
  unfold State.writeBar2
  grind [onDoor, wr]

theorem State.Canonical.partStateWrite (h : s.Canonical) (w) : (s.partStateWrite w).Canonical := by
  unfold State.partStateWrite
  grind [writePlain, withRes]

theorem State.Canonical.writeSm (h : s.Canonical) (h w name i) {t} (e : s.writeSm h w name i = some t) : t.Canonical := by
  unfold State.writeSm at e
  grind [writeTakeCue, goCheck, goAbandon, settleLatches, writePlain, softRaise, goRestart, writeFld, writeXqRd]

theorem State.Canonical.writeMem (h : s.Canonical) (h w name i) {t} (e : s.writeMem h w name i = some t) : t.Canonical := by
  unfold State.writeMem at e
  grind [tlbi, writePlain, goHint, loftCmd, writeFld, ctxCtl, cohRearm, goRegion, partStateWrite, portCtlWrite]

theorem State.Canonical.writeRes (h : s.Canonical) (h w name i) {t} (e : s.writeRes h w name i = some t) : t.Canonical := by
  unfold State.writeRes at e
  grind [wr, writePlain, freeSlots_, goRestore, goRetire, writeBar2, writeFld, edgeEnable, frameWrite]

theorem State.Canonical.writeDoor (h : s.Canonical) (h w name) {t} (e : s.writeDoor h w name = some t) : t.Canonical := by
  unfold State.writeDoor at e
  grind [goFcnt, writePlain, fresh, goMux, goPower, goReset, goImg, goCal, goWc]

theorem State.Canonical.writeReg (hs : s.Canonical) (h w) : (s.writeReg h w).Canonical := by
  have hdoor : ∀ name, ((s.writeDoor h w name).getD (s.writePlain w)).Canonical := by
    intro name
    cases e : s.writeDoor h w name with
    | none => exact hs.writePlain w
    | some t => exact hs.writeDoor h w name e
  unfold State.writeReg
  grind [writeSm, writeMem, writeRes]

theorem State.Canonical.ctrlWrite (h : s.Canonical) (h bmc off v mask) : (s.ctrlWrite h bmc off v mask).Canonical := by
  unfold State.ctrlWrite
  grind [touch, writeReg, bookWrite, stageReg]

theorem State.Canonical.ctrlStore (h : s.Canonical) (h bmc off n v) : (s.ctrlStore h bmc off n v).Canonical := by
  unfold State.ctrlStore
  grind [ctrlWrite]

theorem execRegisterWrite_canonical (h : s.Canonical) (h off x) : (execRegisterWrite h off x s).Canonical := by
  unfold execRegisterWrite
  grind [ctrlWrite, Res.Canonical]

theorem execHptCfgBar2Write_canonical (h : s.Canonical) (h v) : (execHptCfgBar2Write h v s).Canonical := by
  unfold execHptCfgBar2Write
  grind [writeBar2, Res.Canonical]

theorem execMctpControlAccess_canonical (h : s.Canonical) (word x) : (execMctpControlAccess word x s).Canonical := by
  unfold execMctpControlAccess
  grind [send, touch, ctrlWrite, Res.Canonical]

theorem execCtrlRd_canonical (h : s.Canonical) (src id off wide8) : (execCtrlRd src id off wide8 s).Canonical := by
  unfold execCtrlRd
  grind [respond, touch, Res.Canonical]

theorem execCtrlWr_canonical (h : s.Canonical) (src id off wide8 x) : (execCtrlWr src id off wide8 x s).Canonical := by
  unfold execCtrlWr
  grind [respond, ctrlStore, Res.Canonical]

theorem execEdgePortEn_canonical (h : s.Canonical) (h k en) : (execEdgePortEn h k en s).Canonical := by
  unfold execEdgePortEn
  grind [edgeEnable, Res.Canonical]

/-! ### Memory of a core -/

theorem State.Canonical.cmemLoad (h : s.Canonical) (c space a n) : (s.cmemLoad c space a n).Canonical := by
  unfold State.cmemLoad
  grind [touch, readPga, fresh, CRes.Canonical]

theorem State.Canonical.cmemStore (h : s.Canonical) (c space a n v) : (s.cmemStore c space a n v).Canonical := by
  unfold State.cmemStore
  grind [storeLocal, ctrlStore, writePga, CRes.Canonical]

theorem cmemLd_canonical (h : s.Canonical) (u minor n f) : (cmemLd u minor n f s).Canonical :=
  issue_canonical h (by
    have hload := h.cmemLoad (coreOf u) (fMOD f) (((s.cx u).ar (fA f) + (s.cx u).ar (fB f)) % 2 ^ 64) n
    grind [Body.Canonical, CRes.Canonical, setCx])

theorem cmemSt_canonical (h : s.Canonical) (u minor n f) : (cmemSt u minor n f s).Canonical :=
  issue_canonical h (by
    have hstore := h.cmemStore (coreOf u) (fMOD f) (((s.cx u).ar (fA f) + (s.cx u).ar (fB f)) % 2 ^ 64) n ((s.cx u).ar (fC f))
    grind [Body.Canonical, CRes.Canonical, setCx])

theorem execLd64_canonical (h : s.Canonical) (u f) : (execLd64 u f s).Canonical := by
  unfold execLd64
  grind [cmemLd_canonical, Res.Canonical]

theorem execSt64_canonical (h : s.Canonical) (u f) : (execSt64 u f s).Canonical := by
  unfold execSt64
  grind [cmemSt_canonical, Res.Canonical]

theorem execLd32_canonical (h : s.Canonical) (u f) : (execLd32 u f s).Canonical := by
  unfold execLd32
  grind [cmemLd_canonical, Res.Canonical]

theorem execSt32_canonical (h : s.Canonical) (u f) : (execSt32 u f s).Canonical := by
  unfold execSt32
  grind [cmemSt_canonical, Res.Canonical]

theorem execLdl_canonical (h : s.Canonical) (u f) : (execLdl u f s).Canonical :=
  issue_canonical h (by
    have hload := h.cmemLoad (coreOf u) 0 (localAddr (s.cx u) f) 8
    grind [Body.Canonical, CRes.Canonical, setCx])

theorem execStl_canonical (h : s.Canonical) (u f) : (execStl u f s).Canonical :=
  issue_canonical h (by
    have hstore := h.cmemStore (coreOf u) 0 (localAddr (s.cx u) f) 8 ((s.cx u).ar (fD f))
    grind [Body.Canonical, CRes.Canonical])

/-! ### The cue -/

theorem State.Canonical.takeFields (h : s.Canonical) : s.takeFields.Canonical := by
  unfold State.takeFields
  extract_lets held s₁ src s₂ s₃ s₄
  have h₁ : s₁.Canonical := foldl (fun _ f h => h.wr f _) _ h
  have h₄ : s₄.Canonical := (((((h₁.withStagedSheet _ _).wr _ _).wr _ _).wr _ _).wr _ _).wrapAdd _ _
  exact State.Canonical.raise (by split; exacts [h₄.unpend _, h₄]) _

theorem State.Canonical.idleCEs (h : s.Canonical) (t) : (s.idleCEs t).Canonical := by
  unfold State.idleCEs
  grind [setCxAt, foldl]

theorem State.Canonical.takeRetirements (h : s.Canonical) : (s.takeRetirements).Canonical := by
  unfold State.takeRetirements
  grind [idleCEs, setTroupe, moveTroupe, raise, wr, onDoor, withSheet, foldl]

theorem State.Canonical.flushTaken (h : s.Canonical) (ch) : (s.flushTaken ch).Canonical := by
  unfold State.flushTaken
  grind [dropTlb, foldl]

theorem State.Canonical.rerouteTaken (h : s.Canonical) (ch) : (s.rerouteTaken ch).Canonical := by
  unfold State.rerouteTaken
  grind [resendTo, foldl]

theorem State.Canonical.voidTaken (h : s.Canonical) (ch) : (s.voidTaken ch).Canonical := by
  unfold State.voidTaken
  grind [voidRed, foldl]

theorem State.Canonical.reservesTaken (h : s.Canonical) (old) : (s.reservesTaken old).Canonical := by
  unfold State.reservesTaken
  grind [creditSend, foldl]

theorem State.Canonical.looseSram (h : s.Canonical) (t) : (s.looseSram t).Canonical :=
  ((h.zeroTroupe t).storeSram _ _).of_same rfl rfl rfl rfl rfl rfl rfl

theorem State.Canonical.reassigned (h : s.Canonical) (old ch) : (s.reassigned old ch).Canonical := by
  unfold State.reassigned
  grind [looseSram, foldl]

theorem State.Canonical.loadPlace (h : s.Canonical) (taken e) : (s.loadPlace taken e).Canonical := by
  unfold State.loadPlace
  grind [setTroupe, foldl]

theorem State.Canonical.loadPrograms (h : s.Canonical) (taken) : (s.loadPrograms taken).Canonical := by
  unfold State.loadPrograms
  grind [loadPlace, withTrp, foldl]

theorem State.Canonical.resolveRoutes (h : s.Canonical) (t) : (s.resolveRoutes t).Canonical := by
  unfold State.resolveRoutes
  grind [setTroupe]

theorem State.Canonical.sendCueSync (h : s.Canonical) : (s.sendCueSync).Canonical := by
  unfold State.sendCueSync
  grind [enqueue, setSw, foldl]

theorem State.Canonical.trimPhase (h : s.Canonical) : (s.trimPhase).Canonical := by
  unfold State.trimPhase
  grind [withRes]

theorem State.Canonical.stepPhase (h : s.Canonical) : (s.stepPhase).Canonical := by
  unfold State.stepPhase
  grind [unpend, wr, withRes]

theorem State.Canonical.takeStep (h : s.Canonical) (added) : (s.takeStep added).Canonical := by
  unfold State.takeStep
  grind [freeVoid, wrapAdd, rhRejoin, resumeParts, liftCurtains, admitDevices, settleLeader, wr, sendCueSync, stepPhase]

theorem State.Canonical.takeSheet (h : s.Canonical) (old) : (s.takeSheet old).Canonical := by
  unfold State.takeSheet
  grind [takeRetirements, takeFields, voidTaken, rerouteTaken, flushTaken, reservesTaken, takeMirror, takeGib, takeBoxes, takeStep, loadPrograms,
    reassigned, sheetTaken]

theorem State.Canonical.sheetAtTake (h : s.Canonical) (old) : (s.sheetAtTake old).1.Canonical := by
  unfold State.sheetAtTake
  grind [raise, wr, takeSheet, abandon]

theorem State.Canonical.freshTroupe (h : s.Canonical) (t) : (s.freshTroupe t).Canonical := by
  unfold State.freshTroupe
  grind [resolveRoutes, setTroupe]

theorem State.Canonical.wakeCEs (h : s.Canonical) : (s.wakeCEs).Canonical := by
  unfold State.wakeCEs
  grind [setCxAt, foldl]

theorem State.Canonical.freshCue (h : s.Canonical) : s.freshCue.Canonical := h.of_same rfl rfl rfl rfl rfl rfl rfl

theorem State.Canonical.audits (h : s.Canonical) : (s.audits).1.Canonical := by
  unfold State.audits
  grind [auditLedgers, switchAudit]

theorem State.Canonical.abortDiffering (h : s.Canonical) (ps) : (s.abortDiffering ps).Canonical := by
  unfold State.abortDiffering
  grind [abortStep, foldl]

theorem State.Canonical.restOfTake (h : s.Canonical) (old taken plans) : (s.restOfTake old taken plans).Canonical := by
  unfold State.restOfTake
  grind [takeLoans, swapFrames, takeSearch, takeEmb, takeRegions, portsUp, takeLoads, takeCtx, freshTroupe, freshCue, wakeCEs, takeDivisions,
    feedStreams, takePower, takeUpdates, foldl]

theorem execCueStart_canonical (h : s.Canonical) : (execCueStart s).Canonical := by
  unfold execCueStart
  grind [audits, wr, wrapAdd, takePostmark, trimPhase, rebuildCue, raise, ageInjection, abortDiffering, sheetAtTake, restOfTake, Res.Canonical]

theorem execWorkStart_canonical (h : s.Canonical) : (execWorkStart s).Canonical := by
  unfold execWorkStart
  grind [wr, startUnit, startSearch, foldl, Res.Canonical]

theorem State.Canonical.sendPostcard (h : s.Canonical) : (s.sendPostcard).Canonical := by
  unfold State.sendPostcard
  grind [sendFab, withRes]

theorem execGuardStart_canonical (h : s.Canonical) : (execGuardStart s).Canonical := by
  unfold execGuardStart
  grind [wr, recordStreams, sendPostcard, raise, Res.Canonical]

theorem State.Canonical.tick (h : s.Canonical) : (s.tick).Canonical := by
  unfold State.tick
  grind [wr]

theorem execCueSync_canonical (h : s.Canonical) (sender count ofs step roundTrip skewNs) : (execCueSync sender count ofs step roundTrip skewNs
    s).Canonical := by
  unfold execCueSync
  grind [wr, unpend, raise, abandon, withRes, Res.Canonical]

/-! ### The host port -/

theorem State.Canonical.onHost (h : s.Canonical) (f) : (s.onHost f).Canonical := by
  unfold State.onHost
  grind [withHst]

theorem State.Canonical.hostLine (h : s.Canonical) (own x) : (s.hostLine own x).1.Canonical := by
  unfold State.hostLine
  grind [winErr, readPga]

theorem State.Canonical.hostAnswer (h : s.Canonical) (ok poison bytes) : (s.hostAnswer ok poison bytes).Canonical := by
  unfold State.hostAnswer
  grind [send]

theorem State.Canonical.bar2Read (h : s.Canonical) (o n) : (s.bar2Read o n).Canonical := by
  unfold State.bar2Read
  extract_lets r q rest all
  have hq : q.1.Canonical := foldl_fst (fun q x h => by grind [hostLine]) _ h
  split
  · exact hq.onHost _
  · exact (hq.onHost _).hostAnswer _ _ _

theorem State.Canonical.hostPut (h : s.Canonical) (o x mask) : (s.hostPut o x mask).Canonical := by
  unfold State.hostPut
  grind [winErr, tierMasked, reach, request, lostTo, passedOn, fabReq, withEfh]

theorem State.Canonical.bar4Put (h : s.Canonical) (o x) : (s.bar4Put o x).Canonical := by
  unfold State.bar4Put
  grind [msixFlush, onHost]

theorem execMemoryRead_canonical (h : s.Canonical) (addr n) : (execMemoryRead addr n s).Canonical := by
  unfold execMemoryRead
  grind [hostAnswer, touch, bar2Read, foldl, Res.Canonical]

theorem State.Canonical.bar0Put (h : s.Canonical) (o bs) : (s.bar0Put o bs).Canonical := by
  unfold State.bar0Put
  grind [ctrlStore, foldl]

theorem State.Canonical.bar2Put (h : s.Canonical) (o bs) : (s.bar2Put o bs).Canonical := by
  unfold State.bar2Put
  grind [hostPut, foldl]

theorem execMemoryWrite_canonical (h : s.Canonical) (addr bs poison) : (execMemoryWrite addr bs poison s).Canonical := by
  unfold execMemoryWrite
  grind [hostAnswer, send, satAdd, bar0Put, bar2Put, bar4Put, foldl, Res.Canonical]

theorem execUnsupportedRequest_canonical (h : s.Canonical) : (execUnsupportedRequest s).Canonical := by
  unfold execUnsupportedRequest
  grind [hostAnswer, Res.Canonical]

theorem execConfigurationRequest_canonical (h : s.Canonical) (c) : (execConfigurationRequest c s).Canonical := by
  unfold execConfigurationRequest
  grind [send, fresh, onHost, msixFlush, Res.Canonical]

theorem State.Canonical.hostDiscard (h : s.Canonical) : (s.hostDiscard).Canonical := by
  unfold State.hostDiscard
  grind [onHost, withCoh]

theorem State.Canonical.clearHost (h : s.Canonical) : (s.clearHost).Canonical := by
  unfold State.clearHost
  grind [onHost, hostDiscard]

theorem State.Canonical.hostLinkDown (h : s.Canonical) : (s.hostLinkDown).Canonical := by
  unfold State.hostLinkDown
  grind [onHost, clearHost, wr, raise]

theorem execFlr_canonical (h : s.Canonical) : (execFlr s).Canonical := by
  unfold execFlr
  grind [clearHost, Res.Canonical]

theorem execHotReset_canonical (h : s.Canonical) : (execHotReset s).Canonical := by
  unfold execHotReset
  grind [clearHost, Res.Canonical]

theorem execDlDown_canonical (h : s.Canonical) : (execDlDown s).Canonical := by
  unfold execDlDown
  grind [hostLinkDown, Res.Canonical]

theorem execPerst_canonical (h : s.Canonical) (assert) : (execPerst assert s).Canonical := by
  unfold execPerst
  grind [onHost, hostLinkDown, Res.Canonical]

theorem execHostLinkUp_canonical (h : s.Canonical) (rate width) : (execHostLinkUp rate width s).Canonical := by
  unfold execHostLinkUp
  grind [fresh, wr, msixFlush, raise, Res.Canonical]

theorem execIdeFailure_canonical (h : s.Canonical) (port stream) : (execIdeFailure port stream s).Canonical := by
  unfold execIdeFailure
  grind [onHost, raise, satAdd, Res.Canonical]

theorem State.Canonical.showIde (h : s.Canonical) (port) : (s.showIde port).Canonical := by
  unfold State.showIde
  grind [wr]

theorem execDoeRequest_canonical (h : s.Canonical) (port m) : (execDoeRequest port m s).Canonical := by
  unfold execDoeRequest
  grind [send, showIde, onHost, Res.Canonical]

theorem execEdgeLinkUp_canonical (h : s.Canonical) (g rate width) : (execEdgeLinkUp g rate width s).Canonical := by
  unfold execEdgeLinkUp
  grind [wr, Res.Canonical]

theorem State.Canonical.mailbox (h : s.Canonical) (g name args) : (s.mailbox g name args).Canonical := by
  unfold State.mailbox
  grind [send, Res.Canonical]

theorem State.Canonical.mailboxFree (h : s.Canonical) (g name args) : (s.mailboxFree g name args).Canonical := by
  unfold State.mailboxFree
  grind [fresh, send, Res.Canonical]

theorem execIdentifyMemoryDevice_canonical (h : s.Canonical) (g) : (execIdentifyMemoryDevice g s).Canonical := by
  unfold execIdentifyMemoryDevice
  grind [mailbox, Res.Canonical]

theorem execGetPartitionInfo_canonical (h : s.Canonical) (g) : (execGetPartitionInfo g s).Canonical := by
  unfold execGetPartitionInfo
  grind [mailbox, Res.Canonical]

theorem execGetHealthInfo_canonical (h : s.Canonical) (g) : (execGetHealthInfo g s).Canonical := by
  unfold execGetHealthInfo
  grind [mailboxFree, Res.Canonical]

theorem execGetSupportedLogs_canonical (h : s.Canonical) (g) : (execGetSupportedLogs g s).Canonical := by
  unfold execGetSupportedLogs
  grind [mailboxFree, Res.Canonical]

theorem execGetLog_canonical (h : s.Canonical) (g uuid offset length) : (execGetLog g uuid offset length s).Canonical := by
  unfold execGetLog
  grind [mailboxFree, Res.Canonical]

theorem execGetEventRecords_canonical (h : s.Canonical) (g log) : (execGetEventRecords g log s).Canonical := by
  unfold execGetEventRecords
  grind [fresh, onHost, send, Res.Canonical]

theorem execClearEventRecords_canonical (h : s.Canonical) (g log all n) : (execClearEventRecords g log all n s).Canonical := by
  unfold execClearEventRecords
  grind [onHost, send, Res.Canonical]

theorem execMailboxUnsupported_canonical (h : s.Canonical) (g opcode) : (execMailboxUnsupported g opcode s).Canonical := by
  unfold execMailboxUnsupported
  grind [mailbox, Res.Canonical]

/-! ### The test port -/

theorem State.Canonical.loadTap (h : s.Canonical) (code) : (s.loadTap code).Canonical := by
  unfold State.loadTap
  grind [onDoor]

theorem State.Canonical.stopTap (h : s.Canonical) (code) : (s.stopTap code).Canonical := by
  unfold State.stopTap
  split
  · exact h
  · exact (h.goRest.clearStore _).onDoor _

theorem execSamplePreload_canonical (h : s.Canonical) (cells) : (execSamplePreload cells s).Canonical := by
  unfold execSamplePreload
  grind [onDoor, loadTap, Res.Canonical]

theorem execTestLogicReset_canonical (h : s.Canonical) : (execTestLogicReset s).Canonical := by
  unfold execTestLogicReset
  grind [loadTap, deviceReset, Res.Canonical]

/-! ### Every command -/

theorem exec_canonical {s : State} (h : s.Canonical) (c : Instr) : Res.Canonical (exec c s) := by
  cases c with
  | cueStart => exact execCueStart_canonical h
  | ledgerRouteReset p => exact execLedgerRouteReset_canonical h p
  | workStart => exact execWorkStart_canonical h
  | guardStart => exact execGuardStart_canonical h
  | stagedWrite h' off x => exact execStagedWrite_canonical h h' off x
  | csCheckGo h' => exact execCsCheckGo_canonical h h'
  | checkDone => exact execCheckDone_canonical h
  | csTakeCueWrite h' step cue => exact execCsTakeCueWrite_canonical h h' step cue
  | csAbandonGo h' => exact execCsAbandonGo_canonical h h'
  | cueSync sender count ofs step roundTrip skewNs => exact execCueSync_canonical h sender count ofs step roundTrip skewNs
  | unitStart t unit => exact execUnitStart_canonical h t unit
  | deliveryMiss t unit => exact execDeliveryMiss_canonical h t unit
  | completionMiss t unit => exact execCompletionMiss_canonical h t unit
  | understudyLeadMiss t unit => exact execUnderstudyLeadMiss_canonical h t unit
  | meshParcelArrival t dir head body => exact execMeshParcelArrival_canonical h t dir head body
  | hopCreditReturn t dir vl => exact execHopCreditReturn_canonical h t dir vl
  | credParcel t pairs => exact execCredParcel_canonical h t pairs
  | cancelParcel t route unit cue delivery => exact execCancelParcel_canonical h t route unit cue delivery
  | statusRecordArrival t unit status => exact execStatusRecordArrival_canonical h t unit status
  | ceLogicFault t => exact execCeLogicFault_canonical h t
  | trpRetireGo h' t => exact execTrpRetireGo_canonical h h' t
  | clockGate r => exact execClockGate_canonical h r
  | nop => exact issueR_canonical h
  | endUnit u f => exact execEndUnit_canonical h u f
  | br u f => exact execBr_canonical h u f
  | brz u f => exact execBrz_canonical h u f
  | brnz u f => exact execBrnz_canonical h u f
  | call u f => exact execCall_canonical h u f
  | retn u f => exact execRetn_canonical h u f
  | loop u f => exact execLoop_canonical h u f
  | waitcue u f => exact execWaitcue_canonical h u f
  | waitcueResume u => exact execWaitcueResume_canonical h u
  | dlbr u f => exact execDlbr_canonical h u f
  | mfs u f => exact execMfs_canonical h u f
  | mts => exact issueR_canonical h
  | send u f => exact execSend_canonical h u f
  | recv u f => exact execRecv_canonical h u f
  | credq u f => exact execCredq_canonical h u f
  | rxq u f => exact execRxq_canonical h u f
  | pand => exact issueR_canonical h
  | por => exact issueR_canonical h
  | pxor => exact issueR_canonical h
  | pandn => exact issueR_canonical h
  | pnot => exact issueR_canonical h
  | pany => exact issueR_canonical h
  | pcnt => exact issueR_canonical h
  | pfirst => exact issueR_canonical h
  | add => exact issueR_canonical h
  | sub => exact issueR_canonical h
  | mul => exact issueR_canonical h
  | mulh => exact issueR_canonical h
  | andS => exact issueR_canonical h
  | orS => exact issueR_canonical h
  | xorS => exact issueR_canonical h
  | shl => exact issueR_canonical h
  | shr => exact issueR_canonical h
  | sra => exact issueR_canonical h
  | min => exact issueR_canonical h
  | max => exact issueR_canonical h
  | slt => exact issueR_canonical h
  | seq => exact issueR_canonical h
  | clz => exact issueR_canonical h
  | popc => exact issueR_canonical h
  | addi => exact issueR_canonical h
  | muli => exact issueR_canonical h
  | andi => exact issueR_canonical h
  | ori => exact issueR_canonical h
  | xori => exact issueR_canonical h
  | shli => exact issueR_canonical h
  | shri => exact issueR_canonical h
  | srai => exact issueR_canonical h
  | slti => exact issueR_canonical h
  | sltiu => exact issueR_canonical h
  | seqi => exact issueR_canonical h
  | li => exact issueR_canonical h
  | aadd => exact issueR_canonical h
  | asub => exact issueR_canonical h
  | aadds => exact issueR_canonical h
  | ashl => exact issueR_canonical h
  | ashr => exact issueR_canonical h
  | aand => exact issueR_canonical h
  | aor => exact issueR_canonical h
  | axor => exact issueR_canonical h
  | altu => exact issueR_canonical h
  | aeq => exact issueR_canonical h
  | aaddi => exact issueR_canonical h
  | alo => exact issueR_canonical h
  | ahi => exact issueR_canonical h
  | s2a => exact issueR_canonical h
  | a2s => exact issueR_canonical h
  | v2s => exact issueR_canonical h
  | s2v => exact issueR_canonical h
  | vmov => exact issueV_canonical h
  | s2p => exact issueR_canonical h
  | p2s => exact issueR_canonical h
  | smov => exact issueR_canonical h
  | amov => exact issueR_canonical h
  | vadd => exact issueV_canonical h
  | vsub => exact issueV_canonical h
  | vmul => exact issueV_canonical h
  | vmulh => exact issueV_canonical h
  | vmin => exact issueV_canonical h
  | vmax => exact issueV_canonical h
  | vand => exact issueV_canonical h
  | vor => exact issueV_canonical h
  | vxor => exact issueV_canonical h
  | vshl => exact issueV_canonical h
  | vshr => exact issueV_canonical h
  | vsra => exact issueV_canonical h
  | vcmp => exact issueV_canonical h
  | vadds => exact issueV_canonical h
  | vpopc => exact issueV_canonical h
  | vfadd => exact issueV_canonical h
  | vfsub => exact issueV_canonical h
  | vfmul => exact issueV_canonical h
  | vfma => exact issueV_canonical h
  | vfmin => exact issueV_canonical h
  | vfmax => exact issueV_canonical h
  | vfabs => exact issueV_canonical h
  | vfneg => exact issueV_canonical h
  | vfcmp => exact issueV_canonical h
  | vfexp2 => exact issueV_canonical h
  | vflog2 => exact issueV_canonical h
  | vfrcp => exact issueV_canonical h
  | vfrsq => exact issueV_canonical h
  | vfsqrt => exact issueV_canonical h
  | vfscl => exact issueV_canonical h
  | cvt => exact issueV_canonical h
  | dec => exact issueV_canonical h
  | qmx => exact issueR_canonical h
  | qps4 => exact issueR_canonical h
  | vbcast => exact issueV_canonical h
  | vsplat => exact issueV_canonical h
  | vperm => exact issueV_canonical h
  | vrot => exact issueV_canonical h
  | vminl => exact issueR_canonical h
  | vsuml => exact issueR_canonical h
  | tdot => exact issueV_canonical h
  | tdotb => exact issueV_canonical h
  | tdots => exact issueV_canonical h
  | tadd => exact issueV_canonical h
  | tbase u f => exact execTbase_canonical h u f
  | tmerge => exact issueV_canonical h
  | tpack => exact issueR_canonical h
  | tcvt => exact issueV_canonical h
  | tstore u f => exact execTstore_canonical h u f
  | xpopl => exact issueV_canonical h
  | hdist => exact issueR_canonical h
  | ldv u f => exact execLdv_canonical h u f
  | ldvi u f => exact execLdvi_canonical h u f
  | ldw u f => exact execLdw_canonical h u f
  | lda u f => exact execLda_canonical h u f
  | ldg u f => exact execLdg_canonical h u f
  | ldp u f => exact execLdp_canonical h u f
  | stv u f => exact execStv_canonical h u f
  | stvi u f => exact execStvi_canonical h u f
  | stw u f => exact execStw_canonical h u f
  | sta u f => exact execSta_canonical h u f
  | stsc u f => exact execStsc_canonical h u f
  | tbar u f => exact execTbar_canonical h u f
  | pbv u f => exact execPbv_canonical h u f
  | pbvi u f => exact execPbvi_canonical h u f
  | pbw u f => exact execPbw_canonical h u f
  | pbg u f => exact execPbg_canonical h u f
  | gld u f => exact execGld_canonical h u f
  | gst u f => exact execGst_canonical h u f
  | gq u f => exact execGq_canonical h u f
  | gmemComplete t c n => exact execGmemComplete_canonical h t c n
  | atomAadd u f => exact execAtomAadd_canonical h u f
  | amin u f => exact execAmin_canonical h u f
  | amax u f => exact execAmax_canonical h u f
  | atomAand u f => exact execAtomAand_canonical h u f
  | atomAor u f => exact execAtomAor_canonical h u f
  | atomAxor u f => exact execAtomAxor_canonical h u f
  | aswap u f => exact execAswap_canonical h u f
  | acas u f => exact execAcas_canonical h u f
  | acas128 u f => exact execAcas128_canonical h u f
  | atomComplete u n => exact execAtomComplete_canonical h u n
  | sload u f => exact execSload_canonical h u f
  | sstore u f => exact execSstore_canonical h u f
  | sdlv u f => exact execSdlv_canonical h u f
  | sldv u f => exact execSldv_canonical h u f
  | sstv u f => exact execSstv_canonical h u f
  | sunit u f => exact execSunit_canonical h u f
  | dcmp u f => exact execDcmp_canonical h u f
  | enc u f => exact execEnc_canonical h u f
  | ptrx u f => exact execPtrx_canonical h u f
  | crc64 u f => exact execCrc64_canonical h u f
  | evclaim u f => exact execEvclaim_canonical h u f
  | evclaimCommit c => exact execEvclaimCommit_canonical h c
  | evdone u f => exact execEvdone_canonical h u f
  | wfe u f => exact execWfe_canonical h u f
  | wfeWake c timeout => exact execWfeWake_canonical h c timeout
  | raise u f => exact execRaise_canonical h u f
  | fence => exact issueR_canonical h
  | ld64 u f => exact execLd64_canonical h u f
  | st64 u f => exact execSt64_canonical h u f
  | ld32 u f => exact execLd32_canonical h u f
  | st32 u f => exact execSt32_canonical h u f
  | ldl u f => exact execLdl_canonical h u f
  | stl u f => exact execStl_canonical h u f
  | deliver k => exact execDeliver_canonical h k
  | frameEntry k => exact execFrameEntry_canonical h k
  | courierDDel k entry => exact execCourierDDel_canonical h k entry
  | courierReadComplete k => exact execCourierReadComplete_canonical h k
  | inTransitRetry k => exact execInTransitRetry_canonical h k
  | crrResume h' k => exact execCrrResume_canonical h h' k
  | crrAbandon h' k => exact execCrrAbandon_canonical h h' k
  | crrRestart h' k => exact execCrrRestart_canonical h h' k
  | poolFaultTimeout k => exact execPoolFaultTimeout_canonical h k
  | tableReadComplete n => exact execTableReadComplete_canonical h n
  | tlbiAll h' => exact execTlbiAll_canonical h h'
  | tlbiPart h' p => exact execTlbiPart_canonical h h' p
  | tlbiVa h' p count => exact execTlbiVa_canonical h h' p count
  | tlbiIpa h' p count => exact execTlbiIpa_canonical h h' p count
  | tlbiComplete => exact execTlbiComplete_canonical h
  | stmHintGo h' first count hint mirror => exact execStmHintGo_canonical h h' first count hint mirror
  | migrationComplete u => exact execMigrationComplete_canonical h u
  | stageOnlyZeroed => exact execStageOnlyZeroed_canonical h
  | lend h' entry => exact execLend_canonical h h' entry
  | notice h' entry endCue => exact execNotice_canonical h h' entry endCue
  | release h' w => exact execRelease_canonical h h' w
  | loanMsg src m => exact execLoanMsg_canonical h src m
  | loanEnd lender entry => exact execLoanEnd_canonical h lender entry
  | loanZeroingDone entry => exact execLoanZeroingDone_canonical h entry
  | channelFailed ch half done => exact execChannelFailed_canonical h ch half done
  | rebuildComplete ch => exact execRebuildComplete_canonical h ch
  | copybackComplete ch => exact execCopybackComplete_canonical h ch
  | mirrorWr src id unit step m => exact execMirrorWr_canonical h src id unit step m
  | scrub arr cw bits => exact execScrub_canonical h arr cw bits
  | errorWindowStart => exact execErrorWindowStart_canonical h
  | rdS a line part => exact execRdS_canonical h a line part
  | rdX a line part => exact execRdX_canonical h a line part
  | upg a line part => exact execUpg_canonical h a line part
  | rdOnce r line part => exact execRdOnce_canonical h r line part
  | wrLine r line part x marks => exact execWrLine_canonical h r line part x marks
  | wrPart r line part mask x => exact execWrPart_canonical h r line part mask x
  | cohAtomic r line part off minor wide8 ta rm srw opnd cmp => exact execCohAtomic_canonical h r line part off minor wide8 ta rm srw opnd cmp
  | tierDataReturn line => exact execTierDataReturn_canonical h line
  | snpShr a line r => exact execSnpShr_canonical h a line r
  | snpInv a line r nodata => exact execSnpInv_canonical h a line r nodata
  | snpInvHome a line r => exact execSnpInvHome_canonical h a line r
  | snpOnce a line r => exact execSnpOnce_canonical h a line r
  | snpShrHome a line r => exact execSnpShrHome_canonical h a line r
  | ackI a line err => exact execAckI_canonical h a line err
  | ackID a m => exact execAckID_canonical h a m
  | ackSD a m => exact execAckSD_canonical h a m
  | ackKeep a m => exact execAckKeep_canonical h a m
  | evict a m => exact execEvict_canonical h a m
  | wbData a line x marks => exact execWbData_canonical h a line x marks
  | dataHome a line x marks => exact execDataHome_canonical h a line x marks
  | gnt a line => exact execGnt_canonical h a line
  | dataS a line x marks => exact execDataS_canonical h a line x marks
  | dataF a line x marks => exact execDataF_canonical h a line x marks
  | dataE a line x marks => exact execDataE_canonical h a line x marks
  | dataM a line x marks => exact execDataM_canonical h a line x marks
  | dataOnce r line x marks => exact execDataOnce_canonical h r line x marks
  | dataAtom r line old status => exact execDataAtom_canonical h r line old status
  | agentLoad a line => exact execAgentLoad_canonical h a line
  | agentStore a line mask x => exact execAgentStore_canonical h a line mask x
  | agentReplacement a line => exact execAgentReplacement_canonical h a line
  | holdEnd a line => exact execHoldEnd_canonical h a line
  | memrd g hpa mv => exact execMemrd_canonical h g hpa mv
  | meminv g hpa mv => exact execMeminv_canonical h g hpa mv
  | memwr g hpa mv x poison => exact execMemwr_canonical h g hpa mv x poison
  | memwrptl g hpa mv mask x poison => exact execMemwrptl_canonical h g hpa mv mask x poison
  | birsp g line kind => exact execBirsp_canonical h g line kind
  | biconflict g line => exact execBiconflict_canonical h g line
  | otherM2sOpcode g hpa write => exact execOtherM2sOpcode_canonical h g hpa write
  | biTimeout g => exact execBiTimeout_canonical h g
  | edgeAgentLost g => exact execEdgeAgentLost_canonical h g
  | agentSweepComplete g => exact execAgentSweepComplete_canonical h g
  | cohAgentRearm h' n => exact execCohAgentRearm_canonical h h' n
  | hdmDecoderCommit g k base size ways => exact execHdmDecoderCommit_canonical h g k base size ways
  | efhPortEn h' n en => exact execEfhPortEn_canonical h h' n en
  | trainComplete n => exact execTrainComplete_canonical h n
  | trainTimeout n => exact execTrainTimeout_canonical h n
  | alignLock n => exact execAlignLock_canonical h n
  | alignTimeout n => exact execAlignTimeout_canonical h n
  | negotiate n level dev => exact execNegotiate_canonical h n level dev
  | fecLockLoss n => exact execFecLockLoss_canonical h n
  | flitReceive n f fec => exact execFlitReceive_canonical h n f fec
  | nak n ack => exact execNak_canonical h n ack
  | fabricRd src part id line fwd => exact execFabricRd_canonical h src part id line fwd
  | fabricWr src part id line x marks fwd => exact execFabricWr_canonical h src part id line x marks fwd
  | fabricWrPart src part id line mask x fwd => exact execFabricWrPart_canonical h src part id line mask x fwd
  | fabricAtom src part id line off minor wide8 ta opnd cmp fwd => exact execFabricAtom_canonical h src part id line off minor wide8 ta opnd cmp fwd
  | fabricRsp src id status marks data fwd => exact execFabricRsp_canonical h src id status marks data fwd
  | fabricParcel p => exact execFabricParcel_canonical h p
  | fabricCred src entries => exact execFabricCred_canonical h src entries
  | ctrlRd src id off wide8 => exact execCtrlRd_canonical h src id off wide8
  | ctrlWr src id off wide8 x => exact execCtrlWr_canonical h src id off wide8 x
  | requestResendTimeout id => exact execRequestResendTimeout_canonical h id
  | offer n => exact execOffer_canonical h n
  | offerMsg src part id region epoch rdev rpart fwd => exact execOfferMsg_canonical h src part id region epoch rdev rpart fwd
  | offerFwd src region epoch fromDev fromPart toPart => exact execOfferFwd_canonical h src region epoch fromDev fromPart toPart
  | accept n => exact execAccept_canonical h n
  | acceptMsg src part id region epoch => exact execAcceptMsg_canonical h src part id region epoch
  | grant src kind part id region status epoch => exact execGrant_canonical h src kind part id region status epoch
  | offerQuery entry => exact execOfferQuery_canonical h entry
  | query src region epoch => exact execQuery_canonical h src region epoch
  | queryReply src region epoch logged => exact execQueryReply_canonical h src region epoch logged
  | publish n => exact execPublish_canonical h n
  | publishMsg src part id region epoch mode fwd => exact execPublishMsg_canonical h src part id region epoch mode fwd
  | regionInval src region log2 => exact execRegionInval_canonical h src region log2
  | invalAck src region => exact execInvalAck_canonical h src region
  | regionSet h' entry pga log2 dev part => exact execRegionSet_canonical h h' entry pga log2 dev part
  | regionClear h' entry => exact execRegionClear_canonical h h' entry
  | regionForward h' entry target => exact execRegionForward_canonical h h' entry target
  | forwardDrained entry => exact execForwardDrained_canonical h entry
  | switchInputArrival inp p => exact execSwitchInputArrival_canonical h inp p
  | tokenRefill => exact execTokenRefill_canonical h
  | multicastCopy inp => exact execMulticastCopy_canonical h inp
  | tallyMerge => exact execTallyMerge_canonical h
  | sweepEnd => exact execSweepEnd_canonical h
  | gather n k => exact execGather_canonical h n k
  | scatterAdd n k => exact execScatterAdd_canonical h n k
  | rowPut n k => exact execRowPut_canonical h n k
  | rowLookup src part id n table row => exact execRowLookup_canonical h src part id n table row
  | hotRowLanded table row data marks => exact execHotRowLanded_canonical h table row data marks
  | embForwardDrained k => exact execEmbForwardDrained_canonical h k
  | searchOrder n k => exact execSearchOrder_canonical h n k
  | searchTask src part id q index shard clsR k w probes require exclude code => exact execSearchTask_canonical h ..
  | searchSpill t => exact execSearchSpill_canonical h t
  | shardResult id q shard dead visited skipped list => exact execShardResult_canonical h id q shard dead visited skipped list
  | postcard src cue ofs flags coord heard suspect verdict rhSuspect rhVerdict skewPs => exact execPostcard_canonical h ..
  | suspect j => exact execSuspect_canonical h j
  | quorumLoss => exact execQuorumLoss_canonical h
  | restoreGo h' slots => exact execRestoreGo_canonical h h' slots
  | restoreDone => exact execRestoreDone_canonical h
  | rslAdmitGo h' => exact execRslAdmitGo_canonical h h'
  | selftestDone pass => exact execSelftestDone_canonical h pass
  | admitOrder n failed => exact execAdmitOrder_canonical h n failed
  | rehearsalInjection => exact execRehearsalInjection_canonical h
  | memoryRead addr n => exact execMemoryRead_canonical h addr n
  | memoryWrite addr bs poison => exact execMemoryWrite_canonical h addr bs poison
  | unsupportedRequest => exact execUnsupportedRequest_canonical h
  | configurationRequest c => exact execConfigurationRequest_canonical h c
  | doeRequest port m => exact execDoeRequest_canonical h port m
  | flr => exact execFlr_canonical h
  | hotReset => exact execHotReset_canonical h
  | dlDown => exact execDlDown_canonical h
  | perst assert => exact execPerst_canonical h assert
  | hostLinkUp rate width => exact execHostLinkUp_canonical h rate width
  | ideFailure port stream => exact execIdeFailure_canonical h port stream
  | identifyMemoryDevice g => exact execIdentifyMemoryDevice_canonical h g
  | getPartitionInfo g => exact execGetPartitionInfo_canonical h g
  | getHealthInfo g => exact execGetHealthInfo_canonical h g
  | getSupportedLogs g => exact execGetSupportedLogs_canonical h g
  | getLog g uuid offset length => exact execGetLog_canonical h g uuid offset length
  | getEventRecords g log => exact execGetEventRecords_canonical h g log
  | clearEventRecords g log all n => exact execClearEventRecords_canonical h g log all n
  | mailboxUnsupported g opcode => exact execMailboxUnsupported_canonical h g opcode
  | outboxNotice p box => exact execOutboxNotice_canonical h p box
  | workOrderFetch p box => exact execWorkOrderFetch_canonical h p box
  | inboxHeadWrite p j => exact execInboxHeadWrite_canonical h p j
  | runPlan n => exact execRunPlan_canonical h n
  | copyOrder n k => exact execCopyOrder_canonical h n k
  | fillOrder n k => exact execFillOrder_canonical h n k
  | callSheet n k => exact execCallSheet_canonical h n k
  | resumeOrder n => exact execResumeOrder_canonical h n
  | eventEdge id => exact execEventEdge_canonical h id
  | eventRetract id => exact execEventRetract_canonical h id
  | evcPendingClear h' w mask => exact execEvcPendingClear_canonical h h' w mask
  | evcRaiseWrite h' id => exact execEvcRaiseWrite_canonical h h' id
  | targetSignal t gap old => exact execTargetSignal_canonical h t gap old
  | coreHandlerEntry c => exact execCoreHandlerEntry_canonical h c
  | smCoreRestart h' c => exact execSmCoreRestart_canonical h h' c
  | stageDoorCoreRestart => exact execStageDoorCoreRestart_canonical h
  | smxXqRdWrite h' rd => exact execSmxXqRdWrite_canonical h h' rd
  | refclkLoss => exact execRefclkLoss_canonical h
  | refclkReturn volts => exact execRefclkReturn_canonical h volts
  | pllLockLoss die => exact execPllLockLoss_canonical h die
  | pllRelock => exact execPllRelock_canonical h
  | clkMuxCmdGo h' region inp window hang => exact execClkMuxCmdGo_canonical h h' region inp window hang
  | muxHung r => exact execMuxHung_canonical h r
  | domainCycleComplete r => exact execDomainCycleComplete_canonical h r
  | clkFcntGo h' window region inp => exact execClkFcntGo_canonical h h' window region inp
  | clkFcntDone count => exact execClkFcntDone_canonical h count
  | pwrActive => exact h.goPower _ _
  | pwrIdle => exact h.goPower _ _
  | pwrDoze => exact h.goPower _ _
  | pwrRest => exact h.goPower _ _
  | stageDoorRound temps volts input amps => exact execStageDoorRound_canonical h temps volts input amps
  | tripRecovery => exact execTripRecovery_canonical h
  | inputOvervoltageDisconnect => exact execInputOvervoltageDisconnect_canonical h
  | undervoltageLockout => exact execUndervoltageLockout_canonical h
  | coldReset => exact execColdReset_canonical h
  | warmReset cause => exact execWarmReset_canonical h cause
  | secResetCold => exact h.goReset _ _
  | secResetWarm => exact h.goReset _ _
  | bootDone fails => exact execBootDone_canonical h fails
  | storeReady => exact execStoreReady_canonical h
  | imgWrite h' kind => exact execImgWrite_canonical h h' kind
  | imgArm h' kind cue => exact execImgArm_canonical h h' kind cue
  | imgCommit h' kind => exact execImgCommit_canonical h h' kind
  | imgSvn h' kind => exact execImgSvn_canonical h h' kind
  | secCalGo h' port lanes => exact execSecCalGo_canonical h h' port lanes
  | calDone => exact execCalDone_canonical h
  | wcDrain h' ch done => exact execWcDrain_canonical h h' ch done
  | wcPowerOff h' ch => exact execWcPowerOff_canonical h h' ch
  | wcRetrain h' ch ok => exact execWcRetrain_canonical h h' ch ok
  | getVersion via => exact execGetVersion_canonical h via
  | getCapabilities via => exact execGetCapabilities_canonical h via
  | negotiateAlgorithms via offered => exact execNegotiateAlgorithms_canonical h via offered
  | getDigests via => exact execGetDigests_canonical h via
  | getCertificate via slot offset length => exact execGetCertificate_canonical h via slot offset length
  | challenge via slot nonce => exact execChallenge_canonical h via slot nonce
  | getMeasurements via index sign => exact execGetMeasurements_canonical h via index sign
  | keyExchange via share => exact execKeyExchange_canonical h via share
  | finish via id good => exact execFinish_canonical h via id good
  | heartbeat via id => exact execHeartbeat_canonical h via id
  | keyUpdate via id => exact execKeyUpdate_canonical h via id
  | endSession via id => exact execEndSession_canonical h via id
  | mctpControlAccess word x => exact execMctpControlAccess_canonical h word x
  | hptCfgBar2Write h' v => exact execHptCfgBar2Write_canonical h h' v
  | pbStagedDataWrite h' f word x => exact execPbStagedDataWrite_canonical h h' f word x
  | pbkFrameStageWrite h' f owner cond done tag => exact execPbkFrameStageWrite_canonical h h' f owner cond done tag
  | registerWrite h' off x => exact execRegisterWrite_canonical h h' off x
  | bypass => exact h.loadTap _
  | idcode => exact h.loadTap _
  | samplePreload cells => exact execSamplePreload_canonical h cells
  | extest => exact h.stopTap _
  | clamp => exact h.stopTap _
  | highz => exact h.stopTap _
  | extestPulse => exact h.stopTap _
  | extestTrain => exact h.stopTap _
  | testLogicReset => exact execTestLogicReset_canonical h
  | edgeLinkUp g rate width => exact execEdgeLinkUp_canonical h g rate width
  | edgePortEn h' k en => exact execEdgePortEn_canonical h h' k en
  | cellTimeMatch => exact execCellTimeMatch_canonical h
  | rowResult id n status data => exact execRowResult_canonical h id n status data
  | rowUpdate src part id n table row kind base f32 data dead => exact execRowUpdate_canonical h src part id n table row kind base f32 data dead

end

/-- Settles O60: every operation of the state keeps the form, so every command does; the tick on an empty queue writes one register. -/
theorem stepKeepsCanonical : Obligations.StepKeepsCanonical := by
  intro s t h e
  unfold step at e
  split at e
  · cases e
    exact h.tick
  · next c rest _ =>
    have hnext := exec_canonical (h.withPending rest) c
    rw [e] at hnext
    exact hnext

end Sys2Proof.Machine
end
section
/-!
PROOFS. Every command answers a next state: no arm of the model stops a run or refuses a command.
-/

namespace Sys2Proof.Machine

/-- The answer is a next state. -/
def Res.answers : Res → Bool
  | .next _ => true
  | _ => false

theorem Res.answers_iff {r : Res} : r.answers = true ↔ ∃ t, r = .next t := by
  cases r <;> simp [answers]

variable {s : State}

theorem State.mailbox_answers (g name args) : Res.answers (s.mailbox g name args) = true := by
  fun_cases State.mailbox s g name args <;> rfl

theorem State.mailboxFree_answers (g name args) : Res.answers (s.mailboxFree g name args) = true := by
  fun_cases State.mailboxFree s g name args <;> rfl

theorem State.signed_answers (via name args bytes) : Res.answers (s.signed via name args bytes) = true := by
  fun_cases State.signed s via name args bytes <;> rfl

theorem State.inSession_answers (via id name f) : Res.answers (s.inSession via id name f) = true := by
  fun_cases State.inSession s via id name f <;> rfl

theorem exec_answers (c : Instr) : Res.answers (exec c s) = true := by
  cases c
  case nop | endUnit | br | brz | brnz | call | retn | loop | waitcue | dlbr | mfs | mts | send | recv | credq | rxq | pand | por | pxor |
    pandn | pnot | pany | pcnt | pfirst | add | sub | mul | mulh | andS | orS | xorS | shl | shr | sra | min | max | slt | seq | clz |
    popc | addi | muli | andi | ori | xori | shli | shri | srai | slti | sltiu | seqi | li | aadd | asub | aadds | ashl | ashr | aand |
    aor | axor | altu | aeq | aaddi | alo | ahi | s2a | a2s | v2s | s2v | vmov | s2p | p2s | smov | amov | vadd | vsub | vmul | vmulh |
    vmin | vmax | vand | vor | vxor | vshl | vshr | vsra | vcmp | vadds | vpopc | vfadd | vfsub | vfmul | vfma | vfmin | vfmax | vfabs |
    vfneg | vfcmp | vfexp2 | vflog2 | vfrcp | vfrsq | vfsqrt | vfscl | cvt | dec | qmx | qps4 | vbcast | vsplat | vperm | vrot | vminl |
    vsuml | tdot | tdotb | tdots | tadd | tbase | tmerge | tpack | tcvt | tstore | xpopl | hdist | ldv | ldvi | ldw | lda | ldg | ldp |
    stv | stvi | stw | sta | stsc | tbar | pbv | pbvi | pbw | pbg | gld | gst | gq | atomAadd | amin | amax | atomAand | atomAor |
    atomAxor | aswap | acas | acas128 | sload | sstore | sdlv | sldv | sstv | sunit | dcmp | enc | ptrx | crc64 | evclaim | evdone | wfe |
    raise | fence | ldl | stl | pwrActive | pwrIdle | pwrDoze | pwrRest | coldReset | secResetCold | secResetWarm | bypass | idcode |
    samplePreload | extest | clamp | highz | extestPulse | extestTrain | testLogicReset | ld64 | st64 | ld32 | st32 |
    inputOvervoltageDisconnect | undervoltageLockout => rfl
  all_goals dsimp only [exec]
  case cueStart => fun_cases execCueStart <;> rfl
  case ledgerRouteReset => fun_cases execLedgerRouteReset <;> rfl
  case workStart => fun_cases execWorkStart <;> rfl
  case guardStart => fun_cases execGuardStart <;> rfl
  case stagedWrite => fun_cases execStagedWrite <;> rfl
  case csCheckGo => fun_cases execCsCheckGo <;> rfl
  case checkDone => fun_cases execCheckDone <;> rfl
  case csTakeCueWrite => fun_cases execCsTakeCueWrite <;> rfl
  case csAbandonGo => fun_cases execCsAbandonGo <;> rfl
  case cueSync => fun_cases execCueSync <;> rfl
  case unitStart => fun_cases execUnitStart <;> rfl
  case deliveryMiss => fun_cases execDeliveryMiss <;> rfl
  case completionMiss => fun_cases execCompletionMiss <;> rfl
  case understudyLeadMiss => fun_cases execUnderstudyLeadMiss <;> rfl
  case meshParcelArrival => fun_cases execMeshParcelArrival <;> rfl
  case hopCreditReturn => fun_cases execHopCreditReturn <;> rfl
  case credParcel => fun_cases execCredParcel <;> rfl
  case cancelParcel => fun_cases execCancelParcel <;> rfl
  case statusRecordArrival => fun_cases execStatusRecordArrival <;> rfl
  case ceLogicFault => fun_cases execCeLogicFault <;> rfl
  case trpRetireGo => fun_cases execTrpRetireGo <;> rfl
  case clockGate => fun_cases execClockGate <;> rfl
  case waitcueResume => fun_cases execWaitcueResume <;> rfl
  case gmemComplete => fun_cases execGmemComplete <;> rfl
  case atomComplete => fun_cases execAtomComplete <;> rfl
  case evclaimCommit => fun_cases execEvclaimCommit <;> rfl
  case wfeWake => fun_cases execWfeWake <;> rfl
  case deliver => fun_cases execDeliver <;> rfl
  case frameEntry => fun_cases execFrameEntry <;> rfl
  case courierDDel => fun_cases execCourierDDel <;> rfl
  case courierReadComplete => fun_cases execCourierReadComplete <;> rfl
  case inTransitRetry => fun_cases execInTransitRetry <;> rfl
  case crrResume => fun_cases execCrrResume <;> rfl
  case crrAbandon => fun_cases execCrrAbandon <;> rfl
  case crrRestart => fun_cases execCrrRestart <;> rfl
  case poolFaultTimeout => fun_cases execPoolFaultTimeout <;> rfl
  case tableReadComplete => fun_cases execTableReadComplete <;> rfl
  case tlbiAll => fun_cases execTlbiAll <;> rfl
  case tlbiPart => fun_cases execTlbiPart <;> rfl
  case tlbiVa => fun_cases execTlbiVa <;> rfl
  case tlbiIpa => fun_cases execTlbiIpa <;> rfl
  case tlbiComplete => fun_cases execTlbiComplete <;> rfl
  case stmHintGo => fun_cases execStmHintGo <;> rfl
  case migrationComplete => fun_cases execMigrationComplete <;> rfl
  case stageOnlyZeroed => fun_cases execStageOnlyZeroed <;> rfl
  case lend => fun_cases execLend <;> rfl
  case notice => fun_cases execNotice <;> rfl
  case release => fun_cases execRelease <;> rfl
  case loanMsg => fun_cases execLoanMsg <;> rfl
  case loanEnd => fun_cases execLoanEnd <;> rfl
  case loanZeroingDone => fun_cases execLoanZeroingDone <;> rfl
  case channelFailed => fun_cases execChannelFailed <;> rfl
  case rebuildComplete => fun_cases execRebuildComplete <;> rfl
  case copybackComplete => fun_cases execCopybackComplete <;> rfl
  case mirrorWr => fun_cases execMirrorWr <;> rfl
  case scrub => fun_cases execScrub <;> rfl
  case errorWindowStart => fun_cases execErrorWindowStart <;> rfl
  case rdS => fun_cases execRdS <;> rfl
  case rdX => fun_cases execRdX <;> rfl
  case upg => fun_cases execUpg <;> rfl
  case rdOnce => fun_cases execRdOnce <;> rfl
  case wrLine => fun_cases execWrLine <;> rfl
  case wrPart => fun_cases execWrPart <;> rfl
  case cohAtomic => fun_cases execCohAtomic <;> rfl
  case tierDataReturn => fun_cases execTierDataReturn <;> rfl
  case snpShr => fun_cases execSnpShr <;> rfl
  case snpInv => fun_cases execSnpInv <;> rfl
  case snpInvHome => fun_cases execSnpInvHome <;> rfl
  case snpOnce => fun_cases execSnpOnce <;> rfl
  case snpShrHome => fun_cases execSnpShrHome <;> rfl
  case ackI => fun_cases execAckI <;> rfl
  case ackID => fun_cases execAckID <;> rfl
  case ackSD => fun_cases execAckSD <;> rfl
  case ackKeep => fun_cases execAckKeep <;> rfl
  case evict => fun_cases execEvict <;> rfl
  case wbData => fun_cases execWbData <;> rfl
  case dataHome => fun_cases execDataHome <;> rfl
  case gnt => fun_cases execGnt <;> rfl
  case dataS => fun_cases execDataS <;> rfl
  case dataF => fun_cases execDataF <;> rfl
  case dataE => fun_cases execDataE <;> rfl
  case dataM => fun_cases execDataM <;> rfl
  case dataOnce => fun_cases execDataOnce <;> rfl
  case dataAtom => fun_cases execDataAtom <;> rfl
  case agentLoad => fun_cases execAgentLoad <;> rfl
  case agentStore => fun_cases execAgentStore <;> rfl
  case agentReplacement => fun_cases execAgentReplacement <;> rfl
  case holdEnd => fun_cases execHoldEnd <;> rfl
  case memrd => fun_cases execMemrd <;> rfl
  case meminv => fun_cases execMeminv <;> rfl
  case memwr => fun_cases execMemwr <;> rfl
  case memwrptl => fun_cases execMemwrptl <;> rfl
  case birsp => fun_cases execBirsp <;> rfl
  case biconflict => fun_cases execBiconflict <;> rfl
  case otherM2sOpcode => fun_cases execOtherM2sOpcode <;> rfl
  case biTimeout => fun_cases execBiTimeout <;> rfl
  case edgeAgentLost => fun_cases execEdgeAgentLost <;> rfl
  case agentSweepComplete => fun_cases execAgentSweepComplete <;> rfl
  case cohAgentRearm => fun_cases execCohAgentRearm <;> rfl
  case hdmDecoderCommit => fun_cases execHdmDecoderCommit <;> rfl
  case efhPortEn => fun_cases execEfhPortEn <;> rfl
  case trainComplete => fun_cases execTrainComplete <;> rfl
  case trainTimeout => fun_cases execTrainTimeout <;> rfl
  case alignLock => fun_cases execAlignLock <;> rfl
  case alignTimeout => fun_cases execAlignTimeout <;> rfl
  case negotiate => fun_cases execNegotiate <;> rfl
  case fecLockLoss => fun_cases execFecLockLoss <;> rfl
  case flitReceive => fun_cases execFlitReceive <;> rfl
  case nak => fun_cases execNak <;> rfl
  case fabricRd => fun_cases execFabricRd <;> rfl
  case fabricWr => fun_cases execFabricWr <;> rfl
  case fabricWrPart => fun_cases execFabricWrPart <;> rfl
  case fabricAtom => fun_cases execFabricAtom <;> rfl
  case fabricRsp => fun_cases execFabricRsp <;> rfl
  case fabricParcel => fun_cases execFabricParcel <;> rfl
  case fabricCred => fun_cases execFabricCred <;> rfl
  case ctrlRd => fun_cases execCtrlRd <;> rfl
  case ctrlWr => fun_cases execCtrlWr <;> rfl
  case requestResendTimeout => fun_cases execRequestResendTimeout <;> rfl
  case offer => fun_cases execOffer <;> rfl
  case offerMsg => fun_cases execOfferMsg <;> rfl
  case offerFwd => fun_cases execOfferFwd <;> rfl
  case accept => fun_cases execAccept <;> rfl
  case acceptMsg => fun_cases execAcceptMsg <;> rfl
  case grant => fun_cases execGrant <;> rfl
  case offerQuery => fun_cases execOfferQuery <;> rfl
  case query => fun_cases execQuery <;> rfl
  case queryReply => fun_cases execQueryReply <;> rfl
  case publish => fun_cases execPublish <;> rfl
  case publishMsg => fun_cases execPublishMsg <;> rfl
  case regionInval => fun_cases execRegionInval <;> rfl
  case invalAck => fun_cases execInvalAck <;> rfl
  case regionSet => fun_cases execRegionSet <;> rfl
  case regionClear => fun_cases execRegionClear <;> rfl
  case regionForward => fun_cases execRegionForward <;> rfl
  case forwardDrained => fun_cases execForwardDrained <;> rfl
  case switchInputArrival => fun_cases execSwitchInputArrival <;> rfl
  case tokenRefill => fun_cases execTokenRefill <;> rfl
  case multicastCopy => fun_cases execMulticastCopy <;> rfl
  case tallyMerge => fun_cases execTallyMerge <;> rfl
  case sweepEnd => fun_cases execSweepEnd <;> rfl
  case gather => fun_cases execGather <;> rfl
  case scatterAdd => fun_cases execScatterAdd <;> rfl
  case rowPut => fun_cases execRowPut <;> rfl
  case rowLookup => fun_cases execRowLookup <;> rfl
  case hotRowLanded => fun_cases execHotRowLanded <;> rfl
  case embForwardDrained => fun_cases execEmbForwardDrained <;> rfl
  case searchOrder => fun_cases execSearchOrder <;> rfl
  case searchTask => fun_cases execSearchTask <;> rfl
  case searchSpill => fun_cases execSearchSpill <;> rfl
  case shardResult => fun_cases execShardResult <;> rfl
  case postcard => fun_cases execPostcard <;> rfl
  case suspect => fun_cases execSuspect <;> rfl
  case quorumLoss => fun_cases execQuorumLoss <;> rfl
  case restoreGo => fun_cases execRestoreGo <;> rfl
  case restoreDone => fun_cases execRestoreDone <;> rfl
  case rslAdmitGo => fun_cases execRslAdmitGo <;> rfl
  case selftestDone => fun_cases execSelftestDone <;> rfl
  case admitOrder => fun_cases execAdmitOrder <;> rfl
  case rehearsalInjection => fun_cases execRehearsalInjection <;> rfl
  case memoryRead => fun_cases execMemoryRead <;> rfl
  case memoryWrite => fun_cases execMemoryWrite <;> rfl
  case unsupportedRequest => fun_cases execUnsupportedRequest <;> rfl
  case configurationRequest => fun_cases execConfigurationRequest <;> rfl
  case doeRequest => fun_cases execDoeRequest <;> rfl
  case flr => fun_cases execFlr <;> rfl
  case hotReset => fun_cases execHotReset <;> rfl
  case dlDown => fun_cases execDlDown <;> rfl
  case perst => fun_cases execPerst <;> rfl
  case hostLinkUp => fun_cases execHostLinkUp <;> rfl
  case ideFailure => fun_cases execIdeFailure <;> rfl
  case identifyMemoryDevice => exact State.mailbox_answers ..
  case getPartitionInfo => exact State.mailbox_answers ..
  case getHealthInfo => exact State.mailboxFree_answers ..
  case getSupportedLogs => exact State.mailboxFree_answers ..
  case getLog => exact State.mailboxFree_answers ..
  case getEventRecords => fun_cases execGetEventRecords <;> rfl
  case clearEventRecords => fun_cases execClearEventRecords <;> rfl
  case mailboxUnsupported => exact State.mailbox_answers ..
  case outboxNotice => fun_cases execOutboxNotice <;> rfl
  case workOrderFetch => fun_cases execWorkOrderFetch <;> rfl
  case inboxHeadWrite => fun_cases execInboxHeadWrite <;> rfl
  case runPlan => fun_cases execRunPlan <;> rfl
  case copyOrder => fun_cases execCopyOrder <;> rfl
  case fillOrder => fun_cases execFillOrder <;> rfl
  case callSheet => fun_cases execCallSheet <;> rfl
  case resumeOrder => fun_cases execResumeOrder <;> rfl
  case eventEdge => fun_cases execEventEdge <;> rfl
  case eventRetract => fun_cases execEventRetract <;> rfl
  case evcPendingClear => fun_cases execEvcPendingClear <;> rfl
  case evcRaiseWrite => fun_cases execEvcRaiseWrite <;> rfl
  case targetSignal => fun_cases execTargetSignal <;> rfl
  case coreHandlerEntry => fun_cases execCoreHandlerEntry <;> rfl
  case smCoreRestart => fun_cases execSmCoreRestart <;> rfl
  case stageDoorCoreRestart => fun_cases execStageDoorCoreRestart <;> rfl
  case smxXqRdWrite => fun_cases execSmxXqRdWrite <;> rfl
  case refclkLoss => fun_cases execRefclkLoss <;> rfl
  case refclkReturn => fun_cases execRefclkReturn <;> rfl
  case pllLockLoss => fun_cases execPllLockLoss <;> rfl
  case pllRelock => fun_cases execPllRelock <;> rfl
  case clkMuxCmdGo => fun_cases execClkMuxCmdGo <;> rfl
  case muxHung => fun_cases execMuxHung <;> rfl
  case domainCycleComplete => fun_cases execDomainCycleComplete <;> rfl
  case clkFcntGo => fun_cases execClkFcntGo <;> rfl
  case clkFcntDone => fun_cases execClkFcntDone <;> rfl
  case stageDoorRound => fun_cases execStageDoorRound <;> rfl
  case tripRecovery => fun_cases execTripRecovery <;> rfl
  case warmReset => fun_cases execWarmReset <;> rfl
  case bootDone => fun_cases execBootDone <;> rfl
  case storeReady => fun_cases execStoreReady <;> rfl
  case imgWrite => fun_cases execImgWrite <;> rfl
  case imgArm => fun_cases execImgArm <;> rfl
  case imgCommit => fun_cases execImgCommit <;> rfl
  case imgSvn => fun_cases execImgSvn <;> rfl
  case secCalGo => fun_cases execSecCalGo <;> rfl
  case calDone => fun_cases execCalDone <;> rfl
  case wcDrain => fun_cases execWcDrain <;> rfl
  case wcPowerOff => fun_cases execWcPowerOff <;> rfl
  case wcRetrain => fun_cases execWcRetrain <;> rfl
  case getVersion => fun_cases execGetVersion <;> rfl
  case getCapabilities => fun_cases execGetCapabilities <;> rfl
  case negotiateAlgorithms => fun_cases execNegotiateAlgorithms <;> rfl
  case getDigests => fun_cases execGetDigests <;> rfl
  case getCertificate => fun_cases execGetCertificate <;> rfl
  case challenge => fun_cases execChallenge <;> [rfl; rfl; exact State.signed_answers ..]
  case getMeasurements => fun_cases execGetMeasurements <;> [rfl; rfl; exact State.signed_answers ..; rfl]
  case keyExchange => fun_cases execKeyExchange <;> [rfl; rfl; exact State.signed_answers ..]
  case finish => fun_cases execFinish <;> rfl
  case heartbeat => exact State.inSession_answers ..
  case keyUpdate => exact State.inSession_answers ..
  case endSession => exact State.inSession_answers ..
  case mctpControlAccess => fun_cases execMctpControlAccess <;> rfl
  case hptCfgBar2Write => fun_cases execHptCfgBar2Write <;> rfl
  case pbStagedDataWrite => fun_cases execPbStagedDataWrite <;> rfl
  case pbkFrameStageWrite => fun_cases execPbkFrameStageWrite <;> rfl
  case registerWrite => fun_cases execRegisterWrite <;> rfl
  case edgeLinkUp => fun_cases execEdgeLinkUp <;> rfl
  case edgePortEn => fun_cases execEdgePortEn <;> rfl
  case cellTimeMatch => fun_cases execCellTimeMatch <;> rfl
  case rowResult => fun_cases execRowResult <;> rfl
  case rowUpdate => fun_cases execRowUpdate <;> rfl

/-- Settles O2: one case per command. -/
theorem everyCommandAnswers : Obligations.EveryCommandAnswers :=
  fun c _ => Res.answers_iff.mp (exec_answers c)

end Sys2Proof.Machine
end
section
/-!
PROOFS. The queue, the reset state, and illegal words (R9, R135, R136, R159, R550).
-/

namespace Sys2Proof.Machine

/-- Settles O1: both clauses are the two branches of `step`. -/
theorem stepRunsFrontCommand : Obligations.StepRunsFrontCommand := by
  refine ⟨fun c rest s h => ?_, fun s h => ?_⟩
  · simp only [step, h]
  · simp only [step, h]

/-- Settles O58: a register that the register file does not list reads as its reset value, and every memory of the reset state is empty. -/
theorem resetValues : Obligations.ResetValues :=
  ⟨fun _ => rfl, rfl, rfl, rfl, by decide, ⟨rfl, rfl, rfl, rfl, rfl, rfl, rfl⟩, fun _ _ => rfl, fun _ => rfl⟩

/-- Settles O3: every instruction takes the issue path of its row, which judges the word first. -/
theorem illegalWordRaises : Obligations.IllegalWordRaises := by
  intro r hr u f s hrun hturn hst hillegal
  obtain ⟨w, -, body, hexec⟩ := isaRows_issuesByPath r hr
  rw [hexec, issueW_illegal hrun hturn hst hillegal]

end Sys2Proof.Machine
end
section
/-!
PROOFS. Arithmetic: what atomics leave in memory (R203), and the special values of the transcendental minors (R181).
-/

namespace Sys2Proof.Machine

/-- Settles O29: on operands of the access's width an integer type has no NaN and needs no reduction. -/
theorem atomicMemoryResult : Obligations.AtomicMemoryResult := by
  intro w ta rm srw old opnd cmp _ hta _ hopnd hcmp key
  have hty : ta ≠ 2 := by omega
  have hop : opnd % 2 ^ (8 * w) = opnd := Nat.mod_eq_of_lt hopnd
  have hcp : cmp % 2 ^ (8 * w) = cmp := Nat.mod_eq_of_lt hcmp
  have hless : ∀ x y : Nat, (if ta = 0 then decide (sgn (8 * w) x < sgn (8 * w) y) else decide (x < y)) = decide (key x < key y) := by
    intro x y
    by_cases h0 : ta = 0 <;> simp [key, h0]
  refine ⟨?sum, ?smaller, ?larger, ?and, ?or, ?xor, ?swap, ?cas, ?cas128⟩
  case smaller | larger => simp only [atomNew, hty, hop, hless]; grind
  all_goals simp [atomNew, hty, hop, hcp]

/-- Settles O12: each special value is a branch of its function that rounds nothing. -/
theorem transcendentalSpecialValues : Obligations.TranscendentalSpecialValues := by
  refine ⟨rfl, rfl, fun _ => rfl, rfl, fun m e hm => ?log2, fun n => ?rcpZero, fun n => ?rcpInf, fun n => ?rsqZero, fun m e hm => ?rsq,
    fun m e hm => ?sqrt, rfl⟩
  case log2 => simp [vfLog2, Nat.ne_of_gt hm, fmt32, Fmt.nanCode]
  case rcpZero => cases n <;> rfl
  case rcpInf => cases n <;> rfl
  case rsqZero => cases n <;> rfl
  case rsq => simp [vfRsq, Nat.ne_of_gt hm, fmt32, Fmt.nanCode]
  case sqrt => simp [vfSqrt, Nat.ne_of_gt hm, fmt32, Fmt.nanCode]

end Sys2Proof.Machine
end
section
/-!
PROOFS. Registers and words: how wide a register's number is, what a write of a register keeps of it, and the model's counts and searches of bits in
terms of the statements'.
-/

namespace Sys2Proof.Machine

/-! ### Registers as numbers -/

theorem Cx.sr_lt (x : Cx) (n : Nat) : x.sr n < 2 ^ 32 := BitVec.isLt _

theorem Cx.ar_lt (x : Cx) (n : Nat) : x.ar n < 2 ^ 64 := BitVec.isLt _

theorem Cx.pr_lt (x : Cx) (n : Nat) : x.pr n < 2 ^ 16 := BitVec.isLt _

theorem Cx.vl_lt (x : Cx) (n l : Nat) : x.vl n l < 2 ^ 32 := BitVec.isLt _

/-- A word keeps a number modulo its size. -/
theorem ofNat_congr {w y z : Nat} (h : y % 2 ^ w = z % 2 ^ w) : BitVec.ofNat w y = BitVec.ofNat w z :=
  BitVec.eq_of_toNat_eq (by simpa only [BitVec.toNat_ofNat] using h)

theorem Cx.setS_congr (x : Cx) (d : Nat) {y z : Nat} (h : y % 2 ^ 32 = z % 2 ^ 32) : x.setS d y = x.setS d z := by
  rw [setS, setS, ofNat_congr h]

theorem Cx.setA_congr (x : Cx) (d : Nat) {y z : Nat} (h : y % 2 ^ 64 = z % 2 ^ 64) : x.setA d y = x.setA d z := by
  rw [setA, setA, ofNat_congr h]

theorem Cx.setP_congr (x : Cx) (d : Nat) {y z : Nat} (h : y % 2 ^ 16 = z % 2 ^ 16) : x.setP d y = x.setP d z := by
  rw [setP, setP, ofNat_congr h]

theorem Cx.setL_congr (x : Cx) (d l : Nat) {y z : Nat} (h : y % 2 ^ 32 = z % 2 ^ 32) : x.setL d l y = x.setL d l z := by
  rw [setL, setL, ofNat_congr h]

/-! ### Bits and words -/

theorem bitOf_eq_testBit (x b : Nat) : bitOf x b = x.testBit b := by
  rw [bitOf, Nat.testBit_eq_decide_div_mod_eq, beq_eq_decide]

theorem popcount_eq_sum (n x : Nat) : popcount n x = ((List.range n).map (fun i => if x.testBit i then 1 else 0)).sum := by
  simp only [popcount, bitOf_eq_testBit]
  induction List.range n with
  | nil => rfl
  | cons i l ih => by_cases hi : x.testBit i <;> simp [hi, ih, Nat.add_comm]

theorem lowestBit_eq_find (n x : Nat) : lowestBit n x = ((List.range n).find? (fun i => x.testBit i)).getD n := by
  simp only [lowestBit, bitOf_eq_testBit]

theorem b2n_eq_ite (b : Bool) : b2n b = if b then 1 else 0 := rfl

/-- The two's complement of a number agrees with it modulo the word. -/
theorem sgn_emod (w x : Nat) : sgn w x % (2 ^ w : Nat) = ((x % 2 ^ w : Nat) : Int) := by
  unfold sgn
  split
  · rw [Int.sub_emod_right, Int.natCast_mod, Int.emod_emod]
  · rw [Int.natCast_mod, Int.emod_emod]

theorem byTA_emod (ta x : Nat) : byTA ta x % (2 ^ 32 : Nat) = ((x % 2 ^ 32 : Nat) : Int) := by
  unfold byTA
  split
  · exact sgn_emod 32 x
  · rw [Int.natCast_mod, Int.emod_emod]

theorem unsgn_lt (w : Nat) (x : Int) : unsgn w x < 2 ^ w := by
  have hpos : (0 : Int) < (2 ^ w : Nat) := by positivity
  have hlt := Int.emod_lt_of_pos x hpos
  have hnn := Int.emod_nonneg x hpos.ne'
  unfold unsgn
  omega

theorem unsgn_eq_iff {w : Nat} {x : Int} {n : Nat} (h : x % (2 ^ w : Nat) = ((n % 2 ^ w : Nat) : Int)) : unsgn w x = n % 2 ^ w := by
  rw [unsgn, h, Int.toNat_natCast]

theorem unsgn_byTA_add (ta a b : Nat) : unsgn 32 (byTA ta a + byTA ta b) = (a + b) % 2 ^ 32 := by
  apply unsgn_eq_iff
  rw [Int.add_emod, byTA_emod, byTA_emod]
  omega

theorem unsgn_byTA_sub (ta a : Nat) {b : Nat} (hb : b < 2 ^ 32) : unsgn 32 (byTA ta a - byTA ta b) = (a + (2 ^ 32 - b)) % 2 ^ 32 := by
  apply unsgn_eq_iff
  rw [Int.sub_emod, byTA_emod, byTA_emod]
  omega

/-- The smaller of two numbers, whichever way it is asked for. -/
theorem ite_lt_eq_ite_le {α : Type} (a b : Int) (x y : α) : (if b < a then y else x) = if a ≤ b then x else y := by
  by_cases h : a ≤ b
  · rw [if_neg (not_lt.mpr h), if_pos h]
  · rw [if_pos (not_le.mp h), if_neg h]

/-- The number of leading zero bits is the place of the highest set bit, counted from the top. -/
theorem clz_eq_find {x : Nat} (hx : x < 2 ^ 32) :
    (if x = 0 then 32 else 31 - Nat.log2 x) = ((List.range 32).find? (fun i => x.testBit (31 - i))).getD 32 := by
  split
  next h0 => rw [List.find?_eq_none.mpr (by simp [h0]), Option.getD_none]
  next h0 =>
    have hlog : Nat.log2 x < 32 := (Nat.log2_lt h0).mpr hx
    have hfind : (List.range 32).find? (fun i => x.testBit (31 - i)) = some (31 - Nat.log2 x) := by
      rw [List.find?_range_eq_some]
      refine ⟨?_, by simp; omega, fun j hj => ?_⟩
      · rw [show 31 - (31 - Nat.log2 x) = Nat.log2 x by omega]
        exact Nat.testBit_log2 h0
      · have hlt : x < 2 ^ (31 - j) := (Nat.log2_lt h0).mp (by omega)
        simp [Nat.testBit_lt_two_pow hlt]
    rw [hfind, Option.getD_some]

/-! ### Instructions that write one register -/

section

variable {i : Agent → BitVec 52 → Instr} {e : Enc} {ok : Nat → BitVec 52 → Bool} {g h : BitVec 52 → Cx → Nat}

/-- Where an instruction issues, only what its operation gives on its own context matters. -/
theorem Gives.congr {op op' : BitVec 52 → Cx → Cx} (hop : Gives i e ok op)
    (heq : ∀ p f x, e.legal p f = true → op f x = op' f x) : Gives i e ok op' := by
  intro u f s hI hE
  obtain ⟨-, -, -, -, hlegal, -⟩ := id hI
  rw [hop u f s hI hE, heq _ _ _ hlegal]

theorem GivesLanes.congr {op op' : BitVec 52 → Cx → Cx} (hop : GivesLanes i e ok op)
    (heq : ∀ p f x, e.legal p f = true → op f x = op' f x) : GivesLanes i e ok op' := by
  intro u f s hI
  obtain ⟨-, -, -, -, hlegal, -⟩ := id hI
  rw [hop u f s hI, heq _ _ _ hlegal]

/-- An instruction whose operation writes sD writes it with any number that agrees with the model's modulo 2^32. -/
theorem gives_setS (hx : ∀ u f s, exec (i u f) s = .next (issueR u e f (ok (agentProfile u) f) (fun x => x.setS (fD f) (g f x)) s))
    (hgh : ∀ p f x, e.legal p f = true → g f x % 2 ^ 32 = h f x % 2 ^ 32) : Gives i e ok (fun f x => x.setS (fD f) (h f x)) :=
  have hg : Gives i e ok (fun f x => x.setS (fD f) (g f x)) := gives_of_issueR hx (fun _ _ => rfl) (fun _ _ => rfl)
  hg.congr fun p f x hl => x.setS_congr _ (hgh p f x hl)

theorem gives_setA (hx : ∀ u f s, exec (i u f) s = .next (issueR u e f (ok (agentProfile u) f) (fun x => x.setA (fD f) (g f x)) s))
    (hgh : ∀ p f x, e.legal p f = true → g f x % 2 ^ 64 = h f x % 2 ^ 64) : Gives i e ok (fun f x => x.setA (fD f) (h f x)) :=
  have hg : Gives i e ok (fun f x => x.setA (fD f) (g f x)) := gives_of_issueR hx (fun _ _ => rfl) (fun _ _ => rfl)
  hg.congr fun p f x hl => x.setA_congr _ (hgh p f x hl)

theorem gives_setP (hx : ∀ u f s, exec (i u f) s = .next (issueR u e f (ok (agentProfile u) f) (fun x => x.setP (fD f) (g f x)) s))
    (hgh : ∀ p f x, e.legal p f = true → g f x % 2 ^ 16 = h f x % 2 ^ 16) : Gives i e ok (fun f x => x.setP (fD f) (h f x)) :=
  have hg : Gives i e ok (fun f x => x.setP (fD f) (g f x)) := gives_of_issueR hx (fun _ _ => rfl) (fun _ _ => rfl)
  hg.congr fun p f x hl => x.setP_congr _ (hgh p f x hl)

end

/-! ### Instructions that write lanes -/

section

/-- A loop of writes that leave a part alone leaves it alone. -/
theorem foldl_proj {σ ι β : Type} (part : σ → β) {op : σ → ι → σ} (hop : ∀ y l, part (op y l) = part y) (ls : List ι) (x : σ) :
    part (ls.foldl op x) = part x := by
  induction ls generalizing x with
  | nil => rfl
  | cons l ls ih => exact (ih _).trans (hop x l)

@[simp] theorem Cx.mapLanes_pc (x : Cx) (d m : Nat) (g : Nat → Nat × Nat) : (x.mapLanes d m g).pc = x.pc :=
  foldl_proj Cx.pc (fun y l => by split <;> rfl) _ x

@[simp] theorem Cx.mapLanes_st (x : Cx) (d m : Nat) (g : Nat → Nat × Nat) : (x.mapLanes d m g).st = x.st :=
  foldl_proj Cx.st (fun y l => by split <;> rfl) _ x

@[simp] theorem Cx.convert_pc (x : Cx) (d k w m n : Nat) (g : Nat → Nat × Nat) : (x.convert d k w m n g).pc = x.pc :=
  foldl_proj Cx.pc (fun y l => by dsimp only; split <;> rfl) _ x

@[simp] theorem Cx.convert_st (x : Cx) (d k w m n : Nat) (g : Nat → Nat × Nat) : (x.convert d k w m n g).st = x.st :=
  foldl_proj Cx.st (fun y l => by dsimp only; split <;> rfl) _ x

@[simp] theorem Cx.addDots_pc (x : Cx) (f : BitVec 52) (g : Nat → List (FV × Bool)) : (x.addDots f g).pc = x.pc :=
  foldl_proj Cx.pc (fun y l => by split <;> rfl) _ x

@[simp] theorem Cx.addDots_st (x : Cx) (f : BitVec 52) (g : Nat → List (FV × Bool)) : (x.addDots f g).st = x.st :=
  foldl_proj Cx.st (fun y l => by split <;> rfl) _ x

@[simp] theorem Cx.setGroup_pc (x : Cx) (n k m y : Nat) : (x.setGroup n k m y).pc = x.pc :=
  foldl_proj Cx.pc (fun y l => by split <;> rfl) _ x

@[simp] theorem Cx.setGroup_st (x : Cx) (n k m y : Nat) : (x.setGroup n k m y).st = x.st :=
  foldl_proj Cx.st (fun y l => by split <;> rfl) _ x

@[simp] theorem Cx.mergePayload_pc (x : Cx) (f : BitVec 52) (n : Nat) : (x.mergePayload f n).pc = x.pc := by
  unfold Cx.mergePayload
  grind [Cx.setT_pc]

@[simp] theorem Cx.mergePayload_st (x : Cx) (f : BitVec 52) (n : Nat) : (x.mergePayload f n).st = x.st := by
  unfold Cx.mergePayload
  grind [Cx.setT_st]

/-- A lane takes its number modulo 2^32 and its flags, and the disabled lanes take nothing. -/
theorem Cx.mapLanes_congr {g h : Nat → Nat × Nat} (x : Cx) (d m : Nat)
    (hgh : ∀ l, (g l).1 % 2 ^ 32 = (h l).1 % 2 ^ 32 ∧ (g l).2 = (h l).2) : x.mapLanes d m g = x.mapLanes d m h := by
  unfold Cx.mapLanes
  congr 1
  funext y l
  obtain ⟨hval, hflags⟩ := hgh l
  rw [y.setL_congr d l hval, hflags]

variable {i : Agent → BitVec 52 → Instr} {e : Enc} {ok : Nat → BitVec 52 → Bool}

theorem givesLanes_mapLanes {g h : BitVec 52 → Cx → Nat → Nat × Nat}
    (hx : ∀ u f s, exec (i u f) s =
      .next (issueV u e f (ok (agentProfile u) f) (fun x => x.mapLanes (fD f) (maskOf x f) (g f x)) s))
    (hgh : ∀ p f x l, e.legal p f = true → (g f x l).1 % 2 ^ 32 = (h f x l).1 % 2 ^ 32 ∧ (g f x l).2 = (h f x l).2) :
    GivesLanes i e ok (fun f x => x.mapLanes (fD f) (maskOf x f) (h f x)) :=
  have hg : GivesLanes i e ok (fun f x => x.mapLanes (fD f) (maskOf x f) (g f x)) :=
    gives_of_issueV hx (fun _ _ => Cx.mapLanes_pc ..) (fun _ _ => Cx.mapLanes_st ..)
  hg.congr fun p f x hl => x.mapLanes_congr _ _ (hgh p f x · hl)

theorem givesLanes_mapPred {g h : BitVec 52 → Cx → Nat → Bool}
    (hx : ∀ u f s, exec (i u f) s =
      .next (issueV u e f (ok (agentProfile u) f) (fun x => x.mapPred (fD f) (maskOf x f) (g f x)) s))
    (hgh : ∀ p f x l, e.legal p f = true → g f x l = h f x l) :
    GivesLanes i e ok (fun f x => x.mapPred (fD f) (maskOf x f) (h f x)) :=
  have hg : GivesLanes i e ok (fun f x => x.mapPred (fD f) (maskOf x f) (g f x)) := gives_of_issueV hx (fun _ _ => rfl) (fun _ _ => rfl)
  hg.congr fun p f x hl => by rw [funext (hgh p f x · hl)]

theorem givesLanes_addDots {g : BitVec 52 → Cx → Nat → List (FV × Bool)}
    (hx : ∀ u f s, exec (i u f) s = .next (issueV u e f (ok (agentProfile u) f) (fun x => x.addDots f (g f x)) s)) :
    GivesLanes i e ok (fun f x => x.addDots f (g f x)) :=
  gives_of_issueV hx (fun _ _ => Cx.addDots_pc ..) (fun _ _ => Cx.addDots_st ..)

/-- An immediate of a legal word fits its field. -/
theorem Enc.fIMM_lt {p : Nat} {f : BitVec 52} (h : e.legal p f = true) (hform : e.iform = true) : fIMM f < 2 ^ e.imm := by
  simp only [Enc.legal, hform, if_true, Bool.and_eq_true, decide_eq_true_eq] at h
  exact h.2.2

end

end Sys2Proof.Machine
end
section
/-!
PROOFS. The results of the PRED, SALU, SIMM, AALU and MOVE instructions (R174 to R178).
-/

namespace Sys2Proof.Machine

/-- Settles O5. -/
theorem predicateResults : Obligations.PredicateResults := by
  refine ⟨?pand, ?por, ?pxor, ?pandn, ?pnot, ?pany, ?pcnt, ?pfirst⟩
  case pany => exact gives_setS (fun _ _ _ => rfl) fun _ f x _ => by by_cases h : x.pr (fA f) = 0 <;> simp [h, b2n]
  case pcnt => exact gives_setS (fun _ _ _ => rfl) fun _ _ _ _ => by rw [popcount_eq_sum]
  case pfirst => exact gives_setS (fun _ _ _ => rfl) fun _ _ _ _ => by rw [lowestBit_eq_find]
  all_goals exact gives_setP (fun _ _ _ => rfl) fun _ _ _ _ => rfl

/-- A sum or difference of scalars, limited with SAT and reduced without. -/
theorem gives_limited {i : Agent → BitVec 52 → Instr} {e : Enc} {y : BitVec 52 → Cx → Int} {z : BitVec 52 → Cx → Nat}
    (hx : ∀ u f s, exec (i u f) s = .next (issueR u e f true (fun x =>
      if fSAT f then (x.setS (fD f) (limit32 (fTA f == 0) (y f x)).1).orFlags (limit32 (fTA f == 0) (y f x)).2
      else x.setS (fD f) (unsgn 32 (y f x))) s))
    (hyz : ∀ f x, unsgn 32 (y f x) = z f x) :
    Gives i e anyWord (fun f x =>
      if fSAT f then (x.setS (fD f) (limit32 (fTA f == 0) (y f x)).1).orFlags (limit32 (fTA f == 0) (y f x)).2
      else x.setS (fD f) (z f x)) := by
  simp only [hyz] at hx
  exact gives_of_issueR hx (fun f x => by split <;> rfl) (fun f x => by split <;> rfl)

/-- Settles O6: additions and subtractions by the two's complement, counts and searches by their bits, the rest as the model writes it. -/
theorem scalarAluResults : Obligations.ScalarAluResults := by
  refine ⟨?add, ?sub, ?mul, ?mulh, ?and, ?or, ?xor, ?shl, ?shr, ?sra, ?min, ?max, ?slt, ?seq, ?clz, ?popc⟩
  case add => exact gives_limited (fun _ _ _ => rfl) fun _ _ => unsgn_byTA_add ..
  case sub => exact gives_limited (fun _ _ _ => rfl) fun _ x => unsgn_byTA_sub _ _ (x.sr_lt _)
  case mul | shl => exact gives_setS (fun _ _ _ => rfl) fun _ _ _ _ => (Nat.mod_mod _ _).symm
  case min | max => exact gives_setS (fun _ _ _ => rfl) fun _ _ _ _ => by rw [ite_lt_eq_ite_le]
  case slt => exact gives_setS (fun _ _ _ => rfl) fun _ _ _ _ => by simp only [b2n_eq_ite, decide_eq_true_eq]
  case seq => exact gives_setS (fun _ _ _ => rfl) fun _ _ _ _ => by simp only [b2n_eq_ite, beq_iff_eq]
  case clz => exact gives_setS (fun _ _ _ => rfl) fun _ _ x _ => by rw [clz_eq_find (x.sr_lt _)]
  case popc => exact gives_setS (fun _ _ _ => rfl) fun _ _ _ _ => by rw [popcount_eq_sum]
  all_goals exact gives_setS (fun _ _ _ => rfl) fun _ _ _ _ => rfl

/-- Settles O7: a legal shift names a place below 32. -/
theorem immediateResults : Obligations.ImmediateResults := by
  refine ⟨?addi, ?muli, ?andi, ?ori, ?xori, ?shli, ?shri, ?srai, ?slti, ?sltiu, ?seqi, ?li⟩
  case addi | muli => exact gives_setS (fun _ _ _ => rfl) fun _ _ _ _ => (Nat.mod_mod _ _).symm
  case shli | shri | srai =>
    refine gives_setS (fun _ _ _ => rfl) fun _ f _ hl => ?_
    have himm : fIMM f % 32 = fIMM f := Nat.mod_eq_of_lt (Enc.fIMM_lt hl rfl)
    simp only [himm, Nat.mod_mod]
  case slti | sltiu => exact gives_setS (fun _ _ _ => rfl) fun _ _ _ _ => by simp only [b2n_eq_ite, decide_eq_true_eq]
  case seqi => exact gives_setS (fun _ _ _ => rfl) fun _ _ _ _ => by simp only [b2n_eq_ite, beq_iff_eq]
  all_goals exact gives_setS (fun _ _ _ => rfl) fun _ _ _ _ => rfl

/-- Settles O8. -/
theorem addressResults : Obligations.AddressResults := by
  refine ⟨?aadd, ?asub, ?aadds, ?ashl, ?ashr, ?aand, ?aor, ?axor, ?altu, ?aeq, ?aaddi, ?alo, ?ahi⟩
  case aadd | asub | aadds | ashl | aaddi => exact gives_setA (fun _ _ _ => rfl) fun _ _ _ _ => (Nat.mod_mod _ _).symm
  case altu => exact gives_setS (fun _ _ _ => rfl) fun _ _ _ _ => by simp only [b2n_eq_ite, decide_eq_true_eq]
  case aeq => exact gives_setS (fun _ _ _ => rfl) fun _ _ _ _ => by simp only [b2n_eq_ite, beq_iff_eq]
  all_goals exact gives_setA (fun _ _ _ => rfl) fun _ _ _ _ => rfl

/-- Settles O9. -/
theorem moveResults : Obligations.MoveResults := by
  refine ⟨?s2a, ?a2s, ?v2s, ?s2v, ?vmov, ?s2p, ?p2s, ?smov, ?amov⟩
  case a2s =>
    refine gives_setS (fun _ _ _ => rfl) fun _ _ _ _ => ?_
    split
    · rfl
    · exact (Nat.mod_mod _ _).symm
  case s2v => exact gives_of_issueR (fun _ _ _ => rfl) (fun _ _ => rfl) (fun _ _ => rfl)
  case vmov => exact givesLanes_mapLanes (fun _ _ _ => rfl) fun _ _ _ _ _ => ⟨rfl, rfl⟩
  case s2p => exact gives_setP (fun _ _ _ => rfl) fun _ _ _ _ => (Nat.mod_mod _ _).symm
  case s2a | amov => exact gives_setA (fun _ _ _ => rfl) fun _ _ _ _ => rfl
  all_goals exact gives_setS (fun _ _ _ => rfl) fun _ _ _ _ => rfl

end Sys2Proof.Machine
end
section
/-!
PROOFS. The results of the vector instructions (R179 to R185).
-/

namespace Sys2Proof.Machine

/-! ### VINT -/

/-- Settles O10. -/
theorem vectorIntegerResults : Obligations.VectorIntegerResults := by
  refine ⟨?vadd, ?vsub, ?vmul, ?vmulh, ?vmin, ?vmax, ?vand, ?vor, ?vxor, ?vshl, ?vshr, ?vsra, ?vcmp, ?vadds, ?vpopc⟩
  case vadd | vadds =>
    refine givesLanes_mapLanes (fun _ _ _ => rfl) fun _ f _ _ _ => ?_
    cases fSAT f
    · exact ⟨congrArg (· % 2 ^ 32) (unsgn_byTA_add ..), rfl⟩
    · exact ⟨rfl, rfl⟩
  case vsub =>
    refine givesLanes_mapLanes (fun _ _ _ => rfl) fun _ f x l _ => ?_
    cases fSAT f
    · exact ⟨congrArg (· % 2 ^ 32) (unsgn_byTA_sub _ _ (x.vl_lt _ l)), rfl⟩
    · exact ⟨rfl, rfl⟩
  case vmul | vshl => exact givesLanes_mapLanes (fun _ _ _ => rfl) fun _ _ _ _ _ => ⟨(Nat.mod_mod _ _).symm, rfl⟩
  case vmin | vmax => exact givesLanes_mapLanes (fun _ _ _ => rfl) fun _ _ _ _ _ => ⟨by rw [ite_lt_eq_ite_le], rfl⟩
  case vpopc => exact givesLanes_mapLanes (fun _ _ _ => rfl) fun _ _ _ _ _ => ⟨by rw [popcount_eq_sum], rfl⟩
  case vcmp =>
    refine givesLanes_mapPred (fun _ _ _ => rfl) fun _ f _ _ _ => ?_
    match fMOD f with
    | 0 | 2 | _ + 3 => rfl
    | 1 => exact (decide_not ..).symm
  all_goals exact givesLanes_mapLanes (fun _ _ _ => rfl) fun _ _ _ _ _ => ⟨rfl, rfl⟩

/-! ### VFP -/

/-- An operation on the elements of a lane depends only on what it gives for each element. -/
theorem Cx.vfLane_congr {g h : Nat → Nat → Nat → Nat → Nat × Nat} (hgh : ∀ e a b c, g e a b c = h e a b c) (x : Cx) (f : BitVec 52) :
    x.vfLane f g = x.vfLane f h := by
  rw [show g = h from funext fun e => funext fun a => funext fun b => funext (hgh e a b)]

/-- Settles O11. -/
theorem vectorFloatResults : Obligations.VectorFloatResults := by
  refine ⟨?vfadd, ?vfsub, ?vfmul, ?vfma, ?vfmin, ?vfmax, ?vfabs, ?vfneg, ?vfcmp, ?vfexp2, ?vflog2, ?vfrcp, ?vfrsq, ?vfsqrt, ?vfscl⟩
  case vfmin | vfmax =>
    refine givesLanes_mapLanes (fun _ _ _ => rfl) fun _ f x l _ => ?_
    rw [x.vfLane_congr fun e a b c => ?_]
    · exact ⟨rfl, rfl⟩
    · cases (tav f a).isNan <;> cases (tav f b).isNan <;> rfl
  case vfcmp =>
    refine givesLanes_mapPred (fun _ _ _ => rfl) fun _ f _ _ _ => ?_
    match fMOD f with
    | 0 | 1 | 2 | _ + 3 => rfl
  all_goals exact givesLanes_mapLanes (fun _ _ _ => rfl) fun _ _ _ _ _ => ⟨rfl, rfl⟩

/-! ### VCVT -/

/-- Settles O13. -/
theorem conversionResults : Obligations.ConversionResults := by
  refine ⟨?cvt, ?dec, ?qmx, ?qps4⟩
  case cvt | dec => exact gives_of_issueV (fun _ _ _ => rfl) (fun _ _ => by simp) (fun _ _ => by simp)
  case qmx | qps4 => exact gives_of_issueR (fun _ _ _ => rfl) (fun _ _ => by simp) (fun _ _ => by simp)

/-! ### VPERM -/

/-- The search for a smallest lane keeps the lowest of the smallest so far. -/
theorem lowest_least_range (v : Nat → Nat) (n : Nat) :
    let best := (List.range (n + 1)).foldl (fun b l => if v l < v b then l else b) 0
    best < n + 1 ∧ (∀ k, k < n + 1 → v best ≤ v k) ∧ (∀ k, k < best → v best < v k) := by
  induction n with
  | zero => simp
  | succ n ih =>
    intro best
    obtain ⟨hlt, hleast, hlowest⟩ := ih
    have hstep : best = if v (n + 1) < v ((List.range (n + 1)).foldl (fun b l => if v l < v b then l else b) 0) then n + 1
        else (List.range (n + 1)).foldl (fun b l => if v l < v b then l else b) 0 := by
      rw [show best = (List.range (n + 1 + 1)).foldl _ 0 from rfl, List.range_succ, List.foldl_append, List.foldl_cons, List.foldl_nil]
    grind

/-- Settles O14: VMINL's search is the search for the lowest of the smallest lanes. -/
theorem permutationResults : Obligations.PermutationResults := by
  refine ⟨?vbcast, ?vsplat, ?vperm, ?vrot, ?vsuml, ?vminl⟩
  case vsuml => exact gives_setS (fun _ _ _ => rfl) fun _ _ _ _ => (Nat.mod_mod _ _).symm
  case vminl =>
    intro u f s hI hE
    have hgives : Gives .vminl encVminl anyWord _ := gives_of_issueR (fun _ _ _ => rfl) (fun _ _ => rfl) (fun _ _ => rfl)
    obtain ⟨hlt, hleast, hlowest⟩ := lowest_least_range ((s.cx u).vl (fA f)) 15
    exact ⟨_, hlt, hleast, hlowest, hgives u f s hI hE⟩
  all_goals exact givesLanes_mapLanes (fun _ _ _ => rfl) fun _ _ _ _ _ => ⟨rfl, rfl⟩

end Sys2Proof.Machine
end
section
/-!
PROOFS. The results of the tally and Hamming instructions (R111 to R119, R186 to R192).
-/

namespace Sys2Proof.Machine

/-- Settles O15: the terms of each enabled lane are the products that the model adds. -/
theorem tallyProductResults : Obligations.TallyProductResults := by
  refine ⟨?tdot, ?tdotb, ?tdots, ?tadd⟩
  case tdots =>
    refine (givesLanes_addDots fun _ _ _ => rfl).congr fun _ f x _ => ?_
    simp only [bitsOf, Nat.pow_zero, Nat.div_one]
  all_goals exact givesLanes_addDots fun _ _ _ => rfl

/-- Where an instruction that executes as a whole changes its own context alone, it retires with that context. -/
theorem exec_retire_of_issue {c : Instr} {e : Enc} {ok : Bool} {u : Agent} {f : BitVec 52} {s : State} {y : Cx}
    {body : Cx → State → Body} (hx : exec c s = .next (issue u e f ok body s)) (hI : Issues e ok u f s) (hE : Enabled u f s)
    (hbody : body (s.cx u) s = .go (s.setCx u y)) (hpc : y.pc = (s.cx u).pc) (hst : y.st = (s.cx u).st) :
    exec c s = .next (s.retire u y) := by
  rw [hx, issue_eq_outcome hI hE, hbody, Body.outcome_go_setCx hI.running hpc hst]

/-- Settles O16. -/
theorem tallyRegisterResults : Obligations.TallyRegisterResults := by
  refine ⟨?tbase, ?tmerge, ?tpack, ?tcvt, ?xpopl, ?hdist⟩
  case tbase =>
    intro u f s hI hE
    have htb := foldl_proj Cx.tb (fun y l => Cx.setT_tb y (fTS f) l {}) (List.range 16) (s.cx u)
    have hpc := foldl_proj Cx.pc (fun y l => Cx.setT_pc y (fTS f) l {}) (List.range 16) (s.cx u)
    have hst := foldl_proj Cx.st (fun y l => Cx.setT_st y (fTS f) l {}) (List.range 16) (s.cx u)
    generalize hy : (List.range 16).foldl (fun y l => Cx.setT y (fTS f) l {}) (s.cx u) = y at *
    refine exec_retire_of_issue rfl hI hE ?_ hpc hst
    dsimp only
    rw [hy, htb]
  case tmerge =>
    refine gives_of_issueV (fun u f s => ?_) (fun f x => ?_) (fun f x => ?_)
    · change execTmerge u f s = _
      simp only [execTmerge, bitOf, Nat.pow_zero, Nat.div_one, beq_iff_eq]
    · split <;> simp
    · split <;> simp
  case tpack => exact gives_of_issueR (fun _ _ _ => rfl) (fun _ _ => by simp only [Cx.setGroup_pc]) (fun _ _ => by simp only [Cx.setGroup_st])
  case tcvt => exact givesLanes_mapLanes (fun _ _ _ => rfl) fun _ _ _ _ _ => ⟨rfl, rfl⟩
  case xpopl => exact givesLanes_mapLanes (fun _ _ _ => rfl) fun _ _ _ _ _ => ⟨by rw [popcount_eq_sum], rfl⟩
  case hdist => exact gives_of_issueR (fun _ _ _ => rfl) (fun f _ => by dsimp only; split <;> rfl) (fun f _ => by dsimp only; split <;> rfl)

end Sys2Proof.Machine
end
section
/-!
PROOFS. Troupe SRAM and the Prompt Book (R68, R70, R190, R193 to R197): loads, stores and what they leave unchanged.
-/

namespace Sys2Proof.Machine

/-! ### What a raised event and a codeword error leave unchanged -/

theorem State.latch_fold_proc (s : State) (i : Nat) :
    ((List.range 16).foldl (fun s c => if s.deliverable c i then s.latch c else s) s).proc = s.proc :=
  foldl_proj State.proc (fun _ _ => by split <;> rfl) _ s

theorem State.latch_fold_trp (s : State) (i : Nat) :
    ((List.range 16).foldl (fun s c => if s.deliverable c i then s.latch c else s) s).trp = s.trp :=
  foldl_proj State.trp (fun _ _ => by split <;> rfl) _ s

@[simp] theorem State.raise_proc (s : State) (i : Nat) : (s.raise i).proc = s.proc := by
  fun_cases State.raise s i
  · rfl
  · exact State.latch_fold_proc _ i
  · exact State.latch_fold_proc _ i

@[simp] theorem State.raise_trp (s : State) (i : Nat) : (s.raise i).trp = s.trp := by
  fun_cases State.raise s i
  · rfl
  · exact State.latch_fold_trp _ i
  · exact State.latch_fold_trp _ i

@[simp] theorem State.noteUE_proc (s : State) (marked : Bool) : (s.noteUE marked).proc = s.proc := by
  cases marked <;> simp [State.noteUE] <;> split <;> simp

@[simp] theorem State.noteUE_trp (s : State) (marked : Bool) : (s.noteUE marked).trp = s.trp := by
  cases marked <;> simp [State.noteUE] <;> split <;> simp

@[simp] theorem State.sramError_proc (s : State) (t w e : Nat) : (s.sramError t w e).proc = s.proc := by
  fun_cases State.sramError s t w e
  · exact State.raise_proc ..
  · rfl
  · exact State.noteUE_proc ..

@[simp] theorem State.sramError_sram (s : State) (t w e : Nat) : (s.sramError t w e).trp.sram = s.trp.sram := by
  fun_cases State.sramError s t w e
  · exact (congrArg Troupes.sram (State.raise_trp ..)).trans rfl
  · rfl
  · exact (congrArg Troupes.sram (State.noteUE_trp ..)).trans rfl

@[simp] theorem State.sramCheck_proc (s : State) (t : Nat) (as : List Nat) : (s.sramCheck t as).proc = s.proc := by
  unfold State.sramCheck
  split
  · rfl
  · exact foldl_proj State.proc (fun s w => by split <;> simp) _ s

@[simp] theorem State.sramCheck_sram (s : State) (t : Nat) (as : List Nat) : (s.sramCheck t as).trp.sram = s.trp.sram := by
  unfold State.sramCheck
  split
  · rfl
  · exact foldl_proj (fun s : State => s.trp.sram) (fun s w => by split <;> simp) _ s

theorem State.sramCheck_of_flips {s : State} (h : s.trp.flips = []) (t : Nat) (as : List Nat) : s.sramCheck t as = s := by
  simp [State.sramCheck, h]

@[simp] theorem State.countUE_proc (s : State) (t n : Nat) : (s.countUE t n).proc = s.proc := by
  unfold State.countUE
  split <;> rfl

@[simp] theorem State.countUE_trp (s : State) (t n : Nat) : (s.countUE t n).trp = s.trp := by
  unfold State.countUE
  split <;> rfl

@[simp] theorem State.sramModify_proc (s : State) (t : Nat) (as : List Nat) : (s.sramModify t as).proc = s.proc := by
  simp [State.sramModify]

@[simp] theorem State.sramModify_sram (s : State) (t : Nat) (as : List Nat) : (s.sramModify t as).trp.sram = s.trp.sram := by
  simp [State.sramModify]

@[simp] theorem State.sramWords_proc (s : State) (t : Nat) (ws : List (Nat × Nat)) : (s.sramWords t ws).proc = s.proc := by
  have hwrite : ∀ (op : State → Nat × Nat → List Byte) (ls : List (Nat × Nat)) (s : State),
      (ls.foldl (fun s w => s.sramWrite t w.1 (op s w)) s).proc = s.proc := fun op => foldl_proj State.proc fun _ _ => rfl
  simp only [State.sramWords, hwrite, State.sramModify_proc]

/-! ### The issue of a lane-wise instruction, and of one that changes more than its own context -/

section

variable {u : Agent} {s : State} {e : Enc} {f : BitVec 52} {ok : Bool} {b : Cx → State → Body}

theorem issueL_eq_outcome (hI : Issues e ok u f s) : issueL u e f ok b s = (b (s.cx u) s).outcome u s := by
  rw [issueL, issueW_issues hI (fun h => absurd h (by decide))]
  cases b (s.cx u) s <;> rfl

/-- An instruction that executes as a whole answers what its body's answer comes to. -/
theorem exec_of_issue {c : Instr} (hx : exec c s = .next (issue u e f ok b s)) (hI : Issues e ok u f s) (hE : Enabled u f s) :
    exec c s = .next ((b (s.cx u) s).outcome u s) := by
  rw [hx, issue_eq_outcome hI hE]

theorem exec_of_issueL {c : Instr} (hx : exec c s = .next (issueL u e f ok b s)) (hI : Issues e ok u f s) :
    exec c s = .next ((b (s.cx u) s).outcome u s) := by
  rw [hx, issueL_eq_outcome hI]

/-- The agent's context is the processors' part of the state alone. -/
theorem State.cx_of_proc {t : State} (h : t.proc = s.proc) : t.cx u = s.cx u := by
  rw [State.cx, State.cxAt, h]
  rfl

/-- A body that leaves the agent's context alone retires with it. -/
theorem Body.outcome_go_of_proc {t : State} (hrun : (s.cx u).st = .run) (h : t.proc = s.proc) :
    (Body.go t).outcome u s = t.retire u (s.cx u) := by
  have hcx := State.cx_of_proc (u := u) h
  rw [Body.outcome_go_of_run (hcx ▸ hrun), hcx]

theorem Cx.orFlags_zero (x : Cx) : x.orFlags 0 = x := by
  simp [Cx.orFlags]

end

/-! ### Reads -/

section

variable {s : State} {t : Fin 6400} {c : Fin 48} {x : Cx}

theorem maskDead_nil (a : Nat) (bs : List Byte) : maskDead [] a bs = bs := by
  simp [maskDead, List.zipIdx_map_fst]

theorem State.sramRead_of_dead (h : s.trp.dead = []) (a n : Nat) :
    s.sramRead t.val a n = (Memory.bytes s.trp.sram (393216 * t.val + a) n, false) := by
  simp [State.sramRead, h, maskDead_nil, markedIn]

theorem State.deadWords_of_dead (h : s.trp.dead = []) (t : Nat) (as : List Nat) : s.deadWords t as = 0 := by
  simp [State.deadWords, h]

theorem State.countUE_zero (s : State) (t : Nat) : s.countUE t 0 = s := rfl

/-- R193: a scalar load at a good address, where no codeword is marked, reads the bytes there. -/
theorem ldSram_good (hflips : s.trp.flips = []) (hdead : s.trp.dead = []) {a n : Nat} (halign : a % n = 0) (hlt : a < 393216)
    (put : Cx → Nat → Cx) :
    ldSram (.ce t c) x s a n put = .go (s.setCx (.ce t c) (put x (Memory.num s.trp.sram (393216 * t.val + a) n))) := by
  have hgood : ¬(393216 ≤ a ∨ a % n ≠ 0) := by omega
  simp only [ldSram, hgood, if_false, State.sramCheck_of_flips hflips, State.sramRead_of_dead hdead, State.deadWords_of_dead hdead,
    State.countUE_zero, Bool.false_eq_true, Cx.orFlags_zero, Memory.num]

/-- R193: the enabled lanes of a gather at good addresses, where no codeword is marked, read the bytes there. -/
theorem gatherLanes_good (hflips : s.trp.flips = []) (hdead : s.trp.dead = []) (f : BitVec 52) (addr : Nat → Nat) :
    gatherLanes (.ce t c) x f s addr = .go (s.setCx (.ce t c)
      (x.mapLanes (fD f) (maskOf x f) (fun l => (Memory.num s.trp.sram (393216 * t.val + addr l) 4, 0)))) := by
  simp only [gatherLanes, State.sramCheck_of_flips hflips, State.sramRead_of_dead hdead, State.deadWords_of_dead hdead,
    State.countUE_zero, Bool.false_eq_true, if_false, Cx.orFlags_zero, Memory.num, lanesOn, List.foldl_filter, Cx.mapLanes]

theorem Cx.mapLanes_zero (x : Cx) (d : Nat) (g : Nat → Nat × Nat) : x.mapLanes d 0 g = x := by
  simp [Cx.mapLanes, bitOf, List.foldl_fixed]

/-- R193: the same for consecutive lanes; with no lane enabled nothing is read (R141). -/
theorem ldLanes_good (hflips : s.trp.flips = []) (hdead : s.trp.dead = []) {f : BitVec 52} {a : Nat} (halign : a % 64 = 0)
    (hlt : a < 393216) (hrun : (s.cx (.ce t c)).st = .run) :
    (ldLanes (.ce t c) (s.cx (.ce t c)) f s a).outcome (.ce t c) s =
      s.retire (.ce t c) ((s.cx (.ce t c)).mapLanes (fD f) (maskOf (s.cx (.ce t c)) f)
        (fun l => (Memory.num s.trp.sram (393216 * t.val + (a + 4 * l)) 4, 0))) := by
  have hgood : ¬(393216 ≤ a ∨ a % 64 ≠ 0) := by omega
  unfold ldLanes
  by_cases h0 : maskOf (s.cx (.ce t c)) f = 0
  · rw [if_pos h0, h0, Cx.mapLanes_zero, Body.outcome_go_of_run hrun]
  · rw [if_neg h0, if_neg hgood, gatherLanes_good hflips hdead, Body.outcome_go_setCx hrun (Cx.mapLanes_pc ..) (Cx.mapLanes_st ..)]

theorem badLane_eq_none {f : BitVec 52} {limit : Nat}
    (h : ∀ l, l < 16 → bitOf (maskOf x f) l = true → addrAV x f l % 4 = 0 ∧ addrAV x f l < limit) : badLane x f limit = none := by
  simp only [badLane, lanesOn, List.find?_eq_none, List.mem_map, List.mem_filter, List.mem_range]
  rintro a ⟨l, ⟨hl, hbit⟩, rfl⟩
  obtain ⟨halign, hlt⟩ := h l hl hbit
  simp [halign, hlt]

end

/-- Settles O21. -/
theorem troupeLoadResults : Obligations.TroupeLoadResults := by
  intro t c f s hflips hdead
  dsimp only
  refine ⟨?ldw, ?lda, ?ldp, ?ldv, ?ldvi, ?ldg⟩
  case ldw =>
    intro hI hE halign hlt
    refine Eq.trans (exec_of_issue rfl hI hE) ?_
    rw [ldSram_good hflips hdead halign hlt, Body.outcome_go_setCx hI.running (Cx.setS_pc ..) (Cx.setS_st ..)]
  case lda =>
    intro hI hE halign hlt
    refine Eq.trans (exec_of_issue rfl hI hE) ?_
    rw [ldSram_good hflips hdead halign hlt, Body.outcome_go_setCx hI.running (Cx.setA_pc ..) (Cx.setA_st ..)]
  case ldp =>
    intro hI hE halign hlt
    refine Eq.trans (exec_of_issue rfl hI hE) ?_
    rw [ldSram_good hflips hdead halign hlt, Body.outcome_go_setCx hI.running (Cx.setP_pc ..) (Cx.setP_st ..)]
  case ldv | ldvi =>
    intro hI halign hlt
    refine Eq.trans (exec_of_issueL rfl hI) ?_
    rw [ldLanes_good hflips hdead halign hlt hI.running]
  case ldg =>
    intro hI hgood
    refine Eq.trans (exec_of_issueL rfl hI) ?_
    rw [badLane_eq_none hgood]
    dsimp only
    rw [gatherLanes_good hflips hdead, Body.outcome_go_setCx hI.running (Cx.mapLanes_pc ..) (Cx.mapLanes_st ..)]

/-! ### Stores -/

section

variable {s : State} {t : Fin 6400} {c : Fin 48}

theorem stSram_good {a n : Nat} (halign : a % n = 0) (hlt : a < 393216) (y : Nat) :
    stSram (.ce t c) s a n y = .go ((if n < 8 then s.sramModify t.val [a] else s).sramWrite t.val a (toLe n y)) := by
  have hgood : ¬(393216 ≤ a ∨ a % n ≠ 0) := by omega
  simp only [stSram, hgood, if_false]

theorem stLanes_full {x : Cx} {f : BitVec 52} (hmask : maskOf x f = 0xFFFF) {a : Nat} (halign : a % 64 = 0) (hlt : a < 393216) (n : Nat) :
    stLanes (.ce t c) x f s a n = .go (s.sramWrite t.val a (x.vbytes n)) := by
  have hgood : ¬(393216 ≤ a ∨ a % 64 ≠ 0) := by omega
  simp [stLanes, hmask, hgood]

theorem stLanes_part {x : Cx} {f : BitVec 52} (hmask : maskOf x f ≠ 0xFFFF) (hsome : maskOf x f ≠ 0) {a : Nat} (halign : a % 64 = 0)
    (hlt : a < 393216) (n : Nat) :
    stLanes (.ce t c) x f s a n = .go (s.sramWords t.val ((lanesOn x f).map (fun l => (a + 4 * l, x.vl n l)))) := by
  have hgood : ¬(393216 ≤ a ∨ a % 64 ≠ 0) := by omega
  simp [stLanes, hmask, hsome, hgood]

end

/-- Settles O22: a good store leaves every context alone, so it retires with its own as it was. -/
theorem troupeStoreResults : Obligations.TroupeStoreResults := by
  intro t c f s
  dsimp only
  refine ⟨?stw, ?sta, ?stv, ?stvi, ?stvPart, ?stsc, ?tstore⟩
  case stw =>
    intro hI hE halign hlt
    refine Eq.trans (exec_of_issue rfl hI hE) ?_
    rw [stSram_good halign hlt]
    exact congrArg Host.Outcome.next (Body.outcome_go_of_proc hI.running (State.sramModify_proc ..))
  case sta =>
    intro hI hE halign hlt
    refine Eq.trans (exec_of_issue rfl hI hE) ?_
    rw [stSram_good halign hlt]
    exact congrArg Host.Outcome.next (Body.outcome_go_of_proc hI.running (State.sramWrite_proc ..))
  case stv | stvi =>
    intro hI hmask halign hlt
    refine Eq.trans (exec_of_issueL rfl hI) ?_
    rw [stLanes_full hmask halign hlt]
    exact congrArg Host.Outcome.next (Body.outcome_go_of_proc hI.running (State.sramWrite_proc ..))
  case stvPart =>
    intro hI hmask hE halign hlt
    refine Eq.trans (exec_of_issueL rfl hI) ?_
    rw [stLanes_part hmask hE halign hlt]
    exact congrArg Host.Outcome.next (Body.outcome_go_of_proc hI.running (State.sramWords_proc ..))
  case stsc =>
    intro hI hgood
    refine Eq.trans (exec_of_issueL rfl hI) ?_
    rw [badLane_eq_none hgood]
    exact congrArg Host.Outcome.next (Body.outcome_go_of_proc hI.running (State.sramWords_proc ..))
  case tstore =>
    intro hI hE halign hlt
    refine Eq.trans (exec_of_issue rfl hI hE) ?_
    have hgood : ¬((s.cx (.ce t c)).ar (fA f) % 64 ≠ 0 ∨ 393216 ≤ (s.cx (.ce t c)).ar (fA f) + 383) := by omega
    dsimp only
    rw [if_neg hgood]
    exact congrArg Host.Outcome.next (Body.outcome_go_of_proc hI.running (State.sramWrite_proc ..))

end Sys2Proof.Machine
end
section
/-!
PROOFS. What stores to troupe SRAM leave elsewhere, reads of the Prompt Book, accesses that meet a mark or a bad address (R193 to R197).
-/

namespace Sys2Proof.Machine

/-! ### Bytes of a number -/

@[simp] theorem toLe_length (n y : Nat) : (toLe n y).length = n := by
  induction n generalizing y with
  | zero => rfl
  | succ n ih => simp [toLe, ih]

theorem toLe_getD {n k : Nat} (h : k < n) (y : Nat) : (toLe n y).getD k 0 = BitVec.ofNat 8 (y / 2 ^ (8 * k)) := by
  induction n generalizing k y with
  | zero => omega
  | succ n ih =>
    cases k with
    | zero => simp [toLe]
    | succ k =>
      simp only [toLe, List.getD_cons_succ, ih (Nat.lt_of_succ_lt_succ h), Nat.div_div_eq_div_mul]
      rw [show (256 : Nat) = 2 ^ 8 from rfl, ← Nat.pow_add, show 8 + 8 * k = 8 * (k + 1) by ring]

/-- The first `n` lanes of a vector register, lane 0 lowest. -/
def Cx.lanesNum (x : Cx) (d : Nat) (ls : List Nat) : Nat := ls.foldr (fun l acc => x.vl d l + 2 ^ 32 * acc) 0

theorem Cx.group_eq_lanesNum (x : Cx) (d : Nat) : x.group d 1 = x.lanesNum d (List.range 16) := by
  refine List.foldr_ext _ _ _ fun l hl acc => ?_
  have hlt : l < 16 := List.mem_range.mp hl
  rw [Nat.div_eq_of_lt hlt, Nat.mod_eq_of_lt hlt, Nat.add_zero]

theorem Cx.lanesNum_div (x : Cx) (d : Nat) {ls : List Nat} {k : Nat} (h : k < ls.length) :
    x.lanesNum d ls / 2 ^ (32 * k) % 2 ^ 32 = x.vl d (ls.getD k 0) := by
  induction ls generalizing k with
  | nil => simp at h
  | cons l ls ih =>
    have hvl : x.vl d l < 2 ^ 32 := Cx.vl_lt ..
    change (x.vl d l + 2 ^ 32 * x.lanesNum d ls) / 2 ^ (32 * k) % 2 ^ 32 = _
    cases k with
    | zero => simpa using hvl
    | succ k =>
      rw [show 32 * (k + 1) = 32 + 32 * k by ring, Nat.pow_add, ← Nat.div_div_eq_div_mul, Nat.add_mul_div_left _ _ (by decide),
        Nat.div_eq_of_lt hvl, Nat.zero_add, List.getD_cons_succ]
      exact ih (Nat.lt_of_succ_lt_succ h)

/-- Byte `k` of a vector register is byte `k % 4` of its lane `k / 4`. -/
theorem Cx.vbytes_getD (x : Cx) (d : Nat) {k : Nat} (h : k < 64) :
    (x.vbytes d).getD k 0 = BitVec.ofNat 8 (x.vl d (k / 4) / 2 ^ (8 * (k % 4))) := by
  have hk : k / 4 < 16 := by omega
  have hlane := x.lanesNum_div d (ls := List.range 16) (k := k / 4) (by simpa using hk)
  rw [show (List.range 16).getD (k / 4) 0 = k / 4 by simp [hk]] at hlane
  rw [Cx.vbytes, toLe_getD h, Cx.group_eq_lanesNum, ← hlane]
  refine ofNat_congr ?_
  have hsplit : 2 ^ (8 * k) = 2 ^ (32 * (k / 4)) * 2 ^ (8 * (k % 4)) := by
    rw [← Nat.pow_add]
    congr 1
    omega
  have hbyte : k % 4 = 0 ∨ k % 4 = 1 ∨ k % 4 = 2 ∨ k % 4 = 3 := by omega
  rw [hsplit, ← Nat.div_div_eq_div_mul]
  generalize x.lanesNum d (List.range 16) / 2 ^ (32 * (k / 4)) = y
  rcases hbyte with h | h | h | h <;> rw [h] <;> norm_num <;> omega

@[simp] theorem State.sramWrite_sram (s : State) (t a : Nat) (bs : List Byte) :
    (s.sramWrite t a bs).trp.sram = Memory.store s.trp.sram (393216 * t + a) bs := rfl

/-- Settles O23: a store writes its bytes by `Memory.store`, which changes no other byte. -/
theorem troupeStoreMemoryFrame : Obligations.TroupeStoreMemoryFrame := by
  intro t c f s r j hs
  dsimp only
  obtain ⟨hstw, hsta, hstv, -, -, -, -⟩ := troupeStoreResults t c f s
  refine ⟨?stw, ?sta, ?stv⟩
  case stw =>
    intro hI hE halign hlt hr
    rw [hstw hI hE halign hlt] at hr
    cases hr
    rw [State.retire_trp, State.sramWrite_sram, State.sramModify_sram, Memory.getD_store, toLe_length]
    refine if_ctx_congr Iff.rfl (fun h => ?_) fun _ => rfl
    exact toLe_getD (by omega) _
  case sta =>
    intro hI hE halign hlt hr
    rw [hsta hI hE halign hlt] at hr
    cases hr
    rw [State.retire_trp, State.sramWrite_sram, Memory.getD_store, toLe_length]
    refine if_ctx_congr Iff.rfl (fun h => ?_) fun _ => rfl
    exact toLe_getD (by omega) _
  case stv =>
    intro hI hmask halign hlt hr
    rw [hstv hI hmask halign hlt] at hr
    cases hr
    rw [State.retire_trp, State.sramWrite_sram, Memory.getD_store, Cx.vbytes, toLe_length]
    refine if_ctx_congr Iff.rfl (fun h => ?_) fun _ => rfl
    exact Cx.vbytes_getD _ _ (by omega)

/-! ### The Prompt Book -/

section

variable {s : State} {u : Agent}

/-- R197: a read of the Prompt Book at a good address, where no frame is uncorrectable, reads the live bytes there. -/
theorem ldBook_good (hlate : s.book.lateFrame = []) {x : Cx} {a n : Nat} (halign : a % n = 0) (hlt : a < 131072) (put : Cx → Nat → Cx) :
    ldBook u x s a n put = .go (s.setCx u (put x (Memory.num s.book.live a n))) := by
  have hgood : ¬(131072 ≤ a ∨ a % n ≠ 0) := by omega
  have hread : s.bookRead a n = (Memory.num s.book.live a n, 0) := by simp [State.bookRead, hlate]
  rw [ldBook, if_neg hgood, hread]
  exact congrArg (fun y => Body.go (s.setCx u y)) (Cx.orFlags_zero _)

/-- R197: the same for the lanes of a gather. -/
theorem gatherBook_good (hlate : s.book.lateFrame = []) (x : Cx) (f : BitVec 52) :
    ((lanesOn x f).foldl (fun y l => (y.setL (fD f) l (s.bookRead (addrAV x f l) 4).1).orFlags (s.bookRead (addrAV x f l) 4).2) x) =
      x.mapLanes (fD f) (maskOf x f) (fun l => (Memory.num s.book.live (addrAV x f l) 4, 0)) := by
  simp [State.bookRead, hlate, lanesOn, List.foldl_filter, Cx.mapLanes]

end

/-- Settles O24. -/
theorem promptBookReadResults : Obligations.PromptBookReadResults := by
  intro u f s hlate
  dsimp only
  refine ⟨?pbv, ?pbvi, ?pbw, ?pbg⟩
  case pbv | pbvi =>
    intro hI hE halign hlt
    exact exec_retire_of_issue rfl hI hE (ldBook_good hlate halign hlt _) (Cx.setGroup_pc ..) (Cx.setGroup_st ..)
  case pbw =>
    intro hI hE halign hlt
    exact exec_retire_of_issue rfl hI hE (ldBook_good hlate halign hlt _) (Cx.setS_pc ..) (Cx.setS_st ..)
  case pbg =>
    intro hI hgood
    refine Eq.trans (exec_of_issueL rfl hI) ?_
    rw [badLane_eq_none hgood]
    dsimp only
    rw [gatherBook_good hlate, Body.outcome_go_setCx hI.running (Cx.mapLanes_pc ..) (Cx.mapLanes_st ..)]

/-! ### Marks and bad addresses -/

section

variable {s : State} {u : Agent} {x : Cx} {f : BitVec 52} {a n y : Nat} {put : Cx → Nat → Cx}

theorem ldSram_bad (h : a % n ≠ 0 ∨ 393216 ≤ a) : ldSram u x s a n put = .exc 4 a := if_pos h.symm

theorem stSram_bad (h : a % n ≠ 0 ∨ 393216 ≤ a) : stSram u s a n y = .exc 4 a := if_pos h.symm

theorem ldBook_bad (h : a % n ≠ 0 ∨ 131072 ≤ a) : ldBook u x s a n put = .exc 4 a := if_pos h.symm

theorem ldLanes_bad (hmask : maskOf x f ≠ 0) (h : a % 64 ≠ 0 ∨ 393216 ≤ a) : ldLanes u x f s a = .exc 4 a := by
  rw [ldLanes, if_neg hmask, if_pos h.symm]

end

theorem leBytes_eq_zero {bs : List Byte} (h : ∀ b ∈ bs, b = 0) : leBytes bs = 0 := by
  induction bs with
  | nil => rfl
  | cons b bs ih =>
    obtain ⟨hb, hbs⟩ := List.forall_mem_cons.mp h
    simp [leBytes, hb, ih hbs]

/-- R448: the bytes of a marked codeword read as zero. -/
theorem maskDead_of_marked {d : SMap Bool} {a : Nat} {bs : List Byte} (h : ∀ i < bs.length, d.getD ((a + i) / 8) false = true) :
    leBytes (maskDead d a bs) = 0 := by
  refine leBytes_eq_zero fun b hb => ?_
  simp only [maskDead, List.mem_map] at hb
  obtain ⟨⟨b', i⟩, hmem, rfl⟩ := hb
  have hi : i < bs.length := by simpa using List.snd_lt_of_mem_zipIdx hmem
  exact if_pos (h i hi)

/-- R193, R448: a word of a marked codeword reads as zero, sets FLAGS.DL and is counted. -/
theorem ldSram_marked {s : State} {t : Fin 6400} {c : Fin 48} {x : Cx} (hflips : s.trp.flips = []) {a : Nat} (halign : a % 4 = 0)
    (hlt : a < 393216) (hdead : s.trp.dead.getD ((393216 * t.val + a) / 8) false = true) (put : Cx → Nat → Cx) :
    ldSram (.ce t c) x s a 4 put = .go ((s.satAdd (Reg.TRP_ERR_UE t.val) 1).setCx (.ce t c) ((put x 0).orFlags flDL)) := by
  have hgood : ¬(393216 ≤ a ∨ a % 4 ≠ 0) := by omega
  have hword : ∀ i < 4, (393216 * t.val + a + i) / 8 = (393216 * t.val + a) / 8 := by omega
  have hzero : leBytes (s.sramRead t.val a 4).1 = 0 :=
    maskDead_of_marked fun i hi => by rw [hword i (by simpa [Memory.bytes] using hi), hdead]
  have hmark : (s.sramRead t.val a 4).2 = true := by
    have hlast : (393216 * t.val + a + 4 - 1) / 8 - (393216 * t.val + a) / 8 + 1 = 1 := by omega
    simp only [State.sramRead, markedIn, hlast, List.range_one, List.any_cons, List.any_nil, Nat.add_zero, hdead]
    rfl
  have hcount : s.deadWords t.val (wordsAt a 4) = 1 := by
    rw [show wordsAt a 4 = [a] from rfl]
    simp [State.deadWords, hdead]
  simp only [ldSram, hgood, if_false, State.sramCheck_of_flips hflips, hzero, hmark, hcount]
  rfl

/-- Settles O25. -/
theorem deadLetterAndBadAddress : Obligations.DeadLetterAndBadAddress := by
  refine ⟨?marked, ?bad⟩
  case marked =>
    intro t c f s hflips
    dsimp only
    intro hI hE halign hlt hdead
    refine Eq.trans (exec_of_issue rfl hI hE) ?_
    rw [ldSram_marked hflips halign hlt hdead]
    exact congrArg Host.Outcome.next (Body.outcome_go_setCx (s := s.satAdd _ 1) hI.running rfl rfl)
  case bad =>
    intro u f s hE
    dsimp only
    refine ⟨?ldw, ?lda, ?ldv, ?stw, ?sta, ?pbw, ?pbv⟩
    case ldw | lda =>
      intro hI hbad
      refine Eq.trans (exec_of_issue rfl hI hE) ?_
      rw [ldSram_bad hbad, Body.outcome_exc]
    case ldv =>
      intro hI hbad
      refine Eq.trans (exec_of_issueL rfl hI) ?_
      rw [ldLanes_bad hE hbad, Body.outcome_exc]
    case stw | sta =>
      intro hI hbad
      refine Eq.trans (exec_of_issue rfl hI hE) ?_
      rw [stSram_bad hbad, Body.outcome_exc]
    case pbw | pbv =>
      intro hI hbad
      refine Eq.trans (exec_of_issue rfl hI hE) ?_
      rw [ldBook_bad hbad, Body.outcome_exc]

end Sys2Proof.Machine
end
section
/-!
PROOFS. A CE among the others: barriers, ends of units, parcels, and operations on the store (R82, R148, R155 to R158, R196, R198 to R204).
-/

namespace Sys2Proof.Machine

section

variable {u : Agent} {s : State} {e : Enc} {f : BitVec 52} {ok : Bool} {w : CxSt} {b : Cx → State → Body}

/-- An instruction that may wait in a state of its own answers what its body's answer comes to. -/
theorem exec_of_issueW {c : Instr} (hx : exec c s = .next (issueW u e f ok true w b s)) (hI : Issues e ok u f s) (hE : Enabled u f s) :
    exec c s = .next ((b (s.cx u) s).outcome u s) := by
  rw [hx, issueW_issues hI fun _ => hE]
  cases b (s.cx u) s <;> rfl

theorem State.cx_advance {t : State} (hrun : (t.cx u).st = .run) : (t.advance u).cx u = { t.cx u with pc := (t.cx u).pc + 1 } := by
  rw [State.advance_of_run hrun, State.retire, State.issued_cx, State.cx_setCx_self, ← hrun]

end

@[simp] theorem State.troupe_setTroupe (s : State) (t : Nat) (x : Troupe) : (s.setTroupe t x).troupe t = x := by
  simp [State.troupe, State.setTroupe, SMap.getD_setD]

@[simp] theorem State.troupe_setCxAt (s : State) (k : Nat) (y : Cx) (t : Nat) : (s.setCxAt k y).troupe t = s.troupe t := rfl

/-- A unit that is changed under its id is found under it. -/
theorem Troupe.unit_mapUnit {tr : Troupe} {id : Nat} {w : UnitRt} (h : tr.unit id = some w) {g : UnitRt → UnitRt}
    (hg : ∀ w, (g w).desc = w.desc) : (tr.mapUnit id g).unit id = some (g w) := by
  have hid : w.desc.id = id := by simpa using List.find?_some h
  have hkeep : (fun u : UnitRt => (if u.desc.id = id then g u else u).desc.id == id) = fun u => u.desc.id == id := by
    funext u
    split <;> simp [hg]
  rw [Troupe.unit, Troupe.mapUnit, List.find?_map]
  simp only [Function.comp_def, hkeep]
  rw [show tr.units.find? (fun u => u.desc.id == id) = some w from h]
  simp [hid]

/-! ### Barriers -/

theorem State.settleBarrier_of_none {s : State} {t u id : Nat} {w : UnitRt} (h : (s.troupe t).unit u = some w) (hb : w.bars.getD id 0 = 0) :
    s.settleBarrier t u id = s := by
  simp [State.settleBarrier, h, hb]

/-- What a CE that a barrier lets go on becomes. -/
def State.letGo (s : State) (k : Nat) : State := s.setCxAt k { s.cxAt k with st := .run, pc := (s.cxAt k).pc + 1 }

theorem State.letGo_fold_regs (s : State) (m t : Nat) (ls : List Nat) :
    (ls.foldl (fun s c => if bitOf m c then s.letGo (ceKey t c) else s) s).regs = s.regs :=
  foldl_proj State.regs (fun _ _ => by split <;> rfl) _ s

theorem State.letGo_fold_trp (s : State) (m t : Nat) (ls : List Nat) :
    (ls.foldl (fun s c => if bitOf m c then s.letGo (ceKey t c) else s) s).trp = s.trp :=
  foldl_proj State.trp (fun _ _ => by split <;> rfl) _ s

theorem State.settleBarrier_regs (s : State) (t u id : Nat) : (s.settleBarrier t u id).regs = s.regs := by
  unfold State.settleBarrier
  split
  · rfl
  · dsimp only
    split
    · exact State.letGo_fold_regs _ _ _ _
    · rfl

theorem State.settleBarrier_sram (s : State) (t u id : Nat) : (s.settleBarrier t u id).trp.sram = s.trp.sram := by
  unfold State.settleBarrier
  split
  · rfl
  · dsimp only
    split
    · exact Eq.trans (congrArg Troupes.sram (State.letGo_fold_trp _ _ _ _)) rfl
    · rfl

/-- Settles O26. -/
theorem barrierResults : Obligations.BarrierResults := by
  intro t c f s w hI hE hw
  have hx := exec_of_issue (c := .tbar (.ce t c) f) rfl hI hE
  refine ⟨fun hall => ?_, fun hone => ?_⟩
  · refine ⟨_, hx, ?_⟩
    simp only [hw, hall, beq_self_eq_true, if_true]
    set r := ((State.setTroupe s _ _).setCx (.ce t c) _).settleBarrier _ _ _ with hr
    rw [Body.outcome]
    have hregs : r.regs = s.regs := State.settleBarrier_regs ..
    have hsram : r.trp.sram = s.trp.sram := State.settleBarrier_sram ..
    rw [State.advance_of_run (by rw [State.cx_setCx_self])]
    refine ⟨?_, ?_, hregs, hsram⟩ <;> simp [State.retire]
  · refine ⟨_, hx, ?_⟩
    simp only [hw, beq_eq_false_iff_ne.mpr hone, Bool.false_eq_true, if_false, Body.outcome_wait]
    exact ⟨State.cx_setCx_self .., rfl, rfl⟩

/-! ### Operations on the store -/

/-- R198, R203: what an operation that a CE issues leaves: it is the last of the outstanding ones, and its registers are pending. -/
theorem outcome_pushGop {s : State} {u : Agent} (hrun : (s.cx u).st = .run) (g : GOp) (regs : List PendReg) :
    let r := (Body.go (s.pushGop u (s.cx u) g regs)).outcome u s
    r.cx u = { s.cx u with pend := (s.cx u).pend ++ regs, pc := (s.cx u).pc + 1 } ∧
      r.trp.gops = s.trp.gops ++ [{ g with id := s.trp.gopNext }] ∧ r.regs = s.regs ∧ r.trp.sram = s.trp.sram ∧ r.store = s.store := by
  have hcx : (s.pushGop u (s.cx u) g regs).cx u = { s.cx u with pend := (s.cx u).pend ++ regs } := State.cx_setCx_self s u _
  refine ⟨?_, rfl, rfl, rfl, rfl⟩
  rw [Body.outcome, State.cx_advance (by rw [hcx]; exact hrun), hcx]

section

variable {t : Fin 6400} {c : Fin 48} {f : BitVec 52} {s : State} {x : Cx} {kind : Nat}

theorem gmemIssue_badLength (hroom : (s.gopsOf (agentKey (.ce t c))).length < 8) (hlen : x.sr (fC f) % 64 ≠ 0 ∨ 65536 < x.sr (fC f)) :
    gmemIssue (.ce t c) f kind x s = .go (s.setCx (.ce t c) (x.setS (fD f) 0x30)) := by
  simp only [gmemIssue, Nat.not_le.mpr hroom, if_false, hlen, if_true]

theorem gmemIssue_zeroLength (hroom : (s.gopsOf (agentKey (.ce t c))).length < 8) (hlen : x.sr (fC f) = 0) :
    gmemIssue (.ce t c) f kind x s = .go (s.setCx (.ce t c) (x.setS (fD f) 0)) := by
  simp [gmemIssue, Nat.not_le.mpr hroom, hlen]

theorem gmemIssue_good (hroom : (s.gopsOf (agentKey (.ce t c))).length < 8) (hlen : x.sr (fC f) % 64 = 0) (hpos : 0 < x.sr (fC f))
    (hlong : x.sr (fC f) ≤ 65536) (haddr : x.ar (fA f) % 64 = 0) (hsram : x.sr (fB f) % 64 = 0)
    (hlimit : x.sr (fB f) + x.sr (fC f) ≤ 393216) :
    gmemIssue (.ce t c) f kind x s = .go (s.pushGop (.ce t c) x
      { agent := agentKey (.ce t c), kind := kind, addr := x.ar (fA f), sram := x.sr (fB f), len := x.sr (fC f), sd := fD f,
        part := x.part, troupe := t.val } [⟨0, fD f⟩]) := by
  have hok : ¬(x.sr (fC f) % 64 ≠ 0 ∨ 65536 < x.sr (fC f)) := by omega
  have hrange : ¬(x.sr (fB f) % 64 ≠ 0 ∨ 393216 < x.sr (fB f) + x.sr (fC f)) := by omega
  simp only [gmemIssue, Nat.not_le.mpr hroom, if_false, hok, hpos.ne', haddr, ne_eq, not_true_eq_false, hrange]

theorem atomIssue_good {minor w : Nat} (hroom : (s.gopsOf (agentKey (.ce t c))).length < 8)
    (hw : (if minor = 8 then 16 else if bitOf (fMOD f) 0 then 8 else 4) = w) (haddr : x.ar (fA f) % w = 0) :
    atomIssue (.ce t c) f minor x s = .go (s.pushGop (.ce t c) x
      { agent := agentKey (.ce t c), kind := minor + 2, addr := x.ar (fA f), len := w, sd := fD f, ad := fD f, wide := w,
        ta := fTA f, rm := fRM f, opnd := if minor = 8 then x.ar (fB f) + 2 ^ 64 * x.ar (fB f + 1) else x.ar (fB f),
        cmp := if minor = 8 then x.ar (fC f) + 2 ^ 64 * x.ar (fC f + 1) else x.ar (fC f), srw := x.srw f 0, part := x.part,
        troupe := t.val } (atomRegs f (minor == 8))) := by
  have hplace : ¬(agentProfile (.ce t c) = 0 ∧ 8 ≤ (s.gopsOf (agentKey (.ce t c))).length) := by omega
  subst hw
  simp only [atomIssue, hplace, if_false, haddr, ne_eq, not_true_eq_false]
  rfl

end

/-- Settles O27. -/
theorem storeTransferIssue : Obligations.StoreTransferIssue := by
  intro t c f s
  dsimp only
  intro hroom hE
  refine ⟨?gld, ?gst, ?badLength, ?zeroLength, ?gq⟩
  case gld | gst =>
    intro hI hlen hpos hlong haddr hsram hlimit
    refine ⟨_, exec_of_issue rfl hI hE, ?_⟩
    rw [gmemIssue_good hroom hlen hpos hlong haddr hsram hlimit]
    exact outcome_pushGop hI.running _ _
  case badLength =>
    intro hI hlen
    exact exec_retire_of_issue rfl hI hE (gmemIssue_badLength hroom hlen) (Cx.setS_pc ..) (Cx.setS_st ..)
  case zeroLength =>
    intro hI hlen
    exact exec_retire_of_issue rfl hI hE (gmemIssue_zeroLength hroom hlen) (Cx.setS_pc ..) (Cx.setS_st ..)
  case gq =>
    intro hI
    exact exec_retire_of_issue rfl hI hE rfl (Cx.setS_pc ..) (Cx.setS_st ..)

/-- Settles O28. -/
theorem atomicIssue : Obligations.AtomicIssue := by
  intro t c f s
  dsimp only
  intro hroom _ hE
  refine ⟨?aadd, ?amin, ?amax, ?aand, ?aor, ?axor, ?aswap, ?acas, ?acas128⟩
  all_goals
    intro hI haddr
    refine ⟨_, exec_of_issue rfl hI hE, ?_⟩
    rw [atomIssue_good hroom rfl haddr]
    obtain ⟨hcx, hgops, hregs, -, hstore⟩ := outcome_pushGop hI.running _ _
    exact ⟨hcx, hgops, hregs, hstore⟩

/-! ### Ends of units -/

/-- R148: a CE that is not the last of its unit, at no barrier, ends for itself. -/
theorem State.endCE_not_last {s : State} {t c u : Nat} {w : UnitRt} (hw : (s.troupe t).unit u = some w) (hbars : w.bars = [])
    (hlast : ∀ img, (s.troupe t).img = some img → w.ended ||| 2 ^ c ≠ partMask img w.desc) :
    s.endCE t c u = (s.setCxAt (ceKey t c) { s.cxAt (ceKey t c) with st := .idle }).setTroupe t
      ((s.troupe t).mapUnit u (fun x => { x with ended := x.ended ||| 2 ^ c })) := by
  have hunit := Troupe.unit_mapUnit hw (g := fun x => { x with ended := x.ended ||| 2 ^ c }) fun _ => rfl
  have hbar : ∀ (r : State) (id : Nat), (r.troupe t).unit u = some { w with ended := w.ended ||| 2 ^ c } →
      r.settleBarrier t u id = r := fun r id hr => State.settleBarrier_of_none hr (by simp [hbars])
  unfold State.endCE
  simp only [State.troupe_setCxAt]
  set r := (s.setCxAt (ceKey t c) { s.cxAt (ceKey t c) with st := .idle }).setTroupe t
    ((s.troupe t).mapUnit u (fun x => { x with ended := x.ended ||| 2 ^ c })) with hr
  have hru : (r.troupe t).unit u = some { w with ended := w.ended ||| 2 ^ c } := by rw [hr, State.troupe_setTroupe, hunit]
  have himg : (r.troupe t).img = (s.troupe t).img := by rw [hr, State.troupe_setTroupe]; rfl
  have hfold : (List.range 4).foldl (fun s id => s.settleBarrier t u id) r = r := List.foldl_fixed' (fun id => hbar r id hru) _
  rw [hfold, hru, himg]
  cases h : (s.troupe t).img with
  | none => rfl
  | some img => exact if_neg (hlast img h)

/-- An agent that an instruction left idle goes on idle. -/
theorem State.cx_advance_idle {r : State} {u : Agent} (h : (r.cx u).st = .idle) : ((r.advance u).cx u).st = .idle := by
  simp [State.advance, h]

/-- Settles O19. -/
theorem endOfUnitResults : Obligations.EndOfUnitResults := by
  refine ⟨?all, ?ctx, ?core, ?ce⟩
  case all =>
    intro u f s hI hE
    refine Eq.trans (exec_of_issue rfl hI hE) ?_
    cases u <;> rfl
  case ctx =>
    intro k f s hI hE
    exact Eq.trans (exec_of_issue rfl hI hE) rfl
  case core =>
    intro n f s hI hE _
    exact ⟨_, exec_of_issue rfl hI hE, State.cx_advance_idle (congrArg Cx.st (State.cxAt_setCxAt_self ..)), rfl, rfl⟩
  case ce =>
    intro t c f s w hI hE _ _ hw hbars hlast
    refine ⟨_, exec_of_issue rfl hI hE, ?_⟩
    dsimp only [Body.outcome]
    rw [State.endCE_not_last hw hbars hlast]
    refine ⟨State.cx_advance_idle (congrArg Cx.st (State.cxAt_setCxAt_self ..)), ?_, rfl⟩
    change Troupe.unit (State.troupe (State.setTroupe _ _ _) _) _ = _
    rw [State.troupe_setTroupe]
    exact Troupe.unit_mapUnit hw fun _ => rfl

/-! ### Parcels -/

theorem State.countToken_mesh (s : State) (t : Nat) (tok : Option Nat) : (s.countToken t tok).trp.mesh = s.trp.mesh := by
  cases tok <;> rfl

/-- Settles O20. -/
theorem parcelInstructionResults : Obligations.ParcelInstructionResults := by
  refine ⟨?send, ?sendWaits, ?recv, ?recvWaits, ?credq, ?rxq⟩
  case send =>
    intro t c f s o hI hE ho hdeclared hcr
    refine ⟨?_, ?_⟩
    · refine Eq.trans (exec_of_issueW rfl hI hE) ?_
      simp only [ho, hdeclared, hcr, if_false]
      rfl
    · refine ⟨?p, ?_, ?_, ?_, ?_, ?_, ?_, ?mesh⟩
      case mesh => exact congrArg (· ++ _) (State.countToken_mesh ..)
      all_goals rfl
  case sendWaits =>
    intro t c f s o hI hE ho hdeclared hcr
    refine Eq.trans (exec_of_issueW rfl hI hE) ?_
    simp only [ho, hdeclared, hcr, if_false, if_true]
    rfl
  case recv =>
    intro t c f s ir q hI hE hir hdeclared hq hflips hdead hpoison
    refine Eq.trans (exec_of_issueW rfl hI hE) ?_
    simp only [hir, hdeclared, if_false, hq, State.sramCheck_of_flips hflips, State.sramRead_of_dead hdead,
      State.deadWords_of_dead hdead, State.countUE_zero, hpoison, Bool.or_false, Bool.false_eq_true, Cx.orFlags_zero]
    rfl
  case recvWaits =>
    intro t c f s ir hI hE hir hdeclared hq
    refine Eq.trans (exec_of_issueW rfl hI hE) ?_
    simp only [hir, hdeclared, if_false, hq]
    rfl
  case credq =>
    intro t c f s o hI hE ho
    exact exec_retire_of_issue rfl hI hE (by simp only [ho]) (Cx.setS_pc ..) (Cx.setS_st ..)
  case rxq =>
    intro t c f s ir hI hE hir
    exact exec_retire_of_issue rfl hI hE (by simp only [hir]) (Cx.setS_pc ..) (Cx.setS_st ..)

end Sys2Proof.Machine
end
section
/-!
PROOFS. The stream and transform instructions of a courier context (R15, R199, R205 to R207).
-/

namespace Sys2Proof.Machine

section

variable {u : Agent} {s : State} {x : Cx} {f : BitVec 52} {max : Nat} {b : Body}

theorem strmLen_bad (h : x.sr (fB f) % 64 ≠ 0 ∨ max < x.sr (fB f)) : strmLen u f max x s b = .go (s.setCx u (x.setS (fD f) 0x30)) :=
  if_pos h

theorem strmLen_zero (h : x.sr (fB f) = 0) : strmLen u f max x s b = .go (s.setCx u (x.setS (fD f) 0)) := by
  simp [strmLen, h]

theorem strmLen_good (h : x.sr (fB f) % 64 = 0) (hpos : 0 < x.sr (fB f)) (hmax : x.sr (fB f) ≤ max) : strmLen u f max x s b = b := by
  have hok : ¬(x.sr (fB f) % 64 ≠ 0 ∨ max < x.sr (fB f)) := by omega
  rw [strmLen, if_neg hok, if_neg hpos.ne']

end

/-- A store of 64-byte multiples at a good place of the 1,024-byte buffer is in its range. -/
theorem vbuf_in_range {b n : Nat} (halign : b % 64 = 0) (hlt : b + n ≤ 1024) : ¬(b % 64 ≠ 0 ∨ 1024 < b + n) := by omega

theorem sdlvDescOk_of {d n : Nat} (h38 : bitsOf d 38 26 = 0) (h29 : bitsOf d 29 3 = 0) (h13 : bitsOf d 13 3 = 0) (hpos : 0 < n)
    (h64 : n % 64 = 0) (hline : bitsOf d 16 13 + n / 64 ≤ 6144) (htroupe : bitsOf d 0 13 < 6250) : sdlvDescOk d n = true := by
  have hstart : bitsOf d 16 13 < 6144 := by omega
  simp [sdlvDescOk, h38, h29, h13, hline, htroupe, hstart]

/-- Settles O30. -/
theorem streamInstructionResults : Obligations.StreamInstructionResults := by
  intro k f s s' dead
  dsimp only
  intro hE
  refine ⟨?sload, ?sstore, ?sldv, ?sstv, ?sdlv, ?sunit, ?sloadBad, ?sloadZero, ?sdlvBad, ?sdlvZero, ?sstoreBad, ?sldvBad, ?sstvBad⟩
  case sload | sstore =>
    intro hI hlen hpos hmax hserved
    refine Eq.trans (exec_of_issue rfl hI hE) ?_
    rw [strmLen_good hlen hpos hmax]
    exact congrArg (fun q => Host.Outcome.next ((strmEnd (.ctx k) f _ q).outcome (.ctx k) s)) hserved
  case sldv | sstv =>
    intro hI hlen hpos hmax halign hrange hserved
    refine Eq.trans (exec_of_issue rfl hI hE) ?_
    rw [strmLen_good hlen hpos hmax, if_neg (vbuf_in_range halign hrange)]
    exact congrArg (fun q => Host.Outcome.next ((strmEnd (.ctx k) f _ q).outcome (.ctx k) s)) hserved
  case sdlv =>
    intro hI hlen hpos hmax h38 h29 h13 hline htroupe hgo
    refine Eq.trans (exec_of_issueW rfl hI hE) ?_
    simp only [sdlvDescOk_of h38 h29 h13 hpos hlen hline htroupe, strmLen_good hlen hpos hmax, ctxOf, hgo]
    rfl
  case sunit =>
    intro hI
    exact exec_retire_of_issue rfl hI hE rfl rfl rfl
  case sloadBad | sstoreBad | sldvBad | sstvBad =>
    intro hI hbad
    exact exec_retire_of_issue rfl hI hE (strmLen_bad hbad) (Cx.setS_pc ..) (Cx.setS_st ..)
  case sloadZero =>
    intro hI hzero
    exact exec_retire_of_issue rfl hI hE (strmLen_zero hzero) (Cx.setS_pc ..) (Cx.setS_st ..)
  case sdlvBad =>
    intro hI hbad
    refine Eq.trans (exec_of_issueW rfl hI hE) ?_
    simp only [hbad]
    exact congrArg Host.Outcome.next (Body.outcome_go_setCx hI.running (Cx.setS_pc ..) (Cx.setS_st ..))
  case sdlvZero =>
    intro hI hok hzero
    refine Eq.trans (exec_of_issueW rfl hI hE) ?_
    simp only [hok, strmLen_zero hzero]
    exact congrArg Host.Outcome.next (Body.outcome_go_setCx hI.running (Cx.setS_pc ..) (Cx.setS_st ..))

/-! ### Transforms -/

section

variable {s : State} {k : Nat}

theorem State.slotPut_regs (s : State) (k m b : Nat) (bs : List Byte) (ms : List Bool) : (s.slotPut k m b bs ms).regs = s.regs := rfl

theorem State.slotPut_proc (s : State) (k m b : Nat) (bs : List Byte) (ms : List Bool) : (s.slotPut k m b bs ms).proc = s.proc := rfl

/-- R207: what a transform leaves where its context still runs. -/
theorem outcome_transform (t s' : State) (u : Agent) (y : Cx) (hpc : y.pc = (s'.cx u).pc) (hst : y.st = (s'.cx u).st) :
    (s'.cx u).st = .run → ((t.setCx u y).advance u).cx u = { y with pc := (s'.cx u).pc + 1 } := by
  intro hrun
  have hrun' : ((t.setCx u y).cx u).st = .run := by rw [State.cx_setCx_self, hst, hrun]
  rw [State.cx_advance hrun', State.cx_setCx_self, hpc]

theorem bitOf_zero (j : Nat) : bitOf 0 j = false := by simp [bitOf]

theorem bitOf_two_pow (i j : Nat) : bitOf (2 ^ i) j = decide (i = j) := by
  rw [bitOf_eq_testBit, Nat.testBit_two_pow]

/-- A fold that acts on one index alone acts once. -/
theorem foldl_range_single {α : Type} {n i : Nat} (hi : i < n) (g : α → Nat → α) (q : α) :
    (List.range n).foldl (fun q j => if !decide (i = j) then q else g q j) q = g q i := by
  have hone : (List.range n).filter (fun j => decide (i = j)) = [i] := by
    have hcount : (List.range n).count i = 1 := List.count_eq_one_of_mem List.nodup_range (List.mem_range.mpr hi)
    simpa [hcount, eq_comm] using List.filter_eq i (l := List.range n)
  calc (List.range n).foldl (fun q j => if !decide (i = j) then q else g q j) q
      = ((List.range n).filter (fun j => decide (i = j))).foldl g q := by
        rw [List.foldl_filter]
        congr 1
        funext q j
        by_cases h : i = j <;> simp [h]
    _ = g q i := by rw [hone]; rfl

end

/-- Settles O31. -/
theorem transformInstructionResults : Obligations.TransformInstructionResults := by
  intro k f s s' dead
  dsimp only
  intro hE
  refine ⟨?dcmp, ?enc, ?encBad, ?crcZero, ?crc, ?ptrx, ?ptrxNone⟩
  case dcmp =>
    intro o i t c out good hI hhead htable hout
    refine ⟨_, exec_of_issue rfl hI hE, ?_⟩
    simp only [ctxOf, hhead, htable, xfrmTable, hout]
    exact ⟨rfl, rfl, outcome_transform _ s' _ ((s'.cx (.ctx k)).setS (fD f) _) (Cx.setS_pc ..) (Cx.setS_st ..)⟩
  case enc =>
    intro b hI hlen hpos hmax hmark htable hb
    refine ⟨_, exec_of_issue rfl hI hE, ?_⟩
    have hok : ¬((s.cx (.ctx k)).sr (fB f) % 64 ≠ 0 ∨ 4096 < (s.cx (.ctx k)).sr (fB f)) := by omega
    simp only [ctxOf, hok, hpos.ne', hmark, htable, xfrmTable, hb, if_false, Bool.false_eq_true]
    exact ⟨rfl, rfl, outcome_transform _ s' _ ((s'.cx (.ctx k)).setS (fD f) _) (Cx.setS_pc ..) (Cx.setS_st ..)⟩
  case encBad =>
    intro hI hbad
    exact exec_retire_of_issue rfl hI hE (if_pos hbad) (Cx.setS_pc ..) (Cx.setS_st ..)
  case crcZero =>
    intro hI hzero
    exact exec_retire_of_issue rfl hI hE (by simp [hzero]) (Cx.setS_pc ..) (Cx.setS_st ..)
  case crc =>
    intro hI hpos hmax
    exact exec_retire_of_issue rfl hI hE (by simp only [Nat.not_lt.mpr hmax, hpos.ne', if_false]; rfl)
      ((Cx.setS_pc ..).trans (Cx.setA_pc ..)) ((Cx.setS_st ..).trans (Cx.setA_st ..))
  case ptrx =>
    intro i w y hI hsel hi hw hne hyw hconv
    refine Eq.trans (exec_of_issue rfl hI hE) ?_
    simp only [ctxOf, hsel, bitOf_two_pow]
    rw [foldl_range_single hi]
    simp only [← hw, hne, hconv, if_false, hyw]
    exact congrArg Host.Outcome.next (Body.outcome_go_setCx (s := s.slotPut ..) hI.running (Cx.setS_pc ..) (Cx.setS_st ..))
  case ptrxNone =>
    intro hI hsel
    refine Eq.trans (exec_of_issue rfl hI hE) ?_
    simp only [hsel, bitOf_zero, Bool.not_false, if_true, List.foldl_fixed]
    exact congrArg Host.Outcome.next (Body.outcome_go_setCx hI.running (Cx.setS_pc ..) (Cx.setS_st ..))

end Sys2Proof.Machine
end
section
/-!
PROOFS. Instructions of a control core: its events and its memory (R208, R209, R519 to R526).
-/

namespace Sys2Proof.Machine

/-! ### What a body that changes more than its context comes to -/

section

variable {s t : State} {u : Agent} {y : Cx}

theorem State.cx_advance_of (h : t.cx u = y) (hrun : y.st = .run) : (t.advance u).cx u = { y with pc := y.pc + 1 } := by
  subst h
  exact State.cx_advance hrun

theorem outcome_go_of_cx (hrun : y.st = .run) (h : t.cx u = y) : (Body.go t).outcome u s = t.retire u y := by
  subst h
  exact Body.outcome_go_of_run hrun

theorem outcome_go_setCx_of_cx (h : t.cx u = s.cx u) (hrun : (s.cx u).st = .run) (hpc : y.pc = (s.cx u).pc)
    (hst : y.st = (s.cx u).st) : (Body.go (t.setCx u y)).outcome u s = t.retire u y :=
  Body.outcome_go_setCx (h ▸ hrun) (h ▸ hpc) (h ▸ hst)

end

/-! ### Bits of a register -/

section

variable {s : State} {f g : Fld} {b c : Nat}

theorem bitOf_sub_two_pow {x b : Nat} (h : bitOf x b = true) : bitOf (x - 2 ^ b) b = false := by
  have hodd : x / 2 ^ b % 2 = 1 := by simpa [bitOf] using h
  have hsub := Nat.sub_mul_div x (2 ^ b) 1
  rw [Nat.mul_one] at hsub
  rw [bitOf, hsub]
  generalize x / 2 ^ b = y at hodd
  have heven : (y - 1) % 2 = 0 := by omega
  simp [heven]

theorem State.bit_clrBit_self : (s.clrBit f b).bit f b = false := by
  have hsub : bitOf (if bitOf (s.rd f) b then s.rd f - 2 ^ b else s.rd f) b = false := by
    cases h : bitOf (s.rd f) b with
    | false => exact h
    | true => exact bitOf_sub_two_pow h
  rw [State.bit, State.clrBit, State.rd_wr_self, bitOf_eq_testBit, Nat.testBit_mod_two_pow, ← bitOf_eq_testBit, hsub, Bool.and_false]

theorem State.bit_setBit_self (hb : b < f.width) : (s.setBit f b).bit f b = true := by
  rw [State.bit, State.setBit, State.rd_wr_self, bitOf_eq_testBit, Nat.testBit_mod_two_pow]
  simp [hb]

theorem State.bit_setBit_ne (hg : f.key ≠ g.key) : (s.setBit f b).bit g c = s.bit g c := by
  rw [State.bit, State.setBit, State.rd_wr_ne _ _ hg, State.bit]

end

/-! ### Events -/

/-- The words of EVC_PENDING and EVC_ACTIVE stand apart. -/
theorem Reg.EVC_ACTIVE_key_ne_PENDING {i j : Nat} (hj : j < 32) : (Reg.EVC_ACTIVE_BITS i).key ≠ (Reg.EVC_PENDING_BITS j).key := by
  simp only [Fld.key, Reg.EVC_ACTIVE_BITS, Reg.EVC_PENDING_BITS]
  omega

/-- R520: the states in which EVDONE finds its claim. -/
theorem State.eventDone_owned {s : State} {c i : Nat} (hi : i < 2048) (howner : s.ev.owner.find? i = some c) :
    s.eventDone c i = { s.clrBit (Reg.EVC_ACTIVE_BITS (i / 64)) (i % 64) with ev := { s.ev with owner := s.ev.owner.erase i } } :=
  if_pos ⟨hi, howner⟩

theorem State.eventDone_not_owned {s : State} {c i : Nat} (howner : s.ev.owner.find? i ≠ some c) :
    s.eventDone c i = s.satAdd Reg.EVC_STAT_DONE_ERR 1 :=
  if_neg fun h => howner h.2

theorem State.softRaise_of_software {s : State} {i : Nat} (hlo : 1024 ≤ i) (hhi : i ≤ 2046) (h : s.pendingId i = false) :
    s.softRaise i = s.raise i := by
  have hpos : i ≠ 0 := by omega
  simp [State.softRaise, hpos, hlo, hhi, h]

/-- R519: what a core whose claim commits is given. -/
def State.claimed (s : State) (c : Fin 16) (q : Claim) (r : Nat) : State :=
  s.setCxAt (coreKey c.val) { (s.cxAt (coreKey c.val)).setS q.reg r with pend := (s.cxAt (coreKey c.val)).pend.erase ⟨0, q.reg⟩ }

section

variable {c : Fin 16} {s : State} {q : Claim}

/-- R519: a claim commits with its id, which is pending no more but active and owned. -/
theorem evclaimCommit_of_pending (hh : s.halted = false) (hq : s.ev.claims.find? (fun q => q.core == c.val) = some q)
    (hpend : s.pendingId q.id = true) :
    exec (.evclaimCommit c) s = .next (State.settleLatches (State.claimed
      { (s.clrBit (Reg.EVC_PENDING_BITS (q.id / 64)) (q.id % 64)).setBit (Reg.EVC_ACTIVE_BITS (q.id / 64)) (q.id % 64) with
        ev := { s.ev with claims := s.ev.claims.erase q, owner := s.ev.owner.insert q.id c.val } } c q q.id)) := by
  change execEvclaimCommit c s = _
  rw [execEvclaimCommit, if_neg (by simp [hh]), hq]
  exact if_pos hpend

theorem evclaimCommit_of_not_pending (hh : s.halted = false) (hq : s.ev.claims.find? (fun q => q.core == c.val) = some q)
    (hpend : s.pendingId q.id = false) :
    exec (.evclaimCommit c) s = .next (State.claimed
      (State.satAdd { s with ev := { s.ev with claims := s.ev.claims.erase q } } Reg.EVC_STAT_SPURIOUS 1) c q 2047) := by
  change execEvclaimCommit c s = _
  rw [execEvclaimCommit, if_neg (by simp [hh]), hq]
  exact if_neg (Bool.eq_false_iff.mp hpend)

end

/-- Settles O32. -/
theorem eventInstructionResults : Obligations.EventInstructionResults := by
  refine ⟨?none, ?claim, ?commit, ?spurious, ?done, ?doneErr, ?wfe, ?wake, ?timeout, ?raise, ?fence⟩
  case none =>
    intro n f s hI hE hid
    exact exec_retire_of_issue rfl hI hE (if_pos hid) (Cx.setS_pc ..) (Cx.setS_st ..)
  case claim =>
    intro n f s hI hE hid
    refine ⟨_, exec_of_issue rfl hI hE, ?_⟩
    simp only [coreOf, hid, if_false]
    exact ⟨State.cx_advance_of (State.cx_setCx_self s (.core n) _) hI.running, rfl, rfl⟩
  case commit =>
    intro c s q hh hq hpend _ hid
    refine ⟨_, evclaimCommit_of_pending hh hq hpend, ?_⟩
    have hword : q.id / 64 < 32 := by omega
    have hbit : q.id % 64 < 64 := Nat.mod_lt _ (by decide)
    refine ⟨?_, ?_, SMap.find?_insert_self .., rfl⟩
    · refine (State.bit_setBit_ne (Reg.EVC_ACTIVE_key_ne_PENDING hword)).trans ?_
      exact State.bit_clrBit_self
    · exact State.bit_setBit_self hbit
  case spurious =>
    intro c s q hh hq hpend
    exact ⟨_, evclaimCommit_of_not_pending hh hq hpend, rfl, fun _ => State.cxAt_setCxAt_self ..⟩
  case done =>
    intro n f s hI hE hlt howner
    refine Eq.trans (exec_of_issue rfl hI hE) ?_
    simp only [coreOf, State.eventDone_owned hlt howner]
    exact congrArg Host.Outcome.next (Body.outcome_go_of_proc hI.running rfl)
  case doneErr =>
    intro n f s hI hE howner
    refine Eq.trans (exec_of_issue rfl hI hE) ?_
    simp only [coreOf, State.eventDone_not_owned howner]
    exact congrArg Host.Outcome.next (Body.outcome_go_of_proc hI.running rfl)
  case wfe =>
    intro n f s hI hE
    refine Eq.trans (exec_of_issue rfl hI hE) (congrArg Host.Outcome.next ?_)
    by_cases h : fIMM f = 0 ∨ s.firstId (coreOf (.core n)) ≠ 0
    · exact (congrArg _ (if_pos h)).trans ((Body.outcome_go_of_proc hI.running rfl).trans (if_pos h).symm)
    · exact (congrArg _ (if_neg h)).trans (if_neg h).symm
  case wake =>
    intro c timeout s hh hst hid
    change execWfeWake c timeout s = _
    simp [execWfeWake, hh, hst, hid]
  case timeout =>
    intro c s hh hst hid
    refine ⟨?_, ?_⟩
    · change execWfeWake c true s = _
      simp [execWfeWake, hh, hst, hid]
    · change execWfeWake c false s = _
      simp [execWfeWake, hh, hid]
  case raise =>
    intro n f s hI hE hlo hhi hpend
    refine Eq.trans (exec_of_issue rfl hI hE) ?_
    rw [State.softRaise_of_software hlo hhi hpend]
    rfl
  case fence => exact gives_of_issueR (fun _ _ _ => rfl) (fun _ _ => rfl) (fun _ _ => rfl)

/-! ### Memory -/

section

variable {s : State} {c a n v : Nat}

theorem State.cmemLoad_local (halign : a % n = 0) (hlt : a < 262144) :
    s.cmemLoad c 0 a n = .done s 0 (Memory.num s.proc.loc (262144 * c + a) n) := by
  simp [State.cmemLoad, halign, Nat.not_le.mpr hlt, localKey]

theorem State.cmemLoad_ctrl (halign : a % n = 0) (hlt : a < 0x4000000) : s.cmemLoad c 1 a n = .done (s.touch a) 0 (s.ctrlLoad false a n) := by
  simp [State.cmemLoad, halign, Nat.not_le.mpr hlt]

theorem State.cmemLoad_bad (h : a % n ≠ 0 ∨ 262144 ≤ a) : s.cmemLoad c 0 a n = .addr := by
  rcases h with h | h <;> simp [State.cmemLoad, h]

theorem State.cmemStore_local (halign : a % n = 0) (hlt : a < 262144) :
    s.cmemStore c 0 a n v = .done { s with proc := { s.proc with loc := Memory.store s.proc.loc (262144 * c + a) (toLe n v) } } 0 0 := by
  simp [State.cmemStore, halign, Nat.not_le.mpr hlt, localKey]

theorem State.cmemStore_bad (h : a % n ≠ 0 ∨ 262144 ≤ a) : s.cmemStore c 0 a n v = .addr := by
  rcases h with h | h <;> simp [State.cmemStore, h]

@[simp] theorem State.ungate_proc (s : State) (r : Nat) : (s.ungate r).proc = s.proc := by
  unfold State.ungate
  dsimp only
  split <;> rfl

@[simp] theorem State.touch_proc (s : State) (a : Nat) : (s.touch a).proc = s.proc := by
  unfold State.touch
  dsimp only
  split
  · split
    · exact State.ungate_proc ..
    · rfl
  · rfl

end

/-- R209: what the body of STL answers at a good address of LOCAL. -/
theorem stlBody_local {n : Fin 16} {s : State} {a v : Nat} (halign : a % 8 = 0) (hlt : a < 262144) :
    (match s.cmemStore n.val 0 a 8 v with
      | .done s _ _ => Body.go s
      | .wait s => .wait s .hold
      | .addr => .exc 4 a) =
      .go { s with proc := { s.proc with loc := Memory.store s.proc.loc (262144 * n.val + a) (toLe 8 v) } } := by
  rw [State.cmemStore_local halign hlt]

/-- Settles O33. -/
theorem coreMemoryResults : Obligations.CoreMemoryResults := by
  intro n f s
  dsimp only
  intro hE hpend
  have hsd : sdPending (s.cx (.core n)) f = false := by simpa [sdPending] using hpend
  refine ⟨?ld64, ?ld32, ?ctrl, ?st64, ?st32, ?ldl, ?stl, ?ldlBad, ?st64Bad⟩
  case ld64 | ld32 =>
    intro hI hspace halign hlt
    refine Eq.trans (exec_of_issue rfl hI hE) ?_
    simp only [hsd, hspace, State.cmemLoad_local halign hlt, coreOf]
    exact congrArg Host.Outcome.next (Body.outcome_go_setCx hI.running ((Cx.setS_pc ..).trans (Cx.setA_pc ..))
      ((Cx.setS_st ..).trans (Cx.setA_st ..)))
  case ctrl =>
    intro hI hspace halign hlt
    refine Eq.trans (exec_of_issue rfl hI hE) ?_
    have hcx (a : Nat) : (s.touch a).cx (.core n) = s.cx (.core n) := State.cx_of_proc (State.touch_proc ..)
    simp only [hsd, hspace, State.cmemLoad_ctrl halign hlt, hcx]
    exact congrArg Host.Outcome.next (outcome_go_setCx_of_cx (hcx _) hI.running
      ((Cx.setS_pc ..).trans (Cx.setA_pc ..)) ((Cx.setS_st ..).trans (Cx.setA_st ..)))
  case st64 | st32 =>
    intro hI hspace halign hlt
    refine Eq.trans (exec_of_issue rfl hI hE) ?_
    simp only [hspace, State.cmemStore_local halign hlt, coreOf]
    have hon : (s.cx (.core n)).st ≠ .off := by simp [hI.running]
    refine congrArg Host.Outcome.next ((congrArg (Body.outcome (.core n) s) (if_neg hon)).trans ?_)
    exact outcome_go_setCx_of_cx rfl hI.running (Cx.setS_pc ..) (Cx.setS_st ..)
  case ldl =>
    intro hI halign hlt
    refine exec_retire_of_issue rfl hI hE ?_ (Cx.setA_pc ..) (Cx.setA_st ..)
    simp only [State.cmemLoad_local halign hlt, coreOf]
  case stl =>
    intro hI halign hlt
    have hx : exec (.stl (.core n) f) s = _ := Eq.trans (exec_of_issue rfl hI hE) (congrArg Host.Outcome.next
      ((congrArg (Body.outcome (.core n) s) (stlBody_local halign hlt)).trans (outcome_go_of_cx hI.running rfl)))
    exact ⟨hx, _, hx, rfl, rfl, rfl, rfl⟩
  case ldlBad =>
    intro hI hbad
    refine Eq.trans (exec_of_issue rfl hI hE) ?_
    simp only [State.cmemLoad_bad hbad, Body.outcome_exc]
  case st64Bad =>
    intro hI hspace hbad
    refine Eq.trans (exec_of_issue rfl hI hE) ?_
    simp only [hspace, State.cmemStore_bad hbad, Body.outcome_exc]

end Sys2Proof.Machine
end
section
/-!
PROOFS. The phases of the cue and the commands of the call sheet (R37, R39, R40, R51, R55, R460).
-/

namespace Sys2Proof.Machine

/-! ### What abandoning a sheet leaves -/

theorem State.moveTroupe_of {α : Type} {g : State → α} (hwr : ∀ s f x, g (State.wr s f x) = g s) (s : State) (t k : Nat) :
    g (s.moveTroupe t k) = g s := by
  unfold State.moveTroupe
  dsimp only
  split <;> simp only [hwr] <;> split <;> simp only [hwr]

theorem State.dropRetirements_of {α : Type} {g : State → α} (hwr : ∀ s f x, g (State.wr s f x) = g s)
    (hsheet : ∀ (s : State) x, g { s with sheet := x } = g s) (s : State) : g s.dropRetirements = g s := by
  refine (hsheet _ _).trans (foldl_proj g (fun s e => ?_) _ s)
  rw [hwr, hwr, State.moveTroupe_of hwr]

theorem State.restoreFrames_of {α : Type} {g : State → α} (hwr : ∀ s f x, g (State.wr s f x) = g s)
    (hbook : ∀ (s : State) x, g { s with book := x } = g s) (fs : List Nat) (s : State) : g (fs.foldl State.restoreFrame s) = g s :=
  foldl_proj g (fun s f => by rw [State.restoreFrame, hwr, hwr, hwr, hbook]) fs s

/-- R55: what abandoning a sheet leaves of it, and what it leaves alone. -/
theorem State.abandon_eq_raise (s : State) (cause : Nat) :
    ∃ r : State, s.abandon cause = r.raise 34 ∧ r.staged = [] ∧ r.sheet.retiring = [] ∧ r.store = s.store ∧ r.coh = s.coh := by
  refine ⟨_, rfl, ?_, rfl, ?_, ?_⟩
  · exact (State.dropRetirements_of (g := State.staged) (fun _ _ _ => rfl) (fun _ _ => rfl) _).trans
      (State.restoreFrames_of (g := State.staged) (fun _ _ _ => rfl) (fun _ _ => rfl) _ _)
  · exact (State.dropRetirements_of (g := State.store) (fun _ _ _ => rfl) (fun _ _ => rfl) _).trans
      (State.restoreFrames_of (g := State.store) (fun _ _ _ => rfl) (fun _ _ => rfl) _ _)
  · exact (State.dropRetirements_of (g := State.coh) (fun _ _ _ => rfl) (fun _ _ => rfl) _).trans
      (State.restoreFrames_of (g := State.coh) (fun _ _ _ => rfl) (fun _ _ => rfl) _ _)

/-! ### The sheet's commands -/

section

variable {s : State} {h : Nat}

theorem State.rd_unpend_ne {i : Nat} {f : Fld} (hf : (Reg.EVC_PENDING_BITS (i / 64)).key ≠ f.key) : (s.unpend i).rd f = s.rd f :=
  State.rd_wr_ne s _ hf

theorem State.goCheck_of_free (hbusy : s.is1 Reg.CS_STATUS_BUSY = false)
    (hfree : s.sheetState = 0 ∨ s.sheetState = 4 ∨ s.sheetState = 5 ∨ (s.sheetState = 1 ∧ s.rd Reg.CS_STATUS_HOLDER = h)) :
    s.goCheck h =
      { (s.wr Reg.CS_STATUS_HOLDER h).wr Reg.CS_STATUS_BUSY 1 with sheet := { s.sheet with checker := h, voided := false } } := by
  have hmay : s.sheetFree = true ∨ (s.sheetState = 1 ∧ s.rd Reg.CS_STATUS_HOLDER = h) := by
    rcases hfree with hf | hf | hf | hf
    · exact .inl (by simp [State.sheetFree, hf])
    · exact .inl (by simp [State.sheetFree, hf])
    · exact .inl (by simp [State.sheetFree, hf])
    · exact .inr hf
  rw [State.goCheck, if_neg (by simp [hbusy]), if_pos hmay]
  rfl

theorem State.goAbandon_taken (hst : s.sheetState = 4) : s.goAbandon h = s.wr Reg.CS_STATUS_ABANDON_LATE 1 := if_pos hst

theorem State.goAbandon_of_holder (hst : s.sheetState = 1 ∨ s.sheetState = 2 ∨ s.sheetState = 3)
    (hh : s.rd Reg.CS_STATUS_HOLDER = h ∨ (h = 17 ∧ s.sheetServed = true)) : s.goAbandon h = s.abandon 1 := by
  have hopen : [1, 2, 3].contains s.sheetState = true := by rcases hst with e | e | e <;> rw [e] <;> rfl
  have hnot : s.sheetState ≠ 4 := by omega
  rw [State.goAbandon, if_neg hnot, if_pos ⟨hopen, hh⟩]

/-- R51: staged fields of a whole write by one who may stage. -/
theorem State.stageReg_of_judged {x v mask : Nat} {t : State}
    (hfs : (Reg.fieldsAt x).filter (fun f => f.taken && bitsOf mask f.lo f.width == 2 ^ f.width - 1) ≠ [])
    (hpair : s.pairRefused h x = false) (hjudge : s.judge h = (t, true)) :
    s.stageReg h x v mask =
      ((Reg.fieldsAt x).filter (fun f => f.taken && bitsOf mask f.lo f.width == 2 ^ f.width - 1)).foldl
        (fun t f => t.wrStaged f (bitsOf v f.lo f.width)) t := by
  have hne : List.isEmpty ((Reg.fieldsAt x).filter (fun f => f.taken && bitsOf mask f.lo f.width == 2 ^ f.width - 1)) = false := by
    simpa [List.isEmpty_eq_false_iff] using hfs
  rw [State.stageReg]
  simp only [hne, hpair, hjudge, Bool.false_eq_true, if_false, if_true]

end

/-- R51: the end of a check whose sheet is still held: its verdict decides. -/
theorem execCheckDone_of_holder {s : State} (hh : s.halted = false) (hbusy : s.is1 Reg.CS_STATUS_BUSY = true)
    (hvoid : s.sheet.voided = false) (hholder : s.rd Reg.CS_STATUS_HOLDER ≠ 31) :
    let r : State := { s.wr Reg.CS_STATUS_BUSY 0 with sheet := { s.sheet with voided := false, refusedPair := none } }
    execCheckDone s = match s.verdict with
      | none => .next (((r.wr Reg.CS_STATUS_STATE 2).clearFail).raise 33)
      | some (check, kind, item, unit) => .next ((((((r.wr Reg.CS_STATUS_STATE 1).wr Reg.CS_STATUS_FAIL_CHECK check).wr
          Reg.CS_STATUS_FAIL_KIND kind).wr Reg.CS_STATUS_FAIL_ITEM item).wr Reg.CS_FAIL_UNIT_UNIT unit).raise 33) := by
  have hstill : (s.wr Reg.CS_STATUS_BUSY 0).rd Reg.CS_STATUS_HOLDER ≠ 31 := by rwa [State.rd_wr_ne _ _ (by decide)]
  rw [execCheckDone, if_neg (by simp [hh]), if_neg (by simp [hbusy])]
  dsimp only
  rw [if_neg (by simp [hvoid])]
  refine (if_neg hstill).trans ?_
  cases s.verdict <;> rfl

/-! ### The phases -/

theorem execCueStart_of_guard {s : State} (hh : s.halted = false) (hph : s.phase = 2) {a : State × List Nat} (ha : s.audits = a) :
    let b := (((a.1.wrapAdd Reg.CUE_COUNT_COUNT 1).wr Reg.CUE_PHASE_PHASE 0).wr Reg.CUE_PHASE_OFFSET 0).raise 1
    let c := (b.rebuildCue.trimPhase.takePostmark.abortDiffering a.2).ageInjection
    let plans := (c.stagedFields.filter (fun f => decide (0x400000 ≤ f.reg) && decide (f.reg < 0x440000) && f.reg % 0x40 == 0)).map
      (fun f => (f.reg - 0x400000) / 0x40)
    execCueStart s = .next ((c.sheetAtTake s).1.restOfTake s (c.sheetAtTake s).2 (if (c.sheetAtTake s).2 then plans else [])) := by
  subst ha
  rw [execCueStart, if_neg (by simp [hh, hph])]

/-- Settles O36. -/
theorem cueAndSheetResults : Obligations.CueAndSheetResults := by
  refine ⟨?cueStart, ?workStart, ?guardStart, ?sync, ?routeReset, ?stage, ?check, ?checked, ?failed, ?abandon, ?late⟩
  case cueStart => exact fun s hh hph => execCueStart_of_guard hh hph rfl
  case workStart =>
    intro s hh hph
    exact if_neg (by simp [hh, hph])
  case guardStart =>
    intro s hh hph
    exact if_neg (by simp [hh, hph])
  case sync =>
    intro sender count ofs step rt skew s hdeaf hph hself hleader hlocked hskew hsheet
    dsimp only
    change execCueSync sender count ofs step rt skew s = _
    have hskewed : ¬50 < skew.toNat := Nat.not_lt.mpr hskew
    have hhears : ¬(s.deaf 16 = true ∨ s.phase = 3 ∨ sender.val = s.device ∨ sender.val ≠ s.rd Reg.CUE_SYNC_LEADER) := by
      simp [hdeaf, hph, hself, ← hleader]
    rw [execCueSync, if_neg hhears]
    simp only [hlocked, hskewed, decide_false, Bool.not_false, if_true]
    refine congrArg Host.Outcome.next (if_neg fun hst => hsheet ?_)
    refine Eq.trans ?_ hst.1
    unfold State.sheetState
    rw [State.rd_unpend_ne (by decide), State.rd_wr_ne _ _ (by decide)]
    change _ = State.rd (State.wr _ _ _) _
    rw [State.rd_wr_ne _ _ (by decide), State.rd_wr_ne _ _ (by decide), State.rd_wr_ne _ _ (by decide), State.rd_wr_ne _ _ (by decide)]
  case routeReset =>
    intro p s hh hofs
    change execLedgerRouteReset p s = _
    rw [execLedgerRouteReset, if_neg (by simp [hh]), if_neg (by omega)]
  case stage =>
    intro h off x s t fs hh hfs hpair hjudge
    change execStagedWrite h off x s = _
    rw [execStagedWrite, if_neg (by simp [hh]), State.stageReg_of_judged hfs hpair hjudge]
    rfl
  case check =>
    intro h s hh hbusy hfree
    change execCsCheckGo h s = _
    rw [execCsCheckGo, if_neg (by simp [hh]), State.goCheck_of_free hbusy hfree]
  case checked =>
    intro s hh hbusy hholder hvoid hverdict
    change execCheckDone s = _
    rw [execCheckDone_of_holder hh hbusy hvoid hholder, hverdict]
  case failed =>
    intro s check kind item unit hh hbusy hholder hvoid hverdict
    change execCheckDone s = _
    rw [execCheckDone_of_holder hh hbusy hvoid hholder, hverdict]
  case abandon =>
    intro h s hh hst hholder
    refine ⟨?_, State.abandon_eq_raise s 1⟩
    change execCsAbandonGo h s = _
    rw [execCsAbandonGo, if_neg (by simp [hh]), State.goAbandon_of_holder hst hholder]
  case late =>
    intro h s hh hst
    change execCsAbandonGo h s = _
    rw [execCsAbandonGo, if_neg (by simp [hh]), State.goAbandon_taken hst]

end Sys2Proof.Machine
end
section
/-!
PROOFS. The clock events of units (R43, R88, R89, R148, R276, R278, R541).
-/

namespace Sys2Proof.Machine

/-! ### A unit that starts -/

section

variable {s : State} {t u : Nat} {img : Img} {x : UnitRt}

/-- R148: the CEs that a unit starts on, where each that it names is idle, takes it next and has code. -/
def startsOn (img : Img) (x : UnitRt) : List Nat := (List.range 48).filter (fun c => bitOf (partMask img x.desc) c)

/-- R148: the CEs of a unit that begin. -/
def State.beginCEs (s : State) (t : Nat) (img : Img) (x : UnitRt) : State :=
  (startsOn img x).foldl (fun r c => r.setCxAt (ceKey t c) (beginCx (r.cxAt (ceKey t c)) img x.desc c (s.trpPart t))) s

theorem startsOn_mem {c : Nat} (h : c ∈ startsOn img x) : c < 48 ∧ bitOf (partMask img x.desc) c = true := by
  simpa [startsOn] using h

theorem takers_eq_startsOn (hce : ∀ c < 48, bitOf (partMask img x.desc) c = true → (s.cxAt (ceKey t c)).st = .idle ∧
      (s.troupe t).nextUnit img c = some u ∧ (sectionOf img c).isEmpty = false) :
    (List.range 48).filter (fun c => bitOf (partMask img x.desc) c && (s.cxAt (ceKey t c)).st == .idle &&
      (s.troupe t).nextUnit img c == some u) = startsOn img x := by
  refine List.filter_congr fun c hc => ?_
  cases hbit : bitOf (partMask img x.desc) c with
  | false => rfl
  | true =>
    obtain ⟨hidle, hnext, -⟩ := hce c (List.mem_range.mp hc) hbit
    simp [hidle, hnext]

theorem startsOn_none_empty (hce : ∀ c < 48, bitOf (partMask img x.desc) c = true → (s.cxAt (ceKey t c)).st = .idle ∧
      (s.troupe t).nextUnit img c = some u ∧ (sectionOf img c).isEmpty = false) :
    (startsOn img x).filter (fun c => (sectionOf img c).isEmpty) = [] := by
  refine List.filter_eq_nil_iff.mpr fun c hc => ?_
  obtain ⟨hlt, hbit⟩ := startsOn_mem hc
  obtain ⟨-, -, hsec⟩ := hce c hlt hbit
  simp [hsec]

theorem beginCEs_eq (hce : ∀ c < 48, bitOf (partMask img x.desc) c = true → (s.cxAt (ceKey t c)).st = .idle ∧
      (s.troupe t).nextUnit img c = some u ∧ (sectionOf img c).isEmpty = false) :
    (startsOn img x).foldl (fun r c => if (sectionOf img c).isEmpty then r
      else r.setCxAt (ceKey t c) (beginCx (r.cxAt (ceKey t c)) img x.desc c (s.trpPart t))) s = s.beginCEs t img x := by
  refine List.foldl_ext _ _ _ fun r c hc => ?_
  obtain ⟨hlt, hbit⟩ := startsOn_mem hc
  obtain ⟨-, -, hsec⟩ := hce c hlt hbit
  simp [hsec]

end

/-- R148: a unit starts in WORK on every CE that it names. -/
theorem State.startUnit_starts {s : State} {t u : Nat} {img : Img} {x : UnitRt} (himg : (s.troupe t).img = some img)
    (hunit : (s.troupe t).unit u = some x) (hst : x.st = .waiting) (hcar : x.carried = false) (hph : s.phase = 1)
    (hstart : x.desc.start ≤ s.ofs) (hbar : s.barred t u = none) (hpres : x.present = true) (hlive : s.framesLive img u = true)
    (hce : ∀ c < 48, bitOf (partMask img x.desc) c = true → (s.cxAt (ceKey t c)).st = .idle ∧
      (s.troupe t).nextUnit img c = some u ∧ (sectionOf img c).isEmpty = false)
    (hmask : partMask img x.desc ≠ 0) (hended : x.ended = 0) :
    let b := s.beginCEs t img x
    let b := if x.undRec then b.satAdd Reg.CUE_MISS_COUNT_UNDERSTUDY 1 else b
    s.startUnit t u = b.setTroupe t ((b.troupe t).mapUnit u (fun y =>
      { y with st := .running, ended := y.ended + 0, bars := if y.st = .waiting then [] else y.bars })) := by
  have hgo : ¬(s.phase ≠ 1 ∨ (x.st ≠ .waiting ∧ x.st ≠ .running) ∨ ((!x.carried) = true ∧ s.ofs < x.desc.start)) := by
    simp [hph, hst, hcar, hstart]
  have hframes : ¬(x.st = .waiting ∧ (!s.framesLive img u) = true) := by simp [hlive]
  have hmore : ¬(x.ended + 0 = partMask img x.desc) := by omega
  have hund : (x.st = .waiting ∧ x.undRec = true) ↔ x.undRec = true := by simp [hst]
  unfold State.startUnit
  simp only [himg, hunit, hgo, if_false, hbar, hpres, Bool.not_true, Bool.false_eq_true, hframes, takers_eq_startsOn hce,
    startsOn_none_empty hce, beginCEs_eq hce, List.map_nil, List.sum_nil, List.isEmpty_nil, if_true, hmore, hund]

/-- A unit that a start turned from waiting to running is another unit. -/
theorem State.ne_of_unit_running {s r : State} {t u : Nat} {x y : UnitRt} (hx : (s.troupe t).unit u = some x) (hst : x.st = .waiting)
    (hy : (r.troupe t).unit u = some y) (hrun : y.st = .running) : r ≠ s := by
  rintro rfl
  rw [hx] at hy
  cases hy
  rw [hst] at hrun
  cases hrun

@[simp] theorem State.troupe_satAdd (s : State) (f : Fld) (n t : Nat) : (s.satAdd f n).troupe t = s.troupe t := rfl

theorem State.beginCEs_troupe (s : State) (t : Nat) (img : Img) (x : UnitRt) : (s.beginCEs t img x).troupe t = s.troupe t :=
  have hop (r : State) (c : Nat) : (r.setCxAt (ceKey t c) (beginCx (r.cxAt (ceKey t c)) img x.desc c (s.trpPart t))).troupe t = r.troupe t := rfl
  foldl_proj (fun r : State => r.troupe t) hop _ s

/-! ### Late units -/

section

variable {s : State} {t u : Nat} {x : UnitRt}

/-- R43: what a miss does to a unit that is not over. -/
theorem State.missUnit_eq (hunit : (s.troupe t).unit u = some x) (hst : x.st = .waiting ∨ x.st = .running) {k : Miss} (hk : k ≠ .frame) :
    s.missUnit t u k = if s.quarantined t u then s.cancelUnit t u 2
      else if x.desc.policy = 2 then
        (((s.cancelOne t u .idle).releaseUnread t u).satAdd Reg.CUE_MISS_COUNT_SKIPPED 1).noteCond (s.trpPart t) 7
      else if x.desc.policy = 1 ∧ k = .delivery ∧ !x.understudy then
        s.setTroupe t ((s.troupe t).mapUnit u (fun y => { y with understudy := true }))
      else s.carryUnit t u := by
  have hopen : ¬(x.st = .done ∨ x.st = .missed ∨ x.st = .cancelled) := by rcases hst with h | h <;> simp [h]
  simp only [State.missUnit, hunit, hopen, if_false, hk]

theorem State.missUnit_completion (hunit : (s.troupe t).unit u = some x) (hst : x.st = .waiting ∨ x.st = .running) :
    s.missUnit t u .completion = if s.quarantined t u then s.cancelUnit t u 2
      else if x.desc.policy = 2 then
        (((s.cancelOne t u .idle).releaseUnread t u).satAdd Reg.CUE_MISS_COUNT_SKIPPED 1).noteCond (s.trpPart t) 7
      else s.carryUnit t u := by
  rw [State.missUnit_eq hunit hst (by decide)]
  simp

end

/-! ### Retirement -/

section

variable {s : State} {h t q : Nat}

theorem State.judge_of_free (hbusy : s.is1 Reg.CS_STATUS_BUSY = false) (hfree : s.sheetFree = true) :
    s.judge h = (((s.wr Reg.CS_STATUS_STATE 1).wr Reg.CS_STATUS_HOLDER h).clearFail, true) := by
  rw [State.judge, if_neg (by simp [hbusy]), if_pos hfree]

/-- R88: the state in which a spare is reserved for a troupe that retires, its staged fields those of the troupe. -/
def State.reserveSpare (s : State) (h t q : Nat) : State :=
  let s := ((s.wr Reg.CS_STATUS_STATE 1).wr Reg.CS_STATUS_HOLDER h).clearFail
  let s := ((s.ungate (regionOf q)).zeroTroupe q).moveTroupe q 2
  let s := s.wrStaged (Reg.TRP_STATE_LOGICAL q) (s.rdStaged (Reg.TRP_STATE_LOGICAL t))
  let s := s.wrStaged (Reg.TRP_STATE_PARTITION q) (s.rdStaged (Reg.TRP_STATE_PARTITION t))
  s.wrStaged (Reg.TRP_STATE_LOGICAL t) 0x1FFF

/-- R88: what TRP_RETIRE and the sheet then show. -/
def State.noteSpare (s : State) (t q : Nat) : State :=
  let s := (s.wr (Reg.TRP_RETIRE_SPARE t) q).wr (Reg.TRP_RETIRE_RESULT t) 1
  { s with sheet := { s.sheet with retiring := s.sheet.retiring.insert t q } }

/-- R88: how GO of a retirement that may be staged is decided. -/
theorem State.goRetire_eq (hh : h = 16 ∨ h = 17) (hst : s.trpState t < 2) (hret : (s.sheet.retiring.find? t).isSome = false)
    (hbusy : s.is1 Reg.CS_STATUS_BUSY = false) (hfree : s.sheetFree = true) :
    s.goRetire h t = match s.spareFor t with
      | none => (s.wr (Reg.TRP_RETIRE_RESULT t) 3).raise 43
      | some q => (s.reserveSpare h t q).noteSpare t q := by
  have hmay : ¬(h ≠ 16 ∧ h ≠ 17) := by omega
  have hheld : ¬((if s.is1 Reg.CS_STATUS_BUSY then h != s.sheet.checker else !s.sheetFree && s.rd Reg.CS_STATUS_HOLDER != h) = true) := by
    simp [hbusy, hfree]
  rw [State.goRetire, if_neg hmay, if_neg (Nat.not_le.mpr hst), if_neg (by simp [hret]), if_neg hheld, State.judge_of_free hbusy hfree]
  cases s.spareFor t <;> rfl

theorem State.moveTroupe_reserved (s : State) (hq : q < 6400) : (s.moveTroupe q 2).rd (Reg.TRP_STATE_STATE q) = 2 := by
  have hkey : Reg.TRP_SUMMARY_RESERVED.key ≠ (Reg.TRP_STATE_STATE q).key := by
    simp only [Fld.key, Reg.TRP_SUMMARY_RESERVED, Reg.TRP_STATE_STATE]
    omega
  unfold State.moveTroupe
  exact (State.rd_wr_ne _ _ hkey).trans (State.rd_wr_self _ _ _)

theorem Reg.TRP_RETIRE_RESULT_key_ne_SPARE : (Reg.TRP_RETIRE_RESULT t).key ≠ (Reg.TRP_RETIRE_SPARE t).key := by
  simp only [Fld.key, Reg.TRP_RETIRE_RESULT, Reg.TRP_RETIRE_SPARE]
  omega

theorem Reg.TRP_RETIRE_RESULT_key_ne_STATE : (Reg.TRP_RETIRE_RESULT t).key ≠ (Reg.TRP_STATE_STATE q).key := by
  simp only [Fld.key, Reg.TRP_RETIRE_RESULT, Reg.TRP_STATE_STATE]
  omega

theorem Reg.TRP_RETIRE_SPARE_key_ne_STATE : (Reg.TRP_RETIRE_SPARE t).key ≠ (Reg.TRP_STATE_STATE q).key := by
  simp only [Fld.key, Reg.TRP_RETIRE_SPARE, Reg.TRP_STATE_STATE]
  omega

theorem State.ungate_sheet (s : State) (r : Nat) : (s.ungate r).sheet = s.sheet := by
  unfold State.ungate
  dsimp only
  split <;> rfl

theorem State.rd_wrStaged (s : State) (f g : Fld) (y : Nat) : (s.wrStaged f y).rd g = s.rd g := rfl

theorem State.zeroTroupe_sheet (s : State) (t : Nat) : (s.zeroTroupe t).sheet = s.sheet := rfl

theorem State.clearFail_sheet (s : State) : s.clearFail.sheet = s.sheet := rfl

theorem State.moveTroupe_sheet (s : State) (t k : Nat) : (s.moveTroupe t k).sheet = s.sheet :=
  State.moveTroupe_of (g := State.sheet) (fun _ _ _ => rfl) s t k

theorem State.reserveSpare_sheet (s : State) (h t q : Nat) : (s.reserveSpare h t q).sheet = s.sheet := by
  simp only [State.reserveSpare, State.wrStaged_sheet, State.moveTroupe_sheet, State.zeroTroupe_sheet, State.ungate_sheet,
    State.clearFail_sheet, State.wr_sheet]

theorem State.reserveSpare_state (s : State) (h t : Nat) (hq : q < 6400) : (s.reserveSpare h t q).rd (Reg.TRP_STATE_STATE q) = 2 := by
  simp only [State.reserveSpare, State.rd_wrStaged, State.moveTroupe_reserved _ hq]

theorem State.noteSpare_retiring (s : State) (t q : Nat) : (s.noteSpare t q).sheet.retiring = s.sheet.retiring.insert t q := rfl

theorem State.noteSpare_result (s : State) (t q : Nat) : (s.noteSpare t q).rd (Reg.TRP_RETIRE_RESULT t) = 1 :=
  State.rd_wr_self _ (Reg.TRP_RETIRE_RESULT t) 1

theorem State.noteSpare_spare (s : State) (t : Nat) (hq : q < 6400) : (s.noteSpare t q).rd (Reg.TRP_RETIRE_SPARE t) = q := by
  have hrd := (State.rd_wr_ne _ 1 Reg.TRP_RETIRE_RESULT_key_ne_SPARE).trans (State.rd_wr_self s (Reg.TRP_RETIRE_SPARE t) q)
  exact hrd.trans (Nat.mod_eq_of_lt (Nat.lt_trans hq (show 6400 < 2 ^ 16 by decide)))

theorem State.noteSpare_state (s : State) (t q : Nat) : (s.noteSpare t q).rd (Reg.TRP_STATE_STATE q) = s.rd (Reg.TRP_STATE_STATE q) :=
  (State.rd_wr_ne (s.wr (Reg.TRP_RETIRE_SPARE t) q) 1 Reg.TRP_RETIRE_RESULT_key_ne_STATE).trans
    (State.rd_wr_ne s q Reg.TRP_RETIRE_SPARE_key_ne_STATE)

end

/-- Settles O37. -/
theorem unitResults : Obligations.UnitResults := by
  refine ⟨?start, ?delivery, ?completion, ?lead, ?record, ?fault, ?faultNot, ?retire, ?gate⟩
  case start =>
    intro t u s img x himg hunit hst hcar hh hph hstart hbar hpres hlive hce hmask hended _
    have hs1 := State.startUnit_starts himg hunit hst hcar hph hstart hbar hpres hlive hce hmask hended
    change execUnitStart t u s = _
    rw [execUnitStart, if_neg (by simp [hh])]
    refine congrArg Host.Outcome.next ((if_neg ?_).trans (congrArg (fun r => State.ungate r _) hs1))
    rw [hs1]
    refine State.ne_of_unit_running hunit hst
      (show _ = some { x with st := .running, ended := x.ended + 0, bars := if x.st = .waiting then [] else x.bars } from ?_) rfl
    rw [State.troupe_setTroupe]
    refine Troupe.unit_mapUnit ?_ fun _ => rfl
    split
    · rw [State.troupe_satAdd, State.beginCEs_troupe, hunit]
    · rw [State.beginCEs_troupe, hunit]
  case delivery =>
    intro t u s x hh hunit hst hddel hund hpres
    have hmiss : exec (.deliveryMiss t u) s = .next (s.missUnit t.val u.toNat .delivery) := by
      change execDeliveryMiss t u s = _
      simp [execDeliveryMiss, hh, hunit, hst, hddel, hund, hpres]
    rw [hmiss, State.missUnit_eq hunit (.inl hst) (by decide)]
    refine ⟨?_, ?_, ?_, ?_⟩
    · intro hq
      rw [if_pos hq]
    · intro hq hpol
      rw [if_neg (by simp [hq]), if_pos hpol]
    · intro hq hpol
      rw [if_neg (by simp [hq]), if_neg (by omega), if_pos ⟨hpol, rfl, by simp [hund]⟩]
    · intro hq hpol1 hpol2
      rw [if_neg (by simp [hq]), if_neg hpol2, if_neg (fun h => hpol1 h.1)]
  case completion =>
    intro t u s x hh hunit hst hd
    change execCompletionMiss t u s = _
    simp only [execCompletionMiss, hh, Bool.false_eq_true, if_false, hunit, hd, if_true]
    rw [State.missUnit_completion hunit hst]
  case lead =>
    intro t u s x hh hunit hst hund hcar hpres hlead
    change execUnderstudyLeadMiss t u s = _
    have hlate : x.st = .waiting ∧ x.understudy = true ∧ (!x.carried) = true ∧ (!x.present) = true ∧ x.desc.ddel + x.desc.ulead < s.ofs :=
      ⟨hst, hund, by simp [hcar], by simp [hpres], hlead⟩
    simp only [execUnderstudyLeadMiss, hh, Bool.false_eq_true, if_false, hunit]
    rw [if_pos hlate, State.missUnit_completion hunit (.inl hst)]
  case record =>
    intro t u status s hh
    change execStatusRecordArrival t u status s = _
    rw [execStatusRecordArrival, if_neg (by simp [hh])]
    rfl
  case fault =>
    intro t s hh hact
    change execCeLogicFault t s = _
    rw [execCeLogicFault, if_neg (by simp [hh]), State.logicFault, if_neg (by simp [hact])]
  case faultNot =>
    intro t s hact
    change execCeLogicFault t s = _
    rw [execCeLogicFault, State.logicFault, if_pos hact, ite_self]
  case retire =>
    intro h t s hh hserv hst hret hbusy hfree
    have hgo : exec (.trpRetireGo h t) s = .next (s.goRetire h.val t.val) := by
      change execTrpRetireGo h t s = _
      rw [execTrpRetireGo, if_neg (by simp [hh])]
    rw [hgo, State.goRetire_eq (by omega) hst hret hbusy hfree]
    refine ⟨fun hnone => by rw [hnone], fun q hq => ?_⟩
    simp only [hq]
    refine ⟨_, rfl, ?_, State.noteSpare_result .., fun hlt => ⟨State.noteSpare_spare _ _ hlt, ?_⟩⟩
    · rw [State.noteSpare_retiring, State.reserveSpare_sheet]
    · rw [State.noteSpare_state, State.reserveSpare_state _ _ _ hlt]
  case gate =>
    intro r s hh hpow
    change (_ → execClockGate r s = _) ∧ (_ → _ → execClockGate r s = _)
    rw [execClockGate, if_neg (by simp [hh])]
    dsimp only
    rw [if_neg (by simp [hpow])]
    refine ⟨fun hall => ?_, fun ⟨t, ht, hlive⟩ hidle => ?_⟩
    · rw [if_pos (by simpa using hall)]
    · have hnot : ¬((troupesIn r.val).all (fun t => decide (3 ≤ s.trpState t)) = true) := by
        simp only [List.all_eq_true, decide_eq_true_eq, not_forall]
        exact ⟨t, ht, by omega⟩
      rw [if_neg hnot, if_pos (by simpa [List.all_eq_true] using hidle)]

end Sys2Proof.Machine
end
section
/-!
PROOFS. Parcels, credits and completions in the mesh (R77 to R87, R199 to R204).
-/

namespace Sys2Proof.Machine

section

variable {s : State} {t up flips : Nat} {dir : Nat} {p : MParcel}

/-- R77: what arrives over the link whose turn it is. -/
theorem State.meshArrive_link (hh : s.halted = false) (hdir : dir < 4) (hup : neighbour t dir = some up)
    (hlink : s.trp.linkFailed.getD (up * 8 + opposite dir) false = false) (hp : s.nextParcel up (opposite dir) = some p) :
    s.meshArrive t dir flips = if flips ≠ 0 ∧ !sealGood (p.image ^^^ flips) then s.sealFails t up (opposite dir) p
      else (((s.turned up (opposite dir) p).dropParcel p).freeSlot p).takeParcel t dir
        (if flips = 0 then p else p.reread (p.image ^^^ flips)) := by
  have hlocal : dir ≠ 4 := by omega
  simp only [State.meshArrive, hh, Bool.false_eq_true, if_false, hlocal, hup, hlink, hp]

theorem State.takeParcel_onward (hw : p.wellFormed = true) (hdst : p.dst ≠ t) (hup : neighbour t dir = some up) :
    s.takeParcel t dir p =
      { s with trp := { s.trp with
          hopUsed := s.trp.hopUsed.setD (hopKey up (opposite dir) p.vl) 0 (s.trp.hopUsed.getD (hopKey up (opposite dir) p.vl) 0 + 1)
          mesh := s.trp.mesh ++ [{ p with at_ := t, inDir := dir, tries := 0 }] } } := by
  simp only [State.takeParcel, hw, hdst, hup, Bool.not_true, Bool.false_eq_true, if_false, Option.getD_some]
  rfl

theorem State.takeParcel_home (hw : p.wellFormed = true) (hdst : p.dst = t) : s.takeParcel t dir p = s.eject t p := by
  simp only [State.takeParcel, hw, hdst, Bool.not_true, Bool.false_eq_true, if_false, if_true]

theorem State.takeParcel_malformed (hw : p.wellFormed = false) :
    s.takeParcel t dir p = s.satAdd (Reg.TRP_TRAFFIC_MALFORMED t) 1 := by
  simp only [State.takeParcel, hw, Bool.not_false, if_true]

end

/-! ### Credits that come back -/

section

variable {tr : Troupe} {i : Nat} {n : Nat}

/-- R81: the routes of a troupe after one credit parcel. -/
def creditRoutes (outs : List OutRt) (pairs : List (Nat × Nat)) : List OutRt :=
  outs.zipIdx.map (fun (o, i) => { o with cr := min o.desc.credits (o.cr + ((pairs.filter (fun q => q.1 == i)).map (·.2)).sum) })

theorem creditRoutes_get (outs : List OutRt) (pairs : List (Nat × Nat)) {j : Nat} {o : OutRt} (h : outs[j]? = some o) :
    (creditRoutes outs pairs)[j]? =
      some { o with cr := min o.desc.credits (o.cr + ((pairs.filter (fun q => q.1 == j)).map (·.2)).sum) } := by
  simp [creditRoutes, h]

theorem creditRoutes_get_self {outs : List OutRt} {o : OutRt} (h : outs[i]? = some o) :
    (creditRoutes outs [(i, n)])[i]? = some { o with cr := min o.desc.credits (o.cr + n) } := by
  rw [creditRoutes_get _ _ h]
  simp

theorem creditRoutes_get_ne {outs : List OutRt} {j : Nat} {o : OutRt} (hj : j ≠ i) (h : outs[j]? = some o) (hcr : o.cr ≤ o.desc.credits) :
    (creditRoutes outs [(i, n)])[j]? = some o := by
  rw [creditRoutes_get _ _ h]
  simp [Ne.symm hj, hcr]

end

/-! ### Operations on the store that complete -/

section

variable {s : State} {g : GOp}

theorem not_curtained (h : s.curtain g.part = false ∨ s.underway g = true) : ¬(s.curtain g.part = true ∧ (!s.underway g) = true) := by
  rcases h with h | h <;> simp [h]

theorem curtained (hc : s.curtain g.part = true) (hu : s.underway g = false) : s.curtain g.part = true ∧ (!s.underway g) = true :=
  ⟨hc, by simp [hu]⟩

end

/-- R77, R78: the clauses of a parcel that arrives over a link. -/
theorem meshParcelArrival_link {t : Fin 6400} {d : Fin 5} {head : BitVec 128} {body : BitVec 512} {s : State} {up : Nat} {p : MParcel}
    (hh : s.halted = false) (hd : d.val < 4) (hup : neighbour t.val d.val = some up)
    (hlink : s.trp.linkFailed.getD (up * 8 + opposite d.val) false = false) (hp : s.nextParcel up (opposite d.val) = some p) :
    exec (.meshParcelArrival t d head body) s = .next (if (body ++ head).toNat ≠ 0 ∧ !sealGood (p.image ^^^ (body ++ head).toNat)
      then s.sealFails t.val up (opposite d.val) p
      else (((s.turned up (opposite d.val) p).dropParcel p).freeSlot p).takeParcel t.val d.val
        (if (body ++ head).toNat = 0 then p else p.reread (p.image ^^^ (body ++ head).toNat))) := by
  change execMeshParcelArrival t d head body s = _
  rw [execMeshParcelArrival, if_neg (by simp [hh]), State.meshArrive_link hh hd hup hlink hp]

/-- Settles O38. -/
theorem meshResults : Obligations.MeshResults := by
  refine ⟨?eject, ?link, ?hop, ?cred, ?cancel, ?cancelDlv, ?gmem, ?atom⟩
  case eject =>
    intro t head body s p hh hp
    change execMeshParcelArrival t 4 head body s = _
    rw [execMeshParcelArrival, if_neg (by simp [hh])]
    simp only [State.meshArrive, hh, Bool.false_eq_true, if_false, show (4 : Fin 5).val = 4 from rfl, if_true, hp]
  case link =>
    intro t d head body s up p hh hd hup hlink hp
    dsimp only
    have hx := meshParcelArrival_link (head := head) (body := body) hh hd hup hlink hp
    generalize (body ++ head).toNat = flips at hx ⊢
    rw [hx]
    refine ⟨fun hf hw hdst => ?_, fun hf hw hdst => ?_, fun hf hw => ?_, fun hf hseal => ?_, fun hf hseal htries => ?_,
      fun hf hseal htries => ?_⟩
    · rw [if_neg (fun h => h.1 hf), if_pos hf, State.takeParcel_onward hw hdst hup]
    · rw [if_neg (fun h => h.1 hf), if_pos hf, State.takeParcel_home hw hdst]
    · rw [if_neg (fun h => h.1 hf), if_pos hf, State.takeParcel_malformed hw]
    · rw [if_neg (by simp [hseal]), if_neg hf]
    · rw [if_pos ⟨hf, by simp [hseal]⟩, State.sealFails, if_neg htries]
    · rw [if_pos ⟨hf, by simp [hseal]⟩, State.sealFails, if_pos htries]
  case hop =>
    intro t d vl s hh k hback
    change execHopCreditReturn t d vl s = _
    rw [execHopCreditReturn, if_neg (by simp [hh]), State.hopReturn, if_neg hback]
  case cred =>
    intro t i n s o hh ho
    refine ⟨{ s.troupe t.val with outs := creditRoutes (s.troupe t.val).outs [(i.val, n.toNat)] }, ?_, creditRoutes_get_self ho,
      fun j q hj hq hcr => creditRoutes_get_ne hj hq hcr⟩
    change execCredParcel t [(i, n)] s = _
    rw [execCredParcel, if_neg (by simp [hh])]
    rfl
  case cancel =>
    intro t i u cue s ir hh hir
    change execCancelParcel t i u cue false s = _
    rw [execCancelParcel, if_neg (by simp [hh])]
    simp only [State.cancelArrive, Bool.false_eq_true, if_false, hir]
  case cancelDlv =>
    intro t i u cue s hh
    change execCancelParcel t i u cue true s = _
    rw [execCancelParcel, if_neg (by simp [hh])]
    rfl
  case gmem =>
    intro t c n s g hh hlive hg hkind
    have hx : exec (.gmemComplete t c n) s = .next (s.gmemNext t.val c.val n.val) := by
      change execGmemComplete t c n s = _
      rw [execGmemComplete, if_neg (by simp [hh]), if_neg (by simp [hlive])]
    rw [hx, State.gmemNext, hg]
    dsimp only
    rw [if_neg (by omega)]
    refine ⟨fun hc hu => ?_, fun hfree r h k hpool => ?_⟩
    · rw [if_pos (curtained hc hu)]
    · rw [if_neg (not_curtained hfree), hpool]
  case atom =>
    intro u n s g hh hg hkind
    change (_ → execAtomComplete u n s = _) ∧ (_ → _ → _ → execAtomComplete u n s = _) ∧
      (_ → _ → ∀ r h k, _ → execAtomComplete u n s = _)
    rw [execAtomComplete, if_neg (by simp [hh]), hg]
    dsimp only
    rw [if_neg (by omega)]
    refine ⟨fun hpart => ?_, fun hpart hc hu => ?_, fun hpart hfree r h k hpool => ?_⟩
    · rw [if_pos hpart]
    · rw [if_neg (Nat.not_le.mpr hpart), if_pos (curtained hc hu)]
    · rw [if_neg (Nat.not_le.mpr hpart), if_neg (not_curtained hfree), hpool]

end Sys2Proof.Machine
end
section
/-!
PROOFS. Courier plans, deliveries and faulted contexts (R130, R274 to R278, R288 to R290, R313).
-/

namespace Sys2Proof.Machine

@[simp] theorem State.ctx_setCtx (s : State) (k : Nat) (c : Ctx) : (s.setCtx k c).ctx k = c := by
  simp [State.ctx, State.setCtx, SMap.getD_setD]

/-! ### Plan entries -/

/-- R274, R276: what starting an entry leaves, before its first read. -/
def State.entryStarted (s : State) (k : Nat) (j : Job) : State :=
  let s := (s.wr (Reg.CRR_CTX_STATE_ENTRY k) j.idx).setCtx k { s.ctx k with job := some j, faultD := none, prog := 0, progDead := false }
  let d := (s.unitFor k j.ent.unit).getD {}
  s.setCxAt (ctxKey k)
    { s.cxAt (ctxKey k) with st := .run, part := j.part, unit := j.ent.unit, dline := d.d, ddel := d.ddel }

/-- R274, R276: a DELIVER entry starts in WORK, once its start is reached, on an idle context that carries nothing. -/
theorem State.startEntry_starts {s : State} {k : Nat} {run : State → Job → State} (hen : s.is1 (Reg.CRR_CTX_PLAN_EN k) = true)
    (hst : (s.cxAt (ctxKey k)).st = .idle) (hjob : (s.ctx k).job = none) (hcarry : (s.ctx k).carry = [])
    (hlen : (s.ctx k).next < s.planLen (s.planOff k)) (hok : s.entryOk (s.planOff k) (s.ctx k).next = true) {e : PlanEntry}
    (he : planEntryOf (s.planBytes (s.planOff k) (s.ctx k).next) = e) (hop : e.op = 0) (hcount : e.counted = true)
    (hserves : s.servesCarried e = false) (hjust : s.justCarried e = false) (hclosed : (s.ctx k).closed.contains (s.ctx k).next = false)
    (hstart : e.start ≤ s.ofs) (hph : s.phase = 1) (hddel : s.ofs < e.ddel)
    (hcurtain : s.curtain (s.rd (Reg.CRR_CTX_PLAN_PARTITION k)) = false) :
    let j : Job := { idx := (s.ctx k).next, ent := e, part := s.rd (Reg.CRR_CTX_PLAN_PARTITION k), tables := s.cohNum (s.planOff k + 8) 8 }
    s.startEntry k false run =
      run (State.entryStarted (s.setCtx k { s.ctx k with next := (s.ctx k).next + 1 }) k j) j := by
  have hwait : ¬(s.ofs < e.start ∨ s.phase = 0) := by omega
  have hover : ¬(s.phase ≠ 1 ∨ e.ddel ≤ s.ofs ∨ s.curtain (s.rd (Reg.CRR_CTX_PLAN_PARTITION k)) = true) := by
    simp [hph, hddel, hcurtain]
  have hopen : (s.ctx k).next ∉ (s.ctx k).closed := by simpa using hclosed
  unfold State.startEntry
  simp [hen, hst, hjob, hcarry, Nat.not_le.mpr hlen, hok, he, hop, hcount, hserves, hjust, hwait, hover, hopen, State.entryStarted]

/-! ### Reads -/

section

variable {s r : State} {k : Nat} {j : Job}

/-- R277: a read of a whole FRAME entry into a staged frame that its partition owns. -/
theorem State.frameRead_fills (hlen : j.ent.length ≠ 0) (hread : s.intoSlot k false j.part j.ent.src 1024 0 = (r, .ok false))
    (hown : r.rd (Reg.PBK_FRAME_STAGE_OWNER j.ent.troupe) = j.part) (hcond : r.is1 (Reg.PBK_FRAME_STAGE_COND j.ent.troupe) = false) :
    s.frameRead k j = State.endWork ((State.wr
      { r with book := { r.book with staged := Memory.store r.book.staged (1024 * j.ent.troupe) (r.slotBytes k 0 1024) } }
      (Reg.PBK_FRAME_STAGE_TAG j.ent.troupe) j.ent.tag).wr (Reg.PBK_FRAME_STAGE_STATE j.ent.troupe) 2) k := by
  simp only [State.frameRead, hlen, if_false, hread, Bool.false_eq_true, State.fillFrame, hown, ne_eq, not_true_eq_false, hcond]

/-- R276, R278: how a read of a whole chunk goes on. -/
theorem State.deliverRead_plain (hcomp : j.ent.comp = false) {q : Fetch}
    (hread : s.intoSlot k false j.part (j.ent.src + 4096 * j.chunk) j.size 0 = (r, q)) :
    s.deliverRead k j = match q with
      | .wait => r
      | .stat code va => r.readEnded k j code va
      | .ok dead => if dead then r.badChunk k j j.size false else r.queueChunk k j (r.slotBytes k 0 j.size) false := by
  simp only [State.deliverRead, hcomp, Bool.not_false, if_true, hread]
  cases q <;> rfl

end

theorem State.lateEntry_carries {s : State} {k i : Nat} {j : Job} (hst : (s.cxAt (ctxKey k)).st = .run) (hulen : j.ent.ulen = 0)
    (hskip : j.ent.skip = false) : s.lateEntry k i true j = s.setJobOf k { j with carried := true } := by
  simp [State.lateEntry, hst, hulen, hskip]

/-- R278: an entry that runs and is late, with neither an understudy nor SKIP, is carried. -/
theorem State.courierDDel_carries {s : State} {k i : Nat} {j : Job} (hjob : (s.ctx k).job = some j) (hidx : j.idx = i)
    (hcar : j.carried = false) (hst : (s.cxAt (ctxKey k)).st = .run) (hen : s.is1 (Reg.CRR_CTX_PLAN_EN k) = true)
    (hlen : i < s.planLen (s.planOff k)) (hcount : j.ent.counted = true) (hclosed : (s.ctx k).closed.contains i = false)
    (hlate : (s.ctx k).late.contains i = false) (hcarry : (s.ctx k).carry = []) (hddel : j.ent.ddel < s.ofs)
    (hserves : s.servesCarried j.ent = false) (hulen : j.ent.ulen = 0) (hskip : j.ent.skip = false) :
    s.courierDDel k i = (State.satAdd (s.setCtx k { s.ctx k with late := (s.ctx k).late ++ [i] }) Reg.CRR_MISS_LATE 1).setJobOf k
      { j with carried := true } := by
  subst hidx
  have hgo : ¬((!s.is1 (Reg.CRR_CTX_PLAN_EN k)) = true ∨ s.planLen (s.planOff k) ≤ j.idx ∨ (!j.ent.counted) = true ∨ s.ofs ≤ j.ent.ddel ∨
      s.servesCarried j.ent = true ∨ (s.ctx k).late.contains j.idx = true ∨ (s.cxAt (ctxKey k)).st = .halted) := by
    simp [hen, hcount, hserves, hst, Nat.not_le.mpr hlen, Nat.not_le.mpr hddel, -List.contains_eq_mem, hlate]
  have hunder : (s.ctx k).q.any (fun it => it.ent == j.idx && it.closes && it.stream == j.ent.ustream && j.ent.ulen != 0) = false := by
    simp [hulen]
  unfold State.courierDDel
  simp only [hjob, beq_self_eq_true, hcar, Bool.not_false, Bool.and_true, if_true, Option.getD_some]
  simp only [hgo, if_false, hcarry, List.any_nil, Bool.false_or, Bool.and_false, hclosed, hunder, Bool.false_eq_true, false_and, or_false]
  exact State.lateEntry_carries hst hulen hskip

/-! ### Faulted contexts -/

section

variable {s : State} {k : Nat}

theorem State.ctxAction_stopped {cause : Nat} (hst : (s.cxAt (ctxKey k)).st = .stopped cause) :
    s.ctxAction k 2 = (s.setCtx k { s.ctx k with restart := true }).wr (Reg.CRR_CTX_CTL_RESULT k) 1 := by
  rw [State.ctxAction, hst]
  rfl

/-- R290, R313: what an action does to a context that holds a fault. -/
theorem State.ctxAction_fault {code : Nat} (hst : (s.cxAt (ctxKey k)).st = .fault code) (act : Nat) :
    s.ctxAction k act = if act = 2 then s.wr (Reg.CRR_CTX_CTL_RESULT k) 2
      else if s.is1 (Reg.CRR_CTX_FAULT_ABANDONED k) then s.wr (Reg.CRR_CTX_CTL_RESULT k) 3
      else if act = 0 then ((s.setCtx k { s.ctx k with acted := some s.ofs }).setCxAt (ctxKey k)
        { s.cxAt (ctxKey k) with st := .run }).wr (Reg.CRR_CTX_CTL_RESULT k) 1
      else ((s.setCtx k { s.ctx k with acted := some s.ofs }).abandonFault k).wr (Reg.CRR_CTX_CTL_RESULT k) 1 := by
  rw [State.ctxAction, hst]

theorem State.failFault_job (s : State) (k : Nat) : ((s.failFault k).ctx k).job = (s.ctx k).job := by
  rw [State.failFault, State.ctx_setCtx]

theorem State.abandonFault_of_none (hjob : (s.ctx k).job = none) :
    s.abandonFault k = (s.failFault k).setCtx k { (s.failFault k).ctx k with abandoned := true } := by
  simp only [State.abandonFault, State.failFault_job, hjob]

theorem State.abandonFault_of_job {j : Job} (hjob : (s.ctx k).job = some j) (hcar : j.carried = false) :
    s.abandonFault k = (s.failFault k).endWork k := by
  simp only [State.abandonFault, State.failFault_job, hjob, State.stopEntry, hcar, Bool.false_eq_true, if_false]

theorem State.failFault_cx {d : Nat} (hd : (s.ctx k).faultD = some d) : (s.failFault k).cxAt (ctxKey k) =
    { (s.cxAt (ctxKey k)).setS d 0x10 with st := .run, pc := (s.cxAt (ctxKey k)).pc + 1 } := by
  rw [State.failFault, hd]
  exact State.cxAt_setCxAt_self ..

theorem State.ctxCtl_resume {h : Nat} (hh : h = 16 ∨ h = 17) : s.ctxCtl h k true false false = s.ctxAction k 0 := if_neg (by omega)

theorem State.ctxCtl_abandon {h : Nat} (hh : h = 16 ∨ h = 17) : s.ctxCtl h k false true false = s.ctxAction k 1 := if_neg (by omega)

theorem State.ctxCtl_restart {h : Nat} (hh : h = 16 ∨ h = 17) : s.ctxCtl h k false false true = s.ctxAction k 2 := if_neg (by omega)

end

/-- The three actions of CRR_CTX_CTL by the Stage Manager or the BMC. -/
theorem exec_ctxActions {h : Fin 18} {k : Fin 4096} {s : State} (hh : s.halted = false) (h16 : 16 ≤ h.val) :
    exec (.crrResume h k) s = .next (s.ctxAction k.val 0) ∧ exec (.crrAbandon h k) s = .next (s.ctxAction k.val 1) ∧
      exec (.crrRestart h k) s = .next (s.ctxAction k.val 2) := by
  have hserv : h.val = 16 ∨ h.val = 17 := by omega
  change execCrrResume h k s = _ ∧ execCrrAbandon h k s = _ ∧ execCrrRestart h k s = _
  have hnot : ¬(s.halted = true) := by simp [hh]
  rw [execCrrResume, execCrrAbandon, execCrrRestart, if_neg hnot, if_neg hnot, if_neg hnot, State.ctxCtl_resume hserv,
    State.ctxCtl_abandon hserv, State.ctxCtl_restart hserv]
  exact ⟨rfl, rfl, rfl⟩

/-- Settles O39. -/
theorem courierResults : Obligations.CourierResults := by
  refine ⟨?start, ?frame, ?read, ?late, ?retry, ?fault, ?stale, ?restart, ?timeout⟩
  case start =>
    intro k s hh
    dsimp only
    intro hen hst hjob hcarry hlen hok hop hcount hserves hjust hclosed hstart hph hddel hcurtain
    change execDeliver k s = _
    rw [execDeliver, if_neg (by simp [hh]),
      State.startEntry_starts hen hst hjob hcarry hlen hok rfl hop hcount hserves hjust hclosed hstart hph hddel hcurtain]
    rfl
  case frame =>
    intro k s r j hh hjob hst hop htransit hlen hread hown hcond
    dsimp only
    change execFrameEntry k s = _
    have hgo : ¬((s.cxAt (ctxKey k.val)).st ≠ .run ∨ j.ent.op ≠ 1 ∨ j.transit = true) := by simp [hst, hop, htransit]
    rw [execFrameEntry, if_neg (by simp [hh]), hjob]
    dsimp only
    rw [if_neg hgo, State.frameRead_fills hlen hread hown hcond]
  case read =>
    intro k s r j hh hjob hst hop hsent htransit hcomp
    have hx : exec (.courierReadComplete k) s = .next ((s.deliverRead k.val j).issued (.ctx k)) := by
      change execCourierReadComplete k s = _
      have hgo : ¬((s.cxAt (ctxKey k.val)).st ≠ .run ∨ j.ent.op ≠ 0 ∨ j.sent = true ∨ j.transit = true) := by
        simp [hst, hop, hsent, htransit]
      rw [execCourierReadComplete, if_neg (by simp [hh]), hjob]
      dsimp only
      rw [if_neg hgo]
    rw [hx]
    refine ⟨fun hr => ?_, fun hr => ?_, fun hr => ?_, fun code va hr => ?_⟩ <;> rw [State.deliverRead_plain hcomp hr] <;> rfl
  case late =>
    intro k i s j hh hjob hidx hcar hst hen hlen hcount hclosed hlate hcarry hddel hserves hulen hskip
    change execCourierDDel k i s = _
    rw [execCourierDDel, if_neg (by simp [hh]),
      State.courierDDel_carries hjob hidx hcar hst hen hlen hcount hclosed hlate hcarry hddel hserves hulen hskip]
  case retry =>
    intro k s j hh hjob hst htransit hsent
    change execInTransitRetry k s = _
    have hgo : ¬((s.cxAt (ctxKey k.val)).st ≠ .run ∨ (!j.transit) = true ∨ j.sent = true) := by simp [hst, htransit, hsent]
    rw [execInTransitRetry, if_neg (by simp [hh]), hjob]
    dsimp only
    rw [if_neg hgo]
  case fault =>
    intro h k s code hh h16 hst hab
    obtain ⟨hresume, habandon, hrestart⟩ := exec_ctxActions hh h16
    dsimp only
    rw [hresume, habandon, hrestart]
    simp only [State.ctxAction_fault hst, hab, Bool.false_eq_true, if_false, if_true, Nat.reduceEqDiff, Nat.one_ne_zero]
    refine ⟨trivial, trivial, fun j hjob hcar => ?_, fun hjob => ?_, fun d hd => ?_⟩
    · rw [State.abandonFault_of_job (by rw [State.ctx_setCtx, hjob]) hcar]
    · rw [State.abandonFault_of_none (by rw [State.ctx_setCtx, hjob])]
    · exact State.failFault_cx (by rw [State.ctx_setCtx, hd])
  case stale =>
    intro h k s code hh h16 hst hab
    obtain ⟨hresume, habandon, -⟩ := exec_ctxActions (k := k) hh h16
    rw [hresume, habandon]
    simp [State.ctxAction_fault hst, hab]
  case restart =>
    intro h k s cause hh h16 hst
    obtain ⟨-, -, hrestart⟩ := exec_ctxActions (k := k) hh h16
    rw [hrestart, State.ctxAction_stopped hst]
  case timeout =>
    intro k s code hh hst hph hen hlim hwait
    change execPoolFaultTimeout k s = _
    rw [execPoolFaultTimeout, if_neg (by simp [hh])]
    simp only [hst]
    rw [if_pos ⟨hph, by simp [hen], hlim, hwait⟩]

end Sys2Proof.Machine
end
section
/-!
PROOFS. Table walks and invalidations of the TLBs (R304, R309, R310, R312, R314, R315).
-/

namespace Sys2Proof.Machine

/-! ### Invalidations -/

/-- R314: the fields of XLT_TLBI_CTL that a command leaves. -/
def State.tlbiPut (s : State) (p count op : Nat) : State :=
  ((s.wr Reg.XLT_TLBI_CTL_COUNT count).wr Reg.XLT_TLBI_CTL_PARTITION p).wr Reg.XLT_TLBI_CTL_OP op

/-- R314, R315: an invalidation of the entries that satisfy a test. -/
def State.tlbiDrop (s : State) (p : Tlb → Bool) : State := ((s.drainOn p).dropTlb p).wr Reg.XLT_TLBI_CTL_BUSY 1

/-- R314: the entries an operation names. -/
def tlbiNames (op p a count : Nat) (e : Tlb) : Bool :=
  op == 0 || (e.part == p && (op == 1 || (op == 2 && decide (e.va < a + 65536 * count) && decide (a < e.va + e.size)) ||
    (op == 3 && decide (e.leaf < a + 65536 * count) && decide (a < e.leaf + e.leafSize))))

theorem State.tlbiPut_rd (s : State) (p count op : Nat) {f : Fld} (h1 : Reg.XLT_TLBI_CTL_COUNT.key ≠ f.key)
    (h2 : Reg.XLT_TLBI_CTL_PARTITION.key ≠ f.key) (h3 : Reg.XLT_TLBI_CTL_OP.key ≠ f.key) : (s.tlbiPut p count op).rd f = s.rd f := by
  rw [State.tlbiPut, State.rd_wr_ne _ _ h3, State.rd_wr_ne _ _ h2, State.rd_wr_ne _ _ h1]

/-- R20, R314: how an invalidation of a listed operation is decided, in the order of its checks. -/
theorem State.tlbi_eq {s : State} {h op p count : Nat} (hh : h = 16 ∨ h = 17) (hbusy : s.is1 Reg.XLT_TLBI_CTL_BUSY = false) (hop : op < 4) :
    s.tlbi h op p count =
      if op = 3 ∧ 2 ^ 53 ≤ s.rd Reg.XLT_TLBI_ADDR_ADDR * 65536 then (s.tlbiPut p count op).wr Reg.XLT_TLBI_CTL_RESULT 2
      else if 2 ≤ op ∧ count = 0 then ((s.tlbiPut p count op).wr Reg.XLT_TLBI_CTL_RESULT 1).raise 74
      else (s.tlbiPut p count op).tlbiDrop (tlbiNames op p (s.rd Reg.XLT_TLBI_ADDR_ADDR * 65536) count) := by
  have hserv : ¬(h ≠ 16 ∧ h ≠ 17) := by omega
  have haddr := s.tlbiPut_rd p count op (f := Reg.XLT_TLBI_ADDR_ADDR) (by decide) (by decide) (by decide)
  have hidle : (s.tlbiPut p count op).is1 Reg.XLT_TLBI_CTL_BUSY = false := by
    rw [State.is1, State.tlbiPut_rd _ _ _ _ (by decide) (by decide) (by decide)]
    exact hbusy
  have hlisted : (4 ≤ op ∨ (op = 3 ∧ 2 ^ 53 ≤ s.rd Reg.XLT_TLBI_ADDR_ADDR * 65536)) ↔
      (op = 3 ∧ 2 ^ 53 ≤ s.rd Reg.XLT_TLBI_ADDR_ADDR * 65536) := by omega
  rw [State.tlbi, if_neg hserv]
  simp only [hop, if_true]
  change (if (s.tlbiPut p count op).is1 Reg.XLT_TLBI_CTL_BUSY = true then _ else
    if 4 ≤ op ∨ (op = 3 ∧ 2 ^ 53 ≤ (s.tlbiPut p count op).rd Reg.XLT_TLBI_ADDR_ADDR * 65536) then _ else if _ then _ else
      (s.tlbiPut p count op).tlbiDrop (tlbiNames op p ((s.tlbiPut p count op).rd Reg.XLT_TLBI_ADDR_ADDR * 65536) count)) = _
  rw [if_neg (by simp [hidle]), haddr]
  simp only [hlisted]
  rfl

theorem tlbiNames_all (p a count : Nat) : tlbiNames 0 p a count = fun _ => true := rfl

theorem tlbiNames_part (p a count : Nat) : tlbiNames 1 p a count = fun e => e.part == p := by
  funext e
  simp [tlbiNames]

theorem tlbiNames_va (p a count : Nat) : tlbiNames 2 p a count =
    fun e => e.part == p && (decide (e.va < a + 65536 * count) && decide (a < e.va + e.size)) := by
  funext e
  simp [tlbiNames]

theorem tlbiNames_ipa (p a count : Nat) : tlbiNames 3 p a count =
    fun e => e.part == p && (decide (e.leaf < a + 65536 * count) && decide (a < e.leaf + e.leafSize)) := by
  funext e
  simp [tlbiNames]

/-! ### Walks -/

/-- R310, R312: a fault that one access alone waits for goes to it. -/
theorem State.walkFault_single {s : State} {w : Walk} {f : XFault} {own : Nat} {x : XWait} (hwaits : s.xlt.waits = [(own, x)])
    (hpart : x.part = w.part) (hlo : w.lo ≤ x.va) (hhi : x.va < w.lo + w.size) (hres : x.res = none) :
    s.walkFault w f =
      let a := s.logFault w.part x.src x.va x.write f
      if x.src < 65536 ∨ f.status ≠ 0x10 then
        { a with xlt := { a.xlt with waits := a.xlt.waits.insert own { x with res := some f.status } } }
      else ({ a with xlt := { a.xlt with waits := a.xlt.waits.erase own } }).ctxFault (x.src - 65536) x.va x.write f.status := by
  have hmine : (s.xlt.waits.filter (fun _ (x : XWait) =>
      x.part == w.part && decide (w.lo ≤ x.va) && decide (x.va < w.lo + w.size) && x.res.isNone)) = [(own, x)] := by
    simp [hwaits, SMap.filter, hpart, hlo, hhi, hres]
  rw [State.walkFault, hmine]
  rfl

/-- Settles O40. -/
theorem translationResults : Obligations.TranslationResults := by
  refine ⟨?walk, ?fault, ?tlbi, ?complete⟩
  case walk =>
    intro n s w hh hw
    dsimp only
    change (∀ e, _ → execTableReadComplete n s = _) ∧ (∀ f, _ → execTableReadComplete n s = _) ∧
      (∀ slot, _ → (_ → execTableReadComplete n s = _) ∧ (∀ a, _ → (∀ next, _ → execTableReadComplete n s = _) ∧
        (∀ e, _ → execTableReadComplete n s = _) ∧ (∀ f, _ → execTableReadComplete n s = _)))
    rw [execTableReadComplete, if_neg (by simp [hh]), hw]
    refine ⟨fun e he => by simp only [he], fun f hf => by simp only [hf], fun slot hneed => ⟨fun hnone => ?_, fun a ha => ?_⟩⟩
    · simp only [hneed, hnone]
    · simp only [hneed, ha]
      refine ⟨fun next hnext => by simp only [hnext], fun e he => by simp only [he], fun f hf => by simp only [hf]⟩
  case fault =>
    intro s w f own x hwaits hpart hlo hhi hres
    dsimp only
    rw [State.walkFault_single hwaits hpart hlo hhi hres]
    refine ⟨fun hstat => ?_, fun hsrc hstat => ?_⟩
    · exact if_pos hstat
    · have hctx : ¬(x.src < 65536 ∨ f.status ≠ 0x10) := by omega
      dsimp only
      rw [if_neg hctx, hstat]
  case tlbi =>
    intro h s hh h16 hbusy
    have hserv : h.val = 16 ∨ h.val = 17 := by omega
    dsimp only
    refine ⟨?_, fun p => ?_, fun p n hn => ?_, fun p n hn ha => ?_, fun p => ?_, fun p n ha => ?_⟩
    · change execTlbiAll h s = _
      rw [execTlbiAll, if_neg (by simp [hh]), State.tlbi_eq hserv hbusy (by decide), if_neg (by omega), if_neg (by omega), tlbiNames_all]
      rfl
    · change execTlbiPart h p s = _
      rw [execTlbiPart, if_neg (by simp [hh]), State.tlbi_eq hserv hbusy (by decide), if_neg (by omega), if_neg (by omega), tlbiNames_part]
      rfl
    · change execTlbiVa h p n s = _
      rw [execTlbiVa, if_neg (by simp [hh]), State.tlbi_eq hserv hbusy (by decide), if_neg (by omega), if_neg (by omega), tlbiNames_va]
      rfl
    · change execTlbiIpa h p n s = _
      rw [execTlbiIpa, if_neg (by simp [hh]), State.tlbi_eq hserv hbusy (by decide), if_neg (by omega), if_neg (by omega), tlbiNames_ipa]
      rfl
    · change execTlbiVa h p 0 s = _
      rw [execTlbiVa, if_neg (by simp [hh]), State.tlbi_eq hserv hbusy (by decide), if_neg (by omega), if_pos ⟨by decide, rfl⟩]
      rfl
    · change execTlbiIpa h p n s = _
      rw [execTlbiIpa, if_neg (by simp [hh]), State.tlbi_eq hserv hbusy (by decide), if_pos ⟨rfl, ha⟩]
      rfl
  case complete =>
    intro s hh hbusy hdrain
    change execTlbiComplete s = _
    rw [execTlbiComplete, if_neg (by simp [hh]), if_pos ⟨hbusy, by simp [hdrain]⟩]

end Sys2Proof.Machine
end
section
/-!
PROOFS. Hints, loans, mirrors, channel failures and wrong bits of the store (R239 to R259, R449 to R451).
-/

namespace Sys2Proof.Machine

/-! ### Hints -/

/-- R239: the fields of STM_HINT_CMD that a command leaves. -/
def State.hintPut (s : State) (first count hint : Nat) (mirror : Bool) : State :=
  (((s.wr Reg.STM_HINT_UNIT_FIRST first).wr Reg.STM_HINT_CMD_COUNT count).wr Reg.STM_HINT_CMD_HINT hint).wr Reg.STM_HINT_CMD_MIRROR (b2n mirror)

section

variable (s : State) {first count hint : Nat} (mirror : Bool)

theorem State.hintPut_first (hf : first < 2 ^ 29) : (s.hintPut first count hint mirror).rd Reg.STM_HINT_UNIT_FIRST = first := by
  rw [State.hintPut, State.rd_wr_ne _ _ (by decide), State.rd_wr_ne _ _ (by decide), State.rd_wr_ne _ _ (by decide), State.rd_wr_self]
  exact Nat.mod_eq_of_lt hf

theorem State.hintPut_count (hc : count < 2 ^ 29) : (s.hintPut first count hint mirror).rd Reg.STM_HINT_CMD_COUNT = count := by
  rw [State.hintPut, State.rd_wr_ne _ _ (by decide), State.rd_wr_ne _ _ (by decide), State.rd_wr_self]
  exact Nat.mod_eq_of_lt hc

theorem State.hintPut_hint (hh : hint < 2 ^ 3) : (s.hintPut first count hint mirror).rd Reg.STM_HINT_CMD_HINT = hint := by
  rw [State.hintPut, State.rd_wr_ne _ _ (by decide), State.rd_wr_self]
  exact Nat.mod_eq_of_lt hh

theorem State.hintPut_mirror : (s.hintPut first count hint mirror).is1 Reg.STM_HINT_CMD_MIRROR = mirror := by
  rw [State.is1, State.hintPut, State.rd_wr_self]
  cases mirror <;> rfl

theorem State.hintPut_rd {f : Fld} (h1 : Reg.STM_HINT_UNIT_FIRST.key ≠ f.key) (h2 : Reg.STM_HINT_CMD_COUNT.key ≠ f.key)
    (h3 : Reg.STM_HINT_CMD_HINT.key ≠ f.key) (h4 : Reg.STM_HINT_CMD_MIRROR.key ≠ f.key) :
    (s.hintPut first count hint mirror).rd f = s.rd f := by
  rw [State.hintPut, State.rd_wr_ne _ _ h4, State.rd_wr_ne _ _ h3, State.rd_wr_ne _ _ h2, State.rd_wr_ne _ _ h1]

end

/-- R20, R239: how GO of a hint is decided, in the order of its checks. -/
theorem State.goHint_hintPut {s : State} {h first count hint : Nat} {mirror : Bool} (hh : h = 16 ∨ h = 17)
    (hbusy : s.is1 Reg.STM_HINT_CMD_BUSY = false) (hf : first < 2 ^ 29) (hc : count < 2 ^ 29) (hhint : hint < 2 ^ 3) :
    (s.hintPut first count hint mirror).goHint h =
      if 5 ≤ hint then (s.hintPut first count hint mirror).wr Reg.STM_HINT_CMD_RESULT 4
      else if count = 0 then (s.hintPut first count hint mirror).wr Reg.STM_HINT_CMD_RESULT 1
      else if s.rd Reg.STM_SIZE_UNITS < first + count then (s.hintPut first count hint mirror).wr Reg.STM_HINT_CMD_RESULT 2
      else (((s.hintPut first count hint mirror).wr Reg.STM_HINT_CMD_BUSY 1).wr Reg.STM_HINT_CMD_RESULT 0 |>.setJob
        { next := first, stop := first + count, hint := hint, mirror := mirror }).hintSettle := by
  have hfirst := s.hintPut_first (count := count) (hint := hint) mirror hf
  have hcount := s.hintPut_count (first := first) (hint := hint) mirror hc
  have hhint := s.hintPut_hint (first := first) (count := count) mirror hhint
  have hmirror : State.is1 (((s.hintPut first count hint mirror).wr Reg.STM_HINT_CMD_BUSY 1).wr Reg.STM_HINT_CMD_RESULT 0)
      Reg.STM_HINT_CMD_MIRROR = mirror := by
    rw [State.is1_wr_ne _ _ (by decide), State.is1_wr_ne _ _ (by decide), State.hintPut_mirror]
  have hunits : (s.hintPut first count hint mirror).rd Reg.STM_SIZE_UNITS = s.rd Reg.STM_SIZE_UNITS :=
    s.hintPut_rd mirror (by decide) (by decide) (by decide) (by decide)
  have hidle : (s.hintPut first count hint mirror).is1 Reg.STM_HINT_CMD_BUSY = s.is1 Reg.STM_HINT_CMD_BUSY :=
    congrArg (· == 1) (s.hintPut_rd mirror (by decide) (by decide) (by decide) (by decide))
  have hgo : ¬((h ≠ 16 ∧ h ≠ 17) ∨ (s.hintPut first count hint mirror).is1 Reg.STM_HINT_CMD_BUSY = true) := by
    rcases hh with rfl | rfl <;> simp [hidle, hbusy]
  rw [State.goHint, if_neg hgo]
  simp only [hfirst, hcount, hhint, hmirror, hunits]

/-! ### Loans -/

section

variable {s : State} {i : Nat}

theorem Reg.STM_LOFT_RESULT_key_ne_LOG2 : Reg.STM_LOFT_CMD_RESULT.key ≠ (Reg.STM_LEND_LOG2 i).key := by
  simp only [Fld.key, Reg.STM_LOFT_CMD_RESULT, Reg.STM_LEND_LOG2]
  omega

theorem Reg.STM_LOFT_RESULT_key_ne_LENDER : Reg.STM_LOFT_CMD_RESULT.key ≠ (Reg.STM_BORROW_LENDER i).key := by
  simp only [Fld.key, Reg.STM_LOFT_CMD_RESULT, Reg.STM_BORROW_LENDER]
  omega

theorem Reg.STM_LEND_keys_ne_BORROWER : (Reg.STM_LEND_STATE i).key ≠ (Reg.STM_LEND_BORROWER i).key ∧
    (Reg.STM_LEND1_END_CUE i).key ≠ (Reg.STM_LEND_BORROWER i).key ∧ Reg.STM_LOFT_CMD_RESULT.key ≠ (Reg.STM_LEND_BORROWER i).key := by
  simp only [Fld.key, Reg.STM_LOFT_CMD_RESULT, Reg.STM_LEND_STATE, Reg.STM_LEND1_END_CUE, Reg.STM_LEND_BORROWER]
  omega

theorem Reg.STM_LEND_keys_ne_WINDOW : (Reg.STM_LEND_STATE i).key ≠ (Reg.STM_LEND_WINDOW i).key ∧
    (Reg.STM_LEND1_END_CUE i).key ≠ (Reg.STM_LEND_WINDOW i).key ∧ Reg.STM_LOFT_CMD_RESULT.key ≠ (Reg.STM_LEND_WINDOW i).key := by
  simp only [Fld.key, Reg.STM_LOFT_CMD_RESULT, Reg.STM_LEND_STATE, Reg.STM_LEND1_END_CUE, Reg.STM_LEND_WINDOW]
  omega

theorem State.loftCmd_lend (hok : s.lendOk i = true) (hlive : s.liveMember (s.rd (Reg.STM_LEND_BORROWER i)) = true) :
    s.loftCmd 16 1 i 0 = (State.wr { s with store := { s.store with lendWait := s.store.lendWait ++ [i] } } Reg.STM_LOFT_CMD_RESULT 0).fabMsg
      0x0F (s.rd (Reg.STM_LEND_BORROWER i)) 0 [(1, 1), (i, 1), (s.rd (Reg.STM_LEND_LOG2 i), 1)] := by
  simp only [State.loftCmd, hok, hlive, ne_eq, not_true_eq_false, if_false, if_true, Bool.not_true, Bool.false_eq_true]
  rw [State.rd_wr_ne _ _ Reg.STM_LOFT_RESULT_key_ne_LOG2]
  rfl

theorem State.loftCmd_lend_dead (hok : s.lendOk i = true) (hlive : s.liveMember (s.rd (Reg.STM_LEND_BORROWER i)) = false) :
    s.loftCmd 16 1 i 0 = s.wr Reg.STM_LOFT_CMD_RESULT 2 := by
  simp only [State.loftCmd, hok, hlive, ne_eq, not_true_eq_false, if_false, if_true, Bool.not_true, Bool.false_eq_true, Bool.not_false]

theorem State.loftCmd_notice (hst : s.rd (Reg.STM_LEND_STATE i) = 1 ∨ s.rd (Reg.STM_LEND_STATE i) = 2) {c : Nat} (hc : s.cueNow + 50 ≤ c) :
    s.loftCmd 16 2 i c = (((s.wr (Reg.STM_LEND_STATE i) 2).wr (Reg.STM_LEND1_END_CUE i) c).wr Reg.STM_LOFT_CMD_RESULT 1).fabMsg
      0x0F (s.rd (Reg.STM_LEND_BORROWER i)) 0 [(3, 1), (s.rd (Reg.STM_LEND_WINDOW i), 1), (c, 6)] := by
  have hlent : ¬(s.rd (Reg.STM_LEND_STATE i) ≠ 1 ∧ s.rd (Reg.STM_LEND_STATE i) ≠ 2) := by omega
  obtain ⟨hb1, hb2, hb3⟩ := Reg.STM_LEND_keys_ne_BORROWER (i := i)
  obtain ⟨hw1, hw2, hw3⟩ := Reg.STM_LEND_keys_ne_WINDOW (i := i)
  rw [State.loftCmd, if_neg (by decide), if_neg (by decide), if_pos rfl]
  dsimp only
  rw [if_neg hlent, if_neg (Nat.not_lt.mpr hc)]
  rw [State.rd_wr_ne _ _ hb3, State.rd_wr_ne _ _ hb2, State.rd_wr_ne _ _ hb1, State.rd_wr_ne _ _ hw3, State.rd_wr_ne _ _ hw2,
    State.rd_wr_ne _ _ hw1]

theorem State.loftCmd_release (hst : s.rd (Reg.STM_BORROW_STATE i) = 1 ∨ s.rd (Reg.STM_BORROW_STATE i) = 2)
    (hnone : (s.store.borrowEnd.find? i).isNone = true) :
    s.loftCmd 16 3 i 0 = (State.wr { s with store := { s.store with borrowEnd := s.store.borrowEnd.insert i s.cueNow } }
      Reg.STM_LOFT_CMD_RESULT 1).fabMsg 0x0F (s.rd (Reg.STM_BORROW_LENDER i)) 0 [(4, 1), (s.store.borrowEntry.getD i 0, 1)] := by
  have hlent : ¬((s.rd (Reg.STM_BORROW_STATE i) ≠ 1 ∧ s.rd (Reg.STM_BORROW_STATE i) ≠ 2) ∨ (s.store.borrowEnd.find? i).isSome = true) := by
    rw [Option.isNone_iff_eq_none] at hnone
    rw [hnone, Option.isSome_none, Bool.false_eq_true, or_false]
    omega
  rw [State.loftCmd, if_neg (by decide), if_neg (by decide), if_neg (by decide), if_pos rfl]
  dsimp only
  rw [if_neg hlent, State.rd_wr_ne _ _ Reg.STM_LOFT_RESULT_key_ne_LENDER]
  rfl

theorem State.loanOver_state {st c : Fld} {q : Option Nat} (h : s.rd st = 2) (hc : s.rd c ≤ s.cueNow) : s.loanOver st c q = true := by
  simp [State.loanOver, h, hc]

theorem State.loanOver_released {st e : Fld} {c : Nat} (h : c < s.cueNow) : s.loanOver st e (some c) = true := by
  simp [State.loanOver, h]

end

/-! ### Channels -/

section

variable {s : State} {ch : Nat}

theorem chField_key_ne {f : Fld} (hf : 0x200040 * 64 ≤ f.key) : (chField ch).key ≠ f.key := by
  have hlt : (chField ch).key < 0x200040 * 64 := by
    simp only [Fld.key, chField]
    split <;> omega
  omega

/-- R249: the first failure of a channel whose neighbours are sound. -/
theorem State.channelFailed_first {rows done : Nat} (hfails : s.store.fails.getD ch 0 = 0) (hst : s.chState ch ≠ 4)
    (hbeside : s.failedBeside ch = []) :
    s.channelFailed ch rows done = (State.raise { s with store := { s.store with
      fails := s.store.fails.setD ch 0 rows
      flips := s.store.flips.filter (fun c _ => !(s.inOwn (8 * c) && wingsChannel (8 * c) == ch &&
        rows &&& s.rowMask (wingsStripe (8 * c)) != 0 && (s.store.units.getD (8 * c / 65536) {}).frame.isNone)) } } 56).startRebuild ch := by
  simp only [State.channelFailed, hst, if_false, hfails, Nat.zero_or, hbeside, List.isEmpty_nil, if_true]

end

/-- Settles O41. -/
theorem storeResults : Obligations.StoreResults := by
  refine ⟨?hint, ?migrate, ?stageOnly, ?lend, ?notice, ?release, ?msg, ?loanEnd, ?zeroed, ?failed, ?rebuilt, ?mirror, ?scrub, ?scrubOther,
    ?window⟩
  case hint =>
    intro h first count hint mirror s hh h16 hbusy
    have hgo : exec (.stmHintGo h first count hint mirror) s =
        .next ((s.hintPut first.toNat count.toNat hint.val mirror).goHint h.val) := by
      change execStmHintGo h first count hint mirror s = _
      rw [execStmHintGo, if_neg (by simp [hh]), if_neg (by omega)]
      rfl
    rw [hgo, State.goHint_hintPut (by omega) hbusy first.isLt count.isLt hint.isLt]
    refine ⟨fun h5 hc hunits => ?_, fun h5 => ?_, fun h5 hc => ?_⟩
    · rw [if_neg (Nat.not_le.mpr h5), if_neg hc, if_neg (Nat.not_lt.mpr hunits)]
      rfl
    · rw [if_pos h5]
      rfl
    · rw [if_neg (Nat.not_le.mpr h5), if_pos hc]
      rfl
  case migrate =>
    intro u s hh hrate
    refine ⟨fun f hf => ?_, fun hf => ?_⟩
    · change execMigrationComplete u s = _
      simp only [execMigrationComplete, hh, Bool.false_eq_true, if_false, hrate, hf]
    · change execMigrationComplete u s = _
      simp only [execMigrationComplete, hh, Bool.false_eq_true, if_false, hrate, hf]
  case stageOnly =>
    intro s hh hvac
    change execStageOnlyZeroed s = _
    rw [execStageOnlyZeroed, if_neg (by simp [hh]), if_neg (by simp [hvac])]
  case lend =>
    intro h i s hh h16 hok
    have hx : exec (.lend h i) s = .next (s.loftCmd 16 1 i.val 0) := by
      change execLend h i s = _
      rw [execLend, if_neg (by simp [hh]), h16]
    dsimp only
    rw [hx]
    exact ⟨fun hlive => by rw [State.loftCmd_lend hok hlive], fun hlive => by rw [State.loftCmd_lend_dead hok hlive]⟩
  case notice =>
    intro h i c s hh h16 hst hc
    change execNotice h i c s = _
    rw [execNotice, if_neg (by simp [hh]), h16, State.loftCmd_notice hst hc]
  case release =>
    intro h w s hh h16 hst hnone
    change execRelease h w s = _
    rw [execRelease, if_neg (by simp [hh]), h16, State.loftCmd_release hst hnone]
  case msg =>
    intro src s hdeaf
    change (∀ i log2 w, _ → execLoanMsg src (.offer i log2) s = _) ∧ (∀ i w, _ → _ → execLoanMsg src (.reply i (some w)) s = _) ∧
      (∀ w c, _ → _ → execLoanMsg src (.notice w c) s = _) ∧ (∀ i, _ → _ → _ → execLoanMsg src (.release i) s = _)
    simp only [execLoanMsg, hdeaf, Bool.false_eq_true, if_false]
    refine ⟨fun i log2 w hw => by simp only [hw]; rfl, fun i w hwait hsrc => ?_, fun w c hst hsrc => if_pos ⟨hst, hsrc⟩,
      fun i hst hsrc hnone => if_pos ⟨hst, hsrc, hnone⟩⟩
    exact if_neg (by simp [-List.contains_eq_mem, hwait, hsrc])
  case loanEnd =>
    intro i s hh hph
    change (_ → _ → execLoanEnd true i s = _) ∧ (∀ c, _ → _ → execLoanEnd true i s = _) ∧ (_ → _ → execLoanEnd false i s = _) ∧
      (∀ c, _ → _ → execLoanEnd false i s = _)
    simp only [execLoanEnd, hh, Bool.false_eq_true, if_false, hph, ne_eq, not_true_eq_false, if_true]
    refine ⟨fun hst hc => ?_, fun c hc hlt => ?_, fun hst hc => ?_, fun c hc hlt => ?_⟩
    · rw [if_pos (State.loanOver_state hst hc)]
    · rw [hc, if_pos (State.loanOver_released hlt)]
    · rw [if_pos (State.loanOver_state hst hc)]
    · rw [hc, if_pos (State.loanOver_released hlt)]
  case zeroed =>
    intro i s hh hst hrate
    change execLoanZeroingDone i s = _
    rw [execLoanZeroingDone, if_neg (by simp [hh]), if_pos ⟨hst, hrate⟩]
  case failed =>
    intro ch half done s hh hfails hst hbeside
    dsimp only
    change execChannelFailed ch half done s = _
    have hrows : (if s.rd Reg.STM_WINGS_POP = 2 ∧ half.val ≠ 0 then half.val else 3) ≠ 0 := by split <;> omega
    rw [execChannelFailed, if_neg (by simp [hh])]
    dsimp only
    have hmore : ¬(s.store.fails.getD ch.val 0 ||| (if s.rd Reg.STM_WINGS_POP = 2 ∧ half.val ≠ 0 then half.val else 3) =
        s.store.fails.getD ch.val 0 ∧ s.chState ch.val ≠ 4) := by
      rw [hfails, Nat.zero_or]
      exact fun h => hrows h.1
    rw [if_neg hmore, State.channelFailed_first hfails hst hbeside]
  case rebuilt =>
    intro ch s hh hshare hch
    refine ⟨fun hst => ?_, fun hst => ?_⟩
    · have hnext : (State.setRebuild (s.wr (chField ch.val) 3) ch.val
          { did := [((s.wr (chField ch.val) 3).firstFailed ch.val, (s.wr (chField ch.val) 3).endFailed ch.val)] }).rd
            Reg.STM_REBUILD_CHANNEL = ch.val := (State.rd_wr_ne s 3 (chField_key_ne (by decide))).trans hch
      change execRebuildComplete ch s = _
      rw [execRebuildComplete, if_neg (by simp [hh]), if_pos ⟨hst, hshare⟩]
      dsimp only
      rw [if_pos hnext]
    · have hnext : (s.wr (chField ch.val) 0).rd Reg.STM_REBUILD_CHANNEL = ch.val :=
        (State.rd_wr_ne s 0 (chField_key_ne (by decide))).trans hch
      change execCopybackComplete ch s = _
      rw [execCopybackComplete, if_neg (by simp [hh]), if_pos ⟨hst, hshare⟩]
      exact congrArg Host.Outcome.next (if_pos hnext)
  case mirror =>
    intro src id u step s hdeaf hans
    change (∀ i x m, _ → execMirrorWr src id u step (.line i x m) s = _) ∧ (∀ i x m, _ → execMirrorWr src id u step (.line i x m) s = _) ∧
      (∀ bs m, _ → execMirrorWr src id u step (.whole bs m) s = _)
    simp only [execMirrorWr, hdeaf, Bool.false_eq_true, if_false, hans]
    refine ⟨fun i x m hu => if_pos hu, fun i x m hu => if_neg (Bool.eq_false_iff.mp hu), fun bs m hu => if_neg ?_⟩
    rcases hu with hu | hu
    · simp [-List.contains_eq_mem, hu]
    · simp [hu]
  case scrub =>
    intro off cw bits s hh hown
    dsimp only
    change execScrub (.store off) cw bits s = _
    rw [execScrub, if_neg (by simp [hh])]
    simp only [State.scrubStore, hown, Bool.not_true, Bool.false_eq_true, false_and, if_false]
  case scrubOther =>
    intro cw bits s hh
    change (∀ addr, _ → execScrub (.sram addr) cw bits s = _) ∧ (_ → ∀ f, execScrub (.book f) cw bits s = _) ∧
      (_ → ∀ line, _ → _ → execScrub (.dir line) cw bits s = _)
    simp only [execScrub, hh, Bool.false_eq_true, if_false]
    refine ⟨fun addr ha => ?_, fun hbits f => ?_, fun hbits line hline hbad => ?_⟩
    · rw [if_neg (Nat.not_le.mpr ha)]
    · rw [if_neg (by omega), if_neg (by omega)]
    · rw [if_neg (by omega), if_neg (by omega)]
      simp only [hbad, Bool.false_eq_true, if_false]
  case window =>
    intro s hh
    change execErrorWindowStart s = _
    rw [execErrorWindowStart, if_neg (by simp [hh])]
    split <;> rfl

end Sys2Proof.Machine
end
section
/-!
PROOFS. Requests at the home of a line (R343, R355 to R357).
-/

namespace Sys2Proof.Machine

section

variable {s t : State} {l : Nat} {q : CReq}

theorem State.request_stable (hst : (s.dirAt l).st < 4) (hq : (s.dirAt l).queue = []) : s.request l q = (s.serve l q).homeDone l :=
  if_neg (by simp [hq, Nat.not_le.mpr hst])

theorem State.request_waits (hst : 4 ≤ (s.dirAt l).st) :
    s.request l q = s.setDir l { s.dirAt l with queue := (s.dirAt l).queue ++ [q] } :=
  if_pos (.inl hst)

/-- R343: a command whose effect is a request at the home is served at once, or waits its turn. -/
theorem served_of_request {c : Instr} (hx : exec c s = .next (t.request l q)) :
    ((t.dirAt l).st < 4 → (t.dirAt l).queue = [] → exec c s = .next ((t.serve l q).homeDone l)) ∧
      (4 ≤ (t.dirAt l).st → exec c s = .next (t.setDir l { t.dirAt l with queue := (t.dirAt l).queue ++ [q] })) := by
  rw [hx]
  exact ⟨fun hst hq => by rw [State.request_stable hst hq], fun hst => by rw [State.request_waits hst]⟩

theorem State.reqArrive_of_taken {code a part : Nat} {m : CMsg}
    (h : s.takeMsg { code := code, src := a, dst := homeNode l, line := l, part := part } = some (t, m)) :
    s.reqArrive code a l part = t.request l { kind := code, r := a, part := m.part } := by
  simp only [State.reqArrive, h]

end

/-- R355: data of the tier for a request of an agent whose line has a copy of the data to wait for. -/
theorem State.tierReturn_eq {s r : State} {l st : Nat} {q : CReq} {x : BitVec 512 × Nat} (hdata : s.tierData l = (r, some (st, x)))
    (hreq : (r.dirAt l).req = some q) (hq : q.r < 25) :
    s.tierReturn l =
      if (r.dirAt l).st = 8 ∨ (r.dirAt l).st = 16 then
        if st ≠ 0 ∧ q.tk ≠ 0 then (r.setDir l ({ r.dirAt l with tier := false } : DirEnt).settle).answer l q st (0, 0)
        else r.finish l { r.dirAt l with tier := false } q x
      else if (r.dirAt l).st = 9 then
        if (r.dirAt l).acks = 0 then
          r.finish l (if bitOf (r.dirAt l).sharers q.r ∧ q.kind = 3 then { r.dirAt l with tier := false, rcd := some x }
            else { r.dirAt l with tier := false, rcd := some x, sharers := 0, fh := none, owner := none }) q x
        else r.setDir l { r.dirAt l with tier := false, rcd := some x }
      else r := by
  have hnear : ¬((decide (0x20 < st) && decide (st ≤ 0x23) && decide (25 ≤ q.r) && decide (q.r ≤ 32)) = true) := by
    simp [Nat.not_le.mpr hq]
  simp only [State.tierReturn, hdata, hreq, hnear, if_false, Bool.false_eq_true]

/-- Settles O42. -/
theorem homeRequestResults : Obligations.HomeRequestResults := by
  refine ⟨?request, ?data, ?finish⟩
  case request =>
    intro line s t hh
    dsimp only
    have hnot : ¬(s.halted = true) := by simp [hh]
    refine ⟨fun a p m => ⟨fun hm => ?_, fun hm => ?_, fun hm => ?_⟩, fun hts => ⟨fun r p => ⟨?_, fun x m => ?_, fun m x => ?_⟩, ?_⟩⟩
    · refine served_of_request (Eq.trans (if_neg hnot) (congrArg Host.Outcome.next (State.reqArrive_of_taken hm)))
    · refine served_of_request (Eq.trans (if_neg hnot) (congrArg Host.Outcome.next (State.reqArrive_of_taken hm)))
    · refine served_of_request (Eq.trans (if_neg hnot) (congrArg Host.Outcome.next (State.reqArrive_of_taken hm)))
    · subst hts
      exact served_of_request (if_neg hnot)
    · subst hts
      exact served_of_request (if_neg hnot)
    · subst hts
      exact served_of_request (if_neg hnot)
    · subst hts
      intro r p off op w8 ta rm srw opnd cmp hr hoff
      have hmay : ¬(off.val % (if op.val = 8 then 16 else if w8 = true then 8 else 4) ≠ 0 ∨ (25 ≤ r.val ∧ r.val < 33)) := by omega
      have hremote : ¬(r.val = 37 ∧ (!atomRemoteOk op.val ta.val) = true) := by
        rintro ⟨h37, hbad⟩
        rcases hr with h | h | ⟨-, hok⟩
        · omega
        · omega
        · simp [hok] at hbad
      exact served_of_request ((if_neg hnot).trans ((if_neg hmay).trans (if_neg hremote)))
  case data =>
    intro line s r q st x hh
    dsimp only
    intro htier hdata hreq hq
    have hx : exec (.tierDataReturn line) s = .next ((s.tierReturn line.toNat).homeDone line.toNat) := by
      change execTierDataReturn line s = _
      rw [execTierDataReturn, if_neg (by simp [hh]), if_neg (by simp [htier])]
    rw [hx, State.tierReturn_eq hdata hreq hq]
    refine ⟨fun hd hst => ?_, fun hd hacks => ?_⟩
    · rw [if_pos hd, if_neg (by omega)]
    · rw [if_neg (by omega), if_pos hd, if_neg hacks]
  case finish =>
    intro s l d q x
    dsimp only
    refine ⟨rfl, rfl, rfl, fun hk hd => ?_, fun hk hd => ?_, fun hk => ?_, fun hk hb => ?_, fun hk hb => ?_, fun hk => ?_, fun hk => ?_,
      fun hk => ?_⟩
    · simp only [State.finish, hk, if_true, hd]
    · simp only [State.finish, hk, if_true, hd, if_false]
    · simp only [State.finish, hk, if_true, OfNat.ofNat_ne_one, if_false]
    · simp only [State.finish, hk, if_true, Nat.reduceEqDiff, if_false, hb]
    · simp only [State.finish, hk, if_true, Nat.reduceEqDiff, if_false, hb, Bool.false_eq_true]
    all_goals simp only [State.finish, hk, if_true, Nat.reduceEqDiff, if_false]

end Sys2Proof.Machine
end
section
/-!
PROOFS. Messages of the coherence protocol at agents and at the home (R332, R335, R343, R347, R350 to R354, R359).
-/

namespace Sys2Proof.Machine

/-! ### Copies of a line -/

@[simp] theorem State.copyAt_setCopy (s : State) (a l : Nat) (c : ACopy) : (s.setCopy a l c).copyAt a l = c := by
  simp [State.copyAt, State.setCopy, SMap.getD_setD]

@[simp] theorem State.copyAt_agentReq (s : State) (code a l p b k : Nat) : (s.agentReq code a l p).copyAt b k = s.copyAt b k := rfl

section

variable {s t : State} {a l r code : Nat}

/-- R335, R347: a forwarded request that is taken at a line that neither waits nor holds is acted on. -/
theorem State.fwdTaken_acts {m : CMsg} (hm : s.takeMsg { code := code, src := homeNode l, dst := a, line := l, r := r } = some (t, m))
    (hhold : (t.copyAt a l).hold = false) (hst : (t.copyAt a l).st ≠ 8 ∧ (t.copyAt a l).st ≠ 9) :
    s.fwdTaken code a l r = t.actFwd a l code r := by
  have hgo : ¬((t.copyAt a l).st = 8 ∨ (t.copyAt a l).st = 9 ∨ (t.copyAt a l).hold = true) := by simp [hst.1, hst.2, hhold]
  simp only [State.fwdTaken, hm, State.fwdArrive, hgo, if_false]

theorem State.fwdTaken_parks {m : CMsg} (hm : s.takeMsg { code := code, src := homeNode l, dst := a, line := l, r := r } = some (t, m))
    (hwait : (t.copyAt a l).st = 8 ∨ (t.copyAt a l).st = 9 ∨ (t.copyAt a l).hold = true) :
    s.fwdTaken code a l r = t.setCopy a l { t.copyAt a l with parked := some (code, r) } := by
  simp only [State.fwdTaken, hm, State.fwdArrive, hwait, if_true]

theorem State.actFwd_shared (hst : (t.copyAt a l).st = 2) : t.actFwd a l 0x10 r =
    ((t.agentData 0x31 a r l (t.copyAt a l)).agentMsg 0x22 a l).setCopy a l { t.copyAt a l with st := 1, hold := false, parked := none } := by
  simp [State.actFwd, hst]

/-- R347: an owner answers every forwarded request from its data. -/
theorem State.actFwd_owner (hst : (t.copyAt a l).st = 3 ∨ (t.copyAt a l).st = 4) :
    t.actFwd a l 0x10 r = (((t.agentData 0x30 a r l (t.copyAt a l)).agentData 0x35 a 33 l (t.copyAt a l)).agentMsg 0x22 a l).setCopy a l
        { t.copyAt a l with st := 1, hold := false, parked := none } ∧
      t.actFwd a l 0x11 r = ((t.agentData 0x33 a r l (t.copyAt a l)).agentMsg 0x21 a l).setCopy a l {} ∧
      t.actFwd a l 0x12 r = ((t.agentData 0x35 a 33 l (t.copyAt a l)).agentMsg 0x21 a l).setCopy a l {} ∧
      t.actFwd a l 0x13 r = ((t.agentData 0x34 a r l (t.copyAt a l)).agentMsg 0x23 a l).setCopy a l { t.copyAt a l with parked := none } ∧
      t.actFwd a l 0x14 r = ((t.agentData 0x35 a 33 l (t.copyAt a l)).agentMsg 0x22 a l).setCopy a l
        { t.copyAt a l with st := 1, hold := false, parked := none } := by
  rcases hst with hst | hst <;> refine ⟨?_, ?_, ?_, ?_, ?_⟩ <;> simp [State.actFwd, hst]

theorem State.actFwd_sharer (hst : (t.copyAt a l).st = 1 ∨ (t.copyAt a l).st = 2) :
    t.actFwd a l 0x91 r = (t.setCopy a l {}).agentMsg 0x20 a l := by
  rcases hst with hst | hst <;> simp [State.actFwd, hst]

theorem State.actFwd_none (hst : (t.copyAt a l).st = 0) :
    t.actFwd a l 0x12 r = (t.setCopy a l { t.copyAt a l with parked := none }).agentMsg 0x20 a l := by
  simp [State.actFwd, hst]

end

/-! ### Responses at the home -/

section

variable {s t : State} {a l : Nat} {act : State → State}

/-- R343, R354: a response that is taken is acted on once the line is swept, and the home goes on. -/
theorem State.rspArrive_acts {m : CMsg} (hm : s.takeMsg m = some (t, m)) (hline : m.line = l) (hnote : m.note = none)
    (hbad : (t.sweepLine l).coh.bad.contains l = false) : s.rspArrive m act = (act (t.sweepLine l)).homeDone l := by
  simp only [State.rspArrive, hm, hline, hbad, Bool.false_eq_true, if_false, hnote]

theorem State.rspArrive_note {m : CMsg} {c st : Nat} (hm : s.takeMsg m = some (t, m)) (hline : m.line = l) (hnote : m.note = some (c, st))
    (hbad : (t.sweepLine l).coh.bad.contains l = false) :
    s.rspArrive m act = ((t.sweepLine l).protoError l c st m.src 1).homeDone l := by
  simp only [State.rspArrive, hm, hline, hbad, Bool.false_eq_true, if_false, hnote]

theorem le_of_bitOf {x b : Nat} (h : bitOf x b = true) : 2 ^ b ≤ x := by
  rw [bitOf_eq_testBit] at h
  exact Nat.ge_two_pow_of_testBit h

theorem State.ackInv_more {q : CReq} (hreq : (s.dirAt l).req = some q) (hbit : bitOf (s.dirAt l).acks a = true)
    (hmore : (s.dirAt l).acks ≠ 2 ^ a) : s.ackInv l a = s.setDir l { s.dirAt l with acks := (s.dirAt l).acks - 2 ^ a } := by
  have hle := le_of_bitOf hbit
  have hleft : ¬((s.dirAt l).acks - 2 ^ a = 0) := by omega
  simp only [State.ackInv, hreq, hleft, false_and, if_false]

theorem State.ackInv_last {q : CReq} (hreq : (s.dirAt l).req = some q) (hlast : (s.dirAt l).acks = 2 ^ a)
    (htier : (s.dirAt l).tier = false) (hkind : q.kind ≠ 3) :
    s.ackInv l a = s.finish l { s.dirAt l with acks := 0, sharers := 0, fh := none, owner := none, rcd := none } q
      ((s.dirAt l).rcd.getD (0, 0)) := by
  have hupg : (q.kind == 3 && bitOf (s.dirAt l).sharers q.r) = false := by simp [hkind]
  simp only [State.ackInv, hreq, hlast, Nat.sub_self, htier, hupg, Bool.not_false, and_self, if_true, Bool.false_eq_true, if_false]

end

section

variable {s t : State} {a : Fin 25} {line : BitVec 54} (hnot : ¬(s.halted = true))
  (hbad : (t.sweepLine line.toNat).coh.bad.contains line.toNat = false)

include hnot hbad

theorem exec_ackI_taken (hm : s.takeMsg (fromAgent 0x20 a.val line.toNat) = some (t, (fromAgent 0x20 a.val line.toNat))) :
    exec (.ackI a line none) s = .next (State.homeDone
    (let u := t.sweepLine line.toNat
      let d := u.dirAt line.toNat
      if d.st = 9 ∧ bitOf d.acks a.val then u.ackInv line.toNat a.val
      else if 10 ≤ d.st ∧ d.st ≤ 14 ∧ d.snooped = some a.val then
        if d.gone then u.holderGone line.toNat a.val
        else u.setDir line.toNat { d with st := 15, owner := if d.st = 10 then none else d.owner }
      else u.protoError line.toNat 0x20 d.st a.val 0) line.toNat) :=
  (if_neg hnot).trans (congrArg Host.Outcome.next (State.rspArrive_acts hm (rfl : _ = line.toNat) rfl hbad))

theorem exec_ackID_finishes {q : CReq} (hm : s.takeMsg (fromAgent 0x21 a.val line.toNat) = some (t, fromAgent 0x21 a.val line.toNat))
    (hst : ((t.sweepLine line.toNat).dirAt line.toNat).st = 12) (hheld : ((t.sweepLine line.toNat).dirAt line.toNat).owner = some a.val)
    (hreq : ((t.sweepLine line.toNat).dirAt line.toNat).req = some q) :
    exec (.ackID a { line := line, err := none }) s = .next (State.homeDone
      ((t.sweepLine line.toNat).setDir line.toNat
        ({ (t.sweepLine line.toNat).dirAt line.toNat with owner := some q.r } : DirEnt).settle) line.toNat) := by
  refine (if_neg hnot).trans (congrArg Host.Outcome.next
    ((State.rspArrive_acts hm (rfl : _ = line.toNat) rfl hbad).trans (congrArg (State.homeDone · line.toNat) ((if_pos ⟨hst, hheld⟩).trans ?_))))
  simp only [hreq]

theorem exec_ackID_unexpected (hm : s.takeMsg (fromAgent 0x21 a.val line.toNat) = some (t, fromAgent 0x21 a.val line.toNat))
    (hst : ((t.sweepLine line.toNat).dirAt line.toNat).st < 12) :
    exec (.ackID a { line := line, err := none }) s = .next (State.homeDone
      ((t.sweepLine line.toNat).protoError line.toNat 0x21 ((t.sweepLine line.toNat).dirAt line.toNat).st a.val 0) line.toNat) :=
  (if_neg hnot).trans (congrArg Host.Outcome.next
    ((State.rspArrive_acts hm (rfl : _ = line.toNat) rfl hbad).trans (congrArg (State.homeDone · line.toNat)
      ((if_neg (fun h => Nat.ne_of_lt hst h.1)).trans (if_neg (fun h => Nat.ne_of_lt (Nat.lt_succ_of_lt hst) h.1))))))

theorem exec_ackSD_finishes {q : CReq} (hm : s.takeMsg (fromAgent 0x22 a.val line.toNat) = some (t, fromAgent 0x22 a.val line.toNat))
    (hst : ((t.sweepLine line.toNat).dirAt line.toNat).st = 10) (hheld : ((t.sweepLine line.toNat).dirAt line.toNat).fh = some a.val)
    (hreq : ((t.sweepLine line.toNat).dirAt line.toNat).req = some q) :
    exec (.ackSD a { line := line, err := none }) s = .next (State.homeDone
      ((t.sweepLine line.toNat).setDir line.toNat
        ({ (t.sweepLine line.toNat).dirAt line.toNat with
          sharers := ((t.sweepLine line.toNat).dirAt line.toNat).sharers ||| 2 ^ q.r, fh := some q.r } : DirEnt).settle) line.toNat) := by
  refine (if_neg hnot).trans (congrArg Host.Outcome.next
    ((State.rspArrive_acts hm (rfl : _ = line.toNat) rfl hbad).trans (congrArg (State.homeDone · line.toNat) ((if_pos ⟨hst, hheld⟩).trans ?_))))
  simp only [hreq]

theorem exec_ackSD_unexpected (hm : s.takeMsg (fromAgent 0x22 a.val line.toNat) = some (t, fromAgent 0x22 a.val line.toNat))
    (hst : ((t.sweepLine line.toNat).dirAt line.toNat).st < 10) :
    exec (.ackSD a { line := line, err := none }) s = .next (State.homeDone
      ((t.sweepLine line.toNat).protoError line.toNat 0x22 ((t.sweepLine line.toNat).dirAt line.toNat).st a.val 0) line.toNat) :=
  (if_neg hnot).trans (congrArg Host.Outcome.next
    ((State.rspArrive_acts hm (rfl : _ = line.toNat) rfl hbad).trans (congrArg (State.homeDone · line.toNat)
      ((if_neg (fun h => Nat.ne_of_lt hst h.1)).trans (if_neg (fun h => Nat.ne_of_lt (Nat.lt_succ_of_lt hst) h.1))))))

theorem exec_ackKeep_taken (hm : s.takeMsg (fromAgent 0x23 a.val line.toNat) = some (t, (fromAgent 0x23 a.val line.toNat))) :
    exec (.ackKeep a { line := line, err := none }) s = .next (State.homeDone
    (let u := t.sweepLine line.toNat
      let d := u.dirAt line.toNat
      if d.st = 14 ∧ d.owner = some a.val then (u.setDir line.toNat { d with acked := true }).onceDone line.toNat
      else u.protoError line.toNat 0x23 d.st a.val 0) line.toNat) :=
  (if_neg hnot).trans (congrArg Host.Outcome.next (State.rspArrive_acts hm (rfl : _ = line.toNat) rfl hbad))

theorem exec_evict_taken (hm : s.takeMsg (fromAgent 0x24 a.val line.toNat) = some (t, (fromAgent 0x24 a.val line.toNat))) :
    exec (.evict a { line := line, err := none }) s = .next (State.homeDone
    (let u := t.sweepLine line.toNat
      let d := u.dirAt line.toNat
      let u := u.homeMsg 0x25 a.val line.toNat
      if 1 ≤ d.st ∧ d.st ≤ 3 ∧ d.lists a.val then u.setDir line.toNat (d.without a.val).settle
      else if d.st = 9 then u.setDir line.toNat (d.without a.val)
      else if d.snooped = some a.val then
        let u := u.setDir line.toNat { d with gone := true }
        if d.st = 15 then u.holderGone line.toNat a.val else u
      else u) line.toNat) :=
  (if_neg hnot).trans (congrArg Host.Outcome.next (State.rspArrive_acts hm (rfl : _ = line.toNat) rfl hbad))

theorem exec_wbData_taken {x : BitVec 512} {m : Byte}
    (hm : s.takeMsg { fromAgent 0x36 a.val line.toNat with data := x, marks := m.toNat } =
      some (t, { fromAgent 0x36 a.val line.toNat with data := x, marks := m.toNat })) :
    exec (.wbData a line x m) s = .next (State.homeDone
    (let u := t.sweepLine line.toNat
      let d := u.dirAt line.toNat
      if d.st = 3 ∧ d.owner = some a.val then
        ((u.tierWrite line.toNat 16 (x, m.toNat)).homeMsg 0x25 a.val line.toNat).setDir line.toNat (d.without a.val).settle
      else if 11 ≤ d.st ∧ d.st ≤ 15 ∧ d.owner = some a.val then
        let u := ((u.tierWrite line.toNat 16 (x, m.toNat)).homeMsg 0x25 a.val line.toNat).setDir line.toNat
          { d with gone := true, rcd := some (x, m.toNat) }
        if d.st = 15 then u.holderGone line.toNat a.val else u
      else u.protoError line.toNat 0x36 d.st a.val 0) line.toNat) :=
  (if_neg hnot).trans (congrArg Host.Outcome.next (State.rspArrive_acts hm (rfl : _ = line.toNat) rfl hbad))

theorem exec_dataHome_taken {x : BitVec 512} {m : Byte}
    (hm : s.takeMsg { fromAgent 0x35 a.val line.toNat with data := x, marks := m.toNat } =
      some (t, { fromAgent 0x35 a.val line.toNat with data := x, marks := m.toNat })) :
    exec (.dataHome a line x m) s = .next (State.homeDone
    (let u := t.sweepLine line.toNat
      let d := u.dirAt line.toNat
      if (d.st = 11 ∨ d.st = 13) ∧ d.owner = some a.val then
        (u.setDir line.toNat { d with rcd := some (x, m.toNat) }).ownerDone line.toNat
      else u.protoError line.toNat 0x35 d.st a.val 0) line.toNat) :=
  (if_neg hnot).trans (congrArg Host.Outcome.next (State.rspArrive_acts hm (rfl : _ = line.toNat) rfl hbad))

end

/-! ### Loads, stores and replacements -/

section

variable {s t : State} {a l : Nat}

theorem State.agentLoad_miss (hst : (s.copyAt a l).st = 0) (hroom : s.cacheRoom a l = (t, true)) :
    let r := (t.setCopy a l { s.copyAt a l with st := 8, part := 16 }).agentReq 1 a l 16
    s.agentNew a l 16 0 none =
      (r.setCopy a l { r.copyAt a l with later := (r.copyAt a l).later ++ [(0, none)] }).countHit a false := by
  have hholds : s.holds a l = false := by simp [State.holds, hst]
  simp only [State.agentNew, hholds, State.agentDo, hst, if_true, hroom, Bool.not_true, Bool.false_eq_true, if_false, State.copyAt_setCopy,
    State.copyAt_agentReq, false_or]
  rfl

theorem State.agentStore_miss (hst : (s.copyAt a l).st = 0) (hroom : s.cacheRoom a l = (t, true)) (y : AStore) (htk : y.tk = 0) :
    s.agentNew a l 16 0 (some y) =
      ((t.setCopy a l { s.copyAt a l with st := 9, store := some y, part := 16 }).agentReq 2 a l 16).countHit a false := by
  have hholds : s.holds a l = false := by simp [State.holds, hst]
  have hy : { y with tk := 0 } = y := by rw [← htk]
  simp only [State.agentNew, hholds, State.agentDo, hst, if_true, hroom, Bool.not_true, Bool.false_eq_true, if_false, State.copyAt_setCopy,
    State.copyAt_agentReq, false_or, hy]
  rfl

theorem State.agentLoad_hit (hst : 1 ≤ (s.copyAt a l).st ∧ (s.copyAt a l).st ≤ 4) :
    s.agentNew a l 16 0 none = (s.touchCopy a l).countHit a true := by
  have hholds : s.holds a l = true := by simp [State.holds, hst]
  have hsome : (s.copyAt a l).st ≠ 0 := by omega
  simp only [State.agentNew, hholds, State.agentDo, hsome, if_false, hst.2, true_or, if_true]
  rfl

theorem State.agentStore_shared (hst : (s.copyAt a l).st = 1 ∨ (s.copyAt a l).st = 2) (y : AStore) (htk : y.tk = 0) :
    s.agentNew a l 16 0 (some y) = ((s.setCopy a l
      { s.copyAt a l with st := 10, fromF := (s.copyAt a l).st == 2, store := some y, part := 16 }).agentReq 3 a l 16).countHit a true := by
  have hholds : s.holds a l = true := by rcases hst with h | h <;> simp [State.holds, h]
  have hsome : (s.copyAt a l).st ≠ 0 := by omega
  have howner : ¬((s.copyAt a l).st = 3 ∨ (s.copyAt a l).st = 4) := by omega
  have hy : { y with tk := 0 } = y := by rw [← htk]
  simp only [State.agentNew, hholds, State.agentDo, hsome, howner, if_false, hst, true_or, if_true, hy]

theorem State.agentStore_owner (hst : (s.copyAt a l).st = 3 ∨ (s.copyAt a l).st = 4) (y : AStore) (htk : y.tk = 0) :
    s.agentNew a l 16 0 (some y) = (s.storeHit a l y).countHit a true := by
  have hholds : s.holds a l = true := by rcases hst with h | h <;> simp [State.holds, h]
  have hsome : (s.copyAt a l).st ≠ 0 := by omega
  have hy : { y with tk := 0 } = y := by rw [← htk]
  simp only [State.agentNew, hholds, State.agentDo, hsome, if_false, hst, true_or, if_true, hy]

theorem ACopy.put_plain (c : ACopy) (mask : Nat) (x : BitVec 512) :
    (c.put { mask := mask, data := x }).data = (mergeLine (c.data, c.marks) x mask).1 ∧
      (c.put { mask := mask, data := x }).marks = c.marks :=
  ⟨rfl, Nat.or_zero _⟩

theorem State.replaceCopy_clean (hst : (s.copyAt a l).st = 1 ∨ (s.copyAt a l).st = 2 ∨ (s.copyAt a l).st = 3) :
    s.replaceCopy a l = ((s.setCopy a l { st := 11, parked := (s.copyAt a l).parked }).agentMsg 0x24 a l).unpark a l :=
  if_pos (by omega)

theorem State.replaceCopy_dirty (hst : (s.copyAt a l).st = 4) :
    s.replaceCopy a l =
      ((s.setCopy a l { st := 11, parked := (s.copyAt a l).parked }).agentData 0x36 a 33 l (s.copyAt a l)).unpark a l := by
  rw [State.replaceCopy, if_neg (by omega), if_pos hst]

end

/-! ### Data and grants at an agent -/

section

variable {s t : State} {a l code marks : Nat} {x : BitVec 512} {act : State → State}

theorem State.datTaken_acts {k : CMsg}
    (hm : s.takeMsg { code := code, src := anySrc, dst := a, line := l, data := x, marks := marks } = some (t, k)) :
    s.datTaken code a l x marks act = act t := by
  simp only [State.datTaken, hm]

theorem State.dataArrive_waited {y : BitVec 512 × Nat} (hst : (t.copyAt a l).st = 8) :
    t.dataArrive a l code y = ((t.setCopy a l
      { t.copyAt a l with st := code - 0x2F, data := y.1, marks := y.2, hold := code == 0x32 }).retryLater a l).unpark a l :=
  if_pos hst

theorem State.dataArrive_unexpected {y : BitVec 512 × Nat} (hst : (t.copyAt a l).st ≠ 8) :
    t.dataArrive a l code y = t.agentError a l code false :=
  if_neg hst

end

/-- Settles O43. -/
theorem coherentAgentResults : Obligations.CoherentAgentResults := by
  refine ⟨?fwd, ?rsp, ?dat, ?own, ?once, ?atom⟩
  case fwd =>
    intro a line r s t hh
    have hnot : ¬(s.halted = true) := by simp [hh]
    dsimp only
    refine ⟨fun hhold hst ⟨m, hm⟩ => ?_, fun hhold hst => ?_, fun hhold hst ⟨m, hm⟩ => ?_, fun hhold hst ⟨m, hm⟩ => ?_,
      fun hwait ⟨m, hm⟩ => ?_⟩
    · refine (if_neg hnot).trans (congrArg Host.Outcome.next ?_)
      rw [State.fwdTaken_acts hm hhold (by omega), State.actFwd_shared hst]
    · obtain ⟨h10, h11, h12, h13, h14⟩ := State.actFwd_owner (r := r.val) hst
      have hready : (t.copyAt a.val line.toNat).st ≠ 8 ∧ (t.copyAt a.val line.toNat).st ≠ 9 := by omega
      refine ⟨fun ⟨m, hm⟩ => ?_, fun ⟨m, hm⟩ => ?_, fun ⟨m, hm⟩ => ?_, fun ⟨m, hm⟩ => ?_, fun ⟨m, hm⟩ => ?_⟩ <;>
        refine (if_neg hnot).trans (congrArg Host.Outcome.next ((State.fwdTaken_acts hm hhold hready).trans ?_))
      · exact h10
      · exact h11
      · exact h12
      · exact h13
      · exact h14
    · refine (if_neg hnot).trans (congrArg Host.Outcome.next ((State.fwdTaken_acts hm hhold (by omega)).trans ?_))
      exact State.actFwd_sharer hst
    · refine (if_neg hnot).trans (congrArg Host.Outcome.next ((State.fwdTaken_acts hm hhold (by omega)).trans ?_))
      exact State.actFwd_none hst
    · exact (if_neg hnot).trans (congrArg Host.Outcome.next (State.fwdTaken_parks hm hwait))
  case rsp =>
    intro a line s t hh
    have hnot : ¬(s.halted = true) := by simp [hh]
    dsimp only
    intro hbad
    refine ⟨fun hm => ⟨fun q hst hbit hreq hmore => ?_, fun q hst hacks htier hreq hkind => ?_, fun hst => ?_⟩, fun c st hm => ?_,
      fun hm => ⟨fun q hst hown hreq => ?_, fun hst => ?_⟩, fun hm => ⟨fun q hst hfh hreq => ?_, fun hst => ?_⟩,
      fun hm => ⟨fun hst hown => ?_, fun hst => ?_⟩, fun hm hst hlists => ?_,
      fun x m hm => ⟨fun hst hown => ?_, fun hst => ?_⟩, fun x m hm => ⟨fun hst hown => ?_, fun hst => ?_⟩⟩
    · exact (exec_ackI_taken hnot hbad hm).trans (by rw [if_pos ⟨hst, hbit⟩, State.ackInv_more hreq hbit hmore])
    · have hbit : bitOf ((t.sweepLine line.toNat).dirAt line.toNat).acks a.val = true := by simp [hacks, bitOf_two_pow]
      exact (exec_ackI_taken hnot hbad hm).trans (by rw [if_pos ⟨hst, hbit⟩, State.ackInv_last hreq hacks htier hkind])
    · exact (exec_ackI_taken hnot hbad hm).trans (by rw [if_neg (fun h => absurd h.1 (by omega)), if_neg (fun h => absurd h.1 (by omega))])
    · exact (if_neg hnot).trans (congrArg Host.Outcome.next (State.rspArrive_note hm (rfl : _ = line.toNat) rfl hbad))
    · exact exec_ackID_finishes hnot hbad hm hst hown hreq
    · exact exec_ackID_unexpected hnot hbad hm hst
    · exact exec_ackSD_finishes hnot hbad hm hst hfh hreq
    · exact exec_ackSD_unexpected hnot hbad hm hst
    · exact (exec_ackKeep_taken hnot hbad hm).trans (by rw [if_pos ⟨hst, hown⟩])
    · exact (exec_ackKeep_taken hnot hbad hm).trans (by rw [if_neg (fun h => hst h.1)])
    · exact (exec_evict_taken hnot hbad hm).trans (by rw [if_pos ⟨by omega, by omega, hlists⟩])
    · exact (exec_wbData_taken hnot hbad hm).trans (by rw [if_pos ⟨hst, hown⟩])
    · exact (exec_wbData_taken hnot hbad hm).trans (by rw [if_neg (fun h => absurd h.1 (by omega)), if_neg (fun h => absurd h.1 (by omega))])
    · exact (exec_dataHome_taken hnot hbad hm).trans (by rw [if_pos ⟨hst, hown⟩])
    · exact (exec_dataHome_taken hnot hbad hm).trans (by rw [if_neg (fun h => by omega)])
  case dat =>
    intro a line x m s t hh
    have hnot : ¬(s.halted = true) := by simp [hh]
    dsimp only
    refine ⟨fun ⟨k, hm⟩ => ⟨fun hst => ?_, fun hst => ?_⟩, fun ⟨k, hm⟩ hst => ?_, fun ⟨k, hm⟩ hst => ?_, fun ⟨k, hm⟩ hst => ?_,
      fun ⟨k, hm⟩ hst => ?_, fun ⟨k, hm⟩ hst => ?_, fun ⟨k, hm⟩ hst => ?_⟩ <;>
      refine (if_neg hnot).trans (congrArg (fun r => Host.Outcome.next (State.rowServed r a.val)) ((State.datTaken_acts hm).trans ?_))
    · exact if_pos hst
    · exact (if_neg (by omega)).trans (if_pos hst)
    · exact State.dataArrive_waited hst
    · exact State.dataArrive_waited hst
    · exact State.dataArrive_waited hst
    · exact State.dataArrive_unexpected hst
    · exact if_pos hst
    · exact if_neg hst
  case own =>
    intro a line s t hh
    have hnot : ¬(s.halted = true) := by simp [hh]
    dsimp only
    refine ⟨fun hst hroom => ⟨?_, fun mask x => ?_⟩, fun hst => ?_, fun hst mask x => ?_, fun hst mask x => ⟨?_, ACopy.put_plain ..⟩,
      fun hst => ?_, fun hst => ?_, fun hhold => ?_⟩
    · exact (if_neg hnot).trans (congrArg Host.Outcome.next (State.agentLoad_miss hst hroom))
    · exact (if_neg hnot).trans (congrArg Host.Outcome.next (State.agentStore_miss hst hroom _ rfl))
    · exact (if_neg hnot).trans (congrArg Host.Outcome.next (State.agentLoad_hit hst))
    · exact (if_neg hnot).trans (congrArg Host.Outcome.next (State.agentStore_shared hst _ rfl))
    · exact (if_neg hnot).trans (congrArg Host.Outcome.next (State.agentStore_owner hst _ rfl))
    · exact (if_neg hnot).trans (congrArg Host.Outcome.next (State.replaceCopy_clean hst))
    · exact (if_neg hnot).trans (congrArg Host.Outcome.next (State.replaceCopy_dirty hst))
    · exact (if_neg hnot).trans (if_pos hhold)
  case once =>
    intro r line x m s t k hh hr hm
    change execDataOnce r line x m s = _
    rw [execDataOnce, if_neg (by simp [hh])]
    dsimp only
    rw [if_neg (fun h => hr h.1), hm]
  case atom =>
    intro r line old st s t k hh hm
    change execDataAtom r line old st s = _
    rw [execDataAtom, if_neg (by simp [hh])]
    dsimp only
    rw [hm]

end Sys2Proof.Machine
end
section
/-!
PROOFS. Edge agents (R318, R320, R336, R338 to R341, R361, R362, R487, R491).
-/

namespace Sys2Proof.Machine

section

variable {s t : State} {g hpa mv kind mask l p : Nat} {x : BitVec 512} {f : Fld}

theorem State.edgeRead_line (hlive : s.edgeState g = 1) (hw : s.window g hpa false = (t, .line l p)) (hst : (t.dirAt l).st < 4)
    (hq : (t.dirAt l).queue = []) :
    s.edgeRead g hpa mv = (t.serve l { kind := 0x41 + mv, r := 25 + g, part := p, mv := mv }).homeDone l := by
  rw [State.edgeRead, if_neg (by simp [hlive]), if_neg (by simp [hlive])]
  simp only [hw, State.request_stable hst hq]

theorem State.edgeRead_err (hlive : s.edgeState g = 1) (hw : s.window g hpa false = (t, .err f)) :
    s.edgeRead g hpa mv = (t.winErr f).poisonRead g hpa := by
  rw [State.edgeRead, if_neg (by simp [hlive]), if_neg (by simp [hlive])]
  simp only [hw]

theorem State.edgeWrite_line (hlive : s.edgeState g = 1) (hw : s.window g hpa true = (t, .line l p)) (hst : (t.dirAt l).st < 4)
    (hq : (t.dirAt l).queue = []) :
    s.edgeWrite g hpa kind mv mask x false =
      (t.serve l { kind := kind, r := 25 + g, part := p, data := x, mask := mask, mv := mv }).homeDone l := by
  have hbi : ¬((t.dirAt l).st = 4 ∧ bitOf (t.dirAt l).bis g = true) := fun h => Nat.ne_of_lt hst h.1
  rw [State.edgeWrite, if_neg (by simp [hlive])]
  dsimp only
  rw [if_neg (by simp [hlive]), if_neg Bool.false_ne_true]
  simp only [hw, hbi, if_false, State.request_stable hst hq]

theorem State.edgeWrite_err (hlive : s.edgeState g = 1) (hw : s.window g hpa true = (t, .err f)) :
    s.edgeWrite g hpa kind mv mask x false = (t.winErr f).send { name := "Cmp", dest := g, args := [hpa] } := by
  rw [State.edgeWrite, if_neg (by simp [hlive])]
  dsimp only
  rw [if_neg (by simp [hlive]), if_neg Bool.false_ne_true]
  simp only [hw]

theorem State.edgeWrite_poison (hlive : s.edgeState g = 1) :
    s.edgeWrite g hpa kind mv mask x true = s.send { name := "Cmp", dest := g, args := [hpa] } := by
  rw [State.edgeWrite, if_neg (by simp [hlive])]
  dsimp only
  rw [if_neg (by simp [hlive]), if_pos rfl]

/-- R361: the last agent that answers settles the line. -/
theorem State.birspTake_last (hbis : (s.dirAt l).bis = 2 ^ g) :
    s.birspTake l g 0 =
      (s.setDir l ({ (s.dirAt l).without (25 + g) with bis := 0, fh := none, bisData := 0 } : DirEnt).settle).homeDone l := by
  simp only [State.birspTake, hbis, Nat.sub_self, Nat.zero_ne_one, false_and, if_false, if_true]

end

section

theorem State.latch_fold_coh (s : State) (i : Nat) :
    ((List.range 16).foldl (fun s c => if s.deliverable c i then s.latch c else s) s).coh = s.coh :=
  foldl_proj State.coh (fun _ _ => by split <;> rfl) _ s

@[simp] theorem State.raise_coh (s : State) (i : Nat) : (s.raise i).coh = s.coh := by
  fun_cases State.raise s i
  · rfl
  · exact State.latch_fold_coh _ i
  · exact State.latch_fold_coh _ i

/-- R362: an agent that holds up no back-invalidation is lost with its state and its event alone. -/
theorem State.edgeLost_idle {s : State} {g : Nat} (hlive : s.edgeState g = 1)
    (hnone : s.coh.dir.any (fun e => e.2.st == 4 && bitOf e.2.bis g) = false) :
    s.edgeLost g = (s.wr (Reg.COH_AGENT_STATE (25 + g)) 2).raise 81 := by
  have hkeys : List.filter (fun e : Nat × DirEnt => e.2.st == 4 && bitOf e.2.bis g) s.coh.dir = [] := by
    rw [List.filter_eq_nil_iff]
    exact fun e he h => by simpa [h] using List.any_eq_false.mp hnone e he
  rw [State.edgeLost, if_neg (by simp [hlive])]
  simp only [State.raise_coh, State.wr_coh, SMap.filter, hkeys, SMap.keys, List.map_nil, List.foldl_nil]

end

/-- Settles O44. -/
theorem edgeAgentResults : Obligations.EdgeAgentResults := by
  refine ⟨?access, ?birsp, ?other, ?timeout, ?lost, ?swept, ?rearm, ?hdm⟩
  case access =>
    intro g hpa mv s t hh hlive
    have hnot : ¬(s.halted = true) := by simp [hh]
    refine ⟨fun l p hw hst hq => ?_, fun e hw => ?_, fun l p x hw hst hq => ?_, fun e x mask hw => ?_, fun x mask => ?_⟩
    · exact ⟨(if_neg hnot).trans (congrArg Host.Outcome.next (State.edgeRead_line hlive hw hst hq)),
        (if_neg hnot).trans (congrArg Host.Outcome.next (State.edgeRead_line hlive hw hst hq))⟩
    · exact ⟨(if_neg hnot).trans (congrArg Host.Outcome.next (State.edgeRead_err hlive hw)),
        (if_neg hnot).trans (congrArg Host.Outcome.next (State.edgeRead_err hlive hw))⟩
    · exact ⟨(if_neg hnot).trans (congrArg Host.Outcome.next (State.edgeWrite_line hlive hw hst hq)),
        fun mask => (if_neg hnot).trans (congrArg Host.Outcome.next (State.edgeWrite_line hlive hw hst hq))⟩
    · exact ⟨(if_neg hnot).trans (congrArg Host.Outcome.next (State.edgeWrite_err hlive hw)),
        (if_neg hnot).trans (congrArg Host.Outcome.next (State.edgeWrite_err hlive hw))⟩
    · exact ⟨(if_neg hnot).trans (congrArg Host.Outcome.next (State.edgeWrite_poison hlive)),
        (if_neg hnot).trans (congrArg Host.Outcome.next (State.edgeWrite_poison hlive))⟩
  case birsp =>
    intro g line s hh
    have hnot : ¬(s.halted = true) := by simp [hh]
    refine ⟨fun hgood hst hbis => ?_, fun hgood hst k => ?_, if_neg hnot⟩
    · have hlast : bitOf ((s.sweepLine line.toNat).dirAt line.toNat).bis g.val = true := by simp [hbis, bitOf_two_pow]
      change execBirsp g line 0 s = _
      rw [execBirsp, if_neg hnot]
      dsimp only
      rw [if_neg (by simp [-List.contains_eq_mem, hgood]), if_pos ⟨hst, hlast, .inl rfl⟩]
      exact congrArg Host.Outcome.next (State.birspTake_last hbis)
    · change execBirsp g line k s = _
      rw [execBirsp, if_neg hnot]
      dsimp only
      rw [if_neg (by simp [-List.contains_eq_mem, hgood]), if_neg (fun h => hst h.1)]
  case other =>
    intro g hpa s hh
    have hnot : ¬(s.halted = true) := by simp [hh]
    exact ⟨if_neg hnot, if_neg hnot⟩
  case timeout =>
    intro g s hh hlive
    have hnot : ¬(s.halted = true) := by simp [hh]
    exact ⟨fun hany => (if_neg hnot).trans (if_pos ⟨hany, hlive⟩), fun hany => (if_neg hnot).trans (if_neg (by simp [hany]))⟩
  case lost =>
    intro g s hh
    have hnot : ¬(s.halted = true) := by simp [hh]
    exact ⟨if_neg hnot, State.edgeLost_idle⟩
  case swept =>
    intro g s hh hst
    have hnot : ¬(s.halted = true) := by simp [hh]
    exact (if_neg hnot).trans (if_neg (by simp [hst]))
  case rearm =>
    intro h n s hh hhost hn hst
    have hnot : ¬(s.halted = true) := by simp [hh]
    exact (if_neg hnot).trans (congrArg Host.Outcome.next (if_pos ⟨by omega, hn, hst⟩))
  case hdm =>
    intro g k base size w s hh
    have hnot : ¬(s.halted = true) := by simp [hh]
    dsimp only
    refine ⟨fun hw => ?_, fun hw => ?_⟩ <;>
    · change execHdmDecoderCommit g k base size w s = _
      rw [execHdmDecoderCommit, if_neg hnot]
      simp only [hw, if_true, if_false]

end Sys2Proof.Machine
end
section
/-!
PROOFS. The ports of the fabric: training, flits and replay (R365 to R368).
-/

namespace Sys2Proof.Machine

section

variable {s : State} {n : Nat}

theorem Reg.EFH_PORT_CTL_EN_key_ne_STATE : (Reg.EFH_PORT_CTL_EN n).key ≠ (Reg.EFH_PORT_STAT_STATE n).key := by
  simp only [Fld.key, Reg.EFH_PORT_CTL_EN, Reg.EFH_PORT_STAT_STATE]
  omega

theorem Reg.EFH_PORT_STAT_LANES_key_ne_STATE : (Reg.EFH_PORT_STAT_LANES n).key ≠ (Reg.EFH_PORT_STAT_STATE n).key := by
  simp only [Fld.key, Reg.EFH_PORT_STAT_LANES, Reg.EFH_PORT_STAT_STATE]
  omega

theorem Reg.EFH_PORT_STAT_PEER_SEEN_key_ne :
    (Reg.EFH_PORT_STAT_PEER_SEEN n).key ≠ (Reg.EFH_PORT_CTL_PEER_CHECK n).key ∧
      (Reg.EFH_PORT_STAT_PEER_SEEN n).key ≠ (Reg.EFH_PORT_CTL_PEER n).key := by
  simp only [Fld.key, Reg.EFH_PORT_STAT_PEER_SEEN, Reg.EFH_PORT_CTL_PEER_CHECK, Reg.EFH_PORT_CTL_PEER]
  omega

theorem State.portState_wr_en (x : Nat) : (s.wr (Reg.EFH_PORT_CTL_EN n) x).portState n = s.portState n :=
  State.rd_wr_ne _ _ Reg.EFH_PORT_CTL_EN_key_ne_STATE

theorem State.portState_wr_lanes (x : Nat) : (s.wr (Reg.EFH_PORT_STAT_LANES n) x).portState n = s.portState n :=
  State.rd_wr_ne _ _ Reg.EFH_PORT_STAT_LANES_key_ne_STATE

theorem State.portEnable_on (hst : s.portState n = 0) :
    s.portEnable n true = (s.wr (Reg.EFH_PORT_CTL_EN n) 1).wr (Reg.EFH_PORT_STAT_STATE n) 1 := by
  simp only [State.portEnable, State.portState_wr_en, hst, if_true, b2n]

theorem State.portEnable_off_down (hst : s.portState n = 0) : s.portEnable n false = s.wr (Reg.EFH_PORT_CTL_EN n) 0 := by
  simp only [State.portEnable, State.portState_wr_en, hst, if_true, Bool.false_eq_true, if_false, b2n]

theorem State.portEnable_off (hst : s.portState n ≠ 0) :
    s.portEnable n false =
      ((((((s.wr (Reg.EFH_PORT_CTL_EN n) 0).portFailed n).wr (Reg.EFH_PORT_STAT_STATE n) 0).wr (Reg.EFH_PORT_STAT_LANES n) 0).wr
        (Reg.EFH_PORT_STAT_LEVEL n) 0).wr (Reg.EFH_PORT_STAT_PEER_SEEN n) 0) := by
  simp only [State.portEnable, State.portState_wr_en, hst, Bool.false_eq_true, if_false, b2n]

end

section

variable {n : Fin 18} {s : State} (hnot : ¬(s.halted = true))

include hnot

theorem exec_negotiate_level {level : Fin 16} {dev : Fin 64} (hst : s.portState n.val = 3) (hlevel : 1 ≤ level.val ∧ level.val < 4) :
    exec (.negotiate n level dev) s =
      let a := s.wr (Reg.EFH_PORT_STAT_PEER_SEEN n.val) dev.val
      if s.is1 (Reg.EFH_PORT_CTL_PEER_CHECK n.val) = true ∧ s.rd (Reg.EFH_PORT_CTL_PEER n.val) ≠ dev.val then
        .next ((a.wr (Reg.EFH_PORT_STAT_STATE n.val) 6).raise 88)
      else .next (a.wr (Reg.EFH_PORT_STAT_LEVEL n.val) 1) := by
  obtain ⟨hcheck, hpeer⟩ := Reg.EFH_PORT_STAT_PEER_SEEN_key_ne (n := n.val)
  change execNegotiate n level dev s = _
  rw [execNegotiate, if_neg hnot, if_neg (by simp [hst]), if_neg (by omega)]
  dsimp only
  rw [State.is1_wr_ne _ _ hcheck, State.rd_wr_ne _ _ hpeer]

end

/-- R366: what a flit that is heard acknowledges, and whether it asks for the rest again. -/
def State.heard (s : State) (n x : Nat) : State :=
  if bitOf x 32 = true then (s.linkAck n (bitsOf x 16 16)).linkNak n (bitsOf x 16 16) else s.linkAck n (bitsOf x 16 16)

/-- R366: the credits that a flit brings. -/
def State.flitCredits (s : State) (n x : Nat) : State :=
  if bitsOf x 48 16 = 0 ∨ bitsOf x 40 3 = 7 then s
  else
    let k := 8 * n + bitsOf x 40 3
    { s with sw := { s.sw with credit := s.sw.credit.setD k 0 (s.sw.credit.getD k 0 + bitsOf x 48 16) } }

theorem execFlitReceive_eq {n : Fin 18} {f : BitVec 2048} {fec : BitVec 16} {s : State} (hnot : ¬(s.halted = true))
    (hst : s.portState n.val = 4) :
    exec (.flitReceive n f fec) s =
      let a := s.satAdd (Reg.EFH_PORT_ERR_FEC_CORR n.val) fec.toNat
      let x := f.toNat
      if crc64 (toLe 248 x) ≠ bitsOf x 1984 64 then .next (a.idleSend n.val 1)
      else if bitsOf x 33 3 = 1 ∧ bitsOf x 48 16 = 0 then .next (a.heard n.val x)
      else if bitsOf x 0 16 ≠ ((a.link n.val).rx + 1) % 65536 then
        .next (a.idleSend n.val (b2n (decide ((bitsOf x 0 16 + 65536 - ((a.link n.val).rx + 1) % 65536) % 65536 < 32768))))
      else
        let c := (((a.setLink n.val { a.link n.val with rx := bitsOf x 0 16 }).heard n.val x).flitCredits n.val x).idleSend n.val 0
        if bitsOf x 33 3 = 0 then .next ([64, 704, 1344].foldl (fun (r : State) i => r.slotArrive n.val (bitsOf x i 640)) c)
        else .next c :=
  (if_neg hnot).trans (if_neg (not_not_intro hst))

section

variable {s : State} {n : Nat}

theorem State.linkNak_quiet {ack : Nat} (h : ((s.linkAck n ack).link n).unacked = []) : s.linkNak n ack = s.linkAck n ack :=
  if_pos (by simp [h])

theorem State.linkNak_failed {ack : Nat} (h : ((s.linkAck n ack).link n).unacked ≠ []) (hfails : ((s.linkAck n ack).link n).fails = 8) :
    s.linkNak n ack = ((s.linkAck n ack).portFailed n).raise 88 :=
  (if_neg (by simpa using h)).trans (if_pos hfails)

theorem State.foldl_flitOut_sent (fs : List (Nat × Flit)) (s : State) :
    (fs.foldl (fun (s : State) f => s.flitOut n f.1 0 f.2) s).sent.length = s.sent.length + fs.length := by
  induction fs generalizing s with
  | nil => rfl
  | cons f fs ih =>
    rw [List.foldl_cons, ih, List.length_cons]
    simp only [State.flitOut, State.send, List.length_append, List.length_cons, List.length_nil]
    omega

theorem State.foldl_flitOut_regs (fs : List (Nat × Flit)) (s : State) :
    (fs.foldl (fun (s : State) f => s.flitOut n f.1 0 f.2) s).regs = s.regs :=
  foldl_proj State.regs (fun (s : State) (f : Nat × Flit) => show (s.flitOut n f.1 0 f.2).regs = s.regs from rfl) fs s

/-- R367: the state in which a port has counted the flits that it sends again. -/
def State.replayCounted (s : State) (n : Nat) : State :=
  (s.setLink n { s.link n with fails := (s.link n).fails + 1 }).satAdd (Reg.EFH_PORT_ERR_REPLAY n) (s.link n).unacked.length

theorem State.replayCounted_sent : (s.replayCounted n).sent = s.sent := rfl

theorem State.replayCounted_regs :
    (s.replayCounted n).regs = (s.satAdd (Reg.EFH_PORT_ERR_REPLAY n) (s.link n).unacked.length).regs := rfl

theorem State.linkNak_replays {ack : Nat} (h : ((s.linkAck n ack).link n).unacked ≠ []) (hfails : ((s.linkAck n ack).link n).fails ≠ 8) :
    s.linkNak n ack = (((s.linkAck n ack).link n).unacked).foldl (fun (s : State) f => s.flitOut n f.1 0 f.2)
      ((s.linkAck n ack).replayCounted n) :=
  (if_neg (by simpa using h)).trans (if_neg hfails)

end

/-- Settles O45. -/
theorem fabricLinkResults : Obligations.FabricLinkResults := by
  refine ⟨?enable, ?train, ?flit, ?nak⟩
  case enable =>
    intro h n s hh hhost
    have hnot : ¬(s.halted = true) := by simp [hh]
    have hexec : ∀ en, exec (.efhPortEn h n en) s = .next (s.portEnable n.val en) := fun en =>
      (if_neg hnot).trans (congrArg Host.Outcome.next (if_neg (by omega)))
    exact ⟨fun hst => by rw [hexec, State.portEnable_on hst], fun hst => by rw [hexec, State.portEnable_off_down hst],
      fun hst => by rw [hexec, State.portEnable_off hst]⟩
  case train =>
    intro n s hh
    have hnot : ¬(s.halted = true) := by simp [hh]
    refine ⟨fun hst => ⟨?_, ?_⟩, fun hst => ⟨?_, ?_⟩, fun level dev hst => ⟨fun hlo hhi hcheck => ?_, fun hlo hhi hcheck hpeer => ?_,
      fun hlevel => ?_⟩, fun hst => ?_⟩
    · have hmove : (s.wr (Reg.EFH_PORT_STAT_LANES n.val) 15).portState n.val = 1 := (State.portState_wr_lanes _).trans hst
      exact (if_neg hnot).trans (congrArg Host.Outcome.next ((if_pos hst).trans (if_pos hmove)))
    · exact (if_neg hnot).trans (congrArg Host.Outcome.next (if_pos hst))
    · have hmove : s.portMove n.val 2 3 = s.wr (Reg.EFH_PORT_STAT_STATE n.val) 3 := if_pos hst
      exact (if_neg hnot).trans (congrArg Host.Outcome.next ((if_pos hst).trans (by rw [hmove])))
    · exact (if_neg hnot).trans (congrArg Host.Outcome.next (if_pos hst))
    · exact (exec_negotiate_level hnot hst ⟨hlo, hhi⟩).trans (if_neg (by simp [hcheck]))
    · exact (exec_negotiate_level hnot hst ⟨hlo, hhi⟩).trans (if_pos ⟨hcheck, hpeer⟩)
    · exact (if_neg hnot).trans ((if_neg (not_not_intro hst)).trans (if_pos hlevel))
    · exact (if_neg hnot).trans (congrArg Host.Outcome.next (if_pos hst))
  case flit =>
    intro n f fec s hh hst
    have hnot : ¬(s.halted = true) := by simp [hh]
    refine ⟨fun hcrc => ?_, fun hcrc => ⟨fun hidle hcnt => ?_, fun hdata => ⟨fun hseq => ?_, fun hseq => ?_⟩⟩⟩
    · exact (execFlitReceive_eq hnot hst).trans (if_pos hcrc)
    · exact (execFlitReceive_eq hnot hst).trans ((if_neg (not_not_intro hcrc)).trans (if_pos ⟨hidle, hcnt⟩))
    · exact (execFlitReceive_eq hnot hst).trans ((if_neg (not_not_intro hcrc)).trans ((if_neg hdata).trans (if_pos hseq)))
    · refine (execFlitReceive_eq hnot hst).trans ((if_neg (not_not_intro hcrc)).trans ((if_neg hdata).trans
        ((if_neg (not_not_intro hseq)).trans ?_)))
      dsimp only
      rw [← apply_ite Host.Outcome.next]
      rfl
  case nak =>
    intro n ack s hh hst
    have hnot : ¬(s.halted = true) := by simp [hh]
    have hexec : exec (.nak n ack) s = .next (s.linkNak n.val ack.toNat) := (if_neg hnot).trans (congrArg Host.Outcome.next (if_pos hst))
    refine ⟨fun h => ?_, fun h hfails => ?_, fun h hfails => ?_⟩
    · rw [hexec, State.linkNak_quiet h]
    · rw [hexec, State.linkNak_failed h hfails]
    · refine ⟨_, hexec.trans (congrArg Host.Outcome.next (State.linkNak_replays h hfails)), ?_, ?_⟩
      · rw [State.foldl_flitOut_sent, State.replayCounted_sent]
      · rw [State.rd, State.foldl_flitOut_regs, State.replayCounted_regs, ← State.rd]

end Sys2Proof.Machine
end
section
/-!
PROOFS. Requests of other devices (R204, R215, R372 to R374, R376, R383, R392, R453).
-/

namespace Sys2Proof.Machine

section

variable {s : State} {kind src part id p : Nat} {fwd : Bool} {q : CReq} {op : List Nat}

theorem State.serveFabric_answered {a : FAns} (hkind : kind ≠ 1) (ha : s.answered src id = some a) :
    s.serveFabric kind src part id p fwd q op = s.respond src id a false := by
  simp only [State.serveFabric, hkind, if_false, ha]

section

variable (hnew : kind = 1 ∨ s.answered src id = none) (hasked : s.askedFar (farTicket src id fwd) = false)

include hnew

/-- R373: a request whose answer is not kept. -/
theorem State.serveFabric_notKept : (if kind = 1 then none else s.answered src id) = none := by
  rcases hnew with h | h
  · exact if_pos h
  · simp [h]

include hasked

theorem State.serveFabric_at {off : Nat} (hway : s.homeWay src part p (kind != 1) fwd = .at_ off) :
    s.serveFabric kind src part id p fwd q op =
      s.request (s.lineKey off) { q with r := 37, part := part, off := off % 64, tk := farTicket src id fwd } := by
  simp only [State.serveFabric, State.serveFabric_notKept hnew, hasked, Bool.false_eq_true, if_false, hway]

theorem State.serveFabric_stat {c : Nat} (hway : s.homeWay src part p (kind != 1) fwd = .stat c) :
    s.serveFabric kind src part id p fwd q op = (s.countOwner c).respond src id { status := c, fwd := fwd } false := by
  simp only [State.serveFabric, State.serveFabric_notKept hnew, hasked, Bool.false_eq_true, if_false, hway]

theorem State.serveFabric_pass {i t : Nat} (hway : s.homeWay src part p (kind != 1) fwd = .pass i t) :
    s.serveFabric kind src part id p fwd q op = s.passOn i kind src part id t q.mask q.marks op q.data := by
  simp only [State.serveFabric, State.serveFabric_notKept hnew, hasked, Bool.false_eq_true, if_false, hway]

end

end

/-- Settles O46. -/
theorem fabricRequestResults : Obligations.FabricRequestResults := by
  refine ⟨?read, ?write, ?atom, ?again, ?rsp, ?parcel, ?cred, ?ctrl, ?resend⟩
  case read =>
    intro src part id line fwd s hdeaf
    have hnot : ¬(s.deaf part.val = true) := by simp [hdeaf]
    dsimp only
    intro hasked
    exact ⟨fun off hway => (if_neg hnot).trans (congrArg Host.Outcome.next (State.serveFabric_at (.inl rfl) hasked hway)),
      fun c hway => (if_neg hnot).trans (congrArg Host.Outcome.next (State.serveFabric_stat (.inl rfl) hasked hway)),
      fun i t hway => (if_neg hnot).trans (congrArg Host.Outcome.next (State.serveFabric_pass (.inl rfl) hasked hway))⟩
  case write =>
    intro src part id line mask x m fwd s
    dsimp only
    intro hdeaf hnew hasked
    have hnot : ¬(s.deaf part.val = true) := by simp [hdeaf]
    refine ⟨fun off hway => ⟨?_, ?_⟩, fun c hway => ⟨?_, ?_⟩, fun i t hway => ⟨?_, ?_⟩⟩
    · exact (if_neg hnot).trans (congrArg Host.Outcome.next (State.serveFabric_at (.inr hnew) hasked hway))
    · exact (if_neg hnot).trans (congrArg Host.Outcome.next (State.serveFabric_at (.inr hnew) hasked hway))
    · exact (if_neg hnot).trans (congrArg Host.Outcome.next (State.serveFabric_stat (.inr hnew) hasked hway))
    · exact (if_neg hnot).trans (congrArg Host.Outcome.next (State.serveFabric_stat (.inr hnew) hasked hway))
    · exact (if_neg hnot).trans (congrArg Host.Outcome.next (State.serveFabric_pass (.inr hnew) hasked hway))
    · exact (if_neg hnot).trans (congrArg Host.Outcome.next (State.serveFabric_pass (.inr hnew) hasked hway))
  case atom =>
    intro src part id line o op w8 ta opnd cmp fwd s
    dsimp only
    intro hdeaf
    have hnot : ¬(s.deaf part.val = true) := by simp [hdeaf]
    refine ⟨fun hbad => ?_, fun hop halign hnew hasked => ?_⟩
    · exact (if_neg hnot).trans (if_pos (hbad.imp_left (by simp)))
    · have hgood : ¬((!atomRemoteOk op.val ta.val) = true ∨ o.val % (if w8 = true then 8 else 4) ≠ 0) := by simp [hop, halign]
      exact ⟨fun off hway => (if_neg hnot).trans ((if_neg hgood).trans
          (congrArg Host.Outcome.next (State.serveFabric_at (.inr hnew) hasked hway))),
        fun c hway => (if_neg hnot).trans ((if_neg hgood).trans
          (congrArg Host.Outcome.next (State.serveFabric_stat (.inr hnew) hasked hway)))⟩
  case again =>
    intro src part id line x m fwd s a hdeaf ha
    have hnot : ¬(s.deaf part.val = true) := by simp [hdeaf]
    exact (if_neg hnot).trans (congrArg Host.Outcome.next (State.serveFabric_answered (by decide) ha))
  case rsp =>
    intro src id status marks data fwd s q hdeaf hfind hown
    have hnot : ¬(s.deaf 16 = true) := by simp [hdeaf]
    change execFabricRsp src id status marks data fwd s = _
    rw [execFabricRsp, if_neg hnot, hfind]
    dsimp only
    rw [if_neg (by simp only [hostWrite]; omega), if_neg (by omega), if_neg (by omega), if_neg (by omega)]
  case parcel =>
    intro p s t
    dsimp only
    intro hseal hop hform hdeaf hkind ht
    have hgood : ¬((!(parcelOf p.toNat).2) = true ∨ (parcelOf p.toNat).1.op ≠ 8 ∨ (!(parcelOf p.toNat).1.wellFormed) = true ∨
        s.deaf (parcelOf p.toNat).1.part = true) := by
      simp [hseal, hop, hform, hdeaf]
    change ∃ m : MParcel, execFabricParcel p s = _ ∧ _
    rw [execFabricParcel]
    dsimp only
    rw [if_neg hgood, ht]
    simp only [hkind, if_false]
    exact ⟨_, rfl, rfl, rfl, rfl, rfl, rfl⟩
  case cred =>
    intro src t r n s hdeaf
    have hnot : ¬(s.deaf 16 = true) := by simp [hdeaf]
    exact ⟨fun hn => (if_neg hnot).trans (congrArg Host.Outcome.next (if_neg (Nat.not_lt.mpr hn))),
      fun hn => (if_neg hnot).trans (congrArg Host.Outcome.next (if_pos hn))⟩
  case ctrl =>
    intro src id off x s hdeaf
    have hnot : ¬(s.deaf 16 = true) := by simp [hdeaf]
    exact ⟨fun hfm => ⟨(if_neg hnot).trans (if_neg (not_not_intro hfm)), (if_neg hnot).trans (if_neg (not_not_intro hfm))⟩,
      fun hfm w => ⟨(if_neg hnot).trans (if_pos hfm), (if_neg hnot).trans (if_pos hfm)⟩⟩
  case resend =>
    intro id s q hh hfind hown
    have hnot : ¬(s.halted = true) := by simp [hh]
    change execRequestResendTimeout id s = _
    rw [execRequestResendTimeout, if_neg hnot, hfind]
    exact congrArg Host.Outcome.next (if_neg (by omega))

end Sys2Proof.Machine
end
section
/-!
PROOFS. Ownership of regions and the region table (R375, R377 to R380, R382, R383, R385, R387).
-/

namespace Sys2Proof.Machine

/-! ### Orders that ask a home -/

section

variable {s t : State} {n op code : Nat} {o : Order} {fields : Order → List (Nat × Nat)}

/-- R378: the state in which an order has asked the home of its region. -/
def State.homeAsked (t : State) (o : Order) (code : Nat) (fields : List (Nat × Nat)) : State :=
  (({ t with efh := { t.efh with nextId := (t.efh.nextId + 1) % 65536 } }).setOrder { o with started := true, ext := [t.efh.nextId] }).ownMsg
    code t.device o.part t.efh.nextId (o.by_ 8 8) (o.by_ 16 4) fields false

theorem State.sendOwner_asks (hlive : bitOf t.res.lostDevices (pgaDev (o.by_ 8 8)) = false) (fs : List (Nat × Nat)) :
    t.sendOwner o code fs = t.homeAsked o code fs :=
  if_neg (by simp [hlive])

theorem State.sendOwner_lost (hlost : bitOf t.res.lostDevices (pgaDev (o.by_ 8 8)) = true) (fs : List (Nat × Nat)) :
    t.sendOwner o code fs = t.complete o 0x20 0 :=
  if_pos hlost

variable (hord : s.orderAt n = some o) (hop : o.op = op) (hstart : s.mayStart o = true) (hext : o.ext = [])

include hord hop hstart hext

theorem State.ownerOrder_plain :
    s.ownerOrder n op false code fields = (s.setOrder { o with started := true }).sendOwner o code (fields o) := by
  have hgo : ¬(o.op ≠ op ∨ (!s.mayStart o) = true ∨ (!o.ext.isEmpty) = true) := by simp [hop, hstart, hext]
  simp only [State.ownerOrder, hord, hgo, if_false, Bool.false_eq_true, if_true]

theorem State.ownerOrder_clean
    (hclean : (s.setOrder { o with started := true }).recallRange (o.by_ 8 8) ((s.setOrder { o with started := true }).regionSpan (o.by_ 8 8))
      = (t, true)) :
    s.ownerOrder n op true code fields = t.sendOwner o code (fields o) := by
  have hgo : ¬(o.op ≠ op ∨ (!s.mayStart o) = true ∨ (!o.ext.isEmpty) = true) := by simp [hop, hstart, hext]
  simp only [State.ownerOrder, hord, hgo, if_false, if_true, hclean]

end

/-! ### Commands of the region table -/

section

variable {s : State} {h e pga log2 part dev : Nat}

theorem State.regionCmd_busy {op : Nat} (hh : h = 16 ∨ h = 17) (hidle : s.is1 Reg.EFH_REGION_CMD_BUSY = false) (hop : op = 2 ∨ op = 3) :
    s.regionCmd h e op = ((s.wr Reg.EFH_REGION_CMD_ENTRY e).wr Reg.EFH_REGION_CMD_OP op).wr Reg.EFH_REGION_CMD_BUSY 1 := by
  have hrd : ((s.wr Reg.EFH_REGION_CMD_ENTRY e).wr Reg.EFH_REGION_CMD_OP op).rd Reg.EFH_REGION_CMD_OP = op := by
    rw [State.rd_wr_self]
    exact Nat.mod_eq_of_lt (by rcases hop with h | h <;> simp [h, Reg.EFH_REGION_CMD_OP])
  have hbusy : ((s.wr Reg.EFH_REGION_CMD_ENTRY e).wr Reg.EFH_REGION_CMD_OP op).is1 Reg.EFH_REGION_CMD_BUSY = false := by
    rw [State.is1_wr_ne _ _ (by decide), State.is1_wr_ne _ _ (by decide), hidle]
  rw [State.regionCmd, if_neg (by omega), State.goRegion, hrd, hbusy, if_neg (by simp; omega), if_neg (by omega)]

/-- R387: the state in which the registers hold a command that sets an entry of the region table. -/
def State.regionPut (s : State) (pga log2 part dev e : Nat) : State :=
  (((((s.wr Reg.EFH_REGION_ARG0_PGA pga).wr Reg.EFH_REGION_ARG0_LOG2 log2).wr Reg.EFH_REGION_ARG1_OWNER_PART part).wr
    Reg.EFH_REGION_ARG1_OWNER_DEV dev).wr Reg.EFH_REGION_CMD_ENTRY e).wr Reg.EFH_REGION_CMD_OP 1

theorem State.regionPut_rd {f : Fld} (hf : 0x800020 * 64 ≤ f.key ∨ f.key < 0x800008 * 64) :
    (s.regionPut pga log2 part dev e).rd f = s.rd f := by
  have far : ∀ k : Nat, 0x800008 * 64 ≤ k → k < 0x800020 * 64 → k ≠ f.key := by omega
  simp only [State.regionPut]
  rw [State.rd_wr_ne _ _ (far _ (by decide) (by decide)), State.rd_wr_ne _ _ (far _ (by decide) (by decide)),
    State.rd_wr_ne _ _ (far _ (by decide) (by decide)), State.rd_wr_ne _ _ (far _ (by decide) (by decide)),
    State.rd_wr_ne _ _ (far _ (by decide) (by decide)), State.rd_wr_ne _ _ (far _ (by decide) (by decide))]

theorem State.regionPut_busy : (s.regionPut pga log2 part dev e).is1 Reg.EFH_REGION_CMD_BUSY = s.is1 Reg.EFH_REGION_CMD_BUSY := by
  simp only [State.regionPut]
  rw [State.is1_wr_ne _ _ (by decide), State.is1_wr_ne _ _ (by decide), State.is1_wr_ne _ _ (by decide), State.is1_wr_ne _ _ (by decide),
    State.is1_wr_ne _ _ (by decide), State.is1_wr_ne _ _ (by decide)]

theorem State.regionPut_op : (s.regionPut pga log2 part dev e).rd Reg.EFH_REGION_CMD_OP = 1 := State.rd_wr_self ..

theorem State.regionPut_entry (he : e < 4096) : (s.regionPut pga log2 part dev e).rd Reg.EFH_REGION_CMD_ENTRY = e := by
  rw [State.regionPut, State.rd_wr_ne _ _ (by decide), State.rd_wr_self]
  exact Nat.mod_eq_of_lt he

theorem State.regionPut_log2 (hl : log2 < 64) : (s.regionPut pga log2 part dev e).rd Reg.EFH_REGION_ARG0_LOG2 = log2 := by
  rw [State.regionPut, State.rd_wr_ne _ _ (by decide), State.rd_wr_ne _ _ (by decide), State.rd_wr_ne _ _ (by decide),
    State.rd_wr_ne _ _ (by decide), State.rd_wr_self]
  exact Nat.mod_eq_of_lt hl

theorem State.regionPut_pga (hp : pga < 2 ^ 39) : (s.regionPut pga log2 part dev e).rd Reg.EFH_REGION_ARG0_PGA = pga := by
  rw [State.regionPut, State.rd_wr_ne _ _ (by decide), State.rd_wr_ne _ _ (by decide), State.rd_wr_ne _ _ (by decide),
    State.rd_wr_ne _ _ (by decide), State.rd_wr_ne _ _ (by decide), State.rd_wr_self]
  exact Nat.mod_eq_of_lt hp

/-- R387: where an entry may not be set so. -/
def State.regionBadSet (s : State) (pga log2 e : Nat) : Prop :=
  log2 < 21 ∨ 40 < log2 ∨ pga * 2 ^ 21 % 2 ^ log2 ≠ 0 ∨ pgaDev (pga * 2 ^ 21) ≠ s.device ∨
    (s.rd (Reg.EFH_REGION0_STATE e) = 0 ∧
      (pgaCtl (pga * 2 ^ 21) = true ∨ 65536 * s.rd Reg.STM_SIZE_UNITS < pgaOff (pga * 2 ^ 21) + 2 ^ log2))

theorem State.regionFormat_regionPut (hp : pga < 2 ^ 39) (hl : log2 < 64) (he : e < 4096) :
    (s.regionPut pga log2 part dev e).regionFormat = true ↔ s.regionBadSet pga log2 e := by
  have hstate : (s.regionPut pga log2 part dev e).rd (Reg.EFH_REGION0_STATE e) = s.rd (Reg.EFH_REGION0_STATE e) :=
    State.regionPut_rd (.inl (by simp only [Fld.key, Reg.EFH_REGION0_STATE]; omega))
  have hsize : (s.regionPut pga log2 part dev e).rd Reg.STM_SIZE_UNITS = s.rd Reg.STM_SIZE_UNITS := State.regionPut_rd (.inr (by decide))
  have hdev : (s.regionPut pga log2 part dev e).device = s.device := State.regionPut_rd (by decide)
  simp only [State.regionFormat, State.regionPut_log2 hl, State.regionPut_pga hp, State.regionPut_entry he, hstate, hsize, hdev,
    State.regionBadSet, Bool.or_eq_true, Bool.and_eq_true, decide_eq_true_eq, bne_iff_ne, beq_iff_eq, or_assoc]

variable (hh : h = 16 ∨ h = 17) (hidle : s.is1 Reg.EFH_REGION_CMD_BUSY = false) (hp : pga < 2 ^ 39) (hl : log2 < 64) (he : e < 4096)

include hh hidle hp hl he

theorem State.goRegion_put_good (hgood : ¬ s.regionBadSet pga log2 e) :
    (s.regionPut pga log2 part dev e).goRegion h = (s.regionPut pga log2 part dev e).wr Reg.EFH_REGION_CMD_BUSY 1 := by
  have hformat : ¬((s.regionPut pga log2 part dev e).regionFormat = true) := fun h => hgood ((State.regionFormat_regionPut hp hl he).mp h)
  rw [State.goRegion, State.regionPut_op, State.regionPut_busy, hidle, if_neg (by simp; omega), if_neg (by simp [hformat])]

theorem State.goRegion_put_bad (hbad : s.regionBadSet pga log2 e) :
    (s.regionPut pga log2 part dev e).goRegion h = ((s.regionPut pga log2 part dev e).wr Reg.EFH_REGION_CMD_RESULT 3).raise 94 := by
  rw [State.goRegion, State.regionPut_op, State.regionPut_busy, hidle, if_neg (by simp; omega),
    if_pos (.inr ⟨rfl, (State.regionFormat_regionPut hp hl he).mpr hbad⟩)]

end

/-! ### An entry that is freed -/

section

variable {s : State} {i : Nat}

/-- R387: the fields of an entry of the region table. -/
def regionFields (i : Nat) : List Fld :=
  [Reg.EFH_REGION0_BASE i, Reg.EFH_REGION0_LOG2 i, Reg.EFH_REGION0_PUB i, Reg.EFH_REGION0_STATE i, Reg.EFH_REGION1_EPOCH i,
    Reg.EFH_REGION1_OWNER_DEV i, Reg.EFH_REGION1_OWNER_PART i, Reg.EFH_REGION1_OFFER_DEV i, Reg.EFH_REGION1_OFFER_PART i,
    Reg.EFH_REGION1_OFFER_AGE i, Reg.EFH_REGION2_TARGET i]

theorem State.freeRegion_rd (f : Fld) : (s.freeRegion i).rd f = ((regionFields i).foldl (fun (s : State) f => s.wr f 0) s).rd f := rfl

theorem State.freeRegion_state : (s.freeRegion i).rd (Reg.EFH_REGION0_STATE i) = 0 := by
  have far : ∀ f : Fld, 0x810008 + 0x20 * i ≤ f.reg → f.key ≠ (Reg.EFH_REGION0_STATE i).key := by
    intro f hf
    simp only [Fld.key, Reg.EFH_REGION0_STATE]
    omega
  rw [State.freeRegion_rd]
  simp only [regionFields, List.foldl_cons, List.foldl_nil]
  rw [State.rd_wr_ne _ _ (far _ (by simp [Reg.EFH_REGION2_TARGET])), State.rd_wr_ne _ _ (far _ (Nat.le_refl _)),
    State.rd_wr_ne _ _ (far _ (Nat.le_refl _)), State.rd_wr_ne _ _ (far _ (Nat.le_refl _)), State.rd_wr_ne _ _ (far _ (Nat.le_refl _)),
    State.rd_wr_ne _ _ (far _ (Nat.le_refl _)), State.rd_wr_ne _ _ (far _ (Nat.le_refl _)), State.rd_wr_self]
  exact Nat.zero_mod _

theorem State.freeRegion_target : (s.freeRegion i).rd (Reg.EFH_REGION2_TARGET i) = 0 := by
  rw [State.freeRegion_rd]
  simp only [regionFields, List.foldl_cons, List.foldl_nil, State.rd_wr_self]
  exact Nat.zero_mod _

theorem State.freeRegion_store : (s.freeRegion i).store = s.store := by
  simp only [State.freeRegion, List.foldl_cons, List.foldl_nil, State.wr_store]

theorem State.freeRegion_out : (s.freeRegion i).efh.out = s.efh.out := by
  simp only [State.freeRegion, List.foldl_cons, List.foldl_nil, State.wr_efh]

end

/-- Settles O47. -/
theorem ownershipResults : Obligations.OwnershipResults := by
  refine ⟨?orders, ?offer, ?log, ?accept, ?grant, ?ask, ?query, ?inval, ?table, ?drained⟩
  case orders =>
    intro n s o hh hord hstart hext
    have hnot : ¬(s.halted = true) := by simp [hh]
    dsimp only
    refine ⟨fun hop hlive => ?_, fun hop hlost => ?_, fun t hclean hlive => ⟨fun hop => ?_, fun hop => ?_⟩⟩
    · exact (if_neg hnot).trans (congrArg Host.Outcome.next
        ((State.ownerOrder_plain hord hop hstart hext).trans (State.sendOwner_asks hlive _)))
    · exact (if_neg hnot).trans (congrArg Host.Outcome.next
        ((State.ownerOrder_plain hord hop hstart hext).trans (State.sendOwner_lost hlost _)))
    · exact (if_neg hnot).trans (congrArg Host.Outcome.next
        ((State.ownerOrder_clean hord hop hstart hext hclean).trans (State.sendOwner_asks hlive _)))
    · exact (if_neg hnot).trans (congrArg Host.Outcome.next
        ((State.ownerOrder_clean hord hop hstart hext hclean).trans (State.sendOwner_asks hlive _)))
  case offer =>
    intro src part id region epoch rdev rpart fwd s i hdeaf hentry hst2 hst4 howns hpub hother hlive
    have hnot : ¬(s.deaf part.val = true) := by simp [hdeaf]
    have hto : ¬(rdev.val = src.val ∧ rpart.val = part.val) := fun h => hother ⟨Fin.ext h.1, Fin.ext h.2⟩
    change execOfferMsg src part id region epoch rdev rpart fwd s = _
    rw [execOfferMsg, if_neg hnot]
    simp only [hentry, hst4, hst2, howns, hpub, hto, hlive, if_false, Bool.not_true, Bool.false_eq_true, or_self]
  case log =>
    intro src region epoch fd fp tp s j hdeaf hfree hdev
    have hnot : ¬(s.deaf 16 = true) := by simp [hdeaf]
    change execOfferFwd src region epoch fd fp tp s = _
    rw [execOfferFwd, if_neg hnot, hfree]
    exact if_neg (not_not_intro hdev)
  case accept =>
    intro src part id region epoch s hdeaf
    have hnot : ¬(s.deaf part.val = true) := by simp [hdeaf]
    refine ⟨fun i hentry hst hdev hpart hepoch => ?_, fun hentry => ?_⟩
    · change execAcceptMsg src part id region epoch s = _
      rw [execAcceptMsg, if_neg hnot]
      simp only [hentry]
      rw [if_pos ⟨hst, hdev, hpart, hepoch⟩]
    · change execAcceptMsg src part id region epoch s = _
      rw [execAcceptMsg, if_neg hnot]
      simp only [hentry]
  case grant =>
    intro src kind part id region status epoch s hdeaf
    have hnot : ¬(s.deaf 16 = true) := by simp [hdeaf]
    refine ⟨fun o hkind hfind => ?_, fun j hkind hlog hst hdev => ?_⟩
    · change execGrant src kind part id region status epoch s = _
      rw [execGrant, if_neg hnot, if_neg hkind, hfind]
    · change execGrant src kind part id region status epoch s = _
      rw [execGrant, if_neg hnot, if_pos hkind, hlog]
      have hcue : (s.wr (Reg.EFH_OFFER0_STATE j) (if status = 0 then 2 else 3)).cueNow = s.cueNow :=
        State.rd_wr_ne _ _ (by simp only [Fld.key, Reg.EFH_OFFER0_STATE, Reg.CUE_COUNT_COUNT]; omega)
      refine (if_neg (not_or.mpr ⟨not_not_intro hst, not_not_intro hdev⟩)).trans ?_
      dsimp only
      rw [hcue, State.wr_efh]
  case ask =>
    intro i s hh hst hphase hcue hreply
    have hnot : ¬(s.halted = true) := by simp [hh]
    refine (if_neg hnot).trans (if_neg ?_)
    simp only [hst, hphase, hreply, ne_eq, not_true_eq_false, false_or, Option.isSome_none, Bool.false_eq_true, or_false]
    omega
  case query =>
    intro src region epoch s hdeaf
    have hnot : ¬(s.deaf 16 = true) := by simp [hdeaf]
    refine ⟨if_neg hnot, fun i b hentry hst hdev hepoch => ?_,
      fun part id fwd i hdeaf' hentry hst2 hst4 howns => ⟨?_, fun hpub => ?_, fun hpub => ?_⟩⟩
    · change execQueryReply src region epoch b s = _
      rw [execQueryReply, if_neg hnot, hentry]
      exact if_pos ⟨hst, hdev, hepoch⟩
    all_goals
      change execPublishMsg src part id region epoch _ fwd s = _
      rw [execPublishMsg, if_neg (by simp [hdeaf'])]
    · simp [hentry, hst2, hst4, howns]
    · simp [hentry, hst2, hst4, howns, hpub]
    · simp [hentry, hst2, hst4, howns, hpub]
  case inval =>
    intro src region log2 s t hdeaf
    have hnot : ¬(s.deaf 16 = true) := by simp [hdeaf]
    refine ⟨fun hrecall => ?_, fun hrecall => ?_, fun i w hentry hw hleft => ?_⟩
    · change execRegionInval src region log2 s = _
      rw [execRegionInval, if_neg hnot, hrecall]
      rfl
    · change execRegionInval src region log2 s = _
      rw [execRegionInval, if_neg hnot, hrecall]
      rfl
    · change execInvalAck src region s = _
      rw [execInvalAck, if_neg hnot, hentry]
      simp only [hw, hleft, if_true]
  case table =>
    intro h e s hh hhost hidle
    have hnot : ¬(s.halted = true) := by simp [hh]
    have hcore : h.val = 16 ∨ h.val = 17 := by omega
    refine ⟨?_, fun t => ?_, fun pga log2 dev part => ⟨fun hlo hhi hbase hdev hsize => ?_, fun hbad => ?_⟩⟩
    · exact (if_neg hnot).trans (congrArg Host.Outcome.next (State.regionCmd_busy hcore hidle (.inl rfl)))
    · have hidle' : (s.wr Reg.EFH_REGION_ARG0_PGA t.toNat).is1 Reg.EFH_REGION_CMD_BUSY = false :=
        (State.is1_wr_ne _ _ (by decide)).trans hidle
      exact (if_neg hnot).trans ((if_neg (by omega)).trans (congrArg Host.Outcome.next (State.regionCmd_busy hcore hidle' (.inr rfl))))
    · have hgood : ¬ s.regionBadSet pga.toNat log2.toNat e.val := by
        rintro (hb | hb | hb | hb | ⟨hfree, hb⟩)
        · omega
        · omega
        · exact hb hbase
        · exact hb hdev
        · obtain ⟨hctl, hin⟩ := hsize hfree
          rcases hb with hb | hb
          · exact absurd hb (by rw [hctl]; exact Bool.false_ne_true)
          · omega
      exact (if_neg hnot).trans ((if_neg (by omega)).trans (congrArg Host.Outcome.next ((if_neg (by omega)).trans
        (State.goRegion_put_good hcore hidle pga.isLt log2.isLt e.isLt hgood))))
    · exact (if_neg hnot).trans ((if_neg (by omega)).trans (congrArg Host.Outcome.next ((if_neg (by omega)).trans
        (State.goRegion_put_bad hcore hidle pga.isLt log2.isLt e.isLt hbad))))
  case drained =>
    intro e s hh hphase hst hcue
    have hnot : ¬(s.halted = true) := by simp [hh]
    exact ⟨s.freeRegion e.val, (if_neg hnot).trans (if_pos ⟨hphase, hst, hcue⟩), State.freeRegion_state, State.freeRegion_target,
      State.freeRegion_store, State.freeRegion_out⟩

end Sys2Proof.Machine
end
section
/-!
PROOFS. The switch (R393, R400, R401, R403, R405, R409).
-/

namespace Sys2Proof.Machine

section

variable {s : State} {i x : Nat}

/-- R393: the state in which the switch has counted a parcel that arrived. -/
def State.counted (s : State) : State := s.setSw { s.sw with arrived := s.sw.arrived + 1 }

theorem State.counted_copies : s.counted.sw.copies = s.sw.copies := rfl

theorem State.counted_held : s.counted.sw.held = s.sw.held := rfl

theorem State.counted_portFor (p : FabParcel) : s.counted.portFor p = s.portFor p := rfl

theorem State.counted_redFor (a b c : Nat) : s.counted.redFor a b c = s.redFor a b c := rfl

theorem State.counted_redMerges (n : Nat) : s.counted.redMerges n = s.redMerges n := rfl

theorem State.counted_rd (f : Fld) : s.counted.rd f = s.rd f := rfl

/-- R400: the ports of a multicast mask that names none. -/
theorem mcastPorts_nil {mask : Nat} (h : mask % 2 ^ 20 = 0) : (List.range 20).filter (fun b => bitOf mask b) = [] := by
  rw [List.filter_eq_nil_iff]
  intro b hb
  have hbit : (mask % 2 ^ 20).testBit b = false := by rw [h, Nat.zero_testBit]
  rw [Nat.testBit_mod_two_pow, decide_eq_true (List.mem_range.mp hb), Bool.true_and, ← bitOf_eq_testBit] at hbit
  simp [hbit]

section

variable (hlink : 18 ≤ i ∨ (s.rhLink i (parcelOf x).1.part = false ∧ ((parcelOf x).1.op = 0x0A ∨ s.deaf (parcelOf x).1.part = false)))

include hlink

/-- R393: a parcel of a link that neither is cut nor fenced is judged by its seal and its form. -/
theorem State.switchArrive_judged :
    (¬(i < 18 ∧ s.rhLink i (parcelOf x).1.part = true)) ∧
      ¬(i < 18 ∧ (parcelOf x).1.op ≠ 0x0A ∧ s.deaf (parcelOf x).1.part = true) := by
  rcases hlink with h | ⟨hrh, hop | hdeaf⟩
  · exact ⟨fun h' => absurd h'.1 (by omega), fun h' => absurd h'.1 (by omega)⟩
  · exact ⟨by simp [hrh], by simp [hop]⟩
  · exact ⟨by simp [hrh], by simp [hdeaf]⟩

theorem State.switchArrive_malformed (hseal : (parcelOf x).2 = true) (hform : (parcelOf x).1.wellFormed = false) :
    s.switchArrive i x = (s.satAdd Reg.SWX_ERR_MALFORMED 1).hopCredit i (parcelOf x).1.cls := by
  obtain ⟨hcut, hfence⟩ := State.switchArrive_judged hlink
  simp only [State.switchArrive, hcut, hfence, if_false, hseal, hform, Bool.not_true, Bool.not_false, Bool.false_eq_true, if_true]

theorem State.switchArrive_broken (hseal : (parcelOf x).2 = false) (hform : (parcelOf x).1.wellFormed = false) :
    s.switchArrive i x = ((s.satAdd Reg.SWX_ERR_SEAL 1).raise 99).hopCredit i (parcelOf x).1.cls := by
  obtain ⟨hcut, hfence⟩ := State.switchArrive_judged hlink
  simp only [State.switchArrive, hcut, hfence, if_false, hseal, hform, Bool.not_false, if_true, Bool.false_eq_true, false_and]
  cases s.portFor (parcelOf x).1 <;> rfl

theorem State.switchArrive_sound (hseal : (parcelOf x).2 = true) (hform : (parcelOf x).1.wellFormed = true) :
    s.switchArrive i x = s.counted.switchRoute i (parcelOf x).1 := by
  obtain ⟨hcut, hfence⟩ := State.switchArrive_judged hlink
  simp only [State.switchArrive, hcut, hfence, if_false, hseal, hform, Bool.not_true, Bool.false_eq_true, State.counted]

end

section

variable {p : FabParcel} (hcopies : s.sw.copies = []) (hheld : s.sw.held = [])

include hcopies hheld

theorem State.switchRoute_unicast {port : Nat} (hmcast : p.mcast = false) (hop : p.op ≠ 8) (hport : s.portFor p = some port) :
    s.switchRoute i p = s.switchJoin i port p true := by
  simp only [State.switchRoute, hcopies, hheld, List.any_nil, Bool.false_eq_true, or_self, if_false, hmcast, hop, hport]

theorem State.switchRoute_merge {n : Nat} (hmcast : p.mcast = false) (hop : p.op = 8) (hkind : bitsOf p.arg 19 2 = 1)
    (hred : s.redFor p.dst (bitsOf p.arg 0 13) (bitsOf p.arg 13 6) = some n) (hmerges : s.redMerges n = true) :
    s.switchRoute i p = s.setSw { s.sw with mergeQ := s.sw.mergeQ ++ [(i, p.num)] } := by
  have hone : ¬(1 = 2 ∧ bitsOf p.pl 0 32 ≠ 0) := by simp
  simp only [State.switchRoute, hcopies, hheld, List.any_nil, Bool.false_eq_true, or_self, if_false, hmcast, hop, if_true, hred, hkind, hone,
    hmerges, and_self]

theorem State.switchRoute_empty (hmcast : p.mcast = true) (hmask : s.rd (Reg.SWX_MCAST_MASK p.dst) % 2 ^ 20 = 0) :
    s.switchRoute i p =
      ((s.satAdd Reg.SWX_ERR_MCAST_EMPTY 1).setSw { s.sw with dropped := s.sw.dropped + 1 }).hopCredit i p.cls := by
  simp only [State.switchRoute, hcopies, hheld, List.any_nil, Bool.false_eq_true, or_self, if_false, hmcast, if_true, mcastPorts_nil hmask]

end

end

/-- R400: the last copy of a parcel gives its hop credit back. -/
theorem State.copyGo_last {s t : State} {i port n : Nat} {j : CopyJob} {act : Bool}
    (hfind : s.sw.copies.find? (fun j => j.input == i) = some j) (hports : j.ports = [port]) (hroom : s.sharedOk (parcelOf j.p).1.cls = true)
    (hjudge : s.judgeDrop i port (parcelOf j.p).1.cls j.colour = (t, act)) :
    let u := t.enqueue port
      { p := (if act then { (parcelOf j.p).1 with mark := true } else (parcelOf j.p).1).num, input := i, cls := (parcelOf j.p).1.cls }
    s.copyGo i (n + 1) = ((u.setSw { u.sw with made := u.sw.made + 1, copies := u.sw.copies.erase j }).hopCredit
      i (parcelOf j.p).1.cls).releaseHeld i (parcelOf j.p).1.cls := by
  simp only [State.copyGo, hfind, hports, hroom, Bool.not_true, Bool.false_eq_true, if_false, hjudge, List.isEmpty_nil, if_true]

/-- Settles O48. -/
theorem switchResults : Obligations.SwitchResults := by
  refine ⟨?arrive, ?refill, ?copy, ?idle, ?merge, ?slots, ?pop, ?sweep⟩
  case arrive =>
    intro i x s
    dsimp only
    intro hh hcopies hheld hlink
    have hnot : ¬(s.halted = true) := by simp [hh]
    have hc : s.counted.sw.copies = [] := State.counted_copies.trans hcopies
    have hl : s.counted.sw.held = [] := State.counted_held.trans hheld
    have hexec : exec (.switchInputArrival i x) s = .next (s.switchArrive i.val x.toNat) := if_neg hnot
    refine ⟨fun hseal hform => ?_, fun hseal hform => ?_, fun port hseal hform hmcast hop hport => ?_,
      fun n hseal hform hmcast hop hkind hred hmerges => ?_, fun hseal hform hmcast hmask => ?_⟩
    · rw [hexec, State.switchArrive_malformed hlink hseal hform]
    · rw [hexec, State.switchArrive_broken hlink hseal hform]
    · rw [hexec, State.switchArrive_sound hlink hseal hform,
        State.switchRoute_unicast hc hl hmcast hop ((State.counted_portFor _).trans hport), State.counted]
    · rw [hexec, State.switchArrive_sound hlink hseal hform,
        State.switchRoute_merge hc hl hmcast hop hkind ((State.counted_redFor ..).trans hred) ((State.counted_redMerges _).trans hmerges)]
      rfl
    · rw [hexec, State.switchArrive_sound hlink hseal hform,
        State.switchRoute_empty hc hl hmcast ((congrArg (· % 2 ^ 20) (State.counted_rd _)).trans hmask)]
      rfl
  case refill =>
    intro s hh
    exact if_neg (by simp [hh])
  case copy =>
    intro i s t j port act
    dsimp only
    intro hh hfind hports hroom hjudge
    exact (if_neg (by simp [hh])).trans (congrArg Host.Outcome.next (State.copyGo_last hfind hports hroom hjudge))
  case idle =>
    intro s hh hq
    change execTallyMerge s = _
    rw [execTallyMerge, if_neg (by simp [hh]), hq]
  case merge =>
    intro s i raw rest n a
    dsimp only
    intro hh hq hnz hred hmerges hfind hvoid hcount
    change execTallyMerge s = _
    rw [execTallyMerge, if_neg (by simp [hh]), hq]
    simp only [hred, hnz, if_false, hmerges, Bool.not_true, Bool.false_eq_true, hfind, hvoid, hcount, if_true]
  case slots =>
    intro s hh
    exact if_neg (by simp [hh])
  case pop =>
    intro s port c n rest hpig hback
    simp only [State.popCell, hpig, hback, Bool.false_eq_true, if_false]
  case sweep =>
    intro s hh hen
    have hnot : ¬(s.halted = true) := by simp [hh]
    have hon : ¬((!s.is1 Reg.SWX_AUDIT_EN) = true) := by simp [hen]
    exact ⟨fun hnone => (if_neg hnot).trans ((if_neg hon).trans (if_pos (List.isEmpty_iff.mpr hnone))),
      fun hsome => (if_neg hnot).trans ((if_neg hon).trans (if_neg (fun h => hsome (List.isEmpty_iff.mp h))))⟩

end Sys2Proof.Machine
end
section
/-!
PROOFS. Embedding orders and search (R384, R414, R417 to R421, R423, R426, R435, R437, R442, R444).
-/

namespace Sys2Proof.Machine

/-! ### Orders -/

section

variable {s r : State} {n k op : Nat} {o o' : Order} {j : EmbJob} (hord : s.orderAt n = some o) (hstart : s.mayStart o = true) (hop : o.op = op)

include hord hstart hop

theorem State.embOrder_empty (hcount : o.by_ 12 4 = 0) (hjob : s.embJob o = none) : s.embOrder n k op = s.embDone o 0 := by
  simp only [State.embOrder, hord, hop, ne_eq, not_true_eq_false, hstart, Bool.not_true, Bool.false_eq_true, or_self, if_false, hjob,
    Option.isNone_none, hcount, true_or, and_self, if_true]

theorem State.embOrder_barred (hcount : o.by_ 12 4 ≠ 0) (hpool : o.by_ 9 1 % 4 = 0 ∨ o.by_ 16 4 ≠ 0) (hjob : s.embJob o = none)
    (hpart : s.rd (Reg.EMB_TABLE0_PARTITION (o.by_ 8 1)) ≠ o.part) : s.embOrder n k op = s.embDone o 0x11 := by
  have hwork : ¬(o.by_ 12 4 = 0 ∨ op = 4 ∧ ¬o.by_ 9 1 % 4 = 0 ∧ o.by_ 16 4 = 0) := by
    rintro (h | ⟨-, hp, hb⟩)
    · exact hcount h
    · exact hpool.elim hp (fun h => h hb)
  simp only [State.embOrder, hord, hop, ne_eq, not_true_eq_false, hstart, Bool.not_true, Bool.false_eq_true, or_self, if_false, hjob,
    Option.isNone_none, hwork, and_false, hpart, not_false_eq_true, and_self, if_true]

theorem State.embOrder_goes (hjob : s.embJob o = some j) (hcurtain : s.curtain o.part = false)
    (hserving : s.serving o k = some (r, o')) (hgave : r.gaveUp k = false) (hjob' : r.embJob o' = some j) :
    s.embOrder n k op = r.embRead o' k (o.by_ 12 4 + 1) := by
  simp only [State.embOrder, hord, hop, ne_eq, not_true_eq_false, hstart, Bool.not_true, Bool.false_eq_true, or_self, if_false, hjob,
    Option.isNone_some, false_and, hcurtain, hserving, hgave, hjob', Option.isSome_some, if_true]

end

/-! ### Requests for rows -/

section

variable {s t : State} {q : EmbReq}

/-- R421: the state in which a request alone is held. -/
def State.heldOne (s : State) (q : EmbReq) : State := { s with emb := { s.emb with held := [q] } }

/-- R421: a state with no request held. -/
def State.heldNone (s : State) : State := { s with emb := { s.emb with held := [] } }

theorem State.heldOne_fwd : (s.heldOne q).emb.fwd = s.emb.fwd := rfl

theorem State.heldOne_coming : (s.heldOne q).emb.coming = s.emb.coming := rfl

theorem State.heldOne_rd (f : Fld) : (s.heldOne q).rd f = s.rd f := rfl

theorem State.heldOne_rowAt (a b : Nat) : (s.heldOne q).rowAt a b = s.rowAt a b := rfl

theorem State.heldOne_hubWaits (a : Nat) : (s.heldOne q).hubWaits a = s.hubWaits a := rfl

theorem State.heldOne_selector (a : RowAt) : (s.heldOne q).selector a = s.selector a := rfl

theorem State.heldOne_rowBankOf (a b : Nat) : (s.heldOne q).rowBankOf a b = s.rowBankOf a b := rfl

theorem State.rowArrive_eq (hheld : s.emb.held = []) : s.rowArrive q = (s.heldOne q).serveHeld := by
  rw [State.rowArrive, hheld]
  rfl

theorem State.serveHeld_done (h : (s.heldOne q).rowMeet q false = (t, none)) : (s.heldOne q).serveHeld = t.heldNone := by
  have hheld : (s.heldOne q).emb.held = [q] := rfl
  simp only [State.serveHeld, hheld, List.foldl_cons, List.foldl_nil, List.any_nil, h]
  rfl

theorem State.serveHeld_kept (h : (s.heldOne q).rowMeet q false = (s.heldOne q, some q)) : (s.heldOne q).serveHeld = s.heldOne q := by
  have hheld : (s.heldOne q).emb.held = [q] := rfl
  simp only [State.serveHeld, hheld, List.foldl_cons, List.foldl_nil, List.any_nil, h]
  rfl

variable (hslot : q.slot = none)

include hslot

theorem State.rowMeet_moved {f : EmbFwd} (hf : s.emb.fwd.find? (fun f => f.table == q.table && f.row == q.row) = some f) :
    s.rowMeet q false = (s.rowPass q f, none) := by
  simp only [State.rowMeet, Bool.false_eq_true, if_false, hslot, hf]

variable (hf : s.emb.fwd.find? (fun f => f.table == q.table && f.row == q.row) = none)

include hf

theorem State.rowMeet_waits (hw : s.emb.coming.any (fun c => c.2 == (q.table, q.row)) = true) : s.rowMeet q false = (s, some q) := by
  simp only [State.rowMeet, Bool.false_eq_true, if_false, hslot, hf, hw, if_true]

variable (hw : s.emb.coming.any (fun c => c.2 == (q.table, q.row)) = false)

include hw

theorem State.rowMeet_stale (hat : s.rowAt q.table q.row = none) :
    s.rowMeet q false = ((s.satAdd Reg.EMB_STAT_STALE 1).rowAnswer q 0x10 [], none) := by
  simp only [State.rowMeet, Bool.false_eq_true, if_false, hslot, hf, hw, hat]

theorem State.rowMeet_here {a : RowAt} (hat : s.rowAt q.table q.row = some a) : s.rowMeet q false = s.rowIssue q a := by
  simp only [State.rowMeet, Bool.false_eq_true, if_false, hslot, hf, hw, hat]

end

section

variable {s t : State} {q : EmbReq} {a : RowAt}

theorem State.rowIssue_det (hkind : q.kind = 2) : s.rowIssue q a = (s.rowDet q, none) := if_pos hkind

theorem State.rowIssue_read (hkind : q.kind = 0) (hwait : s.hubWaits a.sel = false)
    (hlines : s.rowLines (s.rowBankOf q.table q.row) (s.activeSlot a) (16 * s.rd (Reg.EMB_TABLE0_ROW16 q.table)) false = (t, true)) :
    s.rowIssue q a =
      ((t.rowUsed (s.rowBankOf q.table q.row) (s.activeSlot a) (16 * s.rd (Reg.EMB_TABLE0_ROW16 q.table))).rowRead q (s.activeSlot a)
        (16 * s.rd (Reg.EMB_TABLE0_ROW16 q.table)), none) := by
  have hw : (q.kind == 1 || q.kind == 3 || q.kind == 4) = false := by simp [hkind]
  have hn : ¬(4 ≤ q.kind) := by omega
  have h2 : ¬(q.kind = 2) := by omega
  have h3 : ¬(q.kind = 3) := by omega
  rw [State.activeSlot] at hlines
  simp only [State.rowIssue, h2, h3, if_pos hkind, hwait, State.rowServe, hw, hn, hlines, if_false, Bool.false_eq_true, Bool.not_true,
    State.activeSlot]

theorem State.rowIssue_add (hkind : q.kind = 1) (hwait : s.hubWaits a.sel = false)
    (hlines : s.rowLines (s.rowBankOf q.table q.row) (s.activeSlot a) (16 * s.rd (Reg.EMB_TABLE0_ROW16 q.table)) true = (t, true)) :
    s.rowIssue q a =
      ((t.rowUsed (s.rowBankOf q.table q.row) (s.activeSlot a) (16 * s.rd (Reg.EMB_TABLE0_ROW16 q.table))).rowAdd q (s.activeSlot a)
        (16 * s.rd (Reg.EMB_TABLE0_ROW16 q.table)), none) := by
  have hw : (q.kind == 1 || q.kind == 3 || q.kind == 4) = true := by simp [hkind]
  have hn : ¬(4 ≤ q.kind) := by omega
  have h0 : ¬(q.kind = 0) := by omega
  have h2 : ¬(q.kind = 2) := by omega
  have h3 : ¬(q.kind = 3) := by omega
  rw [State.activeSlot] at hlines
  simp only [State.rowIssue, h0, h2, h3, if_pos hkind, hwait, State.rowServe, hw, hn, hlines, if_false, Bool.false_eq_true, Bool.not_true,
    State.activeSlot]

theorem State.rowIssue_put (hkind : q.kind = 3) (hwait : s.hubWaits a.sel = false)
    (hlines : s.rowLines (s.rowBankOf q.table q.row) (a.base + a.stride * (1 - s.selector a)) (16 * s.rd (Reg.EMB_TABLE0_ROW16 q.table)) true
      = (t, true)) :
    s.rowIssue q a =
      ((t.rowUsed (s.rowBankOf q.table q.row) (a.base + a.stride * (1 - s.selector a)) (16 * s.rd (Reg.EMB_TABLE0_ROW16 q.table))).rowPut q
        (a.base + a.stride * (1 - s.selector a)) (16 * s.rd (Reg.EMB_TABLE0_ROW16 q.table)), none) := by
  have hw : (q.kind == 1 || q.kind == 3 || q.kind == 4) = true := by simp [hkind]
  have hn : ¬(4 ≤ q.kind) := by omega
  have h2 : ¬(q.kind = 2) := by omega
  have h0 : ¬(q.kind = 0) := by omega
  have h1 : ¬(q.kind = 1) := by omega
  simp only [State.rowIssue, h0, h1, h2, if_pos hkind, hwait, State.rowServe, hw, hn, hlines, if_false, Bool.false_eq_true, Bool.not_true]

end

/-! ### Search -/

section

variable {s : State}

/-- R442: where no task runs, a spill writes nothing. -/
theorem State.spill_of_run_nil (hrun : s.srch.run = []) (p : Nat → STask → Bool)
    (write : Nat → State → STask × Nat → State) (cs : List Nat) :
    cs.foldl (fun (s : State) c => (s.srch.run.filter (p c)).zipIdx.foldl (write c) s) s = s :=
  List.foldl_fixed' (fun c => by rw [hrun]; rfl) _

end

/-- Settles O49. -/
theorem embeddingAndSearchResults : Obligations.EmbeddingAndSearchResults := by
  refine ⟨?orders, ?rows, ?landed, ?drained, ?result, ?search, ?task, ?spill, ?shard⟩
  case orders =>
    intro n k s o hh hord hstart
    have hnot : ¬(s.halted = true) := by simp [hh]
    dsimp only
    have hall : ∀ op (c : Instr), o.op = op → exec c s = .next (s.embOrder n.val k.val op) →
        (o.by_ 12 4 = 0 → s.embJob o = none → exec c s = .next (s.embDone o 0)) ∧
        (o.by_ 12 4 ≠ 0 → (o.by_ 9 1 % 4 = 0 ∨ o.by_ 16 4 ≠ 0) → s.embJob o = none →
          s.rd (Reg.EMB_TABLE0_PARTITION (o.by_ 8 1)) ≠ o.part → exec c s = .next (s.embDone o 0x11)) ∧
        (∀ r o' j, o.by_ 12 4 ≠ 0 → s.embJob o = some j → s.curtain o.part = false → s.serving o k.val = some (r, o') →
          r.gaveUp k.val = false → r.embJob o' = some j → exec c s = .next (r.embRead o' k.val (o.by_ 12 4 + 1))) := by
      intro op c hop hexec
      exact ⟨fun hcount hjob => by rw [hexec, State.embOrder_empty hord hstart hop hcount hjob],
        fun hcount hpool hjob hpart => by rw [hexec, State.embOrder_barred hord hstart hop hcount hpool hjob hpart],
        fun r o' j _ hjob hcurtain hserving hgave hjob' => by
          rw [hexec, State.embOrder_goes hord hstart hop hjob hcurtain hserving hgave hjob']⟩
    exact ⟨fun hop => hall 4 _ hop (if_neg hnot), fun hop => hall 5 _ hop (if_neg hnot), fun hop => hall 6 _ hop (if_neg hnot)⟩
  case rows =>
    intro src part id n table row kind base f32 data dead s hdeaf
    have hnot : ¬(s.deaf part.val = true) := by simp [hdeaf]
    dsimp only
    intro hheld
    have hlook : exec (.rowLookup src part id n table row) s = _ :=
      (if_neg hnot).trans (congrArg Host.Outcome.next (State.rowArrive_eq hheld))
    have hupd : exec (.rowUpdate src part id n table row kind base f32 data dead) s = _ :=
      (if_neg hnot).trans (congrArg Host.Outcome.next (State.rowArrive_eq hheld))
    refine ⟨fun f hf => ⟨?_, ?_⟩, fun hf hw => ⟨?_, ?_⟩, fun hf hw hat => ⟨?_, ?_⟩, fun x hf hw hat =>
      ⟨fun hkind => ?_, fun hwait => ⟨fun t hl => ?_, fun t hkind hl => ?_, fun t hkind hl => ?_⟩⟩⟩
    · exact hlook.trans (congrArg Host.Outcome.next (State.serveHeld_done (State.rowMeet_moved rfl hf)))
    · exact hupd.trans (congrArg Host.Outcome.next (State.serveHeld_done (State.rowMeet_moved rfl hf)))
    · exact hlook.trans (congrArg Host.Outcome.next (State.serveHeld_kept (State.rowMeet_waits rfl hf hw)))
    · exact hupd.trans (congrArg Host.Outcome.next (State.serveHeld_kept (State.rowMeet_waits rfl hf hw)))
    · exact hlook.trans (congrArg Host.Outcome.next (State.serveHeld_done (State.rowMeet_stale rfl hf hw hat)))
    · exact hupd.trans (congrArg Host.Outcome.next (State.serveHeld_done (State.rowMeet_stale rfl hf hw hat)))
    · exact hupd.trans (congrArg Host.Outcome.next (State.serveHeld_done
        ((State.rowMeet_here rfl hf hw hat).trans (State.rowIssue_det (by simp [hkind])))))
    · exact hlook.trans (congrArg Host.Outcome.next (State.serveHeld_done
        ((State.rowMeet_here rfl hf hw hat).trans (State.rowIssue_read rfl hwait hl))))
    · exact hupd.trans (congrArg Host.Outcome.next (State.serveHeld_done
        ((State.rowMeet_here rfl hf hw hat).trans (State.rowIssue_add (by simp [hkind]) hwait hl))))
    · exact hupd.trans (congrArg Host.Outcome.next (State.serveHeld_done
        ((State.rowMeet_here rfl hf hw hat).trans (State.rowIssue_put (by simp [hkind]) hwait hl))))
  case landed =>
    intro table row data marks s k a hdeaf hcoming hat
    dsimp only
    intro hheld
    change execHotRowLanded table row data marks s = _
    rw [execHotRowLanded, if_neg (by simp [hdeaf]), hcoming, hat]
    dsimp only
    rw [State.serveHeld, hheld]
    rfl
  case drained =>
    intro k s f hh hf hphase hidle
    change execEmbForwardDrained k s = _
    rw [execEmbForwardDrained, if_neg (by simp [hh]), hf]
    exact if_pos ⟨hphase, hidle⟩
  case result =>
    intro id n data s j o hdeaf hjob hord hout hop hctx
    have hnot : ¬(s.deaf 16 = true) := by simp [hdeaf]
    obtain ⟨v, hv⟩ := Option.isSome_iff_exists.mp hout
    refine ⟨?_, ?_, ?_, ?_⟩ <;>
    · change execRowResult id n _ data s = _
      rw [execRowResult, if_neg hnot, hjob]
      simp [hord, hv, hop, hctx, State.lostIndex, EmbJob.lose]
  case search =>
    intro n k s o hh hord hstart hop
    have hnot : ¬(s.halted = true) := by simp [hh]
    have hgo : ¬(o.op ≠ 7 ∨ (!s.mayStart o) = true) := by simp [hop, hstart]
    refine ⟨fun hcount hjob => ?_, fun hcount hjob hpart => ?_, fun r o' j hjob hcurtain hserving hgave hjob' => ?_⟩ <;>
      change execSearchOrder n k s = _ <;> rw [execSearchOrder, if_neg hnot, hord] <;> dsimp only <;> rw [if_neg hgo]
    · rw [if_pos ⟨by simp [hjob], hcount⟩]
    · rw [if_neg (fun h => hcount h.2), if_pos ⟨by simp [hjob], hpart⟩]
    · simp only [hjob, Option.isNone_some, Bool.false_eq_true, false_and, if_false, hcurtain, hserving, hgave, hjob', Option.isSome_some, if_true]
  case task =>
    intro src part id q index shard clsR k w probes req exc code s hdeaf
    have hnot : ¬(s.deaf part.val = true) := by simp [hdeaf]
    exact ⟨fun hc => (if_neg hnot).trans (if_pos hc), fun hc => (if_neg hnot).trans (if_neg (by simp [hc]))⟩
  case spill =>
    intro t s hh hphase hofs hofs' hlive hrun
    have htime : s.spillTime = true := by simp [State.spillTime, State.period, hphase, hofs, hofs']
    change execSearchSpill t s = _
    rw [execSearchSpill, if_neg (by simp [hh]), if_neg (by simp [htime, hlive])]
    dsimp only
    rw [State.spill_of_run_nil hrun]
  case shard =>
    intro id q shard dead v k list s j o x hdeaf hjob hord hq hleft hctx
    change execShardResult id q shard dead v k list s = _
    rw [execShardResult, if_neg (by simp [hdeaf]), hjob]
    simp only [hord, hq, hleft, Bool.not_true, Bool.false_eq_true, if_false, hctx]

end Sys2Proof.Machine
end
section
/-!
PROOFS. Resilience (R463, R467, R473, R474, R478, R503).
-/

namespace Sys2Proof.Machine

/-! ### Restores -/

section

variable {s : State} {h : Nat} {slots : List (Option (List (BitVec 512 × Byte)))} (hh : 16 ≤ h)
  (hbusy : s.is1 Reg.RSL_RESTORE_CMD_BUSY = false)

include hh hbusy

theorem State.goRestore_noStep (hstep : s.rd Reg.RSL_RESTORE_CMD_STEP = 0) : s.goRestore h slots = s.restoreEnd 2 := by
  have hgo : ¬(h < 16 ∨ s.is1 Reg.RSL_RESTORE_CMD_BUSY = true) := by simp [hbusy]; omega
  exact (if_neg hgo).trans (if_pos (.inl hstep))

theorem State.goRestore_empty (hstep : s.rd Reg.RSL_RESTORE_CMD_STEP ≠ 0) (hcount : s.rd Reg.RSL_RESTORE_UNIT_COUNT = 0) :
    s.goRestore h slots = s.restoreEnd 1 := by
  have hgo : ¬(h < 16 ∨ s.is1 Reg.RSL_RESTORE_CMD_BUSY = true) := by simp [hbusy]; omega
  have hfit : ¬(s.rd Reg.RSL_RESTORE_CMD_STEP = 0 ∨ (s.rd Reg.RSL_RESTORE_UNIT_COUNT ≠ 0 ∧
      s.rd Reg.STM_SIZE_UNITS < s.rd Reg.RSL_RESTORE_UNIT_FIRST + s.rd Reg.RSL_RESTORE_UNIT_COUNT)) := by omega
  exact (if_neg hgo).trans ((if_neg hfit).trans (if_pos hcount))

/-- R474: the state in which a restore has begun. -/
def State.restoring (s : State) : State := (s.wr Reg.RSL_RESTORE_CMD_BUSY 1).wr Reg.RSL_PM_STATE_READY 0

omit hh hbusy in
theorem State.restoring_device : s.restoring.device = s.device := by
  rw [State.restoring, State.device, State.rd_wr_ne _ _ (by decide), State.rd_wr_ne _ _ (by decide), State.device]

theorem State.goRestore_unit {x : List (BitVec 512 × Byte)} (hstep : s.rd Reg.RSL_RESTORE_CMD_STEP ≠ 0)
    (hcount : s.rd Reg.RSL_RESTORE_UNIT_COUNT = 1) (hfirst : s.rd Reg.RSL_RESTORE_UNIT_FIRST < s.rd Reg.STM_SIZE_UNITS)
    (hsource : s.rd Reg.RSL_RESTORE_CMD_SOURCE ≠ s.device) (hlive : bitOf s.res.lostDevices (s.rd Reg.RSL_RESTORE_CMD_SOURCE) = false) :
    s.goRestore h [some x] = (s.restoring.send
      { name := "RESTORE", dest := s.rd Reg.RSL_RESTORE_CMD_SOURCE,
        args := [s.device, s.rd Reg.RSL_RESTORE_UNIT_FIRST, 1, s.rd Reg.RSL_RESTORE_CMD_STEP] }).restoreUnit
      (s.rd Reg.RSL_RESTORE_UNIT_FIRST) (x.take 1024) := by
  have hgo : ¬(h < 16 ∨ s.is1 Reg.RSL_RESTORE_CMD_BUSY = true) := by simp [hbusy]; omega
  have hfit : ¬(s.rd Reg.RSL_RESTORE_CMD_STEP = 0 ∨ (1 ≠ 0 ∧
      s.rd Reg.STM_SIZE_UNITS < s.rd Reg.RSL_RESTORE_UNIT_FIRST + 1)) := by omega
  have hlost : ¬(bitOf s.restoring.res.lostDevices (s.rd Reg.RSL_RESTORE_CMD_SOURCE) = true) := by
    rw [State.restoring, State.wr_res, State.wr_res, hlive]
    exact Bool.false_ne_true
  rw [State.goRestore, if_neg hgo]
  dsimp only
  rw [hcount, if_neg hfit, if_neg (by decide), ← State.restoring, State.restoring_device, if_neg hsource, if_neg hlost]
  rfl

end

/-! ### Rehearsals -/

/-- R478: where KINDS names the first kind alone, that kind is next. -/
theorem rehearsalKind_first : ∀ r < 4, ((List.range 4).map (fun i => (r + i) % 4)).find? (fun k => bitOf 1 k) = some 0 := by decide

section

variable {s : State} (r : Resil)

theorem State.rd_res (f : Fld) : State.rd { s with res := r } f = s.rd f := rfl

theorem State.cueNow_res : State.cueNow { s with res := r } = s.cueNow := rfl

theorem State.bit_res (f : Fld) (b : Nat) : State.bit { s with res := r } f b = s.bit f b := rfl

end

/-- Settles O50. -/
theorem resilienceResults : Obligations.ResilienceResults := by
  refine ⟨?postcard, ?suspect, ?quorum, ?restore, ?done, ?joining, ?test, ?order, ?rehearsal⟩
  case postcard =>
    intro src cue ofs fl coord heard sus ver rs rv skew s hh
    dsimp only
    have hnot : ¬(s.halted = true) := by simp [hh]
    refine ⟨fun hlost hjoin => ?_, fun hlost hlive => ?_, fun hlost hlive hleader hcue hsus => ?_⟩
    · exact (if_neg hnot).trans (if_pos ⟨hlost, by simp [hjoin]⟩)
    · exact (if_neg hnot).trans ((if_neg (by simp [hlost])).trans (if_pos (show (!bitOf s.live src.val) = true by simp [hlive])))
    · change execPostcard src cue ofs fl coord heard sus ver rs rv skew s = _
      rw [execPostcard, if_neg hnot]
      dsimp only
      rw [if_neg (by simp [hlost])]
      refine (if_neg (show ¬((!bitOf s.live src.val) = true) by simp [hlive])).trans ?_
      simp only [State.rd_res, State.cueNow_res, State.bit_res, hleader, hcue, hsus, ne_eq, not_false_eq_true, not_true_eq_false, true_or, if_true,
        if_false, Bool.false_eq_true]
  case suspect =>
    intro j s hh hlive hsus hself
    have hnot : ¬(s.halted = true) := by simp [hh]
    exact ⟨fun hmiss => (if_neg hnot).trans (if_pos ⟨hlive, hmiss, by simp [hsus], hself⟩),
      fun hmiss => (if_neg hnot).trans (if_neg (fun h => absurd h.2.1 (by omega)))⟩
  case quorum =>
    intro s hh hphase hmem hno hfenced
    have hnot : ¬(s.halted = true) := by simp [hh]
    exact (if_neg hnot).trans ((if_pos ⟨hmem, hno, hphase⟩).trans (congrArg Host.Outcome.next (if_neg (by simp [hfenced]))))
  case restore =>
    intro h slots s hh hcore hbusy
    have hnot : ¬(s.halted = true) := by simp [hh]
    refine ⟨fun hstep => ?_, fun hstep hcount => ?_, fun x hslots hstep hcount hfirst hsource hlive => ?_⟩
    · exact (if_neg hnot).trans (congrArg Host.Outcome.next (State.goRestore_noStep hcore hbusy hstep))
    · exact (if_neg hnot).trans (congrArg Host.Outcome.next (State.goRestore_empty hcore hbusy hstep hcount))
    · subst hslots
      exact (if_neg hnot).trans (congrArg Host.Outcome.next (State.goRestore_unit hcore hbusy hstep hcount hfirst hsource hlive))
  case done =>
    intro s hh hbusy
    exact (if_neg (by simp [hh])).trans (if_neg (by simp [hbusy]))
  case joining =>
    intro h s hh hcore hjoin
    exact (if_neg (by simp [hh])).trans (if_neg (by simp [hjoin]; omega))
  case test =>
    intro pass s hh htest
    exact (if_neg (by simp [hh])).trans (if_neg (by simp [htest]))
  case order =>
    intro n s o hh hord hstart hop
    dsimp only
    have hgo : ¬(o.op ≠ 0x22 ∨ (!s.mayStart o) = true) := by simp [hop, hstart]
    refine ⟨fun hst hlive f => ?_, fun hnew => ⟨fun hbar f => ?_, fun hpriv hfm => ⟨?_, ?_⟩⟩⟩
    all_goals
      change execAdmitOrder n _ s = _
      rw [execAdmitOrder, if_neg (by simp [hh]), hord]
      dsimp only
      rw [if_neg hgo]
    · rw [if_pos ⟨by simp [hst], hlive⟩]
    · rw [if_neg (by rcases hnew with h | h <;> simp [h]), if_pos (hbar.imp_left (by simp))]
    · rw [if_neg (by rcases hnew with h | h <;> simp [h]), if_neg (by simp [hpriv, hfm]), if_neg Bool.false_ne_true]
    · rw [if_neg (by rcases hnew with h | h <;> simp [h]), if_neg (by simp [hpriv, hfm]), if_pos rfl]
  case rehearsal =>
    intro s hh hen hiv hphase hcue hkind hkinds hcues hnext
    dsimp only
    have hgo : ¬((!s.is1 Reg.RSL_RH_CTL_EN) = true ∨ s.rd Reg.RSL_RH_CTL_INTERVAL = 0 ∨ s.phase ≠ 0 ∨
        s.cueNow % s.rd Reg.RSL_RH_CTL_INTERVAL ≠ 0 ∨ s.res.rhKind.isSome = true ∨ 1 = 0) := by simp [hen, hiv, hphase, hcue, hkind]
    have hruns : (min (s.rd Reg.RSL_RH_CTL_CUES) 7 != 0) = true := by simp; omega
    change execRehearsalInjection s = _
    rw [execRehearsalInjection, if_neg (by simp [hh])]
    dsimp only
    rw [hkinds, if_neg hgo, rehearsalKind_first _ hnext]
    simp [hruns, b2n]

end Sys2Proof.Machine
end
section
/-!
PROOFS. Port H and the mailboxes of the edge agents (R482 to R484, R486, R487, R490, R551).
-/

namespace Sys2Proof.Machine

section

variable {s : State} (hup : s.hostUp = true)

include hup

theorem hostUp_halted : s.halted = false := by
  simp only [State.hostUp, Bool.and_eq_true, Bool.not_eq_true'] at hup
  exact hup.2

theorem hostUp_spdm : (s.spdmUp && s.is1 Reg.HPT_LINK_UP) = true := by
  simp only [State.hostUp, Bool.and_eq_true] at hup
  obtain ⟨⟨hlink, hboot⟩, hrun⟩ := hup
  simp only [State.spdmUp, hboot, hrun, hlink, Bool.and_self]

theorem exec_memoryRead_off {addr : Word} {n : BitVec 12} (h : s.hostServes = false) :
    exec (.memoryRead addr n) s = .next (s.hostAnswer false false []) := by
  change execMemoryRead addr n s = _
  rw [execMemoryRead, if_neg (by simp [hup])]
  simp only [h, Bool.false_eq_true, if_false]

theorem exec_memoryRead_none {addr : Word} {n : BitVec 12} (h : s.hostServes = true) (hbar : s.barOf addr.toNat (n.toNat + 1) = none) :
    exec (.memoryRead addr n) s = .next (s.hostAnswer false false []) := by
  change execMemoryRead addr n s = _
  rw [execMemoryRead, if_neg (by simp [hup])]
  simp only [h, if_true, hbar]

theorem exec_memoryRead_bar0 {addr : Word} {n : BitVec 12} {o : Nat} (h : s.hostServes = true)
    (hbar : s.barOf addr.toNat (n.toNat + 1) = some (0, o)) :
    exec (.memoryRead addr n) s = .next (((unitsOf o (n.toNat + 1)).foldl State.touch s).hostAnswer true false
      ((unitsOf o (n.toNat + 1)).flatMap (fun u => toLe 4 (s.ctrlLoad false u 4)))) := by
  change execMemoryRead addr n s = _
  rw [execMemoryRead, if_neg (by simp [hup])]
  simp only [h, if_true, hbar]

theorem exec_memoryRead_bar4 {addr : Word} {n : BitVec 12} {o : Nat} (h : s.hostServes = true)
    (hbar : s.barOf addr.toNat (n.toNat + 1) = some (4, o)) :
    exec (.memoryRead addr n) s =
      .next (s.hostAnswer true false ((unitsOf o (n.toNat + 1)).flatMap (fun u => toLe 4 (s.bar4Word u)))) := by
  change execMemoryRead addr n s = _
  rw [execMemoryRead, if_neg (by simp [hup])]
  simp only [h, if_true, hbar]

theorem exec_memoryRead_bar2 {addr : Word} {n : BitVec 12} {o : Nat} (h : s.hostServes = true)
    (hbar : s.barOf addr.toNat (n.toNat + 1) = some (2, o)) : exec (.memoryRead addr n) s = .next (s.bar2Read o (n.toNat + 1)) := by
  change execMemoryRead addr n s = _
  rw [execMemoryRead, if_neg (by simp [hup])]
  simp only [h, if_true, hbar]

end

section

variable {s : State} {g : Nat}

theorem State.mailbox_up (hup : s.mailboxUp g = true) (name : String) (args : List Nat) :
    s.mailbox g name args = .next (s.send { name := name, dest := g, args := args }) := if_pos hup

theorem State.mailboxFree_up (hup : s.mailboxUp g = true) (name : String) (args : List Nat) :
    s.mailboxFree g name args = .next (({ s with free := s.free + 1 } : State).send
      { name := name, dest := g, args := args ++ [Config.freeValue s.free % 2 ^ 64] }) := if_pos hup

end

/-- Settles O51. -/
theorem hostPortResults : Obligations.HostPortResults := by
  refine ⟨?read, ?write, ?port, ?link, ?ide, ?doe, ?mailbox⟩
  case read =>
    intro addr n s hup
    exact ⟨fun h => exec_memoryRead_off hup h, fun h hbar => exec_memoryRead_none hup h hbar, fun o h hbar => exec_memoryRead_bar0 hup h hbar,
      fun o h hbar => exec_memoryRead_bar4 hup h hbar, fun o h hbar => exec_memoryRead_bar2 hup h hbar⟩
  case write =>
    intro addr bs o s hup hserves
    refine ⟨fun hbar => ?_, fun hbar => ?_, fun k hbar => ?_, fun hbar p => ?_⟩ <;>
    · change execMemoryWrite addr bs _ s = _
      rw [execMemoryWrite, if_neg (by simp [hup])]
      simp [hserves, hbar, State.hostAnswer, b2n]
  case port =>
    intro s hup
    have hh := hostUp_halted hup
    have hnot : ¬(s.halted = true) := by simp [hh]
    have hgo : ¬((!s.hostUp) = true) := by simp [hup]
    refine ⟨if_pos hup, if_pos hup, if_neg hnot, ?_, if_neg hnot, if_pos ⟨rfl, show (!s.halted) = true by simp [hh]⟩,
      ?_, fun k => if_neg hgo, fun m => if_neg hgo, fun d => if_neg hgo, fun e m => if_neg hgo, fun base => if_neg hgo, fun d x hx => ?_⟩
    · rfl
    · change execPerst false s = _
      simp [execPerst]
    · change execConfigurationRequest (.readOther d) s = _
      rw [execConfigurationRequest, if_neg hgo]
      simp only [hx]
  case link =>
    intro rate width s hh hperst href hrate hwidth
    change execHostLinkUp rate width s = _
    rw [execHostLinkUp, if_neg (by simp [hh, hperst, href])]
    cases hup : s.is1 Reg.HPT_LINK_UP <;> simp [hrate, hwidth, b2n]
  case ide =>
    intro port st s hh
    exact if_neg (by simp [hh])
  case doe =>
    intro x s hup
    have hgo : ¬((!(s.spdmUp && s.is1 Reg.HPT_LINK_UP)) = true) := by simp [hostUp_spdm hup]
    have hkey : ∀ x : Fin 16, 16 * (0 : Fin 9).val + x.val = x.val := fun x => Nat.zero_add _
    refine ⟨if_neg hgo, ?_, ?_⟩
    · change execDoeRequest 0 (.keyGo x) s = _
      refine (if_neg hgo).trans ?_
      dsimp only
      rw [hkey]
      rfl
    · change execDoeRequest 0 (.keyStop x) s = _
      refine (if_neg hgo).trans ?_
      dsimp only
      rw [hkey]
      rfl
  case mailbox =>
    intro g s hup
    have hgo : ¬((!s.mailboxUp g.val) = true) := by simp [hup]
    refine ⟨State.mailbox_up hup .., State.mailbox_up hup .., State.mailboxFree_up hup .., State.mailboxFree_up hup ..,
      fun u o n => State.mailboxFree_up hup .., fun log => ?_, fun log n => if_neg hgo, fun op => State.mailbox_up hup ..⟩
    exact if_neg hgo

end Sys2Proof.Machine
end
section
/-!
PROOFS. Outboxes, work orders and Inboxes (R493, R495, R499, R501, R502, R505, R508).
-/

namespace Sys2Proof.Machine

/-! ### Fetches -/

section

variable {s a b : State} {p : Fin 16} {i : Fin 64}
  (hready : ¬((!s.is1 (Reg.OBX_TAIL_EN (boxNo p.val i.val))) = true ∨
    s.ord.tail.getD (boxNo p.val i.val) 0 = s.rd (Reg.OBX_STATE_HEAD (boxNo p.val i.val)) ∨ 4096 ≤ s.ord.list.length ∨ s.halted = true))

include hready

theorem exec_workOrderFetch_full (hslot : s.reserveSlot (boxNo p.val (s.rd (Reg.OBX_RING_INBOX (boxNo p.val i.val)))) = none) :
    exec (.workOrderFetch p i) s = .next (s.stall (boxNo p.val (s.rd (Reg.OBX_RING_INBOX (boxNo p.val i.val))))) :=
  (if_neg hready).trans (if_pos (by rw [hslot]; rfl))

variable (hslot : s.reserveSlot (boxNo p.val (s.rd (Reg.OBX_RING_INBOX (boxNo p.val i.val)))) ≠ none)
  (hturn : s.boxTurn (boxNo p.val i.val) = true)

include hslot hturn

theorem exec_workOrderFetch_waits
    (hread : s.access ((s.rd (Reg.OBX_RING_BASE (boxNo p.val i.val)) * 4096 +
      64 * (s.rd (Reg.OBX_STATE_HEAD (boxNo p.val i.val)) % 2 ^ s.rd (Reg.OBX_RING_LOG2 (boxNo p.val i.val)))) / 64)
        { kind := 4, r := 33, part := 16, tk := 2 ^ 45 + boxNo p.val i.val } = (a, none)) :
    exec (.workOrderFetch p i) s = .next a := by
  have hfree : ¬((s.reserveSlot (boxNo p.val (s.rd (Reg.OBX_RING_INBOX (boxNo p.val i.val))))).isNone = true) := by
    simpa using hslot
  change execWorkOrderFetch p i s = _
  rw [execWorkOrderFetch]
  dsimp only
  rw [if_neg hready, if_neg hfree, if_neg (by simp [hturn]), hread]

theorem exec_workOrderFetch_taken {c : CAns}
    (hread : s.access ((s.rd (Reg.OBX_RING_BASE (boxNo p.val i.val)) * 4096 +
      64 * (s.rd (Reg.OBX_STATE_HEAD (boxNo p.val i.val)) % 2 ^ s.rd (Reg.OBX_RING_LOG2 (boxNo p.val i.val)))) / 64)
        { kind := 4, r := 33, part := 16, tk := 2 ^ 45 + boxNo p.val i.val } = (a, some c))
    (htaken : a.reserveSlot (boxNo p.val (s.rd (Reg.OBX_RING_INBOX (boxNo p.val i.val)))) = some b) :
    let r : State := { b with ord := { b.ord with last := boxNo p.val i.val } }
    let x := leBytes (seenBytes (c.data, c.marks))
    let o : Order := { id := r.ord.next, part := p.val, box := i.val, inbox := s.rd (Reg.OBX_RING_INBOX (boxNo p.val i.val)), fence := bitOf x 16,
                       op := bitsOf x 8 8, tag := bitsOf x 32 32, words := x, feed := r.cueNow + if r.phase = 2 then 2 else 1 }
    let t := r.wr (Reg.OBX_STATE_HEAD (boxNo p.val i.val)) (s.rd (Reg.OBX_STATE_HEAD (boxNo p.val i.val)) + 1)
    let u := { t with ord := { t.ord with next := t.ord.next + 1, list := t.ord.list ++ [o] } }
    exec (.workOrderFetch p i) s = .next (if u.orderBad o = 0 then u else u.complete o (u.orderBad o) 0) := by
  have hfree : ¬((s.reserveSlot (boxNo p.val (s.rd (Reg.OBX_RING_INBOX (boxNo p.val i.val))))).isNone = true) := by
    simpa using hslot
  dsimp only
  change execWorkOrderFetch p i s = _
  rw [execWorkOrderFetch]
  dsimp only
  rw [if_neg hready, if_neg hfree, if_neg (by simp [hturn]), hread]
  dsimp only
  rw [htaken, apply_ite Host.Outcome.next]

end

/-! ### Orders that copy and fill -/

section

variable {s r : State} {n k op : Nat} {o o' : Order} {len : Order → Nat} {go : State → Order → State} (hord : s.orderAt n = some o)
  (hstart : s.mayStart o = true) (hop : o.op = op)

include hord hstart hop

theorem State.linesOrder_empty (hlen : len o = 0) : s.linesOrder n k op len go = s.complete o 0 0 := by
  simp only [State.linesOrder, hord, hop, ne_eq, not_true_eq_false, hstart, Bool.not_true, Bool.false_eq_true, or_self, if_false, hlen, if_true]

theorem State.linesOrder_goes (hlen : len o ≠ 0) (hcurtain : s.curtain o.part = false) (hserving : s.serving o k = some (r, o'))
    (hgave : r.gaveUp k = false) : s.linesOrder n k op len go = go r o' := by
  simp only [State.linesOrder, hord, hop, ne_eq, not_true_eq_false, hstart, Bool.not_true, Bool.false_eq_true, or_self, if_false, hlen,
    hcurtain, hserving, hgave]

end

section

variable {s a b : State} {k fuel : Nat} {o : Order} {x y : BitVec 512} {m w : Nat}

theorem State.copyLines_line (hheld : o.held = none) (hlost : o.lost = false) (hleft : 64 * o.done < o.by_ 24 8)
    (hread : s.readVa (65536 + k) (k / 16) false (ctxKey k) o.part (o.by_ 8 8 + 64 * o.done) = (a, .line x m))
    (hwrite : a.writeVa (65536 + k) (k / 16) false (ctxKey k) o.part (o.by_ 16 8 + 64 * o.done) x m (2 ^ 64 - 1) = (b, .line y w)) :
    s.copyLines k (fuel + 1) o = (b.setOrder { o with held := none, done := o.done + 1, dead := o.dead || m != 0 }).copyLines k fuel
      { o with held := none, done := o.done + 1, dead := o.dead || m != 0 } := by
  rw [State.copyLines, if_neg (Nat.not_le.mpr hleft)]
  simp only [hheld, hlost, Bool.false_eq_true, if_false, hread, hwrite]

theorem State.fillLines_line (hleft : 64 * o.done < o.by_ 16 8)
    (hwrite : s.writeVa (65536 + k) (k / 16) false (ctxKey k) o.part (o.by_ 8 8 + 64 * o.done)
      (lineOf ((List.replicate 8 (toLe 8 (o.by_ 24 8))).flatten)) 0 (2 ^ 64 - 1) = (b, .line y w)) :
    s.fillLines k (fuel + 1) o = (b.setOrder { o with done := o.done + 1 }).fillLines k fuel { o with done := o.done + 1 } := by
  rw [State.fillLines, if_neg (Nat.not_le.mpr hleft)]
  simp only [hwrite]

end

/-! ### Orders for the call sheet and for a context -/

section

variable {n k : Fin 4096} {s r t : State} {o o' : Order} (hnot : ¬(s.halted = true)) (hord : s.orderAt n.val = some o)
  (hstart : s.mayStart o = true)

include hnot hord hstart

theorem exec_callSheet_first (hop : o.op = 0x20) (hfirst : ∀ x ∈ s.ord.list, x.op = 0x20 → o.id ≤ x.id) (hlen : o.by_ 16 4 = 0) :
    exec (.callSheet n k) s = .next (s.complete o 0 0) := by
  have hnone : s.ord.list.any (fun x => x.op == 0x20 && decide (x.id < o.id)) = false := by
    simp only [List.any_eq_false, Bool.and_eq_true, beq_iff_eq, decide_eq_true_eq, not_and, Nat.not_lt]
    exact hfirst
  change execCallSheet n k s = _
  rw [execCallSheet, if_neg hnot]
  simp only [hord, hop, ne_eq, not_true_eq_false, hstart, Bool.not_true, Bool.false_eq_true, hnone, or_self, if_false, hlen, if_true]

theorem exec_callSheet_stages {c : Nat} {d : Bool} (hop : o.op = 0x20) (hfirst : ∀ x ∈ s.ord.list, x.op = 0x20 → o.id ≤ x.id)
    (hlen : o.by_ 16 4 ≠ 0) (hbroken : o.broken = false) (hcore : o.core = some c) (hrun : s.coreStopped c = false) (hext : o.ext = [])
    (hcurtain : s.curtain o.part = false) (hctx : o.ctx = none ∨ ∃ c, o.ctx = some c ∧ (s.cxAt (ctxKey c)).st = .run)
    (hserving : s.serving o k.val = some (r, o')) (hext' : o'.ext = [])
    (hfetch : r.fetchBuf k.val o.part (o'.by_ 8 8) (16 * o'.by_ 16 4) = (t, .ok d)) :
    exec (.callSheet n k) s = .next (t.stagePairs o' k.val) := by
  have hnone : s.ord.list.any (fun x => x.op == 0x20 && decide (x.id < o.id)) = false := by
    simp only [List.any_eq_false, Bool.and_eq_true, beq_iff_eq, decide_eq_true_eq, not_and, Nat.not_lt]
    exact hfirst
  change execCallSheet n k s = _
  rw [execCallSheet, if_neg hnot]
  simp only [hord, hop, ne_eq, not_true_eq_false, hstart, Bool.not_true, Bool.false_eq_true, hnone, or_self, if_false, hlen, hbroken, hcore, hrun,
    Option.isNone_some, hext, List.nil_eq, reduceCtorEq, hcurtain]
  rcases hctx with hctx | ⟨c', hctx, hst⟩
  · simp only [hctx, hserving, hext', reduceCtorEq, if_false, hfetch]
  · simp only [hctx, Option.getD_some, hst, hserving, hext', reduceCtorEq, if_false, hfetch]

/-- R505: the context that an order may resume. -/
def State.resumable (s : State) (o : Order) : Prop :=
  (s.is1 (Reg.CRR_CTX_PLAN_EN (o.by_ 8 2)) = true ∧ s.rd (Reg.CRR_CTX_PLAN_PARTITION (o.by_ 8 2)) = o.part) ∨
    (s.is1 (Reg.CRR_CTX_PLAN_EN (o.by_ 8 2)) = false ∧ (s.cxAt (ctxKey (o.by_ 8 2))).st ≠ .pool ∧ (s.cxAt (ctxKey (o.by_ 8 2))).part = o.part)

omit hnot hord hstart in
theorem State.resumable_iff :
    (if s.is1 (Reg.CRR_CTX_PLAN_EN (o.by_ 8 2)) then s.rd (Reg.CRR_CTX_PLAN_PARTITION (o.by_ 8 2)) == o.part
      else (s.cxAt (ctxKey (o.by_ 8 2))).st != .pool && (s.cxAt (ctxKey (o.by_ 8 2))).part == o.part) = true ↔ s.resumable o := by
  cases hplan : s.is1 (Reg.CRR_CTX_PLAN_EN (o.by_ 8 2)) <;> simp [State.resumable, hplan]

theorem exec_resumeOrder_barred (hop : o.op = 0x21) (hbar : ¬ s.resumable o) : exec (.resumeOrder n) s = .next (s.complete o 0x11 0) := by
  change execResumeOrder n s = _
  rw [execResumeOrder, if_neg hnot]
  simp only [hord, hop, ne_eq, not_true_eq_false, hstart, Bool.not_true, Bool.false_eq_true, or_self, if_false]
  exact if_pos (by rw [Bool.not_eq_true']; exact Bool.eq_false_iff.mpr (mt State.resumable_iff.mp hbar))

theorem exec_resumeOrder_acts (hop : o.op = 0x21) (hbound : s.resumable o) :
    exec (.resumeOrder n) s = .next ((s.ctxAction (o.by_ 8 2) (o.by_ 10 1)).complete o
      (if (s.ctxAction (o.by_ 8 2) (o.by_ 10 1)).rd (Reg.CRR_CTX_CTL_RESULT (o.by_ 8 2)) = 1 then 0 else 0x30)
      ((s.ctxAction (o.by_ 8 2) (o.by_ 10 1)).rd (Reg.CRR_CTX_CTL_RESULT (o.by_ 8 2)))) := by
  change execResumeOrder n s = _
  rw [execResumeOrder, if_neg hnot]
  simp only [hord, hop, ne_eq, not_true_eq_false, hstart, Bool.not_true, Bool.false_eq_true, or_self, if_false]
  exact if_neg (by rw [State.resumable_iff.mpr hbound]; decide)

/-! ### Streams -/

variable (hop : o.op = 1) (hnew : o.started = false)

include hop hnew

theorem exec_runPlan_refused (hstreams : s.is1 (Reg.HST_STREAMS_EN o.part) = false) : exec (.runPlan n) s = .next (s.complete o 0x30 0) := by
  have hrefused : s.planRefused o = true := by simp [State.planRefused, hstreams]
  change execRunPlan n s = _
  rw [execRunPlan, if_neg hnot]
  simp only [hord, hop, ne_eq, not_true_eq_false, hnew, hstart, Bool.not_true, Bool.false_eq_true, or_self, if_false, hrefused, if_true]

theorem exec_runPlan_taken (hstreams : s.is1 (Reg.HST_STREAMS_EN o.part) = true)
    (hfree : s.ord.streams.find? (4096 * o.part + o.by_ 8 2) = none) :
    exec (.runPlan n) s = if o.by_ 12 4 = 0 then .next (s.complete o 0 0)
      else if s.curtain o.part = true then .next (s.complete o 0x24 0)
      else .next ((s.setOrder { o with started := true }).setStream (4096 * o.part + o.by_ 8 2)
        { order := o.id, part := o.part, input := o.by_ 16 4 }) := by
  have htaken : s.planRefused o = false := by simp [State.planRefused, hstreams, hfree]
  change execRunPlan n s = _
  rw [execRunPlan, if_neg hnot]
  simp only [hord, hop, ne_eq, not_true_eq_false, hnew, hstart, Bool.not_true, Bool.false_eq_true, or_self, if_false, htaken]

end

/-- Settles O52. -/
theorem workOrderResults : Obligations.WorkOrderResults := by
  refine ⟨?notice, ?fetch, ?head, ?orders, ?copy, ?fill⟩
  case notice =>
    intro p i s
    dsimp only
    intro hh hen
    have hnot : ¬(s.halted = true) := by simp [hh]
    have hon : ¬((!s.is1 (Reg.OBX_TAIL_EN (boxNo p.val i.val))) = true) := by simp [hen]
    refine ⟨fun hin => ?_, fun hout hfirst => ?_⟩
    · exact (if_neg hnot).trans ((if_neg hon).trans (if_neg (Nat.not_lt.mpr hin)))
    · exact (if_neg hnot).trans ((if_neg hon).trans ((if_pos hout).trans (if_neg (by rw [State.satAdd_ord, hfirst]; decide))))
  case fetch =>
    intro p i s
    dsimp only
    intro hen htail hroom hh
    have hready : ¬((!s.is1 (Reg.OBX_TAIL_EN (boxNo p.val i.val))) = true ∨
        s.ord.tail.getD (boxNo p.val i.val) 0 = s.rd (Reg.OBX_STATE_HEAD (boxNo p.val i.val)) ∨ 4096 ≤ s.ord.list.length ∨
          s.halted = true) := by
      simp [hen, htail, hh]
      omega
    exact ⟨fun hslot => exec_workOrderFetch_full hready hslot, fun hslot hturn =>
      ⟨fun a hread => exec_workOrderFetch_waits hready hslot hturn hread,
        fun a c b hread htaken => exec_workOrderFetch_taken hready hslot hturn hread htaken⟩⟩
  case head =>
    intro p j s
    dsimp only
    intro hh hin
    exact (if_neg (by simp [hh])).trans (if_pos hin)
  case orders =>
    intro n k s o hh hord hstart
    have hnot : ¬(s.halted = true) := by simp [hh]
    refine ⟨fun hop hnew hstreams hfree => ?_, fun hop hnew hstreams => exec_runPlan_refused hnot hord hstart hop hnew hstreams,
      fun hop hlen => ?_, fun hop hlen => ?_, fun r o' hcurtain hserving hgave => ⟨fun hop hlen => ?_, fun hop hlen => ?_⟩,
      fun hop hfirst => ⟨fun hlen => exec_callSheet_first hnot hord hstart hop hfirst hlen, ?_⟩,
      fun hop => ⟨fun hbar => ?_, fun hbound => ?_⟩⟩
    · have htaken := exec_runPlan_taken hnot hord hstart hop hnew hstreams hfree
      exact ⟨fun hlen => htaken.trans (if_pos hlen), fun hlen hcurtain => htaken.trans ((if_neg hlen).trans (if_pos hcurtain)),
        fun hlen hcurtain => htaken.trans ((if_neg hlen).trans (if_neg (by simp [hcurtain])))⟩
    · exact (if_neg hnot).trans (congrArg Host.Outcome.next (State.linesOrder_empty hord hstart hop hlen))
    · exact (if_neg hnot).trans (congrArg Host.Outcome.next (State.linesOrder_empty hord hstart hop hlen))
    · exact (if_neg hnot).trans (congrArg Host.Outcome.next (State.linesOrder_goes hord hstart hop hlen hcurtain hserving hgave))
    · exact (if_neg hnot).trans (congrArg Host.Outcome.next (State.linesOrder_goes hord hstart hop hlen hcurtain hserving hgave))
    · intro r o' t d c hlen hbroken hcore hrun hext hcurtain hctx hserving hext' hfetch
      exact exec_callSheet_stages hnot hord hstart hop hfirst hlen hbroken hcore hrun hext hcurtain hctx hserving hext' hfetch
    · exact exec_resumeOrder_barred hnot hord hstart hop hbar
    · exact exec_resumeOrder_acts hnot hord hstart hop hbound
  case copy =>
    intro s a b k fuel o x m y w hheld hlost hleft hread hwrite
    exact State.copyLines_line hheld hlost hleft hread hwrite
  case fill =>
    intro s b k fuel o y w hleft hwrite
    exact State.fillLines_line hleft hwrite

end Sys2Proof.Machine
end
section
/-!
PROOFS. Events, their signals, core restarts and the exception queue (R514 to R517, R522, R523, R526).
-/

namespace Sys2Proof.Machine

/-! ### Core restarts -/

section

variable {s : State} {c cause : Nat}

theorem State.coreStopped_of (hst : (s.cxAt (coreKey c)).st = .stopped cause) : s.coreStopped c = true := by
  simp only [State.coreStopped, hst]

theorem State.foldl_clrBit_proc (is : List Nat) (s : State) :
    (is.foldl (fun (s : State) i => s.clrBit (Reg.EVC_ACTIVE_BITS (i / 64)) (i % 64)) s).proc = s.proc :=
  foldl_proj State.proc (fun (s : State) i => show (s.clrBit (Reg.EVC_ACTIVE_BITS (i / 64)) (i % 64)).proc = s.proc from rfl) is s

theorem State.foldl_clrBit_ev (is : List Nat) (s : State) :
    (is.foldl (fun (s : State) i => s.clrBit (Reg.EVC_ACTIVE_BITS (i / 64)) (i % 64)) s).ev = s.ev :=
  foldl_proj State.ev (fun (s : State) i => show (s.clrBit (Reg.EVC_ACTIVE_BITS (i / 64)) (i % 64)).ev = s.ev from rfl) is s

/-- R526: the state in which a core's claims are inactive. -/
def State.unclaimed (s : State) (c : Nat) : State :=
  (s.ev.owner.filter (fun _ o => o == c)).keys.foldl (fun (s : State) i => s.clrBit (Reg.EVC_ACTIVE_BITS (i / 64)) (i % 64)) s

theorem State.unclaimed_cxAt (k : Nat) : (s.unclaimed c).cxAt k = s.cxAt k := by
  rw [State.cxAt, State.unclaimed, State.foldl_clrBit_proc, State.cxAt]

theorem State.restartCore_cxAt : (s.restartCore c).cxAt (coreKey c) =
    { st := .run, len := (s.cxAt (coreKey c)).len, level := (s.cxAt (coreKey c)).level, part := (s.cxAt (coreKey c)).part } := by
  have hcx := State.cxAt_setCxAt_self (s.unclaimed c) (coreKey c)
    { st := .run, len := ((s.unclaimed c).cxAt (coreKey c)).len, level := ((s.unclaimed c).cxAt (coreKey c)).level,
      part := ((s.unclaimed c).cxAt (coreKey c)).part }
  exact hcx.trans (by rw [State.unclaimed_cxAt])

theorem State.restartCore_claims : (s.restartCore c).ev.claims = s.ev.claims.filter (fun q => q.core != c) := by
  have hev : (s.unclaimed c).ev = s.ev := State.foldl_clrBit_ev ..
  exact congrArg (fun e : Events => e.claims.filter (fun q => q.core != c)) hev

theorem State.restartCore_inHandler : (s.restartCore c).rd (Reg.EVC_CORE_IN_HANDLER c) = 0 := by
  rw [State.restartCore, State.rd_wr_self]
  exact Nat.zero_mod _

end

theorem State.softRaise_new {s : State} {i : Nat} (hlo : 1024 ≤ i) (hhi : i ≤ 2046) (hnew : s.pendingId i = false) :
    s.softRaise i = s.raise i := by
  rw [State.softRaise, if_neg (by omega), if_pos ⟨hlo, hhi⟩, if_neg (by simp [hnew])]

theorem State.softRaise_pending {s : State} {i : Nat} (hlo : 1024 ≤ i) (hhi : i ≤ 2046) (hpend : s.pendingId i = true) : s.softRaise i = s := by
  rw [State.softRaise, if_neg (by omega), if_pos ⟨hlo, hhi⟩, if_pos hpend]

theorem State.softRaise_bad {s : State} {i : Nat} (h0 : i ≠ 0) (hbad : i < 1024 ∨ i = 2047) :
    s.softRaise i = s.satAdd Reg.EVC_STAT_BAD_RAISE 1 := by
  rw [State.softRaise, if_neg h0, if_neg (by omega)]

/-- Settles O53. -/
theorem eventAndCoreResults : Obligations.EventAndCoreResults := by
  refine ⟨?edges, ?clear, ?signal, ?msix, ?entry, ?restart, ?allDown, ?someUp, ?queue⟩
  case edges =>
    intro id s hh
    have hnot : ¬(s.halted = true) := by simp [hh]
    refine ⟨?_, fun hret => ?_, fun hret => ?_, fun h hcore => ?_⟩
    · have hiff : (idAssigned id.toNat || (decide (1024 ≤ id.toNat) && decide (id.toNat ≤ 2046))) = true ↔
          (idAssigned id.toNat = true ∨ (1024 ≤ id.toNat ∧ id.toNat ≤ 2046)) := by simp
      exact (if_neg hnot).trans (congrArg Host.Outcome.next (if_congr hiff rfl rfl))
    · exact (if_neg hnot).trans (congrArg Host.Outcome.next (if_pos hret))
    · exact (if_neg hnot).trans (congrArg Host.Outcome.next (if_neg (by simp [hret])))
    · have hexec : exec (.evcRaiseWrite h id) s = .next (s.softRaise id.toNat) :=
        (if_neg hnot).trans (congrArg Host.Outcome.next (if_neg (Nat.not_lt.mpr hcore)))
      exact ⟨fun hlo hhi hnew => by rw [hexec, State.softRaise_new hlo hhi hnew],
        fun hlo hhi hpend => by rw [hexec, State.softRaise_pending hlo hhi hpend],
        fun h0 hbad => by rw [hexec, State.softRaise_bad h0 hbad]⟩
  case clear =>
    intro h w mask s hh hcore
    have hclear : s.clearPending h.val w.val mask.toNat =
        (s.wr (Reg.EVC_PENDING_BITS w.val) (s.rd (Reg.EVC_PENDING_BITS w.val) &&& (2 ^ 64 - 1 - mask.toNat))).settleLatches := by
      rw [State.clearPending, if_neg (Nat.not_lt.mpr hcore), Nat.mod_eq_of_lt mask.isLt]
    exact (if_neg (by simp [hh])).trans (congrArg Host.Outcome.next hclear)
  case signal =>
    intro t s hh hlatch
    have hnot : ¬(s.halted = true) := by simp [hh]
    refine ⟨fun hcore hst => ?_, fun hvec => ?_, fun hgap o => ?_⟩
    · change execTargetSignal t true true s = _
      rw [execTargetSignal, if_neg hnot]
      dsimp only
      rw [if_neg (by simp [hlatch]), if_neg (by omega), if_neg hst]
    · change execTargetSignal t true true s = _
      rw [execTargetSignal, if_neg hnot]
      dsimp only
      rw [if_neg (by simp [hlatch]), if_pos hvec]
    · change execTargetSignal t false o s = _
      rw [execTargetSignal, if_neg hnot]
      dsimp only
      rw [if_pos (.inr (.inl (by simp [hgap])))]
  case msix =>
    intro s v
    exact ⟨fun hopen => if_pos hopen, fun hopen => if_neg (by simp [hopen])⟩
  case entry =>
    intro c s hh hsignal hlatch hst hie hhandler hlink
    have hrun : ((s.cxAt (coreKey c.val)).st == .run || (s.cxAt (coreKey c.val)).st == .hold || (s.cxAt (coreKey c.val)).st == .idle) = true := by
      rcases hst with h | h | h <;> rw [h] <;> rfl
    change execCoreHandlerEntry c s = _
    rw [execCoreHandlerEntry, if_neg (by simp [hh])]
    dsimp only
    rw [if_neg (by simp [hsignal]), if_neg hlatch, if_neg (by rw [hrun]; simp [hie, hhandler]; omega)]
  case restart =>
    intro h c s cause hh hcore hst
    exact ⟨(if_neg (by simp [hh])).trans (congrArg Host.Outcome.next (if_pos ⟨hcore, State.coreStopped_of hst⟩)), State.restartCore_cxAt,
      State.restartCore_claims, State.restartCore_inHandler⟩
  case allDown =>
    intro s hh hdown
    have hnone : ¬((List.range 16).any s.coreUp = true) := by
      simp only [List.any_eq_true, List.mem_range, not_exists, not_and]
      exact fun c hc => by simp [hdown c hc]
    exact (if_neg (by simp [hh])).trans (if_neg hnone)
  case someUp =>
    intro s hh ⟨c, hc, hup⟩
    exact (if_neg (by simp [hh])).trans (if_pos (List.any_eq_true.mpr ⟨c, List.mem_range.mpr hc, hup⟩))
  case queue =>
    intro h x s hh hcore
    have hnot : ¬(s.halted = true) := by simp [hh]
    exact ⟨fun hin => (if_neg hnot).trans (congrArg Host.Outcome.next (if_neg (by omega))),
      fun hout => (if_neg hnot).trans (congrArg Host.Outcome.next (if_pos (.inr hout)))⟩

end Sys2Proof.Machine
end
section
/-!
PROOFS. Clocks and power (R531, R532, R538, R539, R543, R544, R547, R549, R591, R593).
-/

namespace Sys2Proof.Machine

theorem State.halt_of_running {s : State} (hh : s.halted = false) : s.door.halt = 0 := by
  simpa [State.halted] using hh

theorem State.latch_fold_door (s : State) (i : Nat) :
    ((List.range 16).foldl (fun s c => if s.deliverable c i then s.latch c else s) s).door = s.door :=
  foldl_proj State.door (fun _ _ => by split <;> rfl) _ s

@[simp] theorem State.raise_door (s : State) (i : Nat) : (s.raise i).door = s.door := by
  fun_cases State.raise s i
  · rfl
  · exact State.latch_fold_door _ i
  · exact State.latch_fold_door _ i

/-! ### Clock muxes and the counter -/

section

variable {s t : State} {h r i w : Nat}

/-- R531: the state in which the registers hold a mux command. -/
def State.muxPut (s : State) (r i : Nat) : State := (s.wr Reg.CLK_MUX_CMD_REGION r).wr Reg.CLK_MUX_CMD_INPUT i

theorem State.muxPut_region (hr : r < 256) : (s.muxPut r i).rd Reg.CLK_MUX_CMD_REGION = r := by
  rw [State.muxPut, State.rd_wr_ne _ _ (by decide), State.rd_wr_self]
  exact Nat.mod_eq_of_lt hr

theorem State.muxPut_input (hi : i < 8) : (s.muxPut r i).rd Reg.CLK_MUX_CMD_INPUT = i := by
  rw [State.muxPut, State.rd_wr_self]
  exact Nat.mod_eq_of_lt hi

section

variable (hh : 16 ≤ h) (hrun : s.halted = false)

include hh hrun

theorem State.muxPut_goes : ¬(h < 16 ∨ (s.muxPut r i).halted = true) := by
  have hhalted : (s.muxPut r i).halted = s.halted := rfl
  rw [hhalted, hrun]
  simp [hh]

theorem State.goMux_noWindow (hang : Bool) :
    (s.muxPut r i).goMux h none hang = ((s.muxPut r i).wr Reg.CLK_MUX_CMD_RESULT 2).raise 138 :=
  if_neg (State.muxPut_goes hh hrun)

variable (hr : r < 256) (hi : i < 8)

include hr hi

theorem State.goMux_refused (hcheck : (s.muxPut r i).muxCheck r i w = (t, false)) (hang : Bool) :
    (s.muxPut r i).goMux h (some w) hang = (t.wr Reg.CLK_MUX_CMD_RESULT 2).raise 138 := by
  rw [State.goMux, if_neg (State.muxPut_goes hh hrun), State.muxPut_region hr, State.muxPut_input hi]
  simp only [hcheck, Bool.not_false, if_true]

theorem State.goMux_taken (hcheck : (s.muxPut r i).muxCheck r i w = (t, true)) (hang : Bool) :
    (s.muxPut r i).goMux h (some w) hang =
      if hang = true then ((t.onDoor (fun d => { d with muxCmd := some r })).wr (Reg.CLK_REG_MUX r) 1).wr Reg.CLK_MUX_CMD_RESULT 0
      else (t.muxTo r i).wr Reg.CLK_MUX_CMD_RESULT 1 := by
  rw [State.goMux, if_neg (State.muxPut_goes hh hrun), State.muxPut_region hr, State.muxPut_input hi]
  simp only [hcheck, Bool.not_true, Bool.false_eq_true, if_false]

end

/-- R532: the state in which the registers hold a count. -/
def State.fcntPut (s : State) (w r i : Nat) : State :=
  ((s.wr Reg.CLK_FCNT_WINDOW w).wr Reg.CLK_FCNT_REGION r).wr Reg.CLK_FCNT_INPUT i

theorem State.fcntPut_window (hw : w < 2 ^ 16) : (s.fcntPut w r i).rd Reg.CLK_FCNT_WINDOW = w := by
  rw [State.fcntPut, State.rd_wr_ne _ _ (by decide), State.rd_wr_ne _ _ (by decide), State.rd_wr_self]
  exact Nat.mod_eq_of_lt hw

theorem State.fcntPut_busy : (s.fcntPut w r i).is1 Reg.CLK_FCNT_BUSY = s.is1 Reg.CLK_FCNT_BUSY := by
  rw [State.fcntPut, State.is1_wr_ne _ _ (by decide), State.is1_wr_ne _ _ (by decide), State.is1_wr_ne _ _ (by decide)]

theorem State.goFcnt_fcntPut (hh : 16 ≤ h) (hrun : s.halted = false) (hbusy : s.is1 Reg.CLK_FCNT_BUSY = false) (hw : w < 2 ^ 16) :
    (s.fcntPut w r i).goFcnt h =
      if w = 0 then (s.fcntPut w r i).wr Reg.CLK_FCNT_COUNT 0 else (s.fcntPut w r i).wr Reg.CLK_FCNT_BUSY 1 := by
  have hhalted : (s.fcntPut w r i).halted = s.halted := rfl
  rw [State.goFcnt, if_neg (by rw [hhalted, hrun, State.fcntPut_busy, hbusy]; simp [hh]), State.fcntPut_window hw]

end

/-! ### The supply that fails -/

/-- What a run of register writes leaves: the state but for its registers. -/
def State.SameButRegs (s t : State) : Prop := t = { s with regs := t.regs }

section

variable {s t r : State}

theorem State.SameButRegs.wr (h : s.SameButRegs t) (f : Fld) (x : Nat) : s.SameButRegs (t.wr f x) := by
  rw [State.SameButRegs] at h ⊢
  rw [h]
  rfl

theorem State.SameButRegs.foldl {α : Type} {f : State → α → State} (hf : ∀ t a, s.SameButRegs t → s.SameButRegs (f t a)) (as : List α)
    (h : s.SameButRegs t) : s.SameButRegs (as.foldl f t) := by
  induction as generalizing t with
  | nil => exact h
  | cons a as ih => exact ih (hf t a h)

end

/-- R549: what rest takes away. -/
def State.restLost (s : State) : State :=
  { s with free := s.free + 1, proc := {}, trp := {}, cour := {}, xlt := {}, coh := {}, efh := {}, sw := {}, ord := {}, emb := {}, srch := {} }

/-- R549: the registers that rest clears before it shows itself. -/
def State.restRegs (s : State) : State :=
  let s := (List.range 18).foldl (fun (s : State) n => s.wr (Reg.EFH_PORT_STAT_STATE n) 0) s
  let s := [Reg.HPT_LINK_UP, Reg.HPT_LINK_WIDTH, Reg.HPT_LINK_RATE, Reg.HPT_LINK_SLOW].foldl (fun (s : State) f => s.wr f 0) s
  let s := (List.range 4).foldl (fun (s : State) k => (s.wr (Reg.EDG_PORT_HALF0 k) 0).wr (Reg.EDG_PORT_HALF1 k) 0) s
  (List.range 208).foldl (fun (s : State) r => s.wr (Reg.CLK_REG_POWER r) 2) s

theorem State.restRegs_same (s : State) : s.SameButRegs s.restRegs := by
  refine State.SameButRegs.foldl (fun t r h => h.wr _ _) _ ?_
  refine State.SameButRegs.foldl (fun t k h => (h.wr _ _).wr _ _) _ ?_
  refine State.SameButRegs.foldl (fun t f h => h.wr _ _) _ ?_
  exact State.SameButRegs.foldl (fun t n h => h.wr _ _) _ rfl

theorem State.goRest_eq (s : State) : s.goRest =
    ((((s.restLost.restRegs.wr Reg.CUE_PHASE_PHASE 3).wr Reg.CUE_PHASE_OFFSET 0).onDoor (fun d => { d with halt := 2, req := none })).wr
      Reg.PWR_CTL_STATE (Config.freeValue s.free % 2 ^ 3)) := rfl

section

variable {s : State} {h req : Nat}

theorem State.restRegs_proj {α : Type} (p : State → α) (hp : ∀ (t : State) (m), p { t with regs := m } = p t) : p s.restRegs = p s :=
  (congrArg p s.restRegs_same).trans (hp s _)

theorem State.goRest_proj {α : Type} (p : State → α) (hregs : ∀ (t : State) (m), p { t with regs := m } = p t)
    (hdoor : ∀ (t : State) (d), p { t with door := d } = p t) : p s.goRest = p s.restLost := by
  rw [State.goRest_eq, State.wr, hregs, State.onDoor, hdoor, State.wr, hregs, State.wr, hregs, State.restRegs_proj p hregs]

theorem State.disconnect_proj {α : Type} (p : State → α) (hregs : ∀ (t : State) (m), p { t with regs := m } = p t)
    (hstore : ∀ (t : State) (m), p { t with store := m } = p t) (hdoor : ∀ (t : State) (d), p { t with door := d } = p t) :
    p s.disconnect = p s.restLost := by
  rw [State.disconnect, State.onDoor, hdoor, hstore, State.goRest_proj p hregs hdoor]

theorem State.disconnect_door : s.disconnect.door = { s.door with halt := 3, trip := false, req := none } := by
  have hstore : ∀ (t : State) m f, (State.onDoor { t with store := m } f).door = f t.door := fun _ _ _ => rfl
  have hdoor : ∀ (t : State) f, (t.onDoor f).door = f t.door := fun _ _ => rfl
  rw [State.disconnect, hstore, State.goRest_eq, State.wr_door, hdoor, State.wr_door, State.wr_door,
    State.restRegs_proj State.door (fun _ _ => rfl)]
  rfl

theorem State.disconnect_rd (f : Fld) : s.disconnect.rd f = s.goRest.rd f := by
  have hstore : ∀ (t : State) m g, (State.onDoor { t with store := m } g).rd f = t.rd f := fun _ _ _ => rfl
  rw [State.disconnect, hstore]

theorem State.disconnect_phase : s.disconnect.phase = 3 := by
  have hdoor : ∀ (t : State) f, (t.onDoor f).rd Reg.CUE_PHASE_PHASE = t.rd Reg.CUE_PHASE_PHASE := fun _ _ => rfl
  rw [State.phase, State.disconnect_rd, State.goRest_eq, State.rd_wr_ne _ _ (by decide), hdoor, State.rd_wr_ne _ _ (by decide),
    State.rd_wr_self]
  rfl

theorem State.disconnect_ofs : s.disconnect.ofs = 0 := by
  have hdoor : ∀ (t : State) f, (t.onDoor f).rd Reg.CUE_PHASE_OFFSET = t.rd Reg.CUE_PHASE_OFFSET := fun _ _ => rfl
  rw [State.ofs, State.disconnect_rd, State.goRest_eq, State.rd_wr_ne _ _ (by decide), hdoor, State.rd_wr_self]
  rfl

/-! ### Power states -/

section

variable (hh : 16 ≤ h) (hhalt : s.door.halt = 0) (hmoves : s.rd Reg.PWR_CTL_STATE ≠ 4)

include hh hhalt hmoves

theorem State.goPower_eq :
    s.goPower h req =
      if req = s.rd Reg.PWR_CTL_STATE then (s.wr Reg.PWR_CTL_RESULT 1).raise 142
      else if (req = 1 ∨ req = 2) ∧ s.placed = true then s.wr Reg.PWR_CTL_RESULT 2
      else ((s.onDoor (fun d => { d with req := some (req + 4 * s.rd Reg.PWR_CTL_STATE,
        if req = 0 ∧ s.rd Reg.PWR_CTL_STATE = 2 then 250000 + s.ofs else 0) })).wr Reg.PWR_CTL_STATE 4).wr Reg.PWR_CTL_RESULT 0 := by
  rw [State.goPower]
  dsimp only
  rw [if_neg (by omega), if_neg (by omega), if_neg hmoves]

end

theorem State.clrBit_set {f : Fld} {b : Nat} (hset : s.bit f b = true) : s.clrBit f b = s.wr f (s.rd f - 2 ^ b) := by
  rw [State.clrBit, if_pos (show bitOf (s.rd f) b = true from hset)]

end

/-- Settles O54. -/
theorem clockAndPowerResults : Obligations.ClockAndPowerResults := by
  refine ⟨?mux, ?hung, ?fcnt, ?counted, ?power, ?round, ?trip, ?supply, ?refclk, ?refBack, ?pll, ?relock⟩
  case mux =>
    intro h r i s hcore hh
    have hnot : ¬(s.halted = true) := by simp [hh]
    have hr : r.val < 256 := by omega
    have hi : i.val < 8 := by omega
    have hexec : ∀ w b, exec (.clkMuxCmdGo h r i w b) s = .next ((s.muxPut r.val i.val).goMux h.val (w.map BitVec.toNat) b) :=
      fun w b => (if_neg hnot).trans (if_neg (Nat.not_lt.mpr hcore))
    exact ⟨fun b => (hexec none b).trans (congrArg Host.Outcome.next (State.goMux_noWindow hcore hh b)),
      fun w t hcheck b => (hexec (some w) b).trans (congrArg Host.Outcome.next (State.goMux_refused hcore hh hr hi hcheck b)),
      fun w t hcheck => ⟨(hexec (some w) false).trans (congrArg Host.Outcome.next (State.goMux_taken hcore hh hr hi hcheck false)),
        (hexec (some w) true).trans (congrArg Host.Outcome.next (State.goMux_taken hcore hh hr hi hcheck true))⟩⟩
  case hung =>
    intro r s hh
    refine ⟨fun hpow hr hcmd => ?_, fun hpow hr hcmd => ?_, fun hpow => ?_⟩
    · change execMuxHung r s = _
      rw [execMuxHung, if_neg (by simp only [hh, Bool.false_eq_true, false_or]; omega)]
      dsimp only
      rw [State.raise_door, State.wr_door, if_neg hcmd, if_neg (Nat.not_lt.mpr hr)]
    · change execMuxHung r s = _
      rw [execMuxHung, if_neg (by simp only [hh, Bool.false_eq_true, false_or]; omega)]
      dsimp only
      rw [State.raise_door, State.wr_door, if_neg hcmd, if_pos hr]
    · exact if_neg (by simp [hh, hpow])
  case fcnt =>
    intro h w r i s hcore hh hbusy
    have hzero : (w = 0) ↔ (w.toNat = 0) := ⟨fun h => by simp [h], fun h => BitVec.eq_of_toNat_eq h⟩
    refine (if_neg (by simp [hh])).trans ((if_neg (Nat.not_lt.mpr hcore)).trans (congrArg Host.Outcome.next ?_))
    exact (State.goFcnt_fcntPut hcore hh hbusy w.isLt).trans (if_congr hzero.symm rfl rfl)
  case counted =>
    intro n s hh hbusy
    exact if_neg (by simp [hh, hbusy])
  case power =>
    intro h s c req hc hcore hhalt hmoves
    have hexec : exec c s = .next (s.goPower h.val req) := by
      simp only [List.mem_cons, Prod.mk.injEq, List.not_mem_nil, or_false] at hc
      rcases hc with ⟨rfl, rfl⟩ | ⟨rfl, rfl⟩ | ⟨rfl, rfl⟩ | ⟨rfl, rfl⟩ <;> rfl
    have hpower := hexec.trans (congrArg Host.Outcome.next (State.goPower_eq hcore hhalt hmoves))
    refine ⟨fun hsame => hpower.trans (congrArg Host.Outcome.next (if_pos hsame)),
      fun hnew hreq hplaced => hpower.trans (congrArg Host.Outcome.next ((if_neg hnew).trans (if_pos ⟨hreq, hplaced⟩))),
      fun hnew hreq => hpower.trans (congrArg Host.Outcome.next ((if_neg hnew).trans (if_neg ?_)))⟩
    rintro ⟨hlow, hplaced⟩
    rcases hreq with h0 | h3 | hfree
    · omega
    · omega
    · simp [hfree] at hplaced
  case round =>
    intro ts vs v a s
    dsimp only
    refine ⟨fun hhalt hafter => ?_, fun hhalt hafter => ?_⟩
    · exact (if_neg (by omega)).trans (congrArg Host.Outcome.next (if_pos hafter))
    · exact (if_neg (by omega)).trans (congrArg Host.Outcome.next (if_neg (by omega)))
  case trip =>
    intro s hhalt htrip hcool hvolt
    have hall : (List.range 224).all (fun r => decide ((s.tempOf r).1 ≤ 159 * (s.tempOf r).2)) = true := by
      simpa using hcool
    exact if_pos ⟨hhalt, htrip, hall, hvolt⟩
  case supply =>
    intro s
    exact ⟨rfl, s.disconnect, rfl, rfl, State.disconnect_proj State.trp (fun _ _ => rfl) (fun _ _ => rfl) (fun _ _ => rfl),
      State.disconnect_proj State.cour (fun _ _ => rfl) (fun _ _ => rfl) (fun _ _ => rfl),
      State.disconnect_proj State.sw (fun _ _ => rfl) (fun _ _ => rfl) (fun _ _ => rfl),
      State.disconnect_proj State.ord (fun _ _ => rfl) (fun _ _ => rfl) (fun _ _ => rfl),
      State.disconnect_proj State.coh (fun _ _ => rfl) (fun _ _ => rfl) (fun _ _ => rfl),
      State.disconnect_proj State.book (fun _ _ => rfl) (fun _ _ => rfl) (fun _ _ => rfl),
      State.disconnect_proj State.hst (fun _ _ => rfl) (fun _ _ => rfl) (fun _ _ => rfl),
      State.disconnect_door, State.disconnect_phase, State.disconnect_ofs⟩
  case refclk =>
    intro s hh
    have hhalt := State.halt_of_running hh
    exact if_neg (by omega)
  case refBack =>
    intro v s hhalt hvolt
    exact if_neg (by omega)
  case pll =>
    intro d s hh hlock
    refine (if_neg (by simp [hh, hlock])).trans ?_
    rw [State.clrBit_set hlock]
  case relock =>
    intro s hh href hlock
    exact if_neg (by simpa [hh, href] using hlock)

end Sys2Proof.Machine
end
section
/-!
PROOFS. Resets, the boot, updates, calibration and channel commands (R550, R553, R558, R563, R567, R568).
-/

namespace Sys2Proof.Machine

/-! ### Resets -/

section

variable {α : Type} (p : State → α) (hregs : ∀ (t : State) (m), p { t with regs := m } = p t)

include hregs

theorem State.wr_proj (s : State) (f : Fld) (x : Nat) : p (s.wr f x) = p s := hregs s _

theorem State.satAdd_proj (s : State) (f : Fld) (n : Nat) : p (s.satAdd f n) = p s := hregs s _

variable (hev : ∀ (t : State) (e), p { t with ev := e } = p t)

include hev

/-- An event that is raised changes pending bits and latches alone. -/
theorem State.raise_proj (s : State) (i : Nat) : p (s.raise i) = p s := by
  have hlatch : ∀ (t : State) k, p (t.latch k) = p t := fun t k => hev t _
  have hfold : ∀ t : State, p ((List.range 16).foldl (fun s c => if s.deliverable c i then s.latch c else s) t) = p t := fun t =>
    foldl_proj p (fun t c => by split <;> simp only [hlatch]) _ t
  have hset : ∀ (t : State) f b, p (t.setBit f b) = p t := fun t f b => hregs t _
  fun_cases State.raise s i
  · rfl
  · exact (hlatch _ _).trans ((hfold _).trans (hset ..))
  · exact (hfold _).trans (hset ..)

end

/-- R550: what a reset leaves, but for the registers that it shows. -/
def State.resetBase (s : State) (warm : Bool) : State :=
  { pending := s.pending
    regs := if warm then s.keptRegs else s.regs.filter (fun k _ => isFused k)
    store := if warm then s.store.kept else { modules := s.store.modules }
    hst := { perst := s.hst.perst, bar2Log2 := if warm then s.hst.bar2Log2 else s.door.bar2 }
    door := s.door.kept
    sent := s.sent
    free := s.free }

theorem State.deviceReset_proj {α : Type} (p : State → α) (hregs : ∀ (t : State) (m), p { t with regs := m } = p t)
    (hev : ∀ (t : State) (e), p { t with ev := e } = p t) (s : State) (warm : Bool) (cause : Nat) :
    p (s.deviceReset warm cause) = p (s.resetBase warm) := by
  have hwr := State.wr_proj p hregs
  have hraise := State.raise_proj p hregs hev
  have hsat := State.satAdd_proj p hregs
  cases warm <;> simp only [State.deviceReset, Bool.false_eq_true, if_true, if_false] <;> split_ifs <;> simp only [hwr, hraise, hsat] <;> rfl

/-! ### Image commands -/

section

variable {s : State} {op kind h : Nat}

/-- R563: the state in which the registers hold an image command. -/
def State.imgPut (s : State) (op kind : Nat) : State := (s.wr Reg.SEC_IMG_CMD_OP op).wr Reg.SEC_IMG_CMD_KIND kind

theorem State.imgPut_op (hop : op < 8) : (s.imgPut op kind).rd Reg.SEC_IMG_CMD_OP = op := by
  rw [State.imgPut, State.rd_wr_ne _ _ (by decide), State.rd_wr_self]
  exact Nat.mod_eq_of_lt hop

theorem State.imgPut_kind (hk : kind < 4) : (s.imgPut op kind).rd Reg.SEC_IMG_CMD_KIND = kind := by
  rw [State.imgPut, State.rd_wr_self]
  exact Nat.mod_eq_of_lt hk

theorem State.imgPut_busy : (s.imgPut op kind).is1 Reg.SEC_IMG_CMD_BUSY = s.is1 Reg.SEC_IMG_CMD_BUSY := by
  rw [State.imgPut, State.is1_wr_ne _ _ (by decide), State.is1_wr_ne _ _ (by decide)]

theorem State.imgPut_cueNow : (s.imgPut op kind).cueNow = s.cueNow := by
  rw [State.imgPut, State.cueNow, State.rd_wr_ne _ _ (by decide), State.rd_wr_ne _ _ (by decide), State.cueNow]

variable (hh : 16 ≤ h) (hbusy : s.is1 Reg.SEC_IMG_CMD_BUSY = false) (hk : kind < 4)

include hh hbusy hk

/-- R563: the work that a command of an image does. -/
theorem State.imgCmd_eq (hop : 1 ≤ op ∧ op ≤ 4) :
    s.imgCmd h op kind none =
      if kind = 0 then (s.imgPut op kind).wr Reg.SEC_IMG_CMD_RESULT 2
      else if op = 1 then (s.imgPut op kind).imgWrite kind
      else if op = 2 then (s.imgPut op kind).imgArm kind ((s.imgPut op kind).rd Reg.SEC_IMG_CMD_CUE)
      else if op = 3 then (s.imgPut op kind).imgCommit kind
      else (s.imgPut op kind).imgSvn kind := by
  rw [State.imgCmd, if_neg (Nat.not_lt.mpr hh)]
  change (s.imgPut op kind).goImg h = _
  rw [State.goImg, State.imgPut_op (by omega), State.imgPut_kind hk, State.imgPut_busy, hbusy, if_neg (by omega), if_neg Bool.false_ne_true]
  by_cases h4 : op = 4
  · rw [if_pos h4]
  · have hop' : op = 1 ∨ op = 2 ∨ op = 3 := by omega
    rcases hop' with rfl | rfl | rfl <;> simp

/-- R567: the state in which the registers hold a command that arms an image. -/
def State.armPut (s : State) (kind cue : Nat) : State := (s.imgPut 2 kind).wr Reg.SEC_IMG_CMD_CUE cue

omit hh hbusy hk in
theorem State.armPut_cueNow {cue : Nat} : (s.armPut kind cue).cueNow = s.cueNow := by
  rw [State.armPut, State.cueNow, State.rd_wr_ne _ _ (by decide), ← State.cueNow, State.imgPut_cueNow]

theorem State.imgCmd_arm {cue : Nat} (hkind : kind ≠ 0) (hcue : cue < 2 ^ 48) :
    s.imgCmd h 2 kind (some cue) = (s.armPut kind cue).imgArm kind cue := by
  rw [State.imgCmd, if_neg (Nat.not_lt.mpr hh)]
  change (s.armPut kind cue).goImg h = _
  have hrd : ∀ f : Fld, Reg.SEC_IMG_CMD_CUE.key ≠ f.key → (s.armPut kind cue).rd f = (s.imgPut 2 kind).rd f := fun f hf => State.rd_wr_ne _ _ hf
  have hbusy' : (s.armPut kind cue).is1 Reg.SEC_IMG_CMD_BUSY = false := by
    rw [State.armPut, State.is1_wr_ne _ _ (by decide), State.imgPut_busy, hbusy]
  have hcue' : (s.armPut kind cue).rd Reg.SEC_IMG_CMD_CUE = cue := by
    rw [State.armPut, State.rd_wr_self]
    exact Nat.mod_eq_of_lt hcue
  rw [State.goImg, hrd _ (by decide), hrd _ (by decide), State.imgPut_op (by decide), State.imgPut_kind hk, hbusy', hcue', if_neg (by omega),
    if_neg Bool.false_ne_true, if_neg hkind, if_neg (by decide), if_pos rfl]

end

section

variable {s : State} {kind cue : Nat}

theorem State.imgCommit_bare (h : s.door.trial.contains kind = false) : s.imgCommit kind = s.wr Reg.SEC_IMG_CMD_RESULT 5 :=
  if_pos (by rw [h]; rfl)

theorem State.imgCommit_trial (h : s.door.trial.contains kind = true) :
    ∃ r : State, s.imgCommit kind = r.wr Reg.SEC_IMG_CMD_RESULT 1 ∧ r.door.trial = s.door.trial.erase kind ∧ r.store = s.store :=
  ⟨_, if_neg (by rw [h]; decide), rfl, rfl⟩

theorem State.imgSvn_trial (h : s.door.trial.contains kind = true) : s.imgSvn kind = s.wr Reg.SEC_IMG_CMD_RESULT 5 := if_pos h

theorem State.imgSvn_settled (h : s.door.trial.contains kind = false) :
    s.imgSvn kind =
      let q := s.svnOf kind (s.slotOfKind kind)
      let t := q.2.wr Reg.SEC_IMG_CMD_RESULT 1
      if t.rd (fusedSvn kind) < q.1 then (t.wr (fusedSvn kind) q.1).raise 149 else t :=
  if_neg (by rw [h]; decide)

theorem State.imgArm_unwritten (h : s.door.wrote.contains kind = false) : s.imgArm kind cue = s.wr Reg.SEC_IMG_CMD_RESULT 5 :=
  if_pos (.inr (.inl (by rw [h]; rfl)))

theorem State.imgArm_armed (hidle : s.door.arm = none) (hwrote : s.door.wrote.contains kind = true) (hcue : s.cueNow + 2 ≤ cue) :
    s.imgArm kind cue = ((s.onDoor (fun d => { d with arm := some { kind := kind, cue := cue, die := if kind = 3 then s.door.dieNext else 0 } })).wr
      Reg.SEC_IMG_CMD_BUSY 1).wr Reg.SEC_IMG_CMD_RESULT 0 := by
  have hok : cue ≠ 0 ∧ (s.cueNow + 2 ≤ cue ∨ (cue = s.cueNow + 1 ∧ s.phase ≠ 2)) := ⟨by omega, .inl hcue⟩
  refine if_neg ?_
  rintro (harm | hnew | hbar)
  · simp [hidle] at harm
  · rw [hwrote] at hnew
    exact Bool.false_ne_true hnew
  · exact hbar hok

end

/-! ### Calibration and channel commands -/

section

variable {s : State} {h p l op ch done : Nat}

/-- R558: the state in which the registers hold a calibration. -/
def State.calPut (s : State) (p l : Nat) : State := (s.wr Reg.SEC_CAL_CMD_PORT p).wr Reg.SEC_CAL_CMD_LANES l

theorem State.goCal_calPut (hh : 16 ≤ h) (hbusy : s.is1 Reg.SEC_CAL_CMD_BUSY = false) (hp : p < 18) (hl : l < 16) :
    (s.calPut p l).goCal h =
      if l = 0 then (s.calPut p l).wr Reg.SEC_CAL_CMD_RESULT 1
      else if s.portState p ≠ 4 then (s.calPut p l).wr Reg.SEC_CAL_CMD_RESULT 5
      else ((s.calPut p l).wr Reg.SEC_CAL_CMD_BUSY 1).wr Reg.SEC_CAL_CMD_RESULT 0 := by
  have hport : (s.calPut p l).rd Reg.SEC_CAL_CMD_PORT = p := by
    rw [State.calPut, State.rd_wr_ne _ _ (by decide), State.rd_wr_self]
    exact Nat.mod_eq_of_lt (by omega : p < 32)
  have hlanes : (s.calPut p l).rd Reg.SEC_CAL_CMD_LANES = l := by
    rw [State.calPut, State.rd_wr_self]
    exact Nat.mod_eq_of_lt hl
  have hbusy' : (s.calPut p l).is1 Reg.SEC_CAL_CMD_BUSY = false := by
    rw [State.calPut, State.is1_wr_ne _ _ (by decide), State.is1_wr_ne _ _ (by decide), hbusy]
  have hfar : ∀ f : Fld, 0x1e00028 * 64 ≤ f.key → f.key ≠ (Reg.EFH_PORT_STAT_STATE p).key := by
    intro f hf
    simp only [Fld.key, Reg.EFH_PORT_STAT_STATE] at hf ⊢
    omega
  have hstate : (s.calPut p l).portState p = s.portState p := by
    rw [State.calPut, State.portState, State.rd_wr_ne _ _ (hfar _ (by decide)), State.rd_wr_ne _ _ (hfar _ (by decide)), ← State.portState]
  rw [State.goCal, hbusy', if_neg (by simp [hh]), hport, hlanes, hstate]

/-- R568: the state in which the registers hold a channel command. -/
def State.wcPut (s : State) (op ch : Nat) : State := (s.wr Reg.SEC_WC_CMD_OP op).wr Reg.SEC_WC_CMD_CHANNEL ch

theorem State.wcPut_chState (c : Nat) : (s.wcPut op ch).chState c = s.chState c := by
  rw [State.wcPut, State.chState, State.rd_wr_ne _ _ (chField_key_ne (by decide)).symm,
    State.rd_wr_ne _ _ (chField_key_ne (by decide)).symm, ← State.chState]

theorem State.wcCmd_eq {ok : Bool} (hh : 16 ≤ h) (hop : op < 8) (hch : ch < 32) :
    s.wcCmd h op ch ok done =
      if op = 1 then (s.wcPut op ch).wcDrain ch done
      else if op = 2 then (s.wcPut op ch).wcPowerOff ch
      else if op = 3 then (s.wcPut op ch).wcRetrain ch ok
      else s.wcPut op ch := by
  have hrdOp : (s.wcPut op ch).rd Reg.SEC_WC_CMD_OP = op := by
    rw [State.wcPut, State.rd_wr_ne _ _ (by decide), State.rd_wr_self]
    exact Nat.mod_eq_of_lt hop
  have hrdCh : (s.wcPut op ch).rd Reg.SEC_WC_CMD_CHANNEL = ch := by
    rw [State.wcPut, State.rd_wr_self]
    exact Nat.mod_eq_of_lt hch
  rw [State.wcCmd, if_neg (Nat.not_lt.mpr hh)]
  change (s.wcPut op ch).goWc h ok done = _
  rw [State.goWc, hrdOp, hrdCh, if_neg (Nat.not_lt.mpr hh)]

theorem State.wcDrain_quiet (h : ∀ c < 32, c % 2 = ch % 2 → s.chState c = 0) :
    s.wcDrain ch done = ((s.channelFailed ch 3 done).wr Reg.SEC_WC_CMD_RESULT 1).raise 151 := by
  refine if_neg ?_
  simp only [List.any_eq_true, List.mem_range, Bool.and_eq_true, beq_iff_eq, bne_iff_ne, not_exists, not_and, not_not]
  exact h

end

theorem State.bootKind_sound (s : State) (kind : Nat) : s.bootKind 0 kind = (s, false) := by
  have hgood : ∀ b, bitOf 0 b = false := bitOf_zero
  simp only [State.bootKind, hgood, Bool.not_false, if_true]

/-- Settles O55. -/
theorem resetAndBootResults : Obligations.ResetAndBootResults := by
  refine ⟨?cold, ?reset, ?boot, ?ready, ?image, ?cal, ?calDone, ?channel⟩
  case cold =>
    intro s
    have hkept : ∀ {α : Type} (p : State → α), (∀ (t : State) (m), p { t with regs := m } = p t) →
        (∀ (t : State) (e), p { t with ev := e } = p t) → p (s.deviceReset false 0) = p (s.resetBase false) :=
      fun p hregs hev => State.deviceReset_proj p hregs hev s false 0
    refine ⟨_, rfl, hkept State.pending (fun _ _ => rfl) (fun _ _ => rfl), hkept State.trp (fun _ _ => rfl) (fun _ _ => rfl),
      hkept State.store (fun _ _ => rfl) (fun _ _ => rfl), hkept State.book (fun _ _ => rfl) (fun _ _ => rfl),
      hkept State.cour (fun _ _ => rfl) (fun _ _ => rfl), hkept State.sw (fun _ _ => rfl) (fun _ _ => rfl),
      hkept State.ord (fun _ _ => rfl) (fun _ _ => rfl), hkept State.coh (fun _ _ => rfl) (fun _ _ => rfl),
      hkept State.res (fun _ _ => rfl) (fun _ _ => rfl), hkept State.staged (fun _ _ => rfl) (fun _ _ => rfl),
      hkept State.proc (fun _ _ => rfl) (fun _ _ => rfl), hkept (fun t => t.door.halt) (fun _ _ => rfl) (fun _ _ => rfl), rfl⟩
  case reset =>
    intro h s hcore hhalt
    have hgo : ¬(h.val < 16 ∨ s.door.halt = 1 ∨ 3 ≤ s.door.halt) := by omega
    exact ⟨congrArg Host.Outcome.next (if_neg hgo), congrArg Host.Outcome.next (if_neg hgo), fun c hlo hhi => if_pos ⟨hlo, hhi, by omega⟩,
      State.deviceReset_proj State.store (fun _ _ => rfl) (fun _ _ => rfl) s true 6,
      State.deviceReset_proj State.trp (fun _ _ => rfl) (fun _ _ => rfl) s true 6,
      State.deviceReset_proj State.book (fun _ _ => rfl) (fun _ _ => rfl) s true 6,
      State.deviceReset_proj State.store (fun _ _ => rfl) (fun _ _ => rfl) s false 1,
      State.deviceReset_proj State.pending (fun _ _ => rfl) (fun _ _ => rfl) s false 1⟩
  case boot =>
    intro s hh hboot
    change execBootDone 0 s = _
    have hzero : BitVec.toNat (0 : BitVec 6) = 0 := rfl
    rw [execBootDone, if_neg (by simp [hh, hboot])]
    simp only [hzero, List.foldl_cons, List.foldl_nil, State.bootKind_sound, Bool.or_false, Bool.false_eq_true, if_false]
  case ready =>
    intro s hh hboot hrecovery hstore
    exact if_neg (by simp [hh, hboot, hrecovery, hstore])
  case image =>
    intro h kind s hh hcore hbusy
    have hnot : ¬(s.halted = true) := by simp [hh]
    have hwrite : exec (.imgWrite h kind) s = _ :=
      (if_neg hnot).trans (congrArg Host.Outcome.next (State.imgCmd_eq hcore hbusy kind.isLt ⟨by decide, by decide⟩))
    have hcommit : exec (.imgCommit h kind) s = _ :=
      (if_neg hnot).trans (congrArg Host.Outcome.next (State.imgCmd_eq hcore hbusy kind.isLt ⟨by decide, by decide⟩))
    have hsvn : exec (.imgSvn h kind) s = _ :=
      (if_neg hnot).trans (congrArg Host.Outcome.next (State.imgCmd_eq hcore hbusy kind.isLt ⟨by decide, by decide⟩))
    have htrial' : ∀ op {b : Bool}, s.door.trial.contains kind.val = b → (s.imgPut op kind.val).door.trial.contains kind.val = b := fun _ _ h => h
    refine ⟨fun hkind => ?_, fun hkind => ⟨?_, fun htrial => ?_, fun htrial => ?_, fun htrial => ?_, fun htrial => ?_, fun cue =>
      ⟨fun hidle hwrote hcue => ?_, fun hwrote => ?_⟩⟩⟩
    · rw [hwrite, if_pos hkind]
      rfl
    · rw [hwrite, if_neg hkind, if_pos rfl]
      rfl
    · exact (hcommit.trans (congrArg Host.Outcome.next (if_neg hkind))).trans
        (congrArg Host.Outcome.next (State.imgCommit_bare (htrial' 3 htrial)))
    · obtain ⟨r, hr, htr, hst⟩ := State.imgCommit_trial (htrial' 3 htrial)
      exact ⟨r, (hcommit.trans (congrArg Host.Outcome.next (if_neg hkind))).trans (congrArg Host.Outcome.next hr), htr, hst⟩
    · exact (hsvn.trans (congrArg Host.Outcome.next (if_neg hkind))).trans (congrArg Host.Outcome.next (State.imgSvn_trial (htrial' 4 htrial)))
    · exact (hsvn.trans (congrArg Host.Outcome.next (if_neg hkind))).trans
        (congrArg Host.Outcome.next (State.imgSvn_settled (htrial' 4 htrial)))
    · refine (if_neg hnot).trans (congrArg Host.Outcome.next ((State.imgCmd_arm hcore hbusy kind.isLt hkind cue.isLt).trans ?_))
      exact State.imgArm_armed hidle hwrote (by rw [State.armPut_cueNow]; exact hcue)
    · refine (if_neg hnot).trans (congrArg Host.Outcome.next ((State.imgCmd_arm hcore hbusy kind.isLt hkind cue.isLt).trans ?_))
      exact State.imgArm_unwritten hwrote
  case cal =>
    intro h p l s hh hcore hbusy
    have hzero : l = 0 ↔ l.toNat = 0 := ⟨fun h => by simp [h], fun h => BitVec.eq_of_toNat_eq h⟩
    have hexec : exec (.secCalGo h p l) s = _ := (if_neg (by simp [hh])).trans ((if_neg (Nat.not_lt.mpr hcore)).trans
      (congrArg Host.Outcome.next (State.goCal_calPut hcore hbusy p.isLt l.isLt)))
    refine ⟨fun hl => ?_, fun hl hport => ?_, fun hl hport => ?_⟩
    · exact hexec.trans (congrArg Host.Outcome.next (if_pos (hzero.mp hl)))
    · exact hexec.trans (congrArg Host.Outcome.next ((if_neg (mt hzero.mpr hl)).trans (if_pos hport)))
    · exact hexec.trans (congrArg Host.Outcome.next ((if_neg (mt hzero.mpr hl)).trans (if_neg (not_not_intro hport))))
  case calDone =>
    intro s hh hbusy
    exact (if_neg (by simp [hh])).trans (if_neg (by simp [hbusy]))
  case channel =>
    intro h ch s hh hcore
    have hnot : ¬(s.halted = true) := by simp [hh]
    refine ⟨fun done hquiet => ?_, fun hst => ⟨?_, ?_, ?_⟩, fun hst => ?_⟩
    · refine (if_neg hnot).trans (congrArg Host.Outcome.next ((State.wcCmd_eq hcore (by decide) ch.isLt).trans ((if_pos rfl).trans ?_)))
      exact State.wcDrain_quiet (fun c hc hpar => (State.wcPut_chState c).trans (hquiet c hc hpar))
    · refine (if_neg hnot).trans (congrArg Host.Outcome.next ((State.wcCmd_eq hcore (by decide) ch.isLt).trans
        ((if_neg (by decide)).trans ((if_pos rfl).trans ?_))))
      exact if_neg (not_not_intro ((State.wcPut_chState _).trans hst))
    · refine (if_neg hnot).trans (congrArg Host.Outcome.next ((State.wcCmd_eq hcore (by decide) ch.isLt).trans
        ((if_neg (by decide)).trans ((if_neg (by decide)).trans ((if_pos rfl).trans ?_)))))
      exact (if_neg (not_not_intro ((State.wcPut_chState _).trans hst))).trans (if_pos rfl)
    · refine (if_neg hnot).trans (congrArg Host.Outcome.next ((State.wcCmd_eq hcore (by decide) ch.isLt).trans
        ((if_neg (by decide)).trans ((if_neg (by decide)).trans ((if_pos rfl).trans ?_)))))
      exact (if_neg (not_not_intro ((State.wcPut_chState _).trans hst))).trans (if_neg Bool.false_ne_true)
    · refine (if_neg hnot).trans (congrArg Host.Outcome.next ((State.wcCmd_eq hcore (by decide) ch.isLt).trans
        ((if_neg (by decide)).trans ((if_pos rfl).trans ?_))))
      exact if_pos (fun h => hst ((State.wcPut_chState _).symm.trans h))

end Sys2Proof.Machine
end
section
/-!
PROOFS. SPDM requests and sessions (R562).
-/

namespace Sys2Proof.Machine

section

variable {s : State} {via id : Nat} {name : String} {f : Door → Session → Door} {y : Session}

theorem State.inSession_off (hoff : s.spdmUp = false) : s.inSession via id name f = .next s := by
  simp [State.inSession, hoff]

theorem State.inSession_none (hup : s.spdmUp = true) (hid : s.session via id = none) :
    s.inSession via id name f = s.spdm via "SPDM_ERROR" [2] [] := by
  simp [State.inSession, hup, hid]

theorem State.inSession_down (hup : s.spdmUp = true) (hid : s.session via id = some y) (hy : y.up = false) :
    s.inSession via id name f = s.spdm via "SPDM_ERROR" [2] [] := by
  simp [State.inSession, hup, hid, hy]

theorem State.inSession_up (hup : s.spdmUp = true) (hid : s.session via id = some y) (hy : y.up = true) :
    s.inSession via id name f = (s.onDoor (fun d => f d y)).spdm via name [id] [] := by
  simp [State.inSession, hup, hid, hy]

theorem State.signed_agreed {args : List Nat} {bs : List Byte} (h : s.door.algs.contains via = true) :
    s.signed via name args bs = ({ s with free := s.free + 1 } : State).spdm via name (args ++ [Config.freeValue s.free % 2 ^ (8 * 49856)]) bs :=
  if_neg (by rw [h]; decide)

theorem State.signed_refused {args : List Nat} {bs : List Byte} (h : s.door.algs.contains via = false) :
    s.signed via name args bs = s.spdm via "SPDM_ERROR" [7] [] :=
  if_pos (by rw [h]; rfl)

end

/-! ### The requests -/

section

variable {s : State} {via : Fin 10} (hup : s.spdmUp = true)

include hup

theorem exec_getMeasurements_one {i : Byte} (hlo : 1 ≤ i.toNat) (hhi : i.toNat < 8) :
    exec (.getMeasurements via i false) s = s.spdm via.val "SPDM_MEASUREMENTS" [i.toNat, 1] (toLe 64 (s.meas (i.toNat - 1))) := by
  have h0 : i.toNat ≠ 0 := by omega
  have h255 : i.toNat ≠ 255 := by omega
  have hfew : ¬(8 ≤ i.toNat ∧ i.toNat ≠ 255) := by omega
  change execGetMeasurements via i false s = _
  rw [execGetMeasurements, if_neg (by simp [hup])]
  simp only [h0, h255, hfew, if_false, Bool.false_eq_true, List.flatMap_cons, List.flatMap_nil, List.append_nil, List.length_cons,
    List.length_nil]

theorem exec_getMeasurements_all : exec (.getMeasurements via 255 false) s =
    s.spdm via.val "SPDM_MEASUREMENTS" [255, 7] ((List.range 7).flatMap (fun k => toLe 64 (s.meas k))) := by
  have hall : BitVec.toNat (255 : Byte) = 255 := rfl
  change execGetMeasurements via 255 false s = _
  rw [execGetMeasurements, if_neg (by simp [hup])]
  simp only [hall, if_true, Bool.false_eq_true, if_false, List.length_range, ne_eq, not_true_eq_false, and_false, OfNat.ofNat_ne_zero]

/-- R562: the sessions once a key exchange has opened one. -/
def withSession (xs : List Session) (via id : Nat) : List Session :=
  xs.filter (fun (x : Session) => x.via != via || x.id != id) ++ [({ via := via, id := id } : Session)]

/-- R562: the state in which a key exchange has opened a session. -/
def State.opened (s : State) (via : Nat) : State :=
  { s with free := s.free + 2 }.onDoor (fun d => { d with sessions := withSession d.sessions via (Config.freeValue s.free % 2 ^ 32) })

theorem exec_keyExchange_agreed {x : BitVec 768} (h : s.door.algs.contains via.val = true) :
    exec (.keyExchange via x) s = ({ s.opened via.val with free := s.free + 3 } : State).spdm via.val "SPDM_KEY_EXCHANGE_RSP"
      [Config.freeValue s.free % 2 ^ 32, Config.freeValue (s.free + 1) % 2 ^ 768, x.toNat,
        Config.freeValue (s.free + 2) % 2 ^ (8 * 49856)] [] := by
  change execKeyExchange via x s = _
  rw [execKeyExchange, if_neg (by simp [hup]), if_neg (by rw [h]; decide)]
  exact State.signed_agreed (show (s.opened via.val).door.algs.contains via.val = true from h)

theorem exec_finish_of {id : Lane} {good : Bool} {y : Session} (hid : s.session via.val id.toNat = some y) (hy : y.up = false) :
    exec (.finish via id good) s =
      if good = true then (s.onDoor (fun d => { d with sessions := d.sessions.map (fun z => if z = y then { y with up := true } else z) })).spdm
        via.val "SPDM_FINISH_RSP" [id.toNat] []
      else (s.onDoor (fun d => { d with sessions := d.sessions.erase y })).spdm via.val "SPDM_ERROR" [6] [] := by
  change execFinish via id good s = _
  rw [execFinish]
  cases good <;> simp [hup, hid, hy]

end

/-- Settles O56. -/
theorem securityProtocolResults : Obligations.SecurityProtocolResults := by
  refine ⟨?off, ?on⟩
  case off =>
    intro via s hoff
    have hnot : ¬(s.spdmUp = true) := by simp [hoff]
    have hnone : (!s.spdmUp) = true := by simp [hoff]
    refine ⟨if_neg hnot, if_neg hnot, fun b => if_pos hnone, if_neg hnot, fun a b c => if_pos hnone, fun a n => if_pos hnone,
      fun i b => if_pos hnone, fun x => if_pos hnone, fun i b => ?_, fun i => State.inSession_off hoff, fun i => State.inSession_off hoff,
      fun i => State.inSession_off hoff⟩
    change execFinish via i b s = _
    simp [execFinish, hoff]
  case on =>
    intro via s hup
    have hgo : ¬((!s.spdmUp) = true) := by simp [hup]
    refine ⟨if_pos hup, if_pos hup, fun b => if_neg hgo, if_pos hup, fun slot o n => ⟨fun hslot => ?_, fun hslot hin => ?_⟩,
      fun slot n hslot => ⟨fun hagreed => ?_, fun hagreed => ?_⟩, fun i hlo hhi => exec_getMeasurements_one hup hlo hhi,
      exec_getMeasurements_all hup, fun x hagreed => exec_keyExchange_agreed hup hagreed, fun x hagreed => ?_,
      fun id y hid => ⟨fun hy => ⟨?_, ?_, ?_⟩, fun hy => ⟨?_, ?_, ?_⟩⟩, fun id hid => State.inSession_none hup hid⟩
    · exact (if_neg hgo).trans (if_pos (.inl hslot))
    · exact (if_neg hgo).trans (if_neg (by rw [hslot]; omega))
    · exact (if_neg hgo).trans ((if_neg (not_not_intro hslot)).trans (State.signed_agreed hagreed))
    · exact (if_neg hgo).trans ((if_neg (not_not_intro hslot)).trans (State.signed_refused hagreed))
    · exact (if_neg hgo).trans (if_pos (by rw [hagreed]; rfl))
    · exact (exec_finish_of hup hid hy).trans (if_pos rfl)
    · exact (exec_finish_of hup hid hy).trans (if_neg Bool.false_ne_true)
    · exact State.inSession_down hup hid hy
    · exact State.inSession_up hup hid hy
    · exact State.inSession_up hup hid hy
    · exact State.inSession_up hup hid hy

end Sys2Proof.Machine
end
section
/-!
PROOFS. Register writes, the sideband, staged frames, the test port and the edge ports (R7, R228, R485, R487, R511, R583, R598, R599).
-/

namespace Sys2Proof.Machine

/-! ### The control space -/

section

variable {s : State} {h x v : Nat}

theorem State.pairRefused_core (hh : 16 ≤ h) : s.pairRefused h x = false := by
  simp [State.pairRefused, Nat.not_lt.mpr hh]

theorem State.ctrlWrite_none {bmc : Bool} {mask : Nat} (hno : h < 16 ∨ s.answers bmc (x / 8 * 8) = false) :
    s.ctrlWrite h bmc x v mask = s :=
  if_pos (hno.imp_right (by simp))

theorem State.ctrlWrite_reg (hh : 16 ≤ h) (hans : s.answers false (x / 8 * 8) = true) (hx : x < 0x2000000)
    (hbook : ¬(0x1F00000 ≤ x / 8 * 8 ∧ x / 8 * 8 < 0x1F20000)) (hraise : ¬(0x47000 ≤ x / 8 * 8 ∧ x / 8 * 8 < 0x48000)) (mask : Nat) :
    s.ctrlWrite h false x v mask = (s.touch (x / 8 * 8)).writeReg h ⟨x / 8 * 8, v, mask⟩ := by
  rw [State.ctrlWrite]
  dsimp only
  rw [if_neg (by rw [hans]; simp [hh]), if_pos (by omega), if_neg (by omega)]

/-- R228: a frame that no condition guards takes the data that a core writes. -/
theorem State.bookWrite_core {f b : Nat} {bs : List Byte} (hh : 16 ≤ h) (hcond : s.is1 (Reg.PBK_FRAME_STAGE_COND f) = false) :
    s.bookWrite h f b bs = { s with book := { s.book with staged := Memory.store s.book.staged (1024 * f + b) bs } }.wr
      (Reg.PBK_FRAME_STAGE_STATE f) 1 := by
  rw [State.bookWrite]
  dsimp only
  rw [State.pairRefused_core hh, hcond, if_neg Bool.false_ne_true, if_neg Bool.false_ne_true]

theorem State.frameWrite_done {f o tag : Nat} (hh : 16 ≤ h) (hcond : s.is1 (Reg.PBK_FRAME_STAGE_COND f) = false) :
    s.frameWrite h f o false true tag = (((s.wr (Reg.PBK_FRAME_STAGE_OWNER f) o).wr (Reg.PBK_FRAME_STAGE_COND f) 0).wr
      (Reg.PBK_FRAME_STAGE_TAG f) tag).wr (Reg.PBK_FRAME_STAGE_STATE f) 2 := by
  rw [State.frameWrite]
  dsimp only
  rw [State.pairRefused_core hh, hcond, if_neg Bool.false_ne_true, if_neg (by decide), if_pos hh, if_pos rfl]
  rfl

end

/-! ### The test port -/

section

variable {s : State} {code : Nat}

theorem State.loadTap_on (h : s.door.halt ≠ 3) : s.loadTap code = s.onDoor (fun d => { d with jtag := code }) := if_neg h

theorem State.stopTap_on (h : s.door.halt ≠ 3) : s.stopTap code =
    { s.goRest with store := { modules := s.store.modules } }.onDoor (fun d => { d with halt := 4, trip := false, jtag := code }) := if_neg h

theorem State.stopTap_proj {α : Type} (p : State → α) (hregs : ∀ (t : State) (m), p { t with regs := m } = p t)
    (hstore : ∀ (t : State) (m), p { t with store := m } = p t) (hdoor : ∀ (t : State) (d), p { t with door := d } = p t)
    (h : s.door.halt ≠ 3) : p (s.stopTap code) = p s.restLost := by
  rw [State.stopTap_on h, State.onDoor, hdoor, hstore, State.goRest_proj p hregs hdoor]

theorem State.stopTap_shows (h : s.door.halt ≠ 3) :
    (s.stopTap code).door.halt = 4 ∧ (s.stopTap code).door.jtag = code ∧ (s.stopTap code).store = { modules := s.store.modules } := by
  have hset : ∀ (t : State) m (f : Door → Door), (State.onDoor { t with store := m } f).door = f t.door ∧
      (State.onDoor { t with store := m } f).store = m := fun _ _ _ => ⟨rfl, rfl⟩
  obtain ⟨hdoor, hstore⟩ := hset s.goRest { modules := s.store.modules } (fun d => { d with halt := 4, trip := false, jtag := code })
  rw [State.stopTap_on h, hdoor, hstore]
  exact ⟨rfl, rfl, rfl⟩

end

/-! ### Edge ports -/

theorem State.edgeState_wr_half {s : State} {g x : Nat} : (s.wr (halfOf g) x).edgeState g = s.edgeState g := by
  refine State.rd_wr_ne _ _ ?_
  simp only [halfOf]
  split <;> simp only [Fld.key, Reg.EDG_PORT_HALF0, Reg.EDG_PORT_HALF1, Reg.COH_AGENT_STATE] <;> omega

theorem State.edgeEnable_true {s : State} {k : Nat} : s.edgeEnable k true = s.wr (Reg.EDG_PORT_EN k) 1 := rfl

theorem State.edgeEnable_false {s : State} {k : Nat} : s.edgeEnable k false =
    (((((s.wr (Reg.EDG_PORT_EN k) 0).edgeLost (2 * k)).edgeLost (2 * k + 1)).wr (Reg.EDG_PORT_HALF0 k) 0).wr (Reg.EDG_PORT_HALF1 k) 0) := rfl

/-- Settles O57. -/
theorem registerAndTestPortResults : Obligations.RegisterAndTestPortResults := by
  refine ⟨?fields, ?bar2, ?mctp, ?data, ?frame, ?closed, ?word, ?tap, ?tapReset, ?edgeUp, ?edgeEn⟩
  case fields =>
    intro s f g x
    exact ⟨State.rd_wr_self .., fun hg => State.rd_wr_ne _ _ (Ne.symm hg)⟩
  case bar2 =>
    intro h v s hh hcore
    have hnot : ¬(s.halted = true) := by simp [hh]
    exact ⟨fun hlegal => (if_neg hnot).trans (congrArg Host.Outcome.next ((if_neg (Nat.not_lt.mpr hcore)).trans (if_pos hlegal))),
      fun hbad => (if_neg hnot).trans (congrArg Host.Outcome.next ((if_neg (Nat.not_lt.mpr hcore)).trans (if_neg (by simp [hbad]))))⟩
  case mctp =>
    intro w s hh
    exact ⟨if_neg (fun h => by simp [hh] at h), fun v => if_neg (fun h => by simp [hh] at h)⟩
  case data =>
    intro h f w x s hh hcore hcond
    exact (if_neg (by simp [hh])).trans (congrArg Host.Outcome.next (State.bookWrite_core hcore hcond))
  case frame =>
    intro h f o tag s hh hcore hcond
    exact (if_neg (by simp [hh])).trans (congrArg Host.Outcome.next (State.frameWrite_done hcore hcond))
  case closed =>
    intro h off x s hno
    change execRegisterWrite h off x s = _
    rw [execRegisterWrite]
    have hround : off.val / 8 * 8 / 8 * 8 = off.val / 8 * 8 := by omega
    rcases hno with hh | hno
    · rw [if_pos hh]
    · rw [State.ctrlWrite_none (by rw [hround]; exact hno), ite_self]
  case word =>
    intro h off x s hh hcore hans hbook hraise
    have hround : off.val / 8 * 8 / 8 * 8 = off.val / 8 * 8 := by omega
    change execRegisterWrite h off x s = _
    rw [execRegisterWrite, if_neg (by simp [hh]),
      State.ctrlWrite_reg hcore (by rw [hround]; exact hans) (by omega) (by rw [hround]; exact hbook) (by rw [hround]; exact hraise), hround]
  case tap =>
    intro s hh
    have hhalt := State.halt_of_running hh
    have hin : s.door.halt ≠ 3 := by omega
    refine ⟨congrArg Host.Outcome.next (State.loadTap_on hin), congrArg Host.Outcome.next (State.loadTap_on hin),
      fun cs => ?_, ?_, fun p hp => ?_⟩
    · refine congrArg Host.Outcome.next ((if_neg hin).trans ?_)
      rw [State.loadTap_on hin]
      rfl
    · exact congrArg Host.Outcome.next ((if_neg (by omega)).trans (State.loadTap_on hin))
    · have hexec : exec p.1 s = .next (s.stopTap p.2) := by
        simp only [List.mem_cons, List.not_mem_nil, or_false] at hp
        rcases hp with rfl | rfl | rfl | rfl | rfl <;> rfl
      have ⟨h4, hcode, hstore⟩ : (s.stopTap p.2).door.halt = 4 ∧ (s.stopTap p.2).door.jtag = p.2 ∧
          (s.stopTap p.2).store = { modules := s.store.modules } := State.stopTap_shows hin
      exact ⟨_, hexec, h4, hcode, hstore, State.stopTap_proj State.trp (fun _ _ => rfl) (fun _ _ => rfl) (fun _ _ => rfl) hin,
        State.stopTap_proj State.book (fun _ _ => rfl) (fun _ _ => rfl) (fun _ _ => rfl) hin,
        State.stopTap_proj State.hst (fun _ _ => rfl) (fun _ _ => rfl) (fun _ _ => rfl) hin⟩
  case tapReset =>
    intro s hhalt
    have hzero : (s.deviceReset false 0).door.halt = 0 :=
      State.deviceReset_proj (fun t => t.door.halt) (fun _ _ => rfl) (fun _ _ => rfl) s false 0
    have hload : (s.deviceReset false 0).loadTap 0xFE = (s.deviceReset false 0).onDoor (fun d => { d with jtag := 0xFE }) :=
      State.loadTap_on (by omega)
    refine ⟨_, congrArg Host.Outcome.next ((if_pos hhalt).trans hload), hzero, ?_, ?_, ?_⟩
    · exact State.deviceReset_proj State.store (fun _ _ => rfl) (fun _ _ => rfl) s false 0
    · exact State.deviceReset_proj State.trp (fun _ _ => rfl) (fun _ _ => rfl) s false 0
    · exact State.deviceReset_proj State.pending (fun _ _ => rfl) (fun _ _ => rfl) s false 0
  case edgeUp =>
    intro g rate w s hh hen hrate hfits
    have hfit : (if s.is1 (Reg.EDG_PORT_BIF (g.val / 2)) then w.val == 1 || w.val == 2 else g.val % 2 == 0 && decide (2 ≤ w.val)) = true := by
      cases hbif : s.is1 (Reg.EDG_PORT_BIF (g.val / 2)) <;> simpa [hbif] using hfits
    change execEdgeLinkUp g rate w s = _
    rw [execEdgeLinkUp]
    dsimp only
    rw [if_neg (by rw [hfit]; simp [hh, hen, hrate]), State.edgeState_wr_half]
  case edgeEn =>
    intro h k s hh hcore
    have hnot : ¬(s.halted = true) := by simp [hh]
    exact ⟨(if_neg hnot).trans (congrArg Host.Outcome.next ((if_neg (Nat.not_lt.mpr hcore)).trans State.edgeEnable_true)),
      (if_neg hnot).trans (congrArg Host.Outcome.next ((if_neg (Nat.not_lt.mpr hcore)).trans State.edgeEnable_false))⟩

end Sys2Proof.Machine
end
